-- ==== Sys2Proof/Word.lean ====
section
/-! DEFINITION. The word types of Ivxon and their plainest arithmetic: registers and program counters are 64 bits
(R107, R65), instruction words 32 bits (R45), vectors 256 bytes (R114). -/

namespace Sys2Proof

/-- A scalar register, address or program counter (R107). -/
abbrev Word := BitVec 64

/-- An instruction word (R45). -/
abbrev IWord := BitVec 32

/-- A byte of memory (R185). -/
abbrev Byte := BitVec 8

/-- A vector: 64 lanes of 32 bits, byte 0 in bits 7..0 (R114). -/
abbrev Vec := BitVec 2048

/-- The word whose unsigned value is `n` modulo 2^64, `wrap(n, 64)` of R8. -/
abbrev word (n : Nat) : Word := BitVec.ofNat 64 n

/-- `wrap(v, 64)` of R8 for an exact integer. -/
abbrev wordOfInt (v : Int) : Word := BitVec.ofInt 64 v

/-- The word that is 1 when `b` holds and 0 otherwise. -/
def wordOfBool (b : Bool) : Word := if b then 1 else 0

end Sys2Proof
end

