-- ==== Sys2Proof/Syntax.lean ====
section
/-! DEFINITION. The syntax of the machine's steps: one constructor of `Instr` per row of the opcode table. The first
188 are instruction words, their operands the fields of the word (R50-R54); the others are the events of the table, their
operands what the environment supplies. -/

namespace Sys2Proof

/-- The parties of a core, in the numbering of TSTAT (R349). -/
inductive Party where
  | w0 | w1 | w2 | w3 | m | v | x | y | c | s
  deriving DecidableEq, Repr, Inhabited

/-- A party: its global core number (R12), its residency slot (R258) and which party of the core it is. -/
structure PartyId where
  core : Nat
  slot : Nat
  party : Party
  deriving DecidableEq, Repr, Inhabited

/-- What a page of the paged space may name (R18, R289): a frame of a space of R226, or a row page. -/
inductive PageTarget where
  | frame (space frame : Nat)
  | rowPage (page : Nat)
  deriving DecidableEq, Repr, Inhabited

/-- What the host does through a function of the Hizer link (R374, R321, R382): loads, stores, mapping pages, and reads of the
function's register window. -/
inductive HostOp where
  | load (va : Nat) (size : Nat)
  | store (va : Nat) (bytes : List Byte)
  | mapPage (page : Nat) (target : PageTarget)
  | unmapPage (page : Nat)
  | register (offset : Nat)
  deriving DecidableEq, Repr, Inhabited

/-- The requests that another accelerator may send (R377). -/
inductive FabricRequest where
  | read | write | atomic
  deriving DecidableEq, Repr, Inhabited

/-- A scheduler's launch packet (R378). -/
structure LaunchPacket where
  sender : Nat
  device : Nat
  partition : Nat
  queue : Nat
  record : List Byte
  deriving DecidableEq, Repr, Inhabited

/-- A firmware image (R380): its version and bytes. -/
structure Image where
  version : Nat
  /-- The die whose supervisor the image is, or none for another target. -/
  die : Option Nat
  /-- The `.entry` offset of a supervisor image (R383). -/
  entry : Nat
  /-- Whether its signature verifies (R380), and whether its length, header and target are well formed (R384); both are
  functions of its bytes that the model does not compute (log 10 DESIGN CHOICE). -/
  verifies : Bool
  formed : Bool
  bytes : List Byte
  deriving DecidableEq, Repr, Inhabited

/-- One partition's part of the signed configuration manifest (R380, R315, R378). -/
structure FabricSet where
  partition : Nat
  /-- Endpoints: device in [15:4], die in [3:0]. -/
  endpoints : List Nat
  /-- (device, peer partition on it). -/
  peers : List (Nat × Nat)
  /-- Endpoints listed as schedulers. -/
  schedulers : List Nat
  deriving DecidableEq, Repr, Inhabited

/-- The configuration manifest (R380): device number, version floor, fabric sets, the limits of each partition (numbers whose
meaning the spec does not give), whether its signature verifies, and its bytes for the digest. -/
structure Manifest where
  device : Nat
  floor : Nat
  fabric : List FabricSet
  limits : List (Nat × Nat)
  verifies : Bool
  bytes : List Byte
  deriving DecidableEq, Repr, Inhabited

/-- What bring-up meets (R373, R380, R383): the images in load order, the manifest, what the partner of the link offers, and
of the steps that the part does not decide itself the one that fails, if any: phase, reason and detail (R384). -/
structure BringUp where
  images : List Image
  manifest : Manifest
  /-- The versions that the partner offers for link, transaction and command set (R373): each major version with its
  highest minor version. -/
  link : List (Nat × Nat)
  transaction : List (Nat × Nat)
  command : List (Nat × Nat)
  failure : Option (Nat × Nat × Nat)
  deriving DecidableEq, Repr, Inhabited

/-- A signed key manifest (R318, R380): the keys' numbers by slot, and whether its signature verifies. -/
structure KeyManifest where
  keys : List (Nat × Nat)
  verifies : Bool
  bytes : List Byte
  deriving DecidableEq, Repr, Inhabited

/-- The target of a register write that has no row of its own. -/
inductive RegTarget where
  | sysreg (n : Nat)
  | qiv (partition queue : Nat)
  | atnonce
  | ataddr
  deriving DecidableEq, Repr, Inhabited

/-- Two-bit fields: token fields wait and sig (R29), orders, control-word names. -/
abbrev B2 := BitVec 2
/-- Five-bit register or operand fields (R48, R54). -/
abbrev B5 := BitVec 5
/-- Six-bit register fields (R48). -/
abbrev B6 := BitVec 6

/-- One constructor per row of the opcode table. -/
inductive Instr where
  /-- ADD (R108): Sets s[d] to the 64-bit wrapping sum of s[a] and s[b]. -/
  | add (d : BitVec 6) (a : BitVec 6) (b : BitVec 6)
  /-- SUB (R108): Sets s[d] to the 64-bit wrapping difference of s[a] and s[b]. -/
  | sub (d : BitVec 6) (a : BitVec 6) (b : BitVec 6)
  /-- AND (R108): Sets s[d] to the bitwise AND of s[a] and s[b]. -/
  | and (d : BitVec 6) (a : BitVec 6) (b : BitVec 6)
  /-- OR (R108): Sets s[d] to the bitwise OR of s[a] and s[b]. -/
  | or (d : BitVec 6) (a : BitVec 6) (b : BitVec 6)
  /-- XOR (R108): Sets s[d] to the bitwise XOR of s[a] and s[b]. -/
  | xor (d : BitVec 6) (a : BitVec 6) (b : BitVec 6)
  /-- SHL (R108): Shifts s[a] left by the low six bits of s[b]. -/
  | shl (d : BitVec 6) (a : BitVec 6) (b : BitVec 6)
  /-- SHR (R108): Shifts s[a] right logically by the low six bits of s[b]. -/
  | shr (d : BitVec 6) (a : BitVec 6) (b : BitVec 6)
  /-- SAR (R108): Shifts s[a] right arithmetically by the low six bits of s[b]. -/
  | sar (d : BitVec 6) (a : BitVec 6) (b : BitVec 6)
  /-- MUL (R108): Sets s[d] to the low 64 bits of the signed product. -/
  | mul (d : BitVec 6) (a : BitVec 6) (b : BitVec 6)
  /-- MULH (R108): Sets s[d] to the high 64 bits of the signed 128-bit product. -/
  | mulh (d : BitVec 6) (a : BitVec 6) (b : BitVec 6)
  /-- MULHU (R108): Sets s[d] to the high 64 bits of the unsigned 128-bit product. -/
  | mulhu (d : BitVec 6) (a : BitVec 6) (b : BitVec 6)
  /-- DIV (R109): Signed division truncating toward zero, with defined results for zero and overflow. -/
  | div (d : BitVec 6) (a : BitVec 6) (b : BitVec 6)
  /-- DIVU (R109): Unsigned division, all ones for a zero divisor. -/
  | divu (d : BitVec 6) (a : BitVec 6) (b : BitVec 6)
  /-- REM (R109): Signed remainder with defined results for zero and overflow. -/
  | rem (d : BitVec 6) (a : BitVec 6) (b : BitVec 6)
  /-- REMU (R109): Unsigned remainder, x for a zero divisor. -/
  | remu (d : BitVec 6) (a : BitVec 6) (b : BitVec 6)
  /-- MIN (R108): Sets s[d] to the signed minimum of s[a] and s[b]. -/
  | min (d : BitVec 6) (a : BitVec 6) (b : BitVec 6)
  /-- MAX (R108): Sets s[d] to the signed maximum of s[a] and s[b]. -/
  | max (d : BitVec 6) (a : BitVec 6) (b : BitVec 6)
  /-- MINU (R108): Sets s[d] to the unsigned minimum of s[a] and s[b]. -/
  | minu (d : BitVec 6) (a : BitVec 6) (b : BitVec 6)
  /-- MAXU (R108): Sets s[d] to the unsigned maximum of s[a] and s[b]. -/
  | maxu (d : BitVec 6) (a : BitVec 6) (b : BitVec 6)
  /-- SLT (R108): Sets s[d] to 1 if s[a] is signed-less than s[b], else 0. -/
  | slt (d : BitVec 6) (a : BitVec 6) (b : BitVec 6)
  /-- SLTU (R108): Sets s[d] to 1 if s[a] is unsigned-less than s[b], else 0. -/
  | sltu (d : BitVec 6) (a : BitVec 6) (b : BitVec 6)
  /-- CLZ (R108): Counts the zero bits above the highest one bit of s[a]. -/
  | clz (d : BitVec 6) (a : BitVec 6)
  /-- POPC (R108): Counts the one bits of s[a]. -/
  | popc (d : BitVec 6) (a : BitVec 6)
  /-- ADDI (R110): Adds a sign-extended 13-bit immediate to s[a]. -/
  | addi (d : BitVec 6) (a : BitVec 6) (i : BitVec 13)
  /-- ANDI (R110): ANDs s[a] with the sign-extended immediate. -/
  | andi (d : BitVec 6) (a : BitVec 6) (i : BitVec 13)
  /-- ORI (R110): ORs s[a] with the sign-extended immediate. -/
  | ori (d : BitVec 6) (a : BitVec 6) (i : BitVec 13)
  /-- XORI (R110): XORs s[a] with the sign-extended immediate. -/
  | xori (d : BitVec 6) (a : BitVec 6) (i : BitVec 13)
  /-- SLTI (R110): Signed compare of s[a] with the immediate. -/
  | slti (d : BitVec 6) (a : BitVec 6) (i : BitVec 13)
  /-- SLTIU (R110): Unsigned compare of s[a] with the sign-extended immediate. -/
  | sltiu (d : BitVec 6) (a : BitVec 6) (i : BitVec 13)
  /-- SHLI (R110): Shifts s[a] left by an immediate amount. -/
  | shli (d : BitVec 6) (a : BitVec 6) (n : BitVec 6)
  /-- SHRI (R110): Shifts s[a] right logically by an immediate amount. -/
  | shri (d : BitVec 6) (a : BitVec 6) (n : BitVec 6)
  /-- SARI (R110): Shifts s[a] right arithmetically by an immediate amount. -/
  | sari (d : BitVec 6) (a : BitVec 6) (n : BitVec 6)
  /-- LUI (R111): Sets s[d] to the sign-extended imm19 shifted left by 13. -/
  | lui (d : BitVec 6) (i : BitVec 19)
  /-- ADDPC (R112): Sets s[d] to the program counter plus four times the signed imm19. -/
  | addpc (d : BitVec 6) (i : BitVec 19)
  /-- AGEN (R113): Forms s[a] plus s[b] shifted left by sh as a scaled address. -/
  | agen (d : BitVec 6) (a : BitVec 6) (b : BitVec 6) (h : BitVec 4)
  /-- BEQ (R266): Branches when s[a] equals s[b]. -/
  | beq (a : BitVec 6) (b : BitVec 6) (o : BitVec 13)
  /-- BNE (R266): Branches when s[a] differs from s[b]. -/
  | bne (a : BitVec 6) (b : BitVec 6) (o : BitVec 13)
  /-- BLT (R266): Branches when s[a] is signed-less than s[b]. -/
  | blt (a : BitVec 6) (b : BitVec 6) (o : BitVec 13)
  /-- BGE (R266): Branches when s[a] is signed-greater or equal to s[b]. -/
  | bge (a : BitVec 6) (b : BitVec 6) (o : BitVec 13)
  /-- BLTU (R266): Branches when s[a] is unsigned-less than s[b]. -/
  | bltu (a : BitVec 6) (b : BitVec 6) (o : BitVec 13)
  /-- BGEU (R266): Branches when s[a] is unsigned-greater or equal to s[b]. -/
  | bgeu (a : BitVec 6) (b : BitVec 6) (o : BitVec 13)
  /-- JMP (R267): Transfers to the program counter plus four times off25. -/
  | jmp (o : BitVec 25)
  /-- JAL (R267): Writes the link register and transfers to a pc-relative target. -/
  | jal (o : BitVec 25)
  /-- JR (R267): Transfers to s[a] plus a signed immediate, trapping if unaligned. -/
  | jr (a : BitVec 6) (i : BitVec 13)
  /-- LOOP (R268): Starts a hardware loop whose count comes from a register. -/
  | loop (l : BitVec 2) (c : BitVec 6) (n : BitVec 13)
  /-- LOOPI (R268): Starts a hardware loop whose count comes from an immediate. -/
  | loopi (l : BitVec 2) (i : BitVec 10) (n : BitVec 13)
  /-- REP (R269): Executes the next word a given number of times. -/
  | rep (i : BitVec 10)
  /-- LEXIT (R269): Deactivates loop l and every loop started after it. -/
  | lexit (l : BitVec 2)
  /-- MFS (R61): Reads a system register into s[d] after privilege and operand checks. -/
  | mfs (d : BitVec 6) (r : BitVec 13)
  /-- MTS (R62): Writes s[a] to a system register under each field's access code. -/
  | mts (a : BitVec 6) (r : BitVec 13)
  /-- TOKW (R273): Pops one token from queue k, waiting while its counter is 0. -/
  | tokw (k : BitVec 2)
  /-- TOKS (R273): Pushes one token on queue k, waiting while its counter is 15. -/
  | toks (k : BitVec 2)
  /-- NOP (R63): Occupies one issue slot and only advances the program counter. -/
  | nop
  /-- END (R272): Ends an engine entry once its accesses are performed, or stops a wing for the rest of the task. -/
  | endOp
  /-- TRAP (R353): Raises a software trap with TVAL set to the immediate. -/
  | trap (i : BitVec 19)
  /-- WAITEV (R276): Sleeps until a masked pending event or a deadline, then returns and clears the events. -/
  | waitev (d : BitVec 6) (a : BitVec 6) (m : BitVec 5)
  /-- LDB (R213): Loads a sign-extended byte. -/
  | ldb (w : BitVec 2) (g : BitVec 2) (d : BitVec 6) (a : BitVec 6) (f : BitVec 9)
  /-- LDH (R213): Loads a sign-extended half-word. -/
  | ldh (w : BitVec 2) (g : BitVec 2) (d : BitVec 6) (a : BitVec 6) (f : BitVec 9)
  /-- LDW (R213): Loads a sign-extended word. -/
  | ldw (w : BitVec 2) (g : BitVec 2) (d : BitVec 6) (a : BitVec 6) (f : BitVec 9)
  /-- LDD (R213): Loads an 8-byte double word. -/
  | ldd (w : BitVec 2) (g : BitVec 2) (d : BitVec 6) (a : BitVec 6) (f : BitVec 9)
  /-- LDBU (R213): Loads a zero-extended byte. -/
  | ldbu (w : BitVec 2) (g : BitVec 2) (d : BitVec 6) (a : BitVec 6) (f : BitVec 9)
  /-- LDHU (R213): Loads a zero-extended half-word. -/
  | ldhu (w : BitVec 2) (g : BitVec 2) (d : BitVec 6) (a : BitVec 6) (f : BitVec 9)
  /-- LDWU (R213): Loads a zero-extended word. -/
  | ldwu (w : BitVec 2) (g : BitVec 2) (d : BitVec 6) (a : BitVec 6) (f : BitVec 9)
  /-- LDA (R213): Loads 8 bytes with acquire order at module scope. -/
  | lda (w : BitVec 2) (g : BitVec 2) (d : BitVec 6) (a : BitVec 6) (f : BitVec 9)
  /-- LDC (R40): Loads 8 bytes with consume order and taints the destination. -/
  | ldc (w : BitVec 2) (g : BitVec 2) (d : BitVec 6) (a : BitVec 6) (f : BitVec 9)
  /-- STB (R213): Stores one byte, as a bank-word read-modify-write on the scratchpad. -/
  | stb (w : BitVec 2) (g : BitVec 2) (d : BitVec 6) (a : BitVec 6) (f : BitVec 9)
  /-- STH (R213): Stores a half-word. -/
  | sth (w : BitVec 2) (g : BitVec 2) (d : BitVec 6) (a : BitVec 6) (f : BitVec 9)
  /-- STW (R213): Stores a word. -/
  | stw (w : BitVec 2) (g : BitVec 2) (d : BitVec 6) (a : BitVec 6) (f : BitVec 9)
  /-- STD (R213): Stores a double word. -/
  | std (w : BitVec 2) (g : BitVec 2) (d : BitVec 6) (a : BitVec 6) (f : BitVec 9)
  /-- STL (R213): Stores 8 bytes with release order at module scope. -/
  | stl (w : BitVec 2) (g : BitVec 2) (d : BitVec 6) (a : BitVec 6) (f : BitVec 9)
  /-- AMO_ADD (R215): Atomically adds s[b] to a memory word and returns the old value, in the order the op selects. -/
  | amoAdd (w : BitVec 2) (g : BitVec 2) (o : BitVec 2) (d : BitVec 6) (a : BitVec 6) (b : BitVec 6)
  /-- AMO_AND (R215): Atomically ANDs s[b] into a memory word. -/
  | amoAnd (w : BitVec 2) (g : BitVec 2) (o : BitVec 2) (d : BitVec 6) (a : BitVec 6) (b : BitVec 6)
  /-- AMO_OR (R215): Atomically ORs s[b] into a memory word. -/
  | amoOr (w : BitVec 2) (g : BitVec 2) (o : BitVec 2) (d : BitVec 6) (a : BitVec 6) (b : BitVec 6)
  /-- AMO_XOR (R215): Atomically XORs s[b] into a memory word. -/
  | amoXor (w : BitVec 2) (g : BitVec 2) (o : BitVec 2) (d : BitVec 6) (a : BitVec 6) (b : BitVec 6)
  /-- AMO_MIN (R215): Atomically stores the signed minimum of the word and s[b]. -/
  | amoMin (w : BitVec 2) (g : BitVec 2) (o : BitVec 2) (d : BitVec 6) (a : BitVec 6) (b : BitVec 6)
  /-- AMO_MAX (R215): Atomically stores the signed maximum of the word and s[b]. -/
  | amoMax (w : BitVec 2) (g : BitVec 2) (o : BitVec 2) (d : BitVec 6) (a : BitVec 6) (b : BitVec 6)
  /-- AMO_SWAP (R215): Atomically swaps s[b] with a memory word. -/
  | amoSwap (w : BitVec 2) (g : BitVec 2) (o : BitVec 2) (d : BitVec 6) (a : BitVec 6) (b : BitVec 6)
  /-- CAS (R215): Atomically writes s[b] if the word equals s[d], returning the old value. -/
  | cas (w : BitVec 2) (g : BitVec 2) (d : BitVec 6) (a : BitVec 6) (b : BitVec 6) (o : BitVec 2)
  /-- FENCE (R199): Orders the predecessor set before the successor set at the named scope. -/
  | fence (w : BitVec 2) (g : BitVec 2) (p : BitVec 4) (c : BitVec 2)
  /-- QFENCE (R210): Pushes join entries into two or more engine queues of the core. -/
  | qfence (w : BitVec 2) (g : BitVec 2) (m : BitVec 4)
  /-- MWAIT (R218): Waits with acquire reads while a memory word equals s[b], then returns it. -/
  | mwait (w : BitVec 2) (g : BitVec 2) (d : BitVec 6) (a : BitVec 6) (b : BitVec 6)
  /-- MWAIT_WAKE (R218): A sleeping MWAIT rereads its word after a store to its line or after 1 µs. -/
  | mwaitWake (p : PartyId)
  /-- ENQ (R271): Pushes an entry with up to four argument scalars into an engine queue, stalling while it is full. -/
  | enq (w : BitVec 2) (g : BitVec 2) (f : BitVec 6) (n : BitVec 3) (e : BitVec 9) (q : BitVec 3)
  /-- MARK (R274): Waits for rendezvous n to be free, then pushes mark entries into the named queues. -/
  | mark (w : BitVec 2) (g : BitVec 2) (n : BitVec 4) (m : BitVec 6)
  /-- RDV (R274): Waits while rendezvous n still has pending queues. -/
  | rdv (w : BitVec 2) (g : BitVec 2) (n : BitVec 4)
  /-- NOTIFY (R274): Pushes a notify entry into each named queue. -/
  | notify (w : BitVec 2) (g : BitVec 2) (m : BitVec 6)
  /-- JOIN (R277): Makes the wing a member of a group. -/
  | join (w : BitVec 2) (g : BitVec 2) (a : BitVec 6)
  /-- LEAVE (R277): Removes the wing from a group. -/
  | leave (w : BitVec 2) (g : BitVec 2) (a : BitVec 6)
  /-- BAR (R278): Waits at a group barrier until every current member waits there. -/
  | bar (w : BitVec 2) (g : BitVec 2) (a : BitVec 6)
  /-- WLOCK (R263): Waits until all four wings reach the same WLOCK, then enters lock-step. -/
  | wlock (w : BitVec 2) (g : BitVec 2)
  /-- WFREE (R265): Ends lock-step when executed as word 0 of a bundle. -/
  | wfree (w : BitVec 2) (g : BitVec 2)
  /-- SSTEP (R279): Waits at a superstep boundary of a superstep launch. -/
  | sstep (w : BitVec 2) (g : BitVec 2) (d : BitVec 6)
  /-- SUPERSTEP_ADVANCE (R279): When all wings reached SSTEP and all prior work is performed, SSN increments and waiters are released. -/
  | superstepAdvance (part queue : Nat)
  /-- PROBE (R328): Checks a range for mapping and pins its frames, or takes a probe fault. -/
  | probe (w : BitVec 2) (g : BitVec 2) (a : BitVec 6) (b : BitVec 6)
  /-- UNPIN (R328): Drops the task's pins on the pages of a range. -/
  | unpin (w : BitVec 2) (g : BitVec 2) (a : BitVec 6) (b : BitVec 6)
  /-- PHSWAP (R357): Waits for wings and engines, swaps buffer pair n and checkpoints the task. -/
  | phswap (w : BitVec 2) (g : BitVec 2) (n : BitVec 3)
  /-- ERET (R352): Disposes of the held trap or hang record by resuming, stepping past or ending. -/
  | eret (w : BitVec 2) (g : BitVec 2) (d : BitVec 6) (a : BitVec 6)
  /-- CTXSV (R363): Supervisor pre-empts and parks a task, saving its Cocoon. -/
  | ctxsv (w : BitVec 2) (g : BitVec 2) (d : BitVec 6) (a : BitVec 6)
  /-- CTXLD (R364): Supervisor restores a parked task onto a core or returns it to its launch. -/
  | ctxld (w : BitVec 2) (g : BitVec 2) (d : BitVec 6) (a : BitVec 6) (b : BitVec 6)
  /-- PGATE (R344): Requests, cancels or wakes the power gate of the column's upper core. -/
  | pgate (w : BitVec 2) (g : BitVec 2) (a : BitVec 6)
  /-- CLKDIV (R339): Sets the base clock divisor of one domain of the issuing core. -/
  | clkdiv (w : BitVec 2) (g : BitVec 2) (d : BitVec 6) (a : BitVec 6) (b : BitVec 6)
  /-- SWPT (R338): At a switch point, continues or transfers into the schedule variant the granted level selects. -/
  | swpt (k : BitVec 8) (v : BitVec 3)
  /-- BOOST (R343): Records or drops boost claims for a mask of the core's domains. -/
  | boost (w : BitVec 2) (g : BitVec 2) (d : BitVec 6) (a : BitVec 6)
  /-- SEQCLM (R293): Claims up to n rows of a phase for the task, optionally gated on mask readiness. -/
  | seqclm (w : BitVec 2) (g : BitVec 2) (d : BitVec 6) (a : BitVec 6) (b : BitVec 6)
  /-- SEQADV (R296): Admits a VOID row or ends the task's claim, setting the new phase with release. -/
  | seqadv (w : BitVec 2) (g : BitVec 2) (d : BitVec 6) (a : BitVec 6) (b : BitVec 6)
  /-- SXQRY (R307): Finds the longest recent suffix match in an index and writes continuation candidates. -/
  | sxqry (w : BitVec 2) (g : BitVec 2) (d : BitVec 6) (a : BitVec 6) (b : BitVec 6)
  /-- HNEW (R324): Allocates a zeroed object of whole frames and returns a strong handle, or 0. -/
  | hnew (w : BitVec 2) (g : BitVec 2) (d : BitVec 6) (a : BitVec 6) (b : BitVec 6)
  /-- HFREE (R324): Drops a strong reference and destroys the object when its count reaches 0. -/
  | hfree (w : BitVec 2) (g : BitVec 2) (d : BitVec 6) (a : BitVec 6)
  /-- HLDW (R325): Reads a word of a weak object or sets G if it was destroyed. -/
  | hldw (w : BitVec 2) (g : BitVec 2) (d : BitVec 6) (a : BitVec 6) (b : BitVec 6)
  /-- BGONE (R326): Branches when the gone flag G is set. -/
  | bgone (w : BitVec 2) (g : BitVec 2) (o : BitVec 18)
  /-- HUPG (R324): Upgrades a weak handle to strong, or returns 0 with G showing why. -/
  | hupg (w : BitVec 2) (g : BitVec 2) (d : BitVec 6) (a : BitVec 6)
  /-- HDNG (R324): Downgrades a strong handle to weak, decrementing the strong count. -/
  | hdng (w : BitVec 2) (g : BitVec 2) (d : BitVec 6) (a : BitVec 6)
  /-- HPRI (R324): Sets an object's reclaim priority. -/
  | hpri (w : BitVec 2) (g : BitVec 2) (d : BitVec 6) (a : BitVec 6) (b : BitVec 6)
  /-- WINOPEN (R329): Opens a re-keyed window on a region to a peer partition. -/
  | winopen (w : BitVec 2) (g : BitVec 2) (d : BitVec 6) (a : BitVec 6)
  /-- WINPUB (R330): Publishes window writes with a release and optionally hands over the writer role. -/
  | winpub (w : BitVec 2) (g : BitVec 2) (d : BitVec 6) (a : BitVec 6) (b : BitVec 6)
  /-- WINACQ (R330): Reads a window's publication count as an acquire. -/
  | winacq (w : BitVec 2) (g : BitVec 2) (d : BitVec 6) (a : BitVec 6)
  /-- WINCLOSE (R330): Ends a window for both sides, re-keys the region and frees the slot. -/
  | winclose (w : BitVec 2) (g : BitVec 2) (a : BitVec 6)
  /-- SXAPP (R306): Appends a token to a suffix index at the expected position, evicting a block at quota. -/
  | sxapp (w : BitVec 2) (g : BitVec 2) (d : BitVec 6) (a : BitVec 6) (b : BitVec 6)
  /-- SXSAV (R309): Writes the canonical image of a suffix index to a tensor. -/
  | sxsav (w : BitVec 2) (g : BitVec 2) (d : BitVec 6) (a : BitVec 6) (b : BitVec 6)
  /-- SXLD (R310): Rebuilds a free suffix index from an image. -/
  | sxld (w : BitVec 2) (g : BitVec 2) (d : BitVec 6) (a : BitVec 6) (b : BitVec 6)
  /-- SXRST (R305): Resets or frees a suffix index with a new quota. -/
  | sxrst (w : BitVec 2) (g : BitVec 2) (d : BitVec 6) (a : BitVec 6) (b : BitVec 6)
  /-- VADD (R121): Adds vector elements with one rounding. -/
  | vadd (w : BitVec 2) (g : BitVec 2) (d : BitVec 5) (a : BitVec 5) (b : BitVec 5) (c : BitVec 2) (p : BitVec 1) (q : BitVec 1)
  /-- VSUB (R121): Subtracts vector elements with one rounding. -/
  | vsub (w : BitVec 2) (g : BitVec 2) (d : BitVec 5) (a : BitVec 5) (b : BitVec 5) (c : BitVec 2) (p : BitVec 1) (q : BitVec 1)
  /-- VMUL (R121): Multiplies vector elements with one rounding. -/
  | vmul (w : BitVec 2) (g : BitVec 2) (d : BitVec 5) (a : BitVec 5) (b : BitVec 5) (c : BitVec 2) (p : BitVec 1) (q : BitVec 1)
  /-- VFMA (R122): Fused multiply-add consuming the destination's oldest entry as addend. -/
  | vfma (w : BitVec 2) (g : BitVec 2) (d : BitVec 5) (a : BitVec 5) (b : BitVec 5) (c : BitVec 2) (p : BitVec 1) (q : BitVec 1)
  /-- VMIN (R121): Elementwise minimum. -/
  | vmin (w : BitVec 2) (g : BitVec 2) (d : BitVec 5) (a : BitVec 5) (b : BitVec 5) (c : BitVec 2) (p : BitVec 1) (q : BitVec 1)
  /-- VMAX (R121): Elementwise maximum. -/
  | vmax (w : BitVec 2) (g : BitVec 2) (d : BitVec 5) (a : BitVec 5) (b : BitVec 5) (c : BitVec 2) (p : BitVec 1) (q : BitVec 1)
  /-- VABS (R121): Elementwise absolute value. -/
  | vabs (w : BitVec 2) (g : BitVec 2) (d : BitVec 5) (a : BitVec 5) (c : BitVec 2) (p : BitVec 1)
  /-- VCMP (R124): Compares elements, writes all-ones or zero results and sets vm. -/
  | vcmp (w : BitVec 2) (g : BitVec 2) (d : BitVec 5) (a : BitVec 5) (b : BitVec 5) (c : BitVec 2) (p : BitVec 1) (q : BitVec 1) (u : BitVec 2)
  /-- VSEL (R125): Selects elements of a or b by the lane mask. -/
  | vsel (w : BitVec 2) (g : BitVec 2) (d : BitVec 5) (a : BitVec 5) (b : BitVec 5) (c : BitVec 2) (p : BitVec 1) (q : BitVec 1)
  /-- VAND (R126): Bitwise AND of 256 bytes. -/
  | vand (w : BitVec 2) (g : BitVec 2) (d : BitVec 5) (a : BitVec 5) (b : BitVec 5) (c : BitVec 2) (p : BitVec 1) (q : BitVec 1)
  /-- VOR (R126): Bitwise OR of 256 bytes. -/
  | vor (w : BitVec 2) (g : BitVec 2) (d : BitVec 5) (a : BitVec 5) (b : BitVec 5) (c : BitVec 2) (p : BitVec 1) (q : BitVec 1)
  /-- VXOR (R126): Bitwise XOR of 256 bytes. -/
  | vxor (w : BitVec 2) (g : BitVec 2) (d : BitVec 5) (a : BitVec 5) (b : BitVec 5) (c : BitVec 2) (p : BitVec 1) (q : BitVec 1)
  /-- VSHL (R127): Shifts integer elements left without saturation. -/
  | vshl (w : BitVec 2) (g : BitVec 2) (d : BitVec 5) (a : BitVec 5) (b : BitVec 5) (c : BitVec 2) (p : BitVec 1) (q : BitVec 1)
  /-- VSHR (R127): Shifts integer elements right, arithmetic or logical by type. -/
  | vshr (w : BitVec 2) (g : BitVec 2) (d : BitVec 5) (a : BitVec 5) (b : BitVec 5) (c : BitVec 2) (p : BitVec 1) (q : BitVec 1)
  /-- VCVT (R129): Converts elements to the destination type with one rounding, using a slice. -/
  | vcvt (w : BitVec 2) (g : BitVec 2) (d : BitVec 5) (a : BitVec 5) (c : BitVec 2) (p : BitVec 1) (k : BitVec 2)
  /-- VQNT (R131): Quantises by multiplying by a reciprocal and rounding once. -/
  | vqnt (w : BitVec 2) (g : BitVec 2) (d : BitVec 5) (a : BitVec 5) (b : BitVec 5) (c : BitVec 2) (p : BitVec 1) (q : BitVec 1) (k : BitVec 2)
  /-- VDQ (R132): Dequantises by an exact product rounded once. -/
  | vdq (w : BitVec 2) (g : BitVec 2) (d : BitVec 5) (a : BitVec 5) (b : BitVec 5) (c : BitVec 2) (p : BitVec 1) (q : BitVec 1) (k : BitVec 2)
  /-- VBPK (R133): Packs one bit plane of one block of codes into a plane word. -/
  | vbpk (w : BitVec 2) (g : BitVec 2) (d : BitVec 5) (a : BitVec 5) (b : BitVec 5) (c : BitVec 2) (p : BitVec 1)
  /-- VBUN (R134): Unpacks one plane word into code bits. -/
  | vbun (w : BitVec 2) (g : BitVec 2) (d : BitVec 5) (a : BitVec 5) (b : BitVec 5) (c : BitVec 2) (p : BitVec 1)
  /-- VRCP (R130): Reciprocal rounded RNE into FP32. -/
  | vrcp (w : BitVec 2) (g : BitVec 2) (d : BitVec 5) (a : BitVec 5) (c : BitVec 2) (p : BitVec 1)
  /-- VRSQ (R135): Correctly rounded reciprocal square root. -/
  | vrsq (w : BitVec 2) (g : BitVec 2) (d : BitVec 5) (a : BitVec 5) (c : BitVec 2) (p : BitVec 1)
  /-- VEXP2 (R135): Correctly rounded base-2 exponential. -/
  | vexp2 (w : BitVec 2) (g : BitVec 2) (d : BitVec 5) (a : BitVec 5) (c : BitVec 2) (p : BitVec 1)
  /-- VLOG2 (R135): Correctly rounded base-2 logarithm. -/
  | vlog2 (w : BitVec 2) (g : BitVec 2) (d : BitVec 5) (a : BitVec 5) (c : BitVec 2) (p : BitVec 1)
  /-- VRED (R136): Exact sum, max or min of unmasked elements rounded once into every element. -/
  | vred (w : BitVec 2) (g : BitVec 2) (d : BitVec 5) (a : BitVec 5) (c : BitVec 2) (p : BitVec 1) (n : BitVec 2)
  /-- VSCAN (R137): Prefix reduction with each element rounded once from its exact prefix. -/
  | vscan (w : BitVec 2) (g : BitVec 2) (d : BitVec 5) (a : BitVec 5) (c : BitVec 2) (p : BitVec 1) (n : BitVec 2)
  /-- VPERM (R138): Permutes elements of a by indices in b. -/
  | vperm (w : BitVec 2) (g : BitVec 2) (d : BitVec 5) (a : BitVec 5) (b : BitVec 5) (c : BitVec 2) (p : BitVec 1) (q : BitVec 1)
  /-- VBCS_ELEMENT (R139): Broadcasts the element of a selected by a scalar. -/
  | vbcsElement (w : BitVec 2) (g : BitVec 2) (d : BitVec 5) (a : BitVec 5) (b : BitVec 5) (c : BitVec 2) (p : BitVec 1)
  /-- VBCS_SCALAR (R139): Broadcasts the low bits of a scalar to every element. -/
  | vbcsScalar (w : BitVec 2) (g : BitVec 2) (d : BitVec 5) (b : BitVec 5) (c : BitVec 2)
  /-- VIMM (R123): Pushes or stores a broadcast immediate vector. -/
  | vimm (w : BitVec 2) (g : BitVec 2) (d : BitVec 5) (i : BitVec 16)
  /-- VMOV (R126): Copies 256 bytes of a to the destination under the mask. -/
  | vmov (w : BitVec 2) (g : BitVec 2) (d : BitVec 5) (a : BitVec 5) (c : BitVec 2) (p : BitVec 1)
  /-- VMOV_A (R220): Stores a vector to a port with 16-byte single-copy atomic granules. -/
  | vmovA (w : BitVec 2) (g : BitVec 2) (d : BitVec 5) (a : BitVec 5) (c : BitVec 2) (p : BitVec 1)
  /-- VADDI (R123): Adds a broadcast immediate to the oldest entry of vD and pushes the result. -/
  | vaddi (w : BitVec 2) (g : BitVec 2) (d : BitVec 5) (i : BitVec 16)
  /-- VSPSH (R281): Appends masked lanes as records to the open generation of a stream. -/
  | vspsh (w : BitVec 2) (g : BitVec 2) (n : BitVec 5) (a : BitVec 5) (p : BitVec 1)
  /-- VSPOP (R281): Takes up to 64 records from a stream's oldest generation into lanes and sets vm. -/
  | vspop (w : BitVec 2) (g : BitVec 2) (d : BitVec 5) (n : BitVec 5)
  /-- VSBAL (R281): Seals a stream's open generation and opens a new one. -/
  | vsbal (w : BitVec 2) (g : BitVec 2) (n : BitVec 5)
  /-- GCFG (R140): Configures a port from a 48-byte record and restarts it. -/
  | gcfg (w : BitVec 2) (g : BitVec 2) (d : BitVec 5) (a : BitVec 5)
  /-- GRST (R141): Restarts a configured port at its first vector. -/
  | grst (w : BitVec 2) (g : BitVec 2) (d : BitVec 5)
  /-- VNOISE (R142): Generates keyed uniform or Gumbel noise per vocabulary index. -/
  | vnoise (w : BitVec 2) (g : BitVec 2) (d : BitVec 5) (a : BitVec 5) (b : BitVec 5) (c : BitVec 2) (p : BitVec 1) (n : BitVec 2)
  /-- VQ_ENTRY_ARRIVAL (R221): A pushed vertical-FIFO entry becomes poppable by the other core of the column within 8 ns. -/
  | vqEntryArrival (core : Nat)
  /-- MNEST (R146): Writes a value into a loop-nest shadow level. -/
  | mnest (w : BitVec 2) (g : BitVec 2) (a : BitVec 5) (b : BitVec 5)
  /-- MRUN (R147): Copies the nest and starts a matrix run over operand FIFOs into accumulator tiles. -/
  | mrun (w : BitVec 2) (g : BitVec 2) (a : BitVec 5) (c : BitVec 2) (t : BitVec 2)
  /-- RUN_COMPLETE (R148): A matrix run's last accumulator write is performed and its signal token is pushed. -/
  | runComplete (core : Nat)
  /-- MZERO (R150): Zeroes the accumulator tiles in a mask. -/
  | mzero (w : BitVec 2) (g : BitVec 2) (a : BitVec 5)
  /-- MLDC (R151): Loads a tile from 128 entries of FIFO A. -/
  | mldc (w : BitVec 2) (g : BitVec 2) (a : BitVec 5) (c : BitVec 2)
  /-- MLDC_COMPLETE (R148): An MLDC finishes writing its 128th row and pushes its signal token. -/
  | mldcComplete (core : Nat)
  /-- MDRAIN (R152): Writes a tile to the scratchpad converted to td, optionally zeroing it after. -/
  | mdrain (w : BitVec 2) (g : BitVec 2) (a : BitVec 5) (b : BitVec 5) (c : BitVec 2)
  /-- DRAIN_COMPLETE (R148): A drain's last byte is performed and its signal token is pushed. -/
  | drainComplete (core : Nat)
  /-- MKAT (R154): Compares a tile's signature with an inline constant, restarting the known-answer interval or trapping. -/
  | mkat (w : BitVec 2) (g : BitVec 2) (a : BitVec 5)
  /-- MSIG (R153): Computes the CRC-64 signature of a tile. -/
  | msig (w : BitVec 2) (g : BitVec 2) (d : BitVec 5) (a : BitVec 5)
  /-- MWT (R155): Waits until no run, MLDC or drain is in flight. -/
  | mwt (w : BitVec 2) (g : BitVec 2)
  /-- XCOPY (R231): Copies a box between tensors or scratchpad in chunks. -/
  | xcopy (w : BitVec 2) (g : BitVec 2) (a : BitVec 5) (b : BitVec 5)
  /-- XFILL (R232): Fills a destination box with a constant. -/
  | xfill (w : BitVec 2) (g : BitVec 2) (a : BitVec 5) (b : BitVec 5)
  /-- XGATH (R232): Copies with source coordinates taken from an index list. -/
  | xgath (w : BitVec 2) (g : BitVec 2) (a : BitVec 5) (b : BitVec 5)
  /-- XSCAT (R232): Copies with destination coordinates taken from an index list. -/
  | xscat (w : BitVec 2) (g : BitVec 2) (a : BitVec 5) (b : BitVec 5)
  /-- XFEED (R233): Pushes 128-element runs of a box into operand FIFO A or B. -/
  | xfeed (w : BitVec 2) (g : BitVec 2) (a : BitVec 5) (b : BitVec 5) (f : BitVec 1)
  /-- COPY_CHUNK_COMPLETE (R234): A 64 KiB chunk of a copy is performed and XPROG advances. -/
  | copyChunkComplete (p : PartyId)
  /-- XTRW (R167): Searches the trellis for the closest bitstream and writes stream and survivors. -/
  | xtrw (w : BitVec 2) (g : BitVec 2) (a : BitVec 5)
  /-- XTRU (R171): Updates one element and re-searches its neighbourhood between pinned states. -/
  | xtru (w : BitVec 2) (g : BitVec 2) (a : BitVec 5) (b : BitVec 5)
  /-- XTRD (R175): Decodes trellis elements to a value tensor or operand FIFO. -/
  | xtrd (w : BitVec 2) (g : BitVec 2) (a : BitVec 5) (b : BitVec 5)
  /-- XTBLD (R174): Fits a codebook by histogram quantiles and loads the slot. -/
  | xtbld (w : BitVec 2) (g : BitVec 2) (a : BitVec 5) (b : BitVec 5)
  /-- XTDEF (R178): Loads a trellis slot from a definition record. -/
  | xtdef (w : BitVec 2) (g : BitVec 2) (a : BitVec 5) (b : BitVec 5)
  /-- XCRC (R238): Computes the CRC-64 of a scratchpad range. -/
  | xcrc (w : BitVec 2) (g : BitVec 2) (d : BitVec 5) (a : BitVec 5) (b : BitVec 5)
  /-- XWS (R183): Supervisor copy from scratchpad into the weight store, holding off the partition's tasks. -/
  | xws (w : BitVec 2) (g : BitVec 2) (a : BitVec 5)
  /-- XREF (R241): Waits until a weight-store bank is clear of refresh for a horizon and returns the time to its next window. -/
  | xref (w : BitVec 2) (g : BitVec 2) (d : BitVec 5) (a : BitVec 5) (b : BitVec 5)
  /-- CSEND (R244): Sends elements to a single peer endpoint. -/
  | csend (w : BitVec 2) (g : BitVec 2) (a : BitVec 5)
  /-- CRECV (R244): Receives elements from a single peer endpoint. -/
  | crecv (w : BitVec 2) (g : BitVec 2) (a : BitVec 5)
  /-- CRED (R245): Element-wise reduction across participants in unfixed pairing order. -/
  | cred (w : BitVec 2) (g : BitVec 2) (a : BitVec 5)
  /-- CBCAST (R244): Broadcasts the root's elements to all participants. -/
  | cbcast (w : BitVec 2) (g : BitVec 2) (a : BitVec 5)
  /-- CA2A (R244): All-to-all exchange of blocks between ranks. -/
  | ca2a (w : BitVec 2) (g : BitVec 2) (a : BitVec 5)
  /-- CGATH (R244): Gathers every rank's elements at every participant. -/
  | cgath (w : BitVec 2) (g : BitVec 2) (a : BitVec 5)
  /-- CSAMP (R299): Reduces value-index pairs to the deterministic greatest pair across dies. -/
  | csamp (w : BitVec 2) (g : BitVec 2) (a : BitVec 5)
  /-- CFLAG (R248): Sends a release flag store to the peer partition's flag page at each peer. -/
  | cflag (w : BitVec 2) (g : BitVec 2) (a : BitVec 5) (b : BitVec 5)
  /-- COLLECTIVE_MESSAGE_ARRIVAL (R246): A collective message is applied at the receiver after its causal predecessors and delivered. -/
  | collectiveMessageArrival (k : Nat)
  /-- FLAG_MESSAGE_ARRIVAL (R247): A CFLAG message is applied as a release store at the peer or refused. -/
  | flagMessageArrival (k : Nat)
  /-- SSCFG (R302): Loads a Swallowtail automaton slot with a set of stop strings. -/
  | sscfg (w : BitVec 2) (g : BitVec 2) (a : BitVec 5) (b : BitVec 5)
  /-- SSFEED (R303): Feeds bytes of a row through the stop-string automaton, releasing, holding or stopping. -/
  | ssfeed (w : BitVec 2) (g : BitVec 2) (a : BitVec 5)
  /-- ENTRY_BEGIN (R271): An entry at a queue head with its wait token present begins, loading its argument scalars. -/
  | entryBegin (p : PartyId)
  /-- MARK_RETIRE (R274): A mark entry reaching its queue head clears its bit of the rendezvous. -/
  | markRetire (p : PartyId)
  /-- NOTIFY_RETIRE (R274): A notify entry reaching its queue head retires. -/
  | notifyRetire (p : PartyId)
  /-- QFENCE_JOIN_RELEASE (R210): When every named queue reaches its join, entries after the joins may start. -/
  | qfenceJoinRelease (core slot : Nat)
  /-- WAITEV_TIMEOUT (R276): TIME reaching a WAITEV deadline wakes the waiter with bit 5. -/
  | waitevTimeout (p : PartyId)
  /-- POWER_GOOD (R383): Power good starts bring-up through the phases to ready. -/
  | powerGood (b : BringUp)
  /-- FLIT_CRC_ERROR (R345): A flit or packet failing its CRC is sent again from retained data. -/
  | flitCrcError
  /-- REMOTE_WRITE_ARRIVAL (R204): A write arriving at its home is applied after the writes its vector clock names. -/
  | remoteWriteArrival (k : Nat)
  /-- REMOTE_LOAD_ARRIVAL (R204): A load at its home is answered after the writes its clock names, with the write's clock. -/
  | remoteLoadArrival (k : Nat)
  /-- HOST_ACCESS (R374): A host access through a function is encrypted and checked under the page's key slot at .SYS. -/
  | hostAccess (fn : Nat) (op : HostOp)
  /-- FABRIC_MEMORY_REQUEST (R377): A remote read, write or atomic request is answered as unsupported and reaches no memory. -/
  | fabricMemoryRequest (device : Nat) (r : FabricRequest)
  /-- FABRIC_LAUNCH_PACKET (R378): A scheduler's launch packet is placed in a fabric-filled ring or refused. -/
  | fabricLaunchPacket (k : LaunchPacket)
  /-- QWP (R375): The write-pointer doorbell, accepted within bounds, makes the part copy in records. -/
  | qwp (fn queue : Nat) (v : BitVec 32)
  /-- QCFG (R374): Configures a launch queue; setting en resets the pointers and clearing it cancels queued records. -/
  | qcfg (fn queue : Nat) (v : BitVec 32)
  /-- QBASE (R374): Sets the ring base, refused when unaligned or while enabled. -/
  | qbase (fn queue : Nat) (v : Word)
  /-- QCPL (R374): Sets the completion area, refused when unaligned or while enabled. -/
  | qcpl (fn queue : Nat) (v : Word)
  /-- QSTAT (R374): W1C status; clearing bit 3 lets a stalled queue proceed. -/
  | qstat (fn queue : Nat) (v : BitVec 8)
  /-- ATGO (R381): Produces a signed attestation report at ATADDR. -/
  | atgo (v : BitVec 1)
  /-- RESIDENCY_REPORT (R379): Every 100 µs the part sends each scheduler a residency report. -/
  | residencyReport
  /-- LAUNCH_HEAD (R253): A record becomes head of its queue and is checked before enumeration. -/
  | launchHead (part queue : Nat)
  /-- TASK_START (R262): Trailhead hands the next iteration to a core that can accept it and initialises task state. -/
  | taskStart (core : Nat)
  /-- TASK_RESUME (R287): A pre-empted task is restored on a core ahead of unstarted iterations. -/
  | taskResume (core : Nat)
  /-- TASK_COMPLETION (R33): When all wings have ended and every used queue retired its notify, the completion event is raised. -/
  | taskCompletion (core slot : Nat)
  /-- INTERRUPT_COALESCE_EXPIRY (R376): At the end of a coalescing span one interrupt covers the deferred completions. -/
  | interruptCoalesceExpiry (part queue : Nat)
  /-- PREEMPT_WAIT_EXPIRY (R283): A priority-0 launch waiting 50 µs without a core triggers pre-emption of another launch's task. -/
  | preemptWaitExpiry (part : Nat)
  /-- PREEMPTION (R284): A task is stopped at boundaries, its engines drained, and its Cocoon saved. -/
  | preemption (core slot : Nat)
  /-- ENERGY_TICK (R335): Every 1 µs each partition's balance is charged its energy; exhaustion pre-empts it. `used` is what
  was measured: core, the partition that held it, energy in tenths of a pJ, how much of it was drawn above nominal. -/
  | energyTick (used : List (Nat × Nat × Nat × Nat))
  /-- ENERGY_REFILL (R335): Every ms each balance is refilled by EFILL up to ECAP. -/
  | energyRefill
  /-- LEVEL_GRANT (R336): Every 100 µs each partition is granted a power level under the module-wide step. `rest` is what the
  module drew in that time outside what ENERGY_TICK measures, in tenths of a pJ. -/
  | levelGrant (rest : Nat)
  /-- BOOST_INTERVAL (R340): At each 4 µs interval start permits are charged and domains boost, fall or cool down. -/
  | boostInterval
  /-- BOOST_REFILL (R342): Every 32 µs the pool gains a permit if the Hamper stayed clean. -/
  | boostRefill
  /-- LOOKOUT_TICK (R366): Each µs of eligible, unthrottled time advances a queue's LKCNT. -/
  | lookoutTick
  /-- LOOKOUT_EXPIRY (R368): LKCNT reaching LKLIM sets LKEXP and posts a hang record. -/
  | lookoutExpiry (part queue : Nat)
  /-- KATB_THRESHOLD (R361): KATB reaching 1,900 µs sets CSTAT.katpend. -/
  | katbThreshold (core : Nat)
  /-- KAT_CHECK (R361): With no run in flight, a built-in known-answer check runs; a failure takes the column out of service. -/
  | katCheck (core : Nat) (pass : Bool)
  /-- COUNTER_PUBLISH (R332): Each ms the guest counters take quantised values from one ms earlier. -/
  | counterPublish
  /-- PATROL_READ (R345): Patrol passes read and correct memory words periodically. -/
  | patrolRead (addr : Nat)
  /-- PHASE_CANCEL (R358): A consumed uncorrectable error in a checkpointed task replays front logs and restores the checkpoint. -/
  | phaseCancel (core slot : Nat)
  /-- CONTEXT_ERROR (R354): A context error stops the task's parties, discards pending work and releases its holdings. -/
  | contextError (core slot : Nat)
  /-- TAKE_RECORD (R351): System w0 takes the oldest pending record and enters the handler at TVEC. -/
  | takeRecord (die : Nat)
  /-- SUPERVISOR_RESTART (R351): A double trap restarts the die's supervisor from its signed image, ending held tasks. -/
  | supervisorRestart (die : Nat)
  /-- PRST (R369): Writing a partition number resets that partition. -/
  | prst (v : Word)
  /-- RESET_DRAIN_EXPIRY (R369): After 10 µs, parties of the reset partition still running stop at their next boundary. -/
  | resetDrainExpiry
  /-- PARTITION_RESET_COMPLETE (R369): The reset's last step completes and PRSTAT.busy clears. -/
  | partitionResetComplete
  /-- CPART (R318): Reassigns a whole column and starts its scrub. -/
  | cpart (v : Word)
  /-- SCRUB_COMPLETE (R331): A column scrub finishes and CPART.scrub clears. -/
  | scrubComplete (core : Nat)
  /-- FROWN (R385): Changes a frame's owner after zeroing it, refused for busy frames. -/
  | frown (v : Word)
  /-- FRAME_REASSIGN_COMPLETE (R385): An owner change completes once its rewrite is performed and residents are clear. -/
  | frameReassignComplete (k : Nat)
  /-- FRG (R317): Sets a partition's guaranteed frames, refused if guarantees exceed frames present. -/
  | frg (v : Word)
  /-- KEYB (R317): Sets a partition's first key slot, refused on overlap or overflow. -/
  | keyb (v : Word)
  /-- KEYN (R317): Sets a partition's key slot count, refused on overlap or overflow. -/
  | keyn (v : Word)
  /-- RSLOT (R317): Reserves or frees a ring entry, refused above 64. -/
  | rslot (v : Word)
  /-- FLPG (R248): Names a partition's flag page on the die, refused for a wrong frame. -/
  | flpg (v : Word)
  /-- ECAP (R334): Sets a partition's balance ceiling, refused for 0. -/
  | ecap (v : Word)
  /-- PLMAPS (R334): Sets a partition's level-to-schedule map, refused for a field of 3. -/
  | plmaps (v : Word)
  /-- PWSH (R334): Sets a partition's power share, refused if shares exceed 3,000 W. -/
  | pwsh (v : Word)
  /-- EADJ (R334): Adds a signed value to a partition's balance, clamped to ECAP. -/
  | eadj (v : Word)
  /-- CSTAT (R361): Writing failed takes a column out of service and ends its tasks. -/
  | cstat (v : Word)
  /-- DLBASE (R371): Sets the dirty-log frame, disabling the log if the frame belongs to a partition. -/
  | dlbase (v : Word)
  /-- DLTAIL (R371): Advancing the tail clears the dirty bits of the entries passed. -/
  | dltail (v : Word)
  /-- REGISTER_WRITE (R62): A write to a register without a row of its own applies under its fields' access codes. -/
  | registerWrite (target : RegTarget) (v : Nat)
  /-- GATE_GRANT (R250): A pending gate request is granted once the upper core is drained and empty. -/
  | gateGrant (core : Nat)
  /-- CORE_WAKE (R344): A gated core woken by PGATE 0, CPART or a hand-out runs within 2 µs. -/
  | coreWake (core : Nat)
  /-- OBJECT_DESTRUCTION (R323): After a destruction point the object's accesses drain, its range is unmapped, frames zeroed and freed. -/
  | objectDestruction (part id : Nat)
  /-- LINK_FAILURE (R205): A die-to-die or fabric link fails after a write was applied but before its acknowledgement returned, so the writer sends the write again by another path. -/
  | linkFailure (k : Nat)
  /-- TRELLIS_INSTRUCTION_END (R181): A long-running XTRW, XTRU, XTBLD or XTRD finishes, its accesses are performed, its signal token is pushed and the search unit becomes free. -/
  | trellisInstructionEnd (p : PartyId)
  /-- WEIGHT_STORE_WRITE_COMPLETE (R183): The last byte of an XWS is performed, its signal token is pushed and Trailhead may again start the partition's tasks on the die. -/
  | weightStoreWriteComplete (p : PartyId)
  /-- KEY_MANIFEST_LOAD (R318): The security controller loads keys from a signed manifest into key slots, which a reset partition needs before it runs again. -/
  | keyManifestLoad (k : KeyManifest)
  /-- FIRMWARE_IMAGE_LOAD (R380): A signed firmware image offered after phase 7 is verified and loaded, or refused with its phase-1 cause in MCAUSE while the old image stays. -/
  | firmwareImageLoad (i : Image)
  deriving DecidableEq, Repr, Inhabited

/-- A message that another device sends to an endpoint of this module (R206, R242–R248): endpoints, the partition it is
for, whether it is a flag, tag, which collective, element type and count, the sender's list and rank, a flag's number, its
bytes, and the causal context that it carries: its number among the messages of its endpoint to this device, and by
endpoint how many of such messages (of another device), or which number of a die's clock entry (of this device), it names. -/
structure Inbound where
  src : Nat
  dst : Nat
  part : Nat
  flag : Bool
  tag : Nat
  kind : Nat
  type : Nat
  count : Nat
  list : List Nat
  fromRank : Nat
  dfirst : Nat
  bytes : List Byte
  num : Nat
  clock : List (Nat × Nat)
  deriving DecidableEq, Repr, Inhabited

/-- Who moves next: a party issues; an event of the table occurs; a party's turn whose accesses go up to `n` writes behind the
present, or are left to be performed later, and the performing of its k-th such store (R187, R190); time passes (ns); a
protected word's bits flip, or a flipped bit of a memory that the model holds no bits of is corrected (R345); two bits flip in
an entry of a vector register, of a vertical FIFO, of an operand FIFO, or in a suffix memory (R345); bytes that no access of the
model moves are counted on a shared resource (R332: Hamper, die, fabric ports); issue is withheld from a task's engines, or its
requests are held back (R336, R366); bring-up goes on by one phase (R383); a message comes from another device (R377), its answer to
a flag of a collective queue (R248), or the report that a message of a task was matched wrongly (R244); the supervisor acts
where the spec gives it no register (R289, R290, R385). -/
inductive Turn where
  | issue (p : PartyId)
  | occur (i : Instr)
  | pass (ns : Nat)
  | flip (addr : Nat) (bits : Nat)
  | early (p : PartyId) (n : Nat)
  | perform (p : PartyId) (k : Nat)
  | corrected (die : Nat)
  | spoilScalar (p : PartyId) (n : Nat)
  | spoilVector (p : PartyId) (n k : Nat)
  | spoilVertical (core k : Nat)
  | spoilOperand (core : Nat) (second : Bool) (k : Nat)
  | spoilSuffix (n : Nat)
  | traffic (unit : Nat) (index : Nat) (bytes : Nat)
  | bringUp
  | withhold (core slot : Nat)
  | holdBack (core slot : Nat)
  | assignRows (part page va : Nat)
  | setTenant (row tenant : Nat)
  | receive (m : Inbound)
  | answer (p : PartyId) (refused : Bool)
  | mismatched (p : PartyId) (serial : Nat)
  | setAside (frame : Nat) (aside : Bool)
  deriving DecidableEq, Repr, Inhabited

end Sys2Proof
end

