-- ==== Sys2Proof/Config.lean ====
section
/-! DEFINITION. What the spec leaves to the environment or to the implementation, as constants without a body: a claim
about the machine holds whatever they are (R387; log 1, 9, 10, 11, 27, 73). -/

namespace Sys2Proof.Config

/-- Who moves next when the plan is empty (R251, R387: no order and no duration is fixed). -/
opaque turn : Nat → Turn

/-- A fresh open value: the n-th value that the spec leaves open is `freeNat n`. -/
opaque freeNat : Nat → Nat

/-- The order in which the granules of engine accesses come: a number for the granule `g` in turn `n` (R193, R209). -/
opaque arrival : Nat → Nat → Nat

/-- The Ed25519 signature of the device over bytes (R381): its private key is in no register. -/
opaque signature : List Byte → BitVec 512

/-- The identity public key (R381, R382). -/
opaque identityKey : BitVec 256

/-- The code of block type 0 for a value that no code of it serves (R98): 0 stands for every value above 8, any other number for a
value between 7 and 8 rounded up, in units of 2⁻³⁰⁰. (Log 73.) -/
opaque wideCode : Nat → Nat

/-- The pairing order of CRED: which of the partial vectors is taken next, for the n-th choice (R83, R245). -/
opaque pairing : Nat → Nat

/-- The owner that KSTATE shows of a key slot in no partition's range (R317). -/
opaque unownedKey : Nat → BitVec 6

end Sys2Proof.Config
end

