-- ==== Sys2Proof/WellFormed.lean ====
section
/-! DEFINITION. Which terms of `Instr` stand for a step that exists: the function and sub values that a word's
instruction assigns (R47, R120, R216, R271, R338), and the numbers that an event's operands may take (R12, R253, R315). -/

namespace Sys2Proof

/-- Global core numbers run over 17 cores of 16 dies (R12). -/
def coreOk (core : Nat) : Bool := decide (core < 272)

/-- A core has residency slots 0 and 1 (R258). -/
def slotOk (slot : Nat) : Bool := decide (slot < 2)

/-- A party of a core that exists. -/
def partyOk (p : PartyId) : Bool := coreOk p.core && slotOk p.slot

/-- Whether a failure of bring-up that the part does not find itself is one of R384's table: phase, reason, detail. `device` is the
number that the manifest gives the module. -/
def failureOk (device : Nat) (f : Nat × Nat × Nat) : Bool :=
  match f.1, f.2.1 with
  | 0, 1 => decide (f.2.2 = 0)
  | 2, 1 => decide (f.2.2 = 0)
  | 2, 3 => decide (f.2.2 < 2 ^ 16)
  | 3, 2 => decide (f.2.2 < 32)
  | 4, 1 => decide (f.2.2 < 128)
  | 4, 2 => decide (f.2.2 < 2 ^ 16)
  | 4, 3 => decide (f.2.2 < 2)
  | 5, 1 => decide (f.2.2 < 16)
  | 6, 1 => decide (f.2.2 < 16)
  | 6, 2 => decide (f.2.2 < 4)
  | 6, 3 => decide (f.2.2 = device)
  | _, _ => false

/-- The well-formedness of a step. -/
def Instr.wf : Instr → Bool
  | .add _ _ _ => true
  | .sub _ _ _ => true
  | .and _ _ _ => true
  | .or _ _ _ => true
  | .xor _ _ _ => true
  | .shl _ _ _ => true
  | .shr _ _ _ => true
  | .sar _ _ _ => true
  | .mul _ _ _ => true
  | .mulh _ _ _ => true
  | .mulhu _ _ _ => true
  | .div _ _ _ => true
  | .divu _ _ _ => true
  | .rem _ _ _ => true
  | .remu _ _ _ => true
  | .min _ _ _ => true
  | .max _ _ _ => true
  | .minu _ _ _ => true
  | .maxu _ _ _ => true
  | .slt _ _ _ => true
  | .sltu _ _ _ => true
  | .clz _ _ => true
  | .popc _ _ => true
  | .addi _ _ _ => true
  | .andi _ _ _ => true
  | .ori _ _ _ => true
  | .xori _ _ _ => true
  | .slti _ _ _ => true
  | .sltiu _ _ _ => true
  | .shli _ _ _ => true
  | .shri _ _ _ => true
  | .sari _ _ _ => true
  | .lui _ _ => true
  | .addpc _ _ => true
  | .agen _ _ _ _ => true
  | .beq _ _ _ => true
  | .bne _ _ _ => true
  | .blt _ _ _ => true
  | .bge _ _ _ => true
  | .bltu _ _ _ => true
  | .bgeu _ _ _ => true
  | .jmp _ => true
  | .jal _ => true
  | .jr _ _ => true
  | .loop _ _ _ => true
  | .loopi _ _ _ => true
  | .rep _ => true
  | .lexit _ => true
  | .mfs _ _ => true
  | .mts _ _ => true
  | .tokw _ => true
  | .toks _ => true
  | .nop => true
  | .endOp => true
  | .trap _ => true
  | .waitev _ _ _ => true
  | .ldb _ _ _ _ _ => true
  | .ldh _ _ _ _ _ => true
  | .ldw _ _ _ _ _ => true
  | .ldd _ _ _ _ _ => true
  | .ldbu _ _ _ _ _ => true
  | .ldhu _ _ _ _ _ => true
  | .ldwu _ _ _ _ _ => true
  | .lda _ _ _ _ _ => true
  | .ldc _ _ _ _ _ => true
  | .stb _ _ _ _ _ => true
  | .sth _ _ _ _ _ => true
  | .stw _ _ _ _ _ => true
  | .std _ _ _ _ _ => true
  | .stl _ _ _ _ _ => true
  | .amoAdd _ _ _ _ _ _ => true
  | .amoAnd _ _ _ _ _ _ => true
  | .amoOr _ _ _ _ _ _ => true
  | .amoXor _ _ _ _ _ _ => true
  | .amoMin _ _ _ _ _ _ => true
  | .amoMax _ _ _ _ _ _ => true
  | .amoSwap _ _ _ _ _ _ => true
  | .cas _ _ _ _ _ _ => true
  | .fence _ _ p _ => decide (p.toNat = 0 ∨ (p.toNat % 4 ≠ 0 ∧ p.toNat / 4 ≠ 0))
  | .qfence _ _ _ => true
  | .mwait _ _ _ _ _ => true
  | .mwaitWake p => partyOk p
  | .enq _ _ f n _ q => decide (q.toNat ≤ 5) && decide (n.toNat ≤ 4) && (n != 0 || f == 0)
  | .mark _ _ _ _ => true
  | .rdv _ _ _ => true
  | .notify _ _ _ => true
  | .join _ _ _ => true
  | .leave _ _ _ => true
  | .bar _ _ _ => true
  | .wlock _ _ => true
  | .wfree _ _ => true
  | .sstep _ _ _ => true
  | .superstepAdvance part queue => decide (part < 64) && decide (queue < 32)
  | .probe _ _ _ _ => true
  | .unpin _ _ _ _ => true
  | .phswap _ _ _ => true
  | .eret _ _ _ _ => true
  | .ctxsv _ _ _ _ => true
  | .ctxld _ _ _ _ _ => true
  | .pgate _ _ _ => true
  | .clkdiv _ _ _ _ _ => true
  | .swpt _ v => decide (v.toNat ≤ 2)
  | .boost _ _ _ _ => true
  | .seqclm _ _ _ _ _ => true
  | .seqadv _ _ _ _ _ => true
  | .sxqry _ _ _ _ _ => true
  | .hnew _ _ _ _ _ => true
  | .hfree _ _ _ _ => true
  | .hldw _ _ _ _ _ => true
  | .bgone _ _ _ => true
  | .hupg _ _ _ _ => true
  | .hdng _ _ _ _ => true
  | .hpri _ _ _ _ _ => true
  | .winopen _ _ _ _ => true
  | .winpub _ _ _ _ _ => true
  | .winacq _ _ _ _ => true
  | .winclose _ _ _ => true
  | .sxapp _ _ _ _ _ => true
  | .sxsav _ _ _ _ _ => true
  | .sxld _ _ _ _ _ => true
  | .sxrst _ _ _ _ _ => true
  | .vadd _ _ _ _ _ _ _ _ => true
  | .vsub _ _ _ _ _ _ _ _ => true
  | .vmul _ _ _ _ _ _ _ _ => true
  | .vfma _ _ _ _ _ _ _ _ => true
  | .vmin _ _ _ _ _ _ _ _ => true
  | .vmax _ _ _ _ _ _ _ _ => true
  | .vabs _ _ _ _ _ _ => true
  | .vcmp _ _ _ _ _ _ _ _ _ => true
  | .vsel _ _ _ _ _ _ _ _ => true
  | .vand _ _ _ _ _ _ _ _ => true
  | .vor _ _ _ _ _ _ _ _ => true
  | .vxor _ _ _ _ _ _ _ _ => true
  | .vshl _ _ _ _ _ _ _ _ => true
  | .vshr _ _ _ _ _ _ _ _ => true
  | .vcvt _ _ _ _ _ _ _ => true
  | .vqnt _ _ _ _ _ _ _ _ _ => true
  | .vdq _ _ _ _ _ _ _ _ _ => true
  | .vbpk _ _ _ _ _ _ _ => true
  | .vbun _ _ _ _ _ _ _ => true
  | .vrcp _ _ _ _ _ _ => true
  | .vrsq _ _ _ _ _ _ => true
  | .vexp2 _ _ _ _ _ _ => true
  | .vlog2 _ _ _ _ _ _ => true
  | .vred _ _ _ _ _ _ n => decide (n.toNat ≤ 2)
  | .vscan _ _ _ _ _ _ _ => true
  | .vperm _ _ _ _ _ _ _ _ => true
  | .vbcsElement _ _ _ _ _ _ _ => true
  | .vbcsScalar _ _ _ _ _ => true
  | .vimm _ _ _ _ => true
  | .vmov _ _ _ _ _ _ => true
  | .vmovA _ _ _ _ _ _ => true
  | .vaddi _ _ _ _ => true
  | .vspsh _ _ _ _ _ => true
  | .vspop _ _ _ _ => true
  | .vsbal _ _ _ => true
  | .gcfg _ _ _ _ => true
  | .grst _ _ _ => true
  | .vnoise _ _ _ _ _ _ _ n => decide (n.toNat ≤ 1)
  | .vqEntryArrival core => coreOk core
  | .mnest _ _ _ _ => true
  | .mrun _ _ _ _ _ => true
  | .runComplete core => coreOk core
  | .mzero _ _ _ => true
  | .mldc _ _ _ _ => true
  | .mldcComplete core => coreOk core
  | .mdrain _ _ _ _ _ => true
  | .drainComplete core => coreOk core
  | .mkat _ _ _ => true
  | .msig _ _ _ _ => true
  | .mwt _ _ => true
  | .xcopy _ _ _ _ => true
  | .xfill _ _ _ _ => true
  | .xgath _ _ _ _ => true
  | .xscat _ _ _ _ => true
  | .xfeed _ _ _ _ _ => true
  | .copyChunkComplete p => partyOk p
  | .xtrw _ _ _ => true
  | .xtru _ _ _ _ => true
  | .xtrd _ _ _ _ => true
  | .xtbld _ _ _ _ => true
  | .xtdef _ _ _ _ => true
  | .xcrc _ _ _ _ _ => true
  | .xws _ _ _ => true
  | .xref _ _ _ _ _ => true
  | .csend _ _ _ => true
  | .crecv _ _ _ => true
  | .cred _ _ _ => true
  | .cbcast _ _ _ => true
  | .ca2a _ _ _ => true
  | .cgath _ _ _ => true
  | .csamp _ _ _ => true
  | .cflag _ _ _ _ => true
  | .collectiveMessageArrival _ => true
  | .flagMessageArrival _ => true
  | .sscfg _ _ _ _ => true
  | .ssfeed _ _ _ => true
  | .entryBegin p => partyOk p
  | .markRetire p => partyOk p
  | .notifyRetire p => partyOk p
  | .qfenceJoinRelease core slot => coreOk core && slotOk slot
  | .waitevTimeout p => partyOk p
  | .powerGood b => b.failure.all (failureOk b.manifest.device)
  | .flitCrcError => true
  | .remoteWriteArrival _ => true
  | .remoteLoadArrival _ => true
  | .hostAccess fn _ => decide (fn < 65)
  | .fabricMemoryRequest _ _ => true
  | .fabricLaunchPacket k => decide (k.record.length = 64)
  | .qwp fn queue _ => decide (fn < 64) && decide (queue < 32)
  | .qcfg fn queue _ => decide (fn < 64) && decide (queue < 32)
  | .qbase fn queue _ => decide (fn < 64) && decide (queue < 32)
  | .qcpl fn queue _ => decide (fn < 64) && decide (queue < 32)
  | .qstat fn queue _ => decide (fn < 64) && decide (queue < 32)
  | .atgo _ => true
  | .residencyReport => true
  | .launchHead part queue => decide (part < 64) && decide (queue < 32)
  | .taskStart core => coreOk core
  | .taskResume core => coreOk core
  | .taskCompletion core slot => coreOk core && slotOk slot
  | .interruptCoalesceExpiry part queue => decide (part < 64) && decide (queue < 32)
  | .preemptWaitExpiry part => decide (part < 64)
  | .preemption core slot => coreOk core && slotOk slot
  | .energyTick _ => true
  | .energyRefill => true
  | .levelGrant _ => true
  | .boostInterval => true
  | .boostRefill => true
  | .lookoutTick => true
  | .lookoutExpiry part queue => decide (part < 64) && decide (queue < 32)
  | .katbThreshold core => coreOk core
  | .katCheck core _ => coreOk core
  | .counterPublish => true
  | .patrolRead _ => true
  | .phaseCancel core slot => coreOk core && slotOk slot
  | .contextError core slot => coreOk core && slotOk slot
  | .takeRecord die => decide (die < 16)
  | .supervisorRestart die => decide (die < 16)
  | .prst _ => true
  | .resetDrainExpiry => true
  | .partitionResetComplete => true
  | .cpart _ => true
  | .scrubComplete core => coreOk core
  | .frown _ => true
  | .frameReassignComplete _ => true
  | .frg _ => true
  | .keyb _ => true
  | .keyn _ => true
  | .rslot _ => true
  | .flpg _ => true
  | .ecap _ => true
  | .plmaps _ => true
  | .pwsh _ => true
  | .eadj _ => true
  | .cstat _ => true
  | .dlbase _ => true
  | .dltail _ => true
  | .registerWrite _ _ => true
  | .gateGrant core => coreOk core
  | .coreWake core => coreOk core
  | .objectDestruction part _ => decide (part < 64)
  | .linkFailure _ => true
  | .trellisInstructionEnd p => partyOk p
  | .weightStoreWriteComplete p => partyOk p
  | .keyManifestLoad _ => true
  | .firmwareImageLoad _ => true
end Sys2Proof
end

