-- ==== Sys2Proof/Decode.lean ====
section
/-! DEFINITION. Decoding of instruction words (R45-R60), total on every word and rejecting by name, and after it the
encoder. Which private map applies is the executing party's (R46): `Kind`. -/

namespace Sys2Proof

/-- Whose opcode map a private-half word is read in (R46). -/
inductive Kind where
  | wing | vector | matrix | copy | collective | swallowtail
  deriving DecidableEq, Repr, Inhabited

/-- The map that a party's private half uses (R46); X and Y share one. -/
def Party.kind : Party → Kind
  | .w0 | .w1 | .w2 | .w3 => .wing
  | .m => .matrix
  | .v => .vector
  | .x | .y => .copy
  | .c => .collective
  | .s => .swallowtail

/-- Why a word is an illegal instruction (R47). -/
inductive DecodeError where
  | allZero | allOnes | reservedMajor | reservedOp | reservedFunction | reservedField
  deriving DecidableEq, Repr, Inhabited

/-- Bits [lo + len - 1 : lo] of a word, `field` of R8. -/
def fld (x : IWord) (lo len : Nat) : BitVec len := BitVec.ofNat len (x.toNat / 2 ^ lo)

/-- The instruction when the word's reserved bits are as they must be (R47, R50). -/
def need (ok : Bool) (i : Instr) : Except DecodeError Instr :=
  if ok then .ok i else .error .reservedField

/-- The integer group, major 0x01, by its function field (R57, R108). -/
def decodeInteger (x : IWord) : Except DecodeError Instr :=
  match (fld x 0 7).toNat with
  | 0x00 => .ok (.add (fld x 19 6) (fld x 13 6) (fld x 7 6))
  | 0x01 => .ok (.sub (fld x 19 6) (fld x 13 6) (fld x 7 6))
  | 0x02 => .ok (.and (fld x 19 6) (fld x 13 6) (fld x 7 6))
  | 0x03 => .ok (.or (fld x 19 6) (fld x 13 6) (fld x 7 6))
  | 0x04 => .ok (.xor (fld x 19 6) (fld x 13 6) (fld x 7 6))
  | 0x05 => .ok (.shl (fld x 19 6) (fld x 13 6) (fld x 7 6))
  | 0x06 => .ok (.shr (fld x 19 6) (fld x 13 6) (fld x 7 6))
  | 0x07 => .ok (.sar (fld x 19 6) (fld x 13 6) (fld x 7 6))
  | 0x08 => .ok (.mul (fld x 19 6) (fld x 13 6) (fld x 7 6))
  | 0x09 => .ok (.mulh (fld x 19 6) (fld x 13 6) (fld x 7 6))
  | 0x0A => .ok (.mulhu (fld x 19 6) (fld x 13 6) (fld x 7 6))
  | 0x0B => .ok (.div (fld x 19 6) (fld x 13 6) (fld x 7 6))
  | 0x0C => .ok (.divu (fld x 19 6) (fld x 13 6) (fld x 7 6))
  | 0x0D => .ok (.rem (fld x 19 6) (fld x 13 6) (fld x 7 6))
  | 0x0E => .ok (.remu (fld x 19 6) (fld x 13 6) (fld x 7 6))
  | 0x0F => .ok (.min (fld x 19 6) (fld x 13 6) (fld x 7 6))
  | 0x10 => .ok (.max (fld x 19 6) (fld x 13 6) (fld x 7 6))
  | 0x11 => .ok (.minu (fld x 19 6) (fld x 13 6) (fld x 7 6))
  | 0x12 => .ok (.maxu (fld x 19 6) (fld x 13 6) (fld x 7 6))
  | 0x13 => .ok (.slt (fld x 19 6) (fld x 13 6) (fld x 7 6))
  | 0x14 => .ok (.sltu (fld x 19 6) (fld x 13 6) (fld x 7 6))
  | 0x15 => need (fld x 7 6 == 0) (.clz (fld x 19 6) (fld x 13 6))
  | 0x16 => need (fld x 7 6 == 0) (.popc (fld x 19 6) (fld x 13 6))
  | _ => .error .reservedFunction

/-- The control subset, by its major opcode (R56); every party decodes it alike (R46). -/
def decodeControl (x : IWord) : Except DecodeError Instr :=
  match (fld x 25 6).toNat with
  | 0x01 => decodeInteger x
  | 0x02 => .ok (.addi (fld x 19 6) (fld x 13 6) (fld x 0 13))
  | 0x03 => .ok (.andi (fld x 19 6) (fld x 13 6) (fld x 0 13))
  | 0x04 => .ok (.ori (fld x 19 6) (fld x 13 6) (fld x 0 13))
  | 0x05 => .ok (.xori (fld x 19 6) (fld x 13 6) (fld x 0 13))
  | 0x06 => .ok (.slti (fld x 19 6) (fld x 13 6) (fld x 0 13))
  | 0x07 => .ok (.sltiu (fld x 19 6) (fld x 13 6) (fld x 0 13))
  | 0x08 => need (fld x 6 7 == 0) (.shli (fld x 19 6) (fld x 13 6) (fld x 0 6))
  | 0x09 => need (fld x 6 7 == 0) (.shri (fld x 19 6) (fld x 13 6) (fld x 0 6))
  | 0x0A => need (fld x 6 7 == 0) (.sari (fld x 19 6) (fld x 13 6) (fld x 0 6))
  | 0x0B => .ok (.lui (fld x 19 6) (fld x 0 19))
  | 0x0C => .ok (.addpc (fld x 19 6) (fld x 0 19))
  | 0x0D => need (fld x 4 3 == 0) (.agen (fld x 19 6) (fld x 13 6) (fld x 7 6) (fld x 0 4))
  | 0x10 => .ok (.beq (fld x 19 6) (fld x 13 6) (fld x 0 13))
  | 0x11 => .ok (.bne (fld x 19 6) (fld x 13 6) (fld x 0 13))
  | 0x12 => .ok (.blt (fld x 19 6) (fld x 13 6) (fld x 0 13))
  | 0x13 => .ok (.bge (fld x 19 6) (fld x 13 6) (fld x 0 13))
  | 0x14 => .ok (.bltu (fld x 19 6) (fld x 13 6) (fld x 0 13))
  | 0x15 => .ok (.bgeu (fld x 19 6) (fld x 13 6) (fld x 0 13))
  | 0x16 => .ok (.jmp (fld x 0 25))
  | 0x17 => .ok (.jal (fld x 0 25))
  | 0x18 => need (fld x 19 6 == 0) (.jr (fld x 13 6) (fld x 0 13))
  | 0x19 => need (fld x 13 4 == 0) (.loop (fld x 23 2) (fld x 17 6) (fld x 0 13))
  | 0x1A => .ok (.loopi (fld x 23 2) (fld x 13 10) (fld x 0 13))
  | 0x1B => need (fld x 0 13 == 0 && fld x 23 2 == 0) (.rep (fld x 13 10))
  | 0x1C => need (fld x 0 23 == 0) (.lexit (fld x 23 2))
  | 0x20 => need (fld x 13 6 == 0) (.mfs (fld x 19 6) (fld x 0 13))
  | 0x21 => need (fld x 19 6 == 0) (.mts (fld x 13 6) (fld x 0 13))
  | 0x22 => need (fld x 2 23 == 0) (.tokw (fld x 0 2))
  | 0x23 => need (fld x 2 23 == 0) (.toks (fld x 0 2))
  | 0x24 => need (fld x 0 25 == 0) .nop
  | 0x25 => need (fld x 0 25 == 0) .endOp
  | 0x26 => need (fld x 19 6 == 0) (.trap (fld x 0 19))
  | 0x27 => need (fld x 5 8 == 0) (.waitev (fld x 19 6) (fld x 13 6) (fld x 0 5))
  | _ => .error .reservedMajor

/-- AMO by its sub field (R58, R81); the two low bits of op are the order. -/
def decodeAmo (x : IWord) : Except DecodeError Instr :=
  match (fld x 0 3).toNat with
  | 0 => .ok (.amoAdd (fld x 29 2) (fld x 27 2) (fld x 21 2) (fld x 15 6) (fld x 9 6) (fld x 3 6))
  | 1 => .ok (.amoAnd (fld x 29 2) (fld x 27 2) (fld x 21 2) (fld x 15 6) (fld x 9 6) (fld x 3 6))
  | 2 => .ok (.amoOr (fld x 29 2) (fld x 27 2) (fld x 21 2) (fld x 15 6) (fld x 9 6) (fld x 3 6))
  | 3 => .ok (.amoXor (fld x 29 2) (fld x 27 2) (fld x 21 2) (fld x 15 6) (fld x 9 6) (fld x 3 6))
  | 4 => .ok (.amoMin (fld x 29 2) (fld x 27 2) (fld x 21 2) (fld x 15 6) (fld x 9 6) (fld x 3 6))
  | 5 => .ok (.amoMax (fld x 29 2) (fld x 27 2) (fld x 21 2) (fld x 15 6) (fld x 9 6) (fld x 3 6))
  | 6 => .ok (.amoSwap (fld x 29 2) (fld x 27 2) (fld x 21 2) (fld x 15 6) (fld x 9 6) (fld x 3 6))
  | _ => .error .reservedFunction

/-- The private half of the wings (R58), by its op. -/
def decodeWing (x : IWord) : Except DecodeError Instr :=
  match (fld x 21 6).toNat with
  | 0x01 => .ok (.ldb (fld x 29 2) (fld x 27 2) (fld x 15 6) (fld x 9 6) (fld x 0 9))
  | 0x02 => .ok (.ldh (fld x 29 2) (fld x 27 2) (fld x 15 6) (fld x 9 6) (fld x 0 9))
  | 0x03 => .ok (.ldw (fld x 29 2) (fld x 27 2) (fld x 15 6) (fld x 9 6) (fld x 0 9))
  | 0x04 => .ok (.ldd (fld x 29 2) (fld x 27 2) (fld x 15 6) (fld x 9 6) (fld x 0 9))
  | 0x05 => .ok (.ldbu (fld x 29 2) (fld x 27 2) (fld x 15 6) (fld x 9 6) (fld x 0 9))
  | 0x06 => .ok (.ldhu (fld x 29 2) (fld x 27 2) (fld x 15 6) (fld x 9 6) (fld x 0 9))
  | 0x07 => .ok (.ldwu (fld x 29 2) (fld x 27 2) (fld x 15 6) (fld x 9 6) (fld x 0 9))
  | 0x08 => .ok (.lda (fld x 29 2) (fld x 27 2) (fld x 15 6) (fld x 9 6) (fld x 0 9))
  | 0x09 => .ok (.ldc (fld x 29 2) (fld x 27 2) (fld x 15 6) (fld x 9 6) (fld x 0 9))
  | 0x0A => .ok (.stb (fld x 29 2) (fld x 27 2) (fld x 15 6) (fld x 9 6) (fld x 0 9))
  | 0x0B => .ok (.sth (fld x 29 2) (fld x 27 2) (fld x 15 6) (fld x 9 6) (fld x 0 9))
  | 0x0C => .ok (.stw (fld x 29 2) (fld x 27 2) (fld x 15 6) (fld x 9 6) (fld x 0 9))
  | 0x0D => .ok (.std (fld x 29 2) (fld x 27 2) (fld x 15 6) (fld x 9 6) (fld x 0 9))
  | 0x0E => .ok (.stl (fld x 29 2) (fld x 27 2) (fld x 15 6) (fld x 9 6) (fld x 0 9))
  | 0x0F => need (fld x 0 3 == 0) (.seqclm (fld x 29 2) (fld x 27 2) (fld x 15 6) (fld x 9 6) (fld x 3 6))
  | 0x10 => decodeAmo x
  | 0x11 => decodeAmo x
  | 0x12 => decodeAmo x
  | 0x13 => decodeAmo x
  | 0x14 => need (fld x 2 1 == 0) (.cas (fld x 29 2) (fld x 27 2) (fld x 15 6) (fld x 9 6) (fld x 3 6) (fld x 0 2))
  | 0x15 => need (fld x 2 13 == 0 && fld x 19 2 == 0) (.fence (fld x 29 2) (fld x 27 2) (fld x 15 4) (fld x 0 2))
  | 0x16 => need (fld x 0 15 == 0 && fld x 19 2 == 0) (.qfence (fld x 29 2) (fld x 27 2) (fld x 15 4))
  | 0x17 => need (fld x 0 3 == 0) (.mwait (fld x 29 2) (fld x 27 2) (fld x 15 6) (fld x 9 6) (fld x 3 6))
  | 0x18 => .ok (.enq (fld x 29 2) (fld x 27 2) (fld x 15 6) (fld x 12 3) (fld x 3 9) (fld x 0 3))
  | 0x19 => need (fld x 0 9 == 0 && fld x 19 2 == 0) (.mark (fld x 29 2) (fld x 27 2) (fld x 15 4) (fld x 9 6))
  | 0x1A => need (fld x 0 15 == 0 && fld x 19 2 == 0) (.rdv (fld x 29 2) (fld x 27 2) (fld x 15 4))
  | 0x1B => need (fld x 0 9 == 0 && fld x 15 6 == 0) (.notify (fld x 29 2) (fld x 27 2) (fld x 9 6))
  | 0x1C => need (fld x 0 9 == 0 && fld x 15 6 == 0) (.join (fld x 29 2) (fld x 27 2) (fld x 9 6))
  | 0x1D => need (fld x 0 9 == 0 && fld x 15 6 == 0) (.leave (fld x 29 2) (fld x 27 2) (fld x 9 6))
  | 0x1E => need (fld x 0 9 == 0 && fld x 15 6 == 0) (.bar (fld x 29 2) (fld x 27 2) (fld x 9 6))
  | 0x1F => need (fld x 0 21 == 0) (.wlock (fld x 29 2) (fld x 27 2))
  | 0x20 => need (fld x 0 21 == 0) (.wfree (fld x 29 2) (fld x 27 2))
  | 0x21 => need (fld x 0 15 == 0) (.sstep (fld x 29 2) (fld x 27 2) (fld x 15 6))
  | 0x22 => need (fld x 0 3 == 0 && fld x 15 6 == 0) (.probe (fld x 29 2) (fld x 27 2) (fld x 9 6) (fld x 3 6))
  | 0x23 => need (fld x 0 3 == 0 && fld x 15 6 == 0) (.unpin (fld x 29 2) (fld x 27 2) (fld x 9 6) (fld x 3 6))
  | 0x24 => need (fld x 3 18 == 0) (.phswap (fld x 29 2) (fld x 27 2) (fld x 0 3))
  | 0x27 => need (fld x 0 9 == 0) (.eret (fld x 29 2) (fld x 27 2) (fld x 15 6) (fld x 9 6))
  | 0x28 => need (fld x 0 9 == 0) (.ctxsv (fld x 29 2) (fld x 27 2) (fld x 15 6) (fld x 9 6))
  | 0x29 => need (fld x 0 3 == 0) (.ctxld (fld x 29 2) (fld x 27 2) (fld x 15 6) (fld x 9 6) (fld x 3 6))
  | 0x2A => need (fld x 0 9 == 0 && fld x 15 6 == 0) (.pgate (fld x 29 2) (fld x 27 2) (fld x 9 6))
  | 0x2B => need (fld x 0 3 == 0) (.clkdiv (fld x 29 2) (fld x 27 2) (fld x 15 6) (fld x 9 6) (fld x 3 6))
  | 0x2C => need (fld x 11 10 == 0 && fld x 27 4 == 0) (.swpt (fld x 3 8) (fld x 0 3))
  | 0x2D => need (fld x 0 9 == 0) (.boost (fld x 29 2) (fld x 27 2) (fld x 15 6) (fld x 9 6))
  | 0x2E => need (fld x 0 3 == 0) (.seqadv (fld x 29 2) (fld x 27 2) (fld x 15 6) (fld x 9 6) (fld x 3 6))
  | 0x2F => need (fld x 0 3 == 0) (.sxqry (fld x 29 2) (fld x 27 2) (fld x 15 6) (fld x 9 6) (fld x 3 6))
  | 0x30 => need (fld x 0 3 == 0) (.hnew (fld x 29 2) (fld x 27 2) (fld x 15 6) (fld x 9 6) (fld x 3 6))
  | 0x31 => need (fld x 0 9 == 0) (.hfree (fld x 29 2) (fld x 27 2) (fld x 15 6) (fld x 9 6))
  | 0x32 => need (fld x 0 3 == 0) (.hldw (fld x 29 2) (fld x 27 2) (fld x 15 6) (fld x 9 6) (fld x 3 6))
  | 0x33 => need (fld x 0 3 == 0) (.bgone (fld x 29 2) (fld x 27 2) (fld x 3 18))
  | 0x34 => need (fld x 0 9 == 0) (.hupg (fld x 29 2) (fld x 27 2) (fld x 15 6) (fld x 9 6))
  | 0x35 => need (fld x 0 9 == 0) (.hdng (fld x 29 2) (fld x 27 2) (fld x 15 6) (fld x 9 6))
  | 0x36 => need (fld x 0 3 == 0) (.hpri (fld x 29 2) (fld x 27 2) (fld x 15 6) (fld x 9 6) (fld x 3 6))
  | 0x37 => need (fld x 0 9 == 0) (.winopen (fld x 29 2) (fld x 27 2) (fld x 15 6) (fld x 9 6))
  | 0x38 => need (fld x 0 3 == 0) (.winpub (fld x 29 2) (fld x 27 2) (fld x 15 6) (fld x 9 6) (fld x 3 6))
  | 0x39 => need (fld x 0 9 == 0) (.winacq (fld x 29 2) (fld x 27 2) (fld x 15 6) (fld x 9 6))
  | 0x3A => need (fld x 0 9 == 0 && fld x 15 6 == 0) (.winclose (fld x 29 2) (fld x 27 2) (fld x 9 6))
  | 0x3B => need (fld x 0 3 == 0) (.sxapp (fld x 29 2) (fld x 27 2) (fld x 15 6) (fld x 9 6) (fld x 3 6))
  | 0x3C => need (fld x 0 3 == 0) (.sxsav (fld x 29 2) (fld x 27 2) (fld x 15 6) (fld x 9 6) (fld x 3 6))
  | 0x3D => need (fld x 0 3 == 0) (.sxld (fld x 29 2) (fld x 27 2) (fld x 15 6) (fld x 9 6) (fld x 3 6))
  | 0x3E => need (fld x 0 3 == 0) (.sxrst (fld x 29 2) (fld x 27 2) (fld x 15 6) (fld x 9 6) (fld x 3 6))
  | _ => .error .reservedOp

/-- The private half of the vector engine (R59), by its op. -/
def decodeVector (x : IWord) : Except DecodeError Instr :=
  match (fld x 21 6).toNat with
  | 0x01 => need (fld x 0 2 == 0) (.vadd (fld x 29 2) (fld x 27 2) (fld x 16 5) (fld x 11 5) (fld x 6 5) (fld x 4 2) (fld x 3 1) (fld x 2 1))
  | 0x02 => need (fld x 0 2 == 0) (.vsub (fld x 29 2) (fld x 27 2) (fld x 16 5) (fld x 11 5) (fld x 6 5) (fld x 4 2) (fld x 3 1) (fld x 2 1))
  | 0x03 => need (fld x 0 2 == 0) (.vmul (fld x 29 2) (fld x 27 2) (fld x 16 5) (fld x 11 5) (fld x 6 5) (fld x 4 2) (fld x 3 1) (fld x 2 1))
  | 0x04 => need (fld x 0 2 == 0) (.vfma (fld x 29 2) (fld x 27 2) (fld x 16 5) (fld x 11 5) (fld x 6 5) (fld x 4 2) (fld x 3 1) (fld x 2 1))
  | 0x05 => need (fld x 0 2 == 0) (.vmin (fld x 29 2) (fld x 27 2) (fld x 16 5) (fld x 11 5) (fld x 6 5) (fld x 4 2) (fld x 3 1) (fld x 2 1))
  | 0x06 => need (fld x 0 2 == 0) (.vmax (fld x 29 2) (fld x 27 2) (fld x 16 5) (fld x 11 5) (fld x 6 5) (fld x 4 2) (fld x 3 1) (fld x 2 1))
  | 0x07 => need (fld x 0 3 == 0 && fld x 6 5 == 0) (.vabs (fld x 29 2) (fld x 27 2) (fld x 16 5) (fld x 11 5) (fld x 4 2) (fld x 3 1))
  | 0x08 => .ok (.vcmp (fld x 29 2) (fld x 27 2) (fld x 16 5) (fld x 11 5) (fld x 6 5) (fld x 4 2) (fld x 3 1) (fld x 2 1) (fld x 0 2))
  | 0x09 => need (fld x 0 2 == 0) (.vsel (fld x 29 2) (fld x 27 2) (fld x 16 5) (fld x 11 5) (fld x 6 5) (fld x 4 2) (fld x 3 1) (fld x 2 1))
  | 0x0A => need (fld x 0 2 == 0) (.vand (fld x 29 2) (fld x 27 2) (fld x 16 5) (fld x 11 5) (fld x 6 5) (fld x 4 2) (fld x 3 1) (fld x 2 1))
  | 0x0B => need (fld x 0 2 == 0) (.vor (fld x 29 2) (fld x 27 2) (fld x 16 5) (fld x 11 5) (fld x 6 5) (fld x 4 2) (fld x 3 1) (fld x 2 1))
  | 0x0C => need (fld x 0 2 == 0) (.vxor (fld x 29 2) (fld x 27 2) (fld x 16 5) (fld x 11 5) (fld x 6 5) (fld x 4 2) (fld x 3 1) (fld x 2 1))
  | 0x0D => need (fld x 0 2 == 0) (.vshl (fld x 29 2) (fld x 27 2) (fld x 16 5) (fld x 11 5) (fld x 6 5) (fld x 4 2) (fld x 3 1) (fld x 2 1))
  | 0x0E => need (fld x 0 2 == 0) (.vshr (fld x 29 2) (fld x 27 2) (fld x 16 5) (fld x 11 5) (fld x 6 5) (fld x 4 2) (fld x 3 1) (fld x 2 1))
  | 0x10 => need (fld x 2 1 == 0 && fld x 6 5 == 0) (.vcvt (fld x 29 2) (fld x 27 2) (fld x 16 5) (fld x 11 5) (fld x 4 2) (fld x 3 1) (fld x 0 2))
  | 0x11 => .ok (.vqnt (fld x 29 2) (fld x 27 2) (fld x 16 5) (fld x 11 5) (fld x 6 5) (fld x 4 2) (fld x 3 1) (fld x 2 1) (fld x 0 2))
  | 0x12 => .ok (.vdq (fld x 29 2) (fld x 27 2) (fld x 16 5) (fld x 11 5) (fld x 6 5) (fld x 4 2) (fld x 3 1) (fld x 2 1) (fld x 0 2))
  | 0x13 => need (fld x 0 3 == 0) (.vbpk (fld x 29 2) (fld x 27 2) (fld x 16 5) (fld x 11 5) (fld x 6 5) (fld x 4 2) (fld x 3 1))
  | 0x14 => need (fld x 0 3 == 0) (.vbun (fld x 29 2) (fld x 27 2) (fld x 16 5) (fld x 11 5) (fld x 6 5) (fld x 4 2) (fld x 3 1))
  | 0x15 => need (fld x 0 3 == 0 && fld x 6 5 == 0) (.vrcp (fld x 29 2) (fld x 27 2) (fld x 16 5) (fld x 11 5) (fld x 4 2) (fld x 3 1))
  | 0x16 => need (fld x 0 3 == 0 && fld x 6 5 == 0) (.vrsq (fld x 29 2) (fld x 27 2) (fld x 16 5) (fld x 11 5) (fld x 4 2) (fld x 3 1))
  | 0x17 => need (fld x 0 3 == 0 && fld x 6 5 == 0) (.vexp2 (fld x 29 2) (fld x 27 2) (fld x 16 5) (fld x 11 5) (fld x 4 2) (fld x 3 1))
  | 0x18 => need (fld x 0 3 == 0 && fld x 6 5 == 0) (.vlog2 (fld x 29 2) (fld x 27 2) (fld x 16 5) (fld x 11 5) (fld x 4 2) (fld x 3 1))
  | 0x19 => need (fld x 2 1 == 0 && fld x 6 5 == 0) (.vred (fld x 29 2) (fld x 27 2) (fld x 16 5) (fld x 11 5) (fld x 4 2) (fld x 3 1) (fld x 0 2))
  | 0x1A => need (fld x 2 1 == 0 && fld x 6 5 == 0) (.vscan (fld x 29 2) (fld x 27 2) (fld x 16 5) (fld x 11 5) (fld x 4 2) (fld x 3 1) (fld x 0 2))
  | 0x1B => need (fld x 0 2 == 0) (.vperm (fld x 29 2) (fld x 27 2) (fld x 16 5) (fld x 11 5) (fld x 6 5) (fld x 4 2) (fld x 3 1) (fld x 2 1))
  | 0x1C => if fld x 0 2 == 0 then need (fld x 2 1 == 0) (.vbcsElement (fld x 29 2) (fld x 27 2) (fld x 16 5) (fld x 11 5) (fld x 6 5) (fld x 4 2) (fld x 3 1))
    else need (fld x 0 4 == 1 && fld x 11 5 == 0) (.vbcsScalar (fld x 29 2) (fld x 27 2) (fld x 16 5) (fld x 6 5) (fld x 4 2))
  | 0x1D => .ok (.vimm (fld x 29 2) (fld x 27 2) (fld x 16 5) (fld x 0 16))
  | 0x1E => if fld x 0 2 == 0 then need (fld x 2 1 == 0 && fld x 6 5 == 0) (.vmov (fld x 29 2) (fld x 27 2) (fld x 16 5) (fld x 11 5) (fld x 4 2) (fld x 3 1))
    else need (fld x 0 3 == 1 && fld x 6 5 == 0) (.vmovA (fld x 29 2) (fld x 27 2) (fld x 16 5) (fld x 11 5) (fld x 4 2) (fld x 3 1))
  | 0x1F => .ok (.vaddi (fld x 29 2) (fld x 27 2) (fld x 16 5) (fld x 0 16))
  | 0x20 => need (fld x 0 3 == 0 && fld x 4 7 == 0) (.vspsh (fld x 29 2) (fld x 27 2) (fld x 16 5) (fld x 11 5) (fld x 3 1))
  | 0x21 => need (fld x 0 11 == 0) (.vspop (fld x 29 2) (fld x 27 2) (fld x 16 5) (fld x 11 5))
  | 0x22 => need (fld x 0 16 == 0) (.vsbal (fld x 29 2) (fld x 27 2) (fld x 16 5))
  | 0x23 => need (fld x 0 11 == 0) (.gcfg (fld x 29 2) (fld x 27 2) (fld x 16 5) (fld x 11 5))
  | 0x24 => need (fld x 0 16 == 0) (.grst (fld x 29 2) (fld x 27 2) (fld x 16 5))
  | 0x25 => need (fld x 2 1 == 0) (.vnoise (fld x 29 2) (fld x 27 2) (fld x 16 5) (fld x 11 5) (fld x 6 5) (fld x 4 2) (fld x 3 1) (fld x 0 2))
  | _ => .error .reservedOp

/-- The private half of the matrix engine (R60), by its op. -/
def decodeMatrix (x : IWord) : Except DecodeError Instr :=
  match (fld x 21 6).toNat with
  | 0x01 => need (fld x 0 6 == 0 && fld x 16 5 == 0) (.mnest (fld x 29 2) (fld x 27 2) (fld x 11 5) (fld x 6 5))
  | 0x02 => need (fld x 2 2 == 0 && fld x 6 5 == 0 && fld x 16 5 == 0) (.mrun (fld x 29 2) (fld x 27 2) (fld x 11 5) (fld x 4 2) (fld x 0 2))
  | 0x03 => need (fld x 0 11 == 0 && fld x 16 5 == 0) (.mzero (fld x 29 2) (fld x 27 2) (fld x 11 5))
  | 0x04 => need (fld x 0 4 == 0 && fld x 6 5 == 0 && fld x 16 5 == 0) (.mldc (fld x 29 2) (fld x 27 2) (fld x 11 5) (fld x 4 2))
  | 0x05 => need (fld x 0 4 == 0 && fld x 16 5 == 0) (.mdrain (fld x 29 2) (fld x 27 2) (fld x 11 5) (fld x 6 5) (fld x 4 2))
  | 0x06 => need (fld x 0 11 == 0 && fld x 16 5 == 0) (.mkat (fld x 29 2) (fld x 27 2) (fld x 11 5))
  | 0x07 => need (fld x 0 11 == 0) (.msig (fld x 29 2) (fld x 27 2) (fld x 16 5) (fld x 11 5))
  | 0x08 => need (fld x 0 21 == 0) (.mwt (fld x 29 2) (fld x 27 2))
  | _ => .error .reservedOp

/-- The private half of the copy engines (R60), by its op. -/
def decodeCopy (x : IWord) : Except DecodeError Instr :=
  match (fld x 21 6).toNat with
  | 0x01 => need (fld x 0 6 == 0 && fld x 16 5 == 0) (.xcopy (fld x 29 2) (fld x 27 2) (fld x 11 5) (fld x 6 5))
  | 0x02 => need (fld x 0 6 == 0 && fld x 16 5 == 0) (.xfill (fld x 29 2) (fld x 27 2) (fld x 11 5) (fld x 6 5))
  | 0x03 => need (fld x 0 6 == 0 && fld x 16 5 == 0) (.xgath (fld x 29 2) (fld x 27 2) (fld x 11 5) (fld x 6 5))
  | 0x04 => need (fld x 0 6 == 0 && fld x 16 5 == 0) (.xscat (fld x 29 2) (fld x 27 2) (fld x 11 5) (fld x 6 5))
  | 0x05 => need (fld x 1 5 == 0 && fld x 16 5 == 0) (.xfeed (fld x 29 2) (fld x 27 2) (fld x 11 5) (fld x 6 5) (fld x 0 1))
  | 0x06 => need (fld x 0 11 == 0 && fld x 16 5 == 0) (.xtrw (fld x 29 2) (fld x 27 2) (fld x 11 5))
  | 0x07 => need (fld x 0 6 == 0 && fld x 16 5 == 0) (.xtru (fld x 29 2) (fld x 27 2) (fld x 11 5) (fld x 6 5))
  | 0x08 => need (fld x 0 6 == 0 && fld x 16 5 == 0) (.xtrd (fld x 29 2) (fld x 27 2) (fld x 11 5) (fld x 6 5))
  | 0x09 => need (fld x 0 6 == 0 && fld x 16 5 == 0) (.xtbld (fld x 29 2) (fld x 27 2) (fld x 11 5) (fld x 6 5))
  | 0x0A => need (fld x 0 6 == 0 && fld x 16 5 == 0) (.xtdef (fld x 29 2) (fld x 27 2) (fld x 11 5) (fld x 6 5))
  | 0x0C => need (fld x 0 6 == 0) (.xcrc (fld x 29 2) (fld x 27 2) (fld x 16 5) (fld x 11 5) (fld x 6 5))
  | 0x0E => need (fld x 0 11 == 0 && fld x 16 5 == 0) (.xws (fld x 29 2) (fld x 27 2) (fld x 11 5))
  | 0x0F => need (fld x 0 6 == 0) (.xref (fld x 29 2) (fld x 27 2) (fld x 16 5) (fld x 11 5) (fld x 6 5))
  | _ => .error .reservedOp

/-- The private half of the collective engine (R60), by its op. -/
def decodeCollective (x : IWord) : Except DecodeError Instr :=
  match (fld x 21 6).toNat with
  | 0x01 => need (fld x 0 11 == 0 && fld x 16 5 == 0) (.csend (fld x 29 2) (fld x 27 2) (fld x 11 5))
  | 0x02 => need (fld x 0 11 == 0 && fld x 16 5 == 0) (.crecv (fld x 29 2) (fld x 27 2) (fld x 11 5))
  | 0x03 => need (fld x 0 11 == 0 && fld x 16 5 == 0) (.cred (fld x 29 2) (fld x 27 2) (fld x 11 5))
  | 0x04 => need (fld x 0 11 == 0 && fld x 16 5 == 0) (.cbcast (fld x 29 2) (fld x 27 2) (fld x 11 5))
  | 0x05 => need (fld x 0 11 == 0 && fld x 16 5 == 0) (.ca2a (fld x 29 2) (fld x 27 2) (fld x 11 5))
  | 0x06 => need (fld x 0 11 == 0 && fld x 16 5 == 0) (.cgath (fld x 29 2) (fld x 27 2) (fld x 11 5))
  | 0x07 => need (fld x 0 11 == 0 && fld x 16 5 == 0) (.csamp (fld x 29 2) (fld x 27 2) (fld x 11 5))
  | 0x08 => need (fld x 0 6 == 0 && fld x 16 5 == 0) (.cflag (fld x 29 2) (fld x 27 2) (fld x 11 5) (fld x 6 5))
  | _ => .error .reservedOp

/-- The private half of the Swallowtail (R60), by its op. -/
def decodeSwallowtail (x : IWord) : Except DecodeError Instr :=
  match (fld x 21 6).toNat with
  | 0x01 => need (fld x 0 6 == 0 && fld x 16 5 == 0) (.sscfg (fld x 29 2) (fld x 27 2) (fld x 11 5) (fld x 6 5))
  | 0x02 => need (fld x 0 11 == 0 && fld x 16 5 == 0) (.ssfeed (fld x 29 2) (fld x 27 2) (fld x 11 5))
  | _ => .error .reservedOp

/-- The private half by the party's map (R46). -/
def decodePrivate (k : Kind) (x : IWord) : Except DecodeError Instr :=
  match k with
  | .wing => decodeWing x
  | .vector => decodeVector x
  | .matrix => decodeMatrix x
  | .copy => decodeCopy x
  | .collective => decodeCollective x
  | .swallowtail => decodeSwallowtail x

/-- A function or sub value that the instruction does not assign is refused (R47). -/
def assigned (r : Except DecodeError Instr) : Except DecodeError Instr :=
  match r with
  | .ok i => if i.wf then .ok i else .error .reservedFunction
  | .error e => .error e

/-- Decoding one word for a party of kind `k` (R46, R47). -/
def decode (k : Kind) (x : IWord) : Except DecodeError Instr :=
  if x = 0 then .error .allZero
  else if x = BitVec.allOnes 32 then .error .allOnes
  else if fld x 31 1 == 0 then assigned (decodeControl x)
  else assigned (decodePrivate k x)

/-- The little-endian word of four bytes (R3, R45). -/
def wordOfBytes (b0 b1 b2 b3 : Byte) : IWord :=
  BitVec.ofNat 32 (b0.toNat + 2 ^ 8 * b1.toNat + 2 ^ 16 * b2.toNat + 2 ^ 24 * b3.toNat)

/-- The four bytes of a word in memory order (R3, R45). -/
def bytesOfWord (x : IWord) : List Byte :=
  [BitVec.ofNat 8 x.toNat, BitVec.ofNat 8 (x.toNat / 2 ^ 8), BitVec.ofNat 8 (x.toNat / 2 ^ 16),
    BitVec.ofNat 8 (x.toNat / 2 ^ 24)]

/-- The maps in the order in which a word of unknown party is tried. -/
def kindOrder : List Kind := [.wing, .vector, .matrix, .copy, .collective, .swallowtail]

/-- The first map of a list that reads a word, with what it reads. -/
def firstKind (x : IWord) : List Kind → Option (Kind × Instr)
  | [] => none
  | k :: ks =>
    match decode k x with
    | .ok i => some (k, i)
    | .error _ => firstKind x ks

/-- The instruction that the decoder reads from a word whose party is not given: the first map of `kindOrder` that
reads it (log 6 DESIGN CHOICE). An instruction is one word; MKAT's two further words are data and are never decoded (R47). -/
def decodeTableWord (nbits w : Nat) : Option Instr :=
  (firstKind (BitVec.ofNat 32 (w % 2 ^ nbits)) kindOrder).map (·.2)

/-- Where an instruction belongs: the control subset, a private map, or the events. -/
inductive Home where
  | control | priv (k : Kind) | event
  deriving DecidableEq, Repr, Inhabited

/-- The home of every constructor (R46, R56-R60). -/
def Instr.home : Instr → Home
  | .add _ _ _ => .control
  | .sub _ _ _ => .control
  | .and _ _ _ => .control
  | .or _ _ _ => .control
  | .xor _ _ _ => .control
  | .shl _ _ _ => .control
  | .shr _ _ _ => .control
  | .sar _ _ _ => .control
  | .mul _ _ _ => .control
  | .mulh _ _ _ => .control
  | .mulhu _ _ _ => .control
  | .div _ _ _ => .control
  | .divu _ _ _ => .control
  | .rem _ _ _ => .control
  | .remu _ _ _ => .control
  | .min _ _ _ => .control
  | .max _ _ _ => .control
  | .minu _ _ _ => .control
  | .maxu _ _ _ => .control
  | .slt _ _ _ => .control
  | .sltu _ _ _ => .control
  | .clz _ _ => .control
  | .popc _ _ => .control
  | .addi _ _ _ => .control
  | .andi _ _ _ => .control
  | .ori _ _ _ => .control
  | .xori _ _ _ => .control
  | .slti _ _ _ => .control
  | .sltiu _ _ _ => .control
  | .shli _ _ _ => .control
  | .shri _ _ _ => .control
  | .sari _ _ _ => .control
  | .lui _ _ => .control
  | .addpc _ _ => .control
  | .agen _ _ _ _ => .control
  | .beq _ _ _ => .control
  | .bne _ _ _ => .control
  | .blt _ _ _ => .control
  | .bge _ _ _ => .control
  | .bltu _ _ _ => .control
  | .bgeu _ _ _ => .control
  | .jmp _ => .control
  | .jal _ => .control
  | .jr _ _ => .control
  | .loop _ _ _ => .control
  | .loopi _ _ _ => .control
  | .rep _ => .control
  | .lexit _ => .control
  | .mfs _ _ => .control
  | .mts _ _ => .control
  | .tokw _ => .control
  | .toks _ => .control
  | .nop => .control
  | .endOp => .control
  | .trap _ => .control
  | .waitev _ _ _ => .control
  | .ldb _ _ _ _ _ => .priv .wing
  | .ldh _ _ _ _ _ => .priv .wing
  | .ldw _ _ _ _ _ => .priv .wing
  | .ldd _ _ _ _ _ => .priv .wing
  | .ldbu _ _ _ _ _ => .priv .wing
  | .ldhu _ _ _ _ _ => .priv .wing
  | .ldwu _ _ _ _ _ => .priv .wing
  | .lda _ _ _ _ _ => .priv .wing
  | .ldc _ _ _ _ _ => .priv .wing
  | .stb _ _ _ _ _ => .priv .wing
  | .sth _ _ _ _ _ => .priv .wing
  | .stw _ _ _ _ _ => .priv .wing
  | .std _ _ _ _ _ => .priv .wing
  | .stl _ _ _ _ _ => .priv .wing
  | .amoAdd _ _ _ _ _ _ => .priv .wing
  | .amoAnd _ _ _ _ _ _ => .priv .wing
  | .amoOr _ _ _ _ _ _ => .priv .wing
  | .amoXor _ _ _ _ _ _ => .priv .wing
  | .amoMin _ _ _ _ _ _ => .priv .wing
  | .amoMax _ _ _ _ _ _ => .priv .wing
  | .amoSwap _ _ _ _ _ _ => .priv .wing
  | .cas _ _ _ _ _ _ => .priv .wing
  | .fence _ _ _ _ => .priv .wing
  | .qfence _ _ _ => .priv .wing
  | .mwait _ _ _ _ _ => .priv .wing
  | .mwaitWake _ => .event
  | .enq _ _ _ _ _ _ => .priv .wing
  | .mark _ _ _ _ => .priv .wing
  | .rdv _ _ _ => .priv .wing
  | .notify _ _ _ => .priv .wing
  | .join _ _ _ => .priv .wing
  | .leave _ _ _ => .priv .wing
  | .bar _ _ _ => .priv .wing
  | .wlock _ _ => .priv .wing
  | .wfree _ _ => .priv .wing
  | .sstep _ _ _ => .priv .wing
  | .superstepAdvance _ _ => .event
  | .probe _ _ _ _ => .priv .wing
  | .unpin _ _ _ _ => .priv .wing
  | .phswap _ _ _ => .priv .wing
  | .eret _ _ _ _ => .priv .wing
  | .ctxsv _ _ _ _ => .priv .wing
  | .ctxld _ _ _ _ _ => .priv .wing
  | .pgate _ _ _ => .priv .wing
  | .clkdiv _ _ _ _ _ => .priv .wing
  | .swpt _ _ => .priv .wing
  | .boost _ _ _ _ => .priv .wing
  | .seqclm _ _ _ _ _ => .priv .wing
  | .seqadv _ _ _ _ _ => .priv .wing
  | .sxqry _ _ _ _ _ => .priv .wing
  | .hnew _ _ _ _ _ => .priv .wing
  | .hfree _ _ _ _ => .priv .wing
  | .hldw _ _ _ _ _ => .priv .wing
  | .bgone _ _ _ => .priv .wing
  | .hupg _ _ _ _ => .priv .wing
  | .hdng _ _ _ _ => .priv .wing
  | .hpri _ _ _ _ _ => .priv .wing
  | .winopen _ _ _ _ => .priv .wing
  | .winpub _ _ _ _ _ => .priv .wing
  | .winacq _ _ _ _ => .priv .wing
  | .winclose _ _ _ => .priv .wing
  | .sxapp _ _ _ _ _ => .priv .wing
  | .sxsav _ _ _ _ _ => .priv .wing
  | .sxld _ _ _ _ _ => .priv .wing
  | .sxrst _ _ _ _ _ => .priv .wing
  | .vadd _ _ _ _ _ _ _ _ => .priv .vector
  | .vsub _ _ _ _ _ _ _ _ => .priv .vector
  | .vmul _ _ _ _ _ _ _ _ => .priv .vector
  | .vfma _ _ _ _ _ _ _ _ => .priv .vector
  | .vmin _ _ _ _ _ _ _ _ => .priv .vector
  | .vmax _ _ _ _ _ _ _ _ => .priv .vector
  | .vabs _ _ _ _ _ _ => .priv .vector
  | .vcmp _ _ _ _ _ _ _ _ _ => .priv .vector
  | .vsel _ _ _ _ _ _ _ _ => .priv .vector
  | .vand _ _ _ _ _ _ _ _ => .priv .vector
  | .vor _ _ _ _ _ _ _ _ => .priv .vector
  | .vxor _ _ _ _ _ _ _ _ => .priv .vector
  | .vshl _ _ _ _ _ _ _ _ => .priv .vector
  | .vshr _ _ _ _ _ _ _ _ => .priv .vector
  | .vcvt _ _ _ _ _ _ _ => .priv .vector
  | .vqnt _ _ _ _ _ _ _ _ _ => .priv .vector
  | .vdq _ _ _ _ _ _ _ _ _ => .priv .vector
  | .vbpk _ _ _ _ _ _ _ => .priv .vector
  | .vbun _ _ _ _ _ _ _ => .priv .vector
  | .vrcp _ _ _ _ _ _ => .priv .vector
  | .vrsq _ _ _ _ _ _ => .priv .vector
  | .vexp2 _ _ _ _ _ _ => .priv .vector
  | .vlog2 _ _ _ _ _ _ => .priv .vector
  | .vred _ _ _ _ _ _ _ => .priv .vector
  | .vscan _ _ _ _ _ _ _ => .priv .vector
  | .vperm _ _ _ _ _ _ _ _ => .priv .vector
  | .vbcsElement _ _ _ _ _ _ _ => .priv .vector
  | .vbcsScalar _ _ _ _ _ => .priv .vector
  | .vimm _ _ _ _ => .priv .vector
  | .vmov _ _ _ _ _ _ => .priv .vector
  | .vmovA _ _ _ _ _ _ => .priv .vector
  | .vaddi _ _ _ _ => .priv .vector
  | .vspsh _ _ _ _ _ => .priv .vector
  | .vspop _ _ _ _ => .priv .vector
  | .vsbal _ _ _ => .priv .vector
  | .gcfg _ _ _ _ => .priv .vector
  | .grst _ _ _ => .priv .vector
  | .vnoise _ _ _ _ _ _ _ _ => .priv .vector
  | .vqEntryArrival _ => .event
  | .mnest _ _ _ _ => .priv .matrix
  | .mrun _ _ _ _ _ => .priv .matrix
  | .runComplete _ => .event
  | .mzero _ _ _ => .priv .matrix
  | .mldc _ _ _ _ => .priv .matrix
  | .mldcComplete _ => .event
  | .mdrain _ _ _ _ _ => .priv .matrix
  | .drainComplete _ => .event
  | .mkat _ _ _ => .priv .matrix
  | .msig _ _ _ _ => .priv .matrix
  | .mwt _ _ => .priv .matrix
  | .xcopy _ _ _ _ => .priv .copy
  | .xfill _ _ _ _ => .priv .copy
  | .xgath _ _ _ _ => .priv .copy
  | .xscat _ _ _ _ => .priv .copy
  | .xfeed _ _ _ _ _ => .priv .copy
  | .copyChunkComplete _ => .event
  | .xtrw _ _ _ => .priv .copy
  | .xtru _ _ _ _ => .priv .copy
  | .xtrd _ _ _ _ => .priv .copy
  | .xtbld _ _ _ _ => .priv .copy
  | .xtdef _ _ _ _ => .priv .copy
  | .xcrc _ _ _ _ _ => .priv .copy
  | .xws _ _ _ => .priv .copy
  | .xref _ _ _ _ _ => .priv .copy
  | .csend _ _ _ => .priv .collective
  | .crecv _ _ _ => .priv .collective
  | .cred _ _ _ => .priv .collective
  | .cbcast _ _ _ => .priv .collective
  | .ca2a _ _ _ => .priv .collective
  | .cgath _ _ _ => .priv .collective
  | .csamp _ _ _ => .priv .collective
  | .cflag _ _ _ _ => .priv .collective
  | .collectiveMessageArrival _ => .event
  | .flagMessageArrival _ => .event
  | .sscfg _ _ _ _ => .priv .swallowtail
  | .ssfeed _ _ _ => .priv .swallowtail
  | .entryBegin _ => .event
  | .markRetire _ => .event
  | .notifyRetire _ => .event
  | .qfenceJoinRelease _ _ => .event
  | .waitevTimeout _ => .event
  | .powerGood _ => .event
  | .flitCrcError => .event
  | .remoteWriteArrival _ => .event
  | .remoteLoadArrival _ => .event
  | .hostAccess _ _ => .event
  | .fabricMemoryRequest _ _ => .event
  | .fabricLaunchPacket _ => .event
  | .qwp _ _ _ => .event
  | .qcfg _ _ _ => .event
  | .qbase _ _ _ => .event
  | .qcpl _ _ _ => .event
  | .qstat _ _ _ => .event
  | .atgo _ => .event
  | .residencyReport => .event
  | .launchHead _ _ => .event
  | .taskStart _ => .event
  | .taskResume _ => .event
  | .taskCompletion _ _ => .event
  | .interruptCoalesceExpiry _ _ => .event
  | .preemptWaitExpiry _ => .event
  | .preemption _ _ => .event
  | .energyTick _ => .event
  | .energyRefill => .event
  | .levelGrant _ => .event
  | .boostInterval => .event
  | .boostRefill => .event
  | .lookoutTick => .event
  | .lookoutExpiry _ _ => .event
  | .katbThreshold _ => .event
  | .katCheck _ _ => .event
  | .counterPublish => .event
  | .patrolRead _ => .event
  | .phaseCancel _ _ => .event
  | .contextError _ _ => .event
  | .takeRecord _ => .event
  | .supervisorRestart _ => .event
  | .prst _ => .event
  | .resetDrainExpiry => .event
  | .partitionResetComplete => .event
  | .cpart _ => .event
  | .scrubComplete _ => .event
  | .frown _ => .event
  | .frameReassignComplete _ => .event
  | .frg _ => .event
  | .keyb _ => .event
  | .keyn _ => .event
  | .rslot _ => .event
  | .flpg _ => .event
  | .ecap _ => .event
  | .plmaps _ => .event
  | .pwsh _ => .event
  | .eadj _ => .event
  | .cstat _ => .event
  | .dlbase _ => .event
  | .dltail _ => .event
  | .registerWrite _ _ => .event
  | .gateGrant _ => .event
  | .coreWake _ => .event
  | .objectDestruction _ _ => .event
  | .linkFailure _ => .event
  | .trellisInstructionEnd _ => .event
  | .weightStoreWriteComplete _ => .event
  | .keyManifestLoad _ => .event
  | .firmwareImageLoad _ => .event
/-- May a party of kind `k` execute this word (R46)? -/
def Instr.fits (i : Instr) (k : Kind) : Bool :=
  match i.home with
  | .control => true
  | .priv k' => k == k'
  | .event => false

/-! The formats (R50, R52), each a word from its fields, high bit first. -/

/-- CR: register-register. -/
def crWord (major d a b : B6) (fn : BitVec 7) : IWord :=
  BitVec.ofNat 32 (major.toNat * 2 ^ 25 + d.toNat * 2 ^ 19 + a.toNat * 2 ^ 13 + b.toNat * 2 ^ 7 + fn.toNat)

/-- CI: register-immediate. -/
def ciWord (major d a : B6) (i : BitVec 13) : IWord :=
  BitVec.ofNat 32 (major.toNat * 2 ^ 25 + d.toNat * 2 ^ 19 + a.toNat * 2 ^ 13 + i.toNat)

/-- CU: upper immediate. -/
def cuWord (major d : B6) (i : BitVec 19) : IWord :=
  BitVec.ofNat 32 (major.toNat * 2 ^ 25 + d.toNat * 2 ^ 19 + i.toNat)

/-- CB: compare and branch. -/
def cbWord (major a b : B6) (o : BitVec 13) : IWord :=
  BitVec.ofNat 32 (major.toNat * 2 ^ 25 + a.toNat * 2 ^ 19 + b.toNat * 2 ^ 13 + o.toNat)

/-- CJ: jump; also the words whose [24:0] is reserved. -/
def cjWord (major : B6) (o : BitVec 25) : IWord :=
  BitVec.ofNat 32 (major.toNat * 2 ^ 25 + o.toNat)

/-- CL with a count register. -/
def clWord (major : B6) (l : B2) (c : B6) (n : BitVec 13) : IWord :=
  BitVec.ofNat 32 (major.toNat * 2 ^ 25 + l.toNat * 2 ^ 23 + c.toNat * 2 ^ 17 + n.toNat)

/-- CL with an immediate count. -/
def cliWord (major : B6) (l : B2) (i : BitVec 10) (n : BitVec 13) : IWord :=
  BitVec.ofNat 32 (major.toNat * 2 ^ 25 + l.toNat * 2 ^ 23 + i.toNat * 2 ^ 13 + n.toNat)

/-- PR: engine register form. -/
def prWord (w g : B2) (op : B6) (d a b : B5) (cw : B2) (pa pb : BitVec 1) (sub : B2) : IWord :=
  BitVec.ofNat 32 (2 ^ 31 + w.toNat * 2 ^ 29 + g.toNat * 2 ^ 27 + op.toNat * 2 ^ 21 + d.toNat * 2 ^ 16 + a.toNat * 2 ^ 11
    + b.toNat * 2 ^ 6 + cw.toNat * 2 ^ 4 + pa.toNat * 2 ^ 3 + pb.toNat * 2 ^ 2 + sub.toNat)

/-- PI: engine immediate form. -/
def piWord (w g : B2) (op : B6) (d : B5) (i : BitVec 16) : IWord :=
  BitVec.ofNat 32 (2 ^ 31 + w.toNat * 2 ^ 29 + g.toNat * 2 ^ 27 + op.toNat * 2 ^ 21 + d.toNat * 2 ^ 16 + i.toNat)

/-- PS: control-core register form. -/
def psWord (w g : B2) (op d a b : B6) (sub : BitVec 3) : IWord :=
  BitVec.ofNat 32 (2 ^ 31 + w.toNat * 2 ^ 29 + g.toNat * 2 ^ 27 + op.toNat * 2 ^ 21 + d.toNat * 2 ^ 15 + a.toNat * 2 ^ 9
    + b.toNat * 2 ^ 3 + sub.toNat)

/-- PM: control-core memory form. -/
def pmWord (w g : B2) (op d a : B6) (off : BitVec 9) : IWord :=
  BitVec.ofNat 32 (2 ^ 31 + w.toNat * 2 ^ 29 + g.toNat * 2 ^ 27 + op.toNat * 2 ^ 21 + d.toNat * 2 ^ 15 + a.toNat * 2 ^ 9
    + off.toNat)

/-- ENQ's own layout of the PS fields (R271). -/
def enqWord (w g : B2) (f : B6) (n : BitVec 3) (e : BitVec 9) (q : BitVec 3) : IWord :=
  BitVec.ofNat 32 (2 ^ 31 + w.toNat * 2 ^ 29 + g.toNat * 2 ^ 27 + 0x18 * 2 ^ 21 + f.toNat * 2 ^ 15 + n.toNat * 2 ^ 12
    + e.toNat * 2 ^ 3 + q.toNat)

/-- BGONE's off18 (R324, R326). -/
def bgoneWord (w g : B2) (o : BitVec 18) : IWord :=
  BitVec.ofNat 32 (2 ^ 31 + w.toNat * 2 ^ 29 + g.toNat * 2 ^ 27 + 0x33 * 2 ^ 21 + o.toNat * 2 ^ 3)

/-- SWPT's layout (R338); its wait and sig are reserved. -/
def swptWord (k : BitVec 8) (v : BitVec 3) : IWord :=
  BitVec.ofNat 32 (2 ^ 31 + 0x2C * 2 ^ 21 + k.toNat * 2 ^ 3 + v.toNat)

/-- The word of an instruction; an event has none. (Log 66 DESIGN CHOICE.) -/
def encode : Instr → Option IWord
  | .add d a b => some (crWord 0x01 d a b 0)
  | .sub d a b => some (crWord 0x01 d a b 1)
  | .and d a b => some (crWord 0x01 d a b 2)
  | .or d a b => some (crWord 0x01 d a b 3)
  | .xor d a b => some (crWord 0x01 d a b 4)
  | .shl d a b => some (crWord 0x01 d a b 5)
  | .shr d a b => some (crWord 0x01 d a b 6)
  | .sar d a b => some (crWord 0x01 d a b 7)
  | .mul d a b => some (crWord 0x01 d a b 8)
  | .mulh d a b => some (crWord 0x01 d a b 9)
  | .mulhu d a b => some (crWord 0x01 d a b 10)
  | .div d a b => some (crWord 0x01 d a b 11)
  | .divu d a b => some (crWord 0x01 d a b 12)
  | .rem d a b => some (crWord 0x01 d a b 13)
  | .remu d a b => some (crWord 0x01 d a b 14)
  | .min d a b => some (crWord 0x01 d a b 15)
  | .max d a b => some (crWord 0x01 d a b 16)
  | .minu d a b => some (crWord 0x01 d a b 17)
  | .maxu d a b => some (crWord 0x01 d a b 18)
  | .slt d a b => some (crWord 0x01 d a b 19)
  | .sltu d a b => some (crWord 0x01 d a b 20)
  | .clz d a => some (crWord 0x01 d a 0 21)
  | .popc d a => some (crWord 0x01 d a 0 22)
  | .addi d a i => some (ciWord 0x02 d a i)
  | .andi d a i => some (ciWord 0x03 d a i)
  | .ori d a i => some (ciWord 0x04 d a i)
  | .xori d a i => some (ciWord 0x05 d a i)
  | .slti d a i => some (ciWord 0x06 d a i)
  | .sltiu d a i => some (ciWord 0x07 d a i)
  | .shli d a n => some (ciWord 0x08 d a (.setWidth 13 n))
  | .shri d a n => some (ciWord 0x09 d a (.setWidth 13 n))
  | .sari d a n => some (ciWord 0x0A d a (.setWidth 13 n))
  | .lui d i => some (cuWord 0x0B d i)
  | .addpc d i => some (cuWord 0x0C d i)
  | .agen d a b h => some (crWord 0x0D d a b (.setWidth 7 h))
  | .beq a b o => some (cbWord 0x10 a b o)
  | .bne a b o => some (cbWord 0x11 a b o)
  | .blt a b o => some (cbWord 0x12 a b o)
  | .bge a b o => some (cbWord 0x13 a b o)
  | .bltu a b o => some (cbWord 0x14 a b o)
  | .bgeu a b o => some (cbWord 0x15 a b o)
  | .jmp o => some (cjWord 0x16 o)
  | .jal o => some (cjWord 0x17 o)
  | .jr a i => some (ciWord 0x18 0 a i)
  | .loop l c n => some (clWord 0x19 l c n)
  | .loopi l i n => some (cliWord 0x1A l i n)
  | .rep i => some (cliWord 0x1B 0 i 0)
  | .lexit l => some (cliWord 0x1C l 0 0)
  | .mfs d r => some (ciWord 0x20 d 0 r)
  | .mts a r => some (ciWord 0x21 0 a r)
  | .tokw k => some (ciWord 0x22 0 0 (.setWidth 13 k))
  | .toks k => some (ciWord 0x23 0 0 (.setWidth 13 k))
  | .nop => some (cjWord 0x24 0)
  | .endOp => some (cjWord 0x25 0)
  | .trap i => some (cuWord 0x26 0 i)
  | .waitev d a m => some (ciWord 0x27 d a (.setWidth 13 m))
  | .ldb w g d a f => some (pmWord w g 0x01 d a f)
  | .ldh w g d a f => some (pmWord w g 0x02 d a f)
  | .ldw w g d a f => some (pmWord w g 0x03 d a f)
  | .ldd w g d a f => some (pmWord w g 0x04 d a f)
  | .ldbu w g d a f => some (pmWord w g 0x05 d a f)
  | .ldhu w g d a f => some (pmWord w g 0x06 d a f)
  | .ldwu w g d a f => some (pmWord w g 0x07 d a f)
  | .lda w g d a f => some (pmWord w g 0x08 d a f)
  | .ldc w g d a f => some (pmWord w g 0x09 d a f)
  | .stb w g d a f => some (pmWord w g 0x0A d a f)
  | .sth w g d a f => some (pmWord w g 0x0B d a f)
  | .stw w g d a f => some (pmWord w g 0x0C d a f)
  | .std w g d a f => some (pmWord w g 0x0D d a f)
  | .stl w g d a f => some (pmWord w g 0x0E d a f)
  | .amoAdd w g o d a b => some (psWord w g (BitVec.ofNat 6 (0x10 + o.toNat)) d a b 0)
  | .amoAnd w g o d a b => some (psWord w g (BitVec.ofNat 6 (0x10 + o.toNat)) d a b 1)
  | .amoOr w g o d a b => some (psWord w g (BitVec.ofNat 6 (0x10 + o.toNat)) d a b 2)
  | .amoXor w g o d a b => some (psWord w g (BitVec.ofNat 6 (0x10 + o.toNat)) d a b 3)
  | .amoMin w g o d a b => some (psWord w g (BitVec.ofNat 6 (0x10 + o.toNat)) d a b 4)
  | .amoMax w g o d a b => some (psWord w g (BitVec.ofNat 6 (0x10 + o.toNat)) d a b 5)
  | .amoSwap w g o d a b => some (psWord w g (BitVec.ofNat 6 (0x10 + o.toNat)) d a b 6)
  | .cas w g d a b o => some (psWord w g 0x14 d a b (.setWidth 3 o))
  | .fence w g p c => some (psWord w g 0x15 (.setWidth 6 p) 0 0 (.setWidth 3 c))
  | .qfence w g m => some (psWord w g 0x16 (.setWidth 6 m) 0 0 0)
  | .mwait w g d a b => some (psWord w g 0x17 d a b 0)
  | .enq w g f n e q => some (enqWord w g f n e q)
  | .mark w g n m => some (psWord w g 0x19 (.setWidth 6 n) m 0 0)
  | .rdv w g n => some (psWord w g 0x1A (.setWidth 6 n) 0 0 0)
  | .notify w g m => some (psWord w g 0x1B 0 m 0 0)
  | .join w g a => some (psWord w g 0x1C 0 a 0 0)
  | .leave w g a => some (psWord w g 0x1D 0 a 0 0)
  | .bar w g a => some (psWord w g 0x1E 0 a 0 0)
  | .wlock w g => some (psWord w g 0x1F 0 0 0 0)
  | .wfree w g => some (psWord w g 0x20 0 0 0 0)
  | .sstep w g d => some (psWord w g 0x21 d 0 0 0)
  | .probe w g a b => some (psWord w g 0x22 0 a b 0)
  | .unpin w g a b => some (psWord w g 0x23 0 a b 0)
  | .phswap w g n => some (psWord w g 0x24 0 0 0 n)
  | .eret w g d a => some (psWord w g 0x27 d a 0 0)
  | .ctxsv w g d a => some (psWord w g 0x28 d a 0 0)
  | .ctxld w g d a b => some (psWord w g 0x29 d a b 0)
  | .pgate w g a => some (psWord w g 0x2A 0 a 0 0)
  | .clkdiv w g d a b => some (psWord w g 0x2B d a b 0)
  | .swpt k v => some (swptWord k v)
  | .boost w g d a => some (psWord w g 0x2D d a 0 0)
  | .seqclm w g d a b => some (psWord w g 0x0F d a b 0)
  | .seqadv w g d a b => some (psWord w g 0x2E d a b 0)
  | .sxqry w g d a b => some (psWord w g 0x2F d a b 0)
  | .hnew w g d a b => some (psWord w g 0x30 d a b 0)
  | .hfree w g d a => some (psWord w g 0x31 d a 0 0)
  | .hldw w g d a b => some (psWord w g 0x32 d a b 0)
  | .bgone w g o => some (bgoneWord w g o)
  | .hupg w g d a => some (psWord w g 0x34 d a 0 0)
  | .hdng w g d a => some (psWord w g 0x35 d a 0 0)
  | .hpri w g d a b => some (psWord w g 0x36 d a b 0)
  | .winopen w g d a => some (psWord w g 0x37 d a 0 0)
  | .winpub w g d a b => some (psWord w g 0x38 d a b 0)
  | .winacq w g d a => some (psWord w g 0x39 d a 0 0)
  | .winclose w g a => some (psWord w g 0x3A 0 a 0 0)
  | .sxapp w g d a b => some (psWord w g 0x3B d a b 0)
  | .sxsav w g d a b => some (psWord w g 0x3C d a b 0)
  | .sxld w g d a b => some (psWord w g 0x3D d a b 0)
  | .sxrst w g d a b => some (psWord w g 0x3E d a b 0)
  | .vadd w g d a b c p q => some (prWord w g 0x01 d a b c p q 0)
  | .vsub w g d a b c p q => some (prWord w g 0x02 d a b c p q 0)
  | .vmul w g d a b c p q => some (prWord w g 0x03 d a b c p q 0)
  | .vfma w g d a b c p q => some (prWord w g 0x04 d a b c p q 0)
  | .vmin w g d a b c p q => some (prWord w g 0x05 d a b c p q 0)
  | .vmax w g d a b c p q => some (prWord w g 0x06 d a b c p q 0)
  | .vabs w g d a c p => some (prWord w g 0x07 d a 0 c p 0 0)
  | .vcmp w g d a b c p q u => some (prWord w g 0x08 d a b c p q u)
  | .vsel w g d a b c p q => some (prWord w g 0x09 d a b c p q 0)
  | .vand w g d a b c p q => some (prWord w g 0x0A d a b c p q 0)
  | .vor w g d a b c p q => some (prWord w g 0x0B d a b c p q 0)
  | .vxor w g d a b c p q => some (prWord w g 0x0C d a b c p q 0)
  | .vshl w g d a b c p q => some (prWord w g 0x0D d a b c p q 0)
  | .vshr w g d a b c p q => some (prWord w g 0x0E d a b c p q 0)
  | .vcvt w g d a c p k => some (prWord w g 0x10 d a 0 c p 0 k)
  | .vqnt w g d a b c p q k => some (prWord w g 0x11 d a b c p q k)
  | .vdq w g d a b c p q k => some (prWord w g 0x12 d a b c p q k)
  | .vbpk w g d a b c p => some (prWord w g 0x13 d a b c p 0 0)
  | .vbun w g d a b c p => some (prWord w g 0x14 d a b c p 0 0)
  | .vrcp w g d a c p => some (prWord w g 0x15 d a 0 c p 0 0)
  | .vrsq w g d a c p => some (prWord w g 0x16 d a 0 c p 0 0)
  | .vexp2 w g d a c p => some (prWord w g 0x17 d a 0 c p 0 0)
  | .vlog2 w g d a c p => some (prWord w g 0x18 d a 0 c p 0 0)
  | .vred w g d a c p n => some (prWord w g 0x19 d a 0 c p 0 n)
  | .vscan w g d a c p n => some (prWord w g 0x1A d a 0 c p 0 n)
  | .vperm w g d a b c p q => some (prWord w g 0x1B d a b c p q 0)
  | .vbcsElement w g d a b c p => some (prWord w g 0x1C d a b c p 0 0)
  | .vbcsScalar w g d b c => some (prWord w g 0x1C d 0 b c 0 0 1)
  | .vimm w g d i => some (piWord w g 0x1D d i)
  | .vmov w g d a c p => some (prWord w g 0x1E d a 0 c p 0 0)
  | .vmovA w g d a c p => some (prWord w g 0x1E d a 0 c p 0 1)
  | .vaddi w g d i => some (piWord w g 0x1F d i)
  | .vspsh w g n a p => some (prWord w g 0x20 n a 0 0 p 0 0)
  | .vspop w g d n => some (prWord w g 0x21 d n 0 0 0 0 0)
  | .vsbal w g n => some (prWord w g 0x22 n 0 0 0 0 0 0)
  | .gcfg w g d a => some (prWord w g 0x23 d a 0 0 0 0 0)
  | .grst w g d => some (prWord w g 0x24 d 0 0 0 0 0 0)
  | .vnoise w g d a b c p n => some (prWord w g 0x25 d a b c p 0 n)
  | .mnest w g a b => some (prWord w g 0x01 0 a b 0 0 0 0)
  | .mrun w g a c t => some (prWord w g 0x02 0 a 0 c 0 0 t)
  | .mzero w g a => some (prWord w g 0x03 0 a 0 0 0 0 0)
  | .mldc w g a c => some (prWord w g 0x04 0 a 0 c 0 0 0)
  | .mdrain w g a b c => some (prWord w g 0x05 0 a b c 0 0 0)
  | .mkat w g a => some (prWord w g 0x06 0 a 0 0 0 0 0)
  | .msig w g d a => some (prWord w g 0x07 d a 0 0 0 0 0)
  | .mwt w g => some (prWord w g 0x08 0 0 0 0 0 0 0)
  | .xcopy w g a b => some (prWord w g 0x01 0 a b 0 0 0 0)
  | .xfill w g a b => some (prWord w g 0x02 0 a b 0 0 0 0)
  | .xgath w g a b => some (prWord w g 0x03 0 a b 0 0 0 0)
  | .xscat w g a b => some (prWord w g 0x04 0 a b 0 0 0 0)
  | .xfeed w g a b f => some (prWord w g 0x05 0 a b 0 0 0 (.setWidth 2 f))
  | .xtrw w g a => some (prWord w g 0x06 0 a 0 0 0 0 0)
  | .xtru w g a b => some (prWord w g 0x07 0 a b 0 0 0 0)
  | .xtrd w g a b => some (prWord w g 0x08 0 a b 0 0 0 0)
  | .xtbld w g a b => some (prWord w g 0x09 0 a b 0 0 0 0)
  | .xtdef w g a b => some (prWord w g 0x0A 0 a b 0 0 0 0)
  | .xcrc w g d a b => some (prWord w g 0x0C d a b 0 0 0 0)
  | .xws w g a => some (prWord w g 0x0E 0 a 0 0 0 0 0)
  | .xref w g d a b => some (prWord w g 0x0F d a b 0 0 0 0)
  | .csend w g a => some (prWord w g 0x01 0 a 0 0 0 0 0)
  | .crecv w g a => some (prWord w g 0x02 0 a 0 0 0 0 0)
  | .cred w g a => some (prWord w g 0x03 0 a 0 0 0 0 0)
  | .cbcast w g a => some (prWord w g 0x04 0 a 0 0 0 0 0)
  | .ca2a w g a => some (prWord w g 0x05 0 a 0 0 0 0 0)
  | .cgath w g a => some (prWord w g 0x06 0 a 0 0 0 0 0)
  | .csamp w g a => some (prWord w g 0x07 0 a 0 0 0 0 0)
  | .cflag w g a b => some (prWord w g 0x08 0 a b 0 0 0 0)
  | .sscfg w g a b => some (prWord w g 0x01 0 a b 0 0 0 0)
  | .ssfeed w g a => some (prWord w g 0x02 0 a 0 0 0 0 0)
  | .mwaitWake _ => none
  | .superstepAdvance _ _ => none
  | .vqEntryArrival _ => none
  | .runComplete _ => none
  | .mldcComplete _ => none
  | .drainComplete _ => none
  | .copyChunkComplete _ => none
  | .collectiveMessageArrival _ => none
  | .flagMessageArrival _ => none
  | .entryBegin _ => none
  | .markRetire _ => none
  | .notifyRetire _ => none
  | .qfenceJoinRelease _ _ => none
  | .waitevTimeout _ => none
  | .powerGood _ => none
  | .flitCrcError => none
  | .remoteWriteArrival _ => none
  | .remoteLoadArrival _ => none
  | .hostAccess _ _ => none
  | .fabricMemoryRequest _ _ => none
  | .fabricLaunchPacket _ => none
  | .qwp _ _ _ => none
  | .qcfg _ _ _ => none
  | .qbase _ _ _ => none
  | .qcpl _ _ _ => none
  | .qstat _ _ _ => none
  | .atgo _ => none
  | .residencyReport => none
  | .launchHead _ _ => none
  | .taskStart _ => none
  | .taskResume _ => none
  | .taskCompletion _ _ => none
  | .interruptCoalesceExpiry _ _ => none
  | .preemptWaitExpiry _ => none
  | .preemption _ _ => none
  | .energyTick _ => none
  | .energyRefill => none
  | .levelGrant _ => none
  | .boostInterval => none
  | .boostRefill => none
  | .lookoutTick => none
  | .lookoutExpiry _ _ => none
  | .katbThreshold _ => none
  | .katCheck _ _ => none
  | .counterPublish => none
  | .patrolRead _ => none
  | .phaseCancel _ _ => none
  | .contextError _ _ => none
  | .takeRecord _ => none
  | .supervisorRestart _ => none
  | .prst _ => none
  | .resetDrainExpiry => none
  | .partitionResetComplete => none
  | .cpart _ => none
  | .scrubComplete _ => none
  | .frown _ => none
  | .frameReassignComplete _ => none
  | .frg _ => none
  | .keyb _ => none
  | .keyn _ => none
  | .rslot _ => none
  | .flpg _ => none
  | .ecap _ => none
  | .plmaps _ => none
  | .pwsh _ => none
  | .eadj _ => none
  | .cstat _ => none
  | .dlbase _ => none
  | .dltail _ => none
  | .registerWrite _ _ => none
  | .gateGrant _ => none
  | .coreWake _ => none
  | .objectDestruction _ _ => none
  | .linkFailure _ => none
  | .trellisInstructionEnd _ => none
  | .weightStoreWriteComplete _ => none
  | .keyManifestLoad _ => none
  | .firmwareImageLoad _ => none
end Sys2Proof
end

