-- ==== Sys2Proof/Machine/State.lean ====
section
/-! DEFINITION. The machine's state: one module of 16 dies (R12). Everything indexed by a number (a core, a register, an
address) is a `Sparse` list with its keys strictly rising; what a key that is not listed holds is the default that the
accessors of `Ops` name. Memory is such a list in canonical form: no entry equal to what an unlisted address reads as. -/

namespace Sys2Proof.Machine

/-- A finite map: (key, value) pairs, keys strictly rising. -/
abbrev Sparse (α : Type) := List (Nat × α)

/-- Why the machine stops. -/
inductive Fault where
  /-- Raised by an access of a wing of a SYSTEM core to an address that no unit answers: the gaps beside the windows of
  R18, for which R388 and R19 give a system wing no effect. Safe: the machine stops where the spec says nothing. -/
  | systemTranslation (address : Word)
  deriving DecidableEq, Repr

/-- Why an instruction has no meaning. -/
inductive Refusal where
  /-- Raised by the dispatch for an instruction that is not modelled. Safe. -/
  | notModelled (mnemonic : String)
  deriving DecidableEq, Repr

/-- How the last instruction of a turn ended (the model's own). -/
inductive Ending where
  | none | retired | transferred | trapped | waiting
  deriving DecidableEq, Repr, Inhabited

/-- Whether a party executes: `off` (no task, or the engine of none), `idle` (an engine between entries), `running`,
`ended` (a wing after END, R272). -/
inductive Run where
  | off | idle | running | ended
  deriving DecidableEq, Repr, Inhabited

/-- What a waiting wing waits at, where other parties must see it: BAR (R278), WLOCK (R263), SSTEP (R279), PHSWAP (R357),
a load under way to another die (R204), a sleeping MWAIT (R218). -/
inductive Wait where
  | no
  | bar (group : Nat) (done : Bool)
  | lock (address : Word) (w g : B2)
  | step (done : Bool)
  | phase (n : Nat) (done : Bool)
  | load
  | asleep (line : Nat) (wake : Nat)
  deriving DecidableEq, Repr, Inhabited

/-- A copy command as its log keeps it (R356): op, the 208-byte record and s[b]. XTRD has op 8 and its 32-byte record. -/
structure CopyCmd where
  op : Nat
  record : List Byte
  b : Word
  deriving DecidableEq, Repr, Inhabited

/-- What a collective instruction in progress still needs (R244, R248). -/
structure Coll where
  kind : Nat
  record : List Byte
  list : List Nat
  rank : Nat
  value : Word
  /-- contributions received, by rank -/
  got : Sparse (List Byte)
  /-- CFLAG: peers that have applied or refused -/
  answered : Nat
  refused : Bool
  /-- The turn in which it was issued. -/
  since : Nat
  /-- A receiver has retired with a share of it: its participants have agreed on the list, and it traps no more (R7, R243). -/
  kept : Bool
  deriving DecidableEq, Repr, Inhabited

/-- A command that a party has issued and that has not retired. -/
inductive Cmd where
  | copy (c : CopyCmd)
  | feed (c : CopyCmd) (second : Bool) (next : Nat)
  | trellis (op : Nat) (record : List Byte) (b : Word)
  | trellisFeed (record : List Byte) (b : Word) (next : Nat)
  /-- XWS, with the turn in which it was issued. -/
  | weights (source length target part since : Nat)
  | coll (c : Coll)
  deriving DecidableEq, Repr, Inhabited

/-- A port's record and position (R140). -/
structure Port where
  base : Nat
  mode : Nat
  counts : List Nat
  strides : List Int
  pos : Nat
  deriving DecidableEq, Repr, Inhabited

/-- A store that has retired and is not yet performed (R190, R191; log 2 DESIGN CHOICE): the place, the bytes, and whether it
already counts as performed for the agents of its core, who wait for it (R196, R199); the turn in which it retired, and that of the
first load of its own agent that has read it, which the agent's later writes follow (R190, R201). -/
structure LateStore where
  phys : Nat
  home : Nat
  slot : Option Nat
  bytes : List Byte
  fenced : Bool
  made : Nat
  read : Option Nat
  deriving DecidableEq, Repr, Inhabited

/-- An entry of a vector register or a vertical FIFO, and whether it holds an uncorrectable error (R345, R346). -/
structure VEntry where
  data : Vec
  bad : Bool := false
  deriving DecidableEq, Repr, Inhabited

/-- What orders a party's accesses (R189, R190; log 2 DESIGN CHOICE). The order of writes numbers the writes of the module as
they are performed at their homes. -/
structure View where
  /-- The point in the order of writes that its loads of locations of its own die may not go behind (R194, R197). -/
  floor : Nat := 0
  /-- The point at which its last release was performed, behind which no acquire goes. -/
  released : Nat := 0
  /-- The clock whose writes its loads may not miss (R202). -/
  known : Sparse Nat := []
  /-- By granule, the point of the last write that it has seen or made there (R189). -/
  seen : Sparse Nat := []
  /-- How many writes behind the present its accesses of this turn may go: 0 between turns. -/
  lag : Nat := 0
  /-- Its stores that are not yet performed, oldest first. -/
  late : List LateStore := []
  /-- The point of the last write that it has made, and that behind which no load of it goes at any home, once a FENCE or an
  acquiring atomic has ordered such a write before its loads (R190, R199). -/
  mine : Nat := 0
  firm : Nat := 0
  /-- The latest point of the accesses of an engine's instruction in progress (R209). -/
  mark : Nat := 0
  deriving DecidableEq, Repr, Inhabited

/-- What a granule of 8 bytes held before a write, and the clock that it kept (R187; log 2 DESIGN CHOICE): the write's place in
the order of writes, the key of the clock in `stamps`, the writing die, and the write's number in that die's clock entry. -/
structure Past where
  seq : Nat
  granule : Nat
  old : List Byte
  stamp : Sparse Nat
  key : Nat
  writer : Nat
  num : Nat
  deriving DecidableEq, Repr, Inhabited

/-- The state of one party (R261). Fields that its kind does not hold keep their reset values. -/
structure PartyState where
  run : Run := .off
  pc : Word := 0
  regs : Sparse Word := []
  taint : BitVec 64 := 0
  /-- The scalar registers that hold an error of two bits (R345, R346). -/
  spoilt : BitVec 64 := 0
  /-- LS0–LS3 (R288). -/
  ls : Sparse Word := []
  /-- The active loops, most recently started first (R268). -/
  order : List Nat := []
  /-- The loop registers by the start of the loop that each last held, ended or not, most recent first (R268). -/
  began : List Nat := []
  repc : BitVec 10 := 0
  tcause : BitVec 16 := 0
  tpc : Word := 0
  tval : Word := 0
  tstat : Word := 0
  /-- Held by a trap record (R347). -/
  held : Bool := false
  evp : BitVec 5 := 0
  wait : Wait := .no
  /-- A signal token that waits for room, and the words by which the pc then advances (0 where a transfer has set it);
  the instruction has not retired (R273). -/
  push : Option (B2 × Nat) := none
  busy : Option (Cmd × B2 × B2) := none
  /-- Peers of k1–k3 (R30) and inbound counts (TKC, R288). -/
  peers : Sparse Party := []
  tkc : BitVec 12 := 0
  /-- The queue whose token the word at pc has popped already, as its command has started (R34); 0 for none. -/
  popped : B2 := 0
  /-- The gone flag G (R325), ML and CP (R65), the groups joined (R277). -/
  gone : Bool := false
  ml : Word := 0
  cp : Word := 0
  groups : List Nat := []
  /-- CW0–CW3 (R91), VM (R116), v0–v19 oldest entry first (R36), ports (R140). -/
  cw : Sparse (BitVec 32) := []
  vm : Word := BitVec.allOnes 64
  v : Sparse (List VEntry) := []
  ports : Sparse Port := []
  /-- XSTAT and XPROG (R237). -/
  xstat : Word := 0
  xprog : BitVec 40 := 0
  view : View := {}
  /-- Selectors and IREF of a system wing (R317, R367, R385, R386). -/
  psel : BitVec 6 := 0
  csel : BitVec 9 := 0
  ksel : BitVec 9 := 0
  rsel : BitVec 12 := 0
  frsel : BitVec 48 := 0
  lksel : BitVec 11 := 0
  iref : BitVec 8 := 0
  deriving DecidableEq, Repr, Inhabited

/-- An item of an engine queue (R210, R271, R274). -/
inductive Item where
  | entry (offset : Word) (args : List Word)
  | mark (n : Nat)
  | notify
  /-- A QFENCE join: the queues it names. -/
  | join (mask : BitVec 6)
  deriving DecidableEq, Repr, Inhabited

/-- A section descriptor (R77). -/
structure Section where
  offset : Nat := 0
  size : Nat := 0
  bindings : BitVec 16 := 0
  entry : Nat := 0
  deriving DecidableEq, Repr, Inhabited

/-- What the part keeps of a kernel header (R76, R77). -/
structure Header where
  flags : BitVec 16 := 0
  vregs : Nat := 0
  scratch : Nat := 0
  dataOffset : Nat := 0
  dataSize : Nat := 0
  /-- W, M, V, X, Y, C, S. -/
  sections : List Section := []
  /-- switch point, then the word offsets of .D, .M and .R -/
  switches : List (Nat × Nat × Nat × Nat) := []
  deriving DecidableEq, Repr, Inhabited

/-- A task (R256): the launch it belongs to, its serial number, its indices and what its core needs of the launch. -/
structure Task where
  part : Nat
  queue : Nat
  launch : Nat
  serial : BitVec 22
  prio : Nat
  idx : List Word
  args : Word
  kernel : Word
  tensors : Word
  tcount : Nat
  superstep : Bool
  hdr : Header
  /-- Cocoon frames pinned in stacked DRAM (R362). -/
  frames : List Nat
  /-- Bound to its column by a use of vq (R286). -/
  bound : Bool
  /-- The turn in which it began, and the dies whose weight store an XWS has written since then (R183). -/
  begun : Nat := 0
  stale : List Nat := []
  deriving DecidableEq, Repr, Inhabited

/-- The state that the parties of one residency slot share (R261, R285). -/
structure Shared where
  queues : Sparse (List Item) := []
  used : BitVec 6 := 0
  notified : BitVec 6 := 0
  retired : BitVec 6 := 0
  rv : Sparse (BitVec 6) := []
  ns : Sparse Word := []
  istat : BitVec 2 := 0
  phb : Sparse Word := []
  phst : BitVec 16 := 0
  /-- Bit n: the front log of pair n is incomplete (R358). -/
  short : BitVec 8 := 0
  front : Sparse (List CopyCmd) := []
  back : Sparse (List CopyCmd) := []
  ssn : BitVec 32 := 0
  lock : Bool := false
  deriving DecidableEq, Repr, Inhabited

/-- A trellis slot (R163): valid with m, b, v, c, h and the codebook's FP16 values in record order. -/
structure Trellis where
  m : Nat
  b : Nat
  v : Nat
  c : Nat
  h : Nat
  book : List (BitVec 16)
  deriving DecidableEq, Repr, Inhabited

/-- An entry of an operand FIFO (R143): its type code, 128 element codes, the two scale bytes of a B4 entry, and whether it
holds an uncorrectable error (R345, R346). -/
structure FEntry where
  type : Nat
  elems : List Nat
  scales : List Nat
  bad : Bool := false
  deriving DecidableEq, Repr, Inhabited

/-- A phase checkpoint (R357): every row of the Cocoon except scratchpad, accumulators and itself. -/
structure Checkpoint where
  parties : Sparse PartyState
  shared : Shared
  trellis : Sparse Trellis
  fifoA : List FEntry
  fifoB : List FEntry
  vin : List VEntry
  deriving DecidableEq, Repr, Inhabited

/-- One residency slot of a core (R258). -/
structure Ctx where
  task : Option Task := none
  sh : Shared := {}
  checkpoint : Option Checkpoint := none
  /-- A context error met and not yet carried out: cause and value (R354). -/
  dying : Option (Nat × Word) := none
  /-- A phase cancellation due (R358). -/
  cancel : Bool := false
  /-- A pre-emption of the task has been asked for (R283): its wings stop, nothing is taken from its queues (R284). -/
  halting : Bool := false
  /-- Eligibility or sending was broken since the last Lookout tick (R366). -/
  disturbed : Bool := false
  /-- The context is lost (R365). -/
  lost : Bool := false
  deriving DecidableEq, Repr, Inhabited

/-- A matrix operation in flight (R148). -/
structure MatOp where
  /-- 0 run, 1 MLDC, 2 drain -/
  kind : Nat
  slot : Nat
  cw : BitVec 32
  /-- Start tile and nest of a run as (count, tstep) by level; the tile of the others. -/
  tile : Nat
  nest : List (Nat × Int)
  ta : Bool
  tb : Bool
  tiles : List Nat
  needA : Nat
  needB : Nat
  gotA : List FEntry
  gotB : List FEntry
  offset : Nat
  zero : Bool
  sig : B2
  deriving DecidableEq, Repr, Inhabited

/-- One core (R14, R15). -/
structure CoreState where
  /-- CPART (R317). -/
  part : BitVec 7 := 64
  scrub : Bool := false
  /-- The partitions that have held the column since before the scrub began (R331). -/
  former : List Nat := []
  /-- The partitions that have held the core, ungated, since the last whole microsecond (R333, R335). -/
  holders : List Nat := []
  /-- Base divisors (R22, R339): control, matrix, vector, copy pair. -/
  div0 : BitVec 6 := 12
  div1 : BitVec 6 := 12
  div2 : BitVec 6 := 12
  div3 : BitVec 6 := 14
  /-- Boost (R340–R343): claims, priority and slot of each claim, domains boosting and falling, cool-down ends. -/
  claim : BitVec 4 := 0
  claimBy : Sparse (Nat × Nat) := []
  boosting : BitVec 4 := 0
  falling : BitVec 4 := 0
  cool : Sparse Nat := []
  /-- GATE (R334, R344). -/
  gatePending : Bool := false
  gated : Bool := false
  waking : Bool := false
  /-- R361: KATB, katpend, failed, the moment up to which busy time is counted. -/
  katb : BitVec 32 := 0
  katpend : Bool := false
  failed : Bool := false
  fifoA : List FEntry := []
  fifoB : List FEntry := []
  ops : List MatOp := []
  trellis : Sparse Trellis := []
  /-- The instruction that holds the search unit (R179). -/
  search : Option (Nat × Party) := none
  /-- Incoming vertical FIFO: poppable entries, entries in transit (R221). -/
  vin : List VEntry := []
  vfly : List VEntry := []
  /-- The slot each engine served last (R260), by engine 0–5. -/
  served : Sparse Nat := []
  deriving DecidableEq, Repr, Inhabited

/-- A trap, hang or notice record (R347, R348). -/
structure Record where
  cause : BitVec 16
  tpc : Word
  tval : Word
  tstat : Word
  /-- The held party of a trap record. -/
  party : Option PartyId
  part : Nat
  /-- The launch queue and the launch of a hang record. -/
  queue : Nat
  launch : Nat
  deriving DecidableEq, Repr, Inhabited

/-- A counter behind a guest counter (R332): exact, as at the start of this ms, published. -/
structure Count where
  exact : Word := 0
  snap : Word := 0
  shown : BitVec 48 := 0
  deriving DecidableEq, Repr, Inhabited

/-- One die. -/
structure DieState where
  tvec : BitVec 16 := 0
  tret : BitVec 16 := 0
  en : Bool := true
  inh : Bool := false
  pend : List Record := []
  held : Option Record := none
  cecnt : Word := 0
  /-- w0 stopped by a double trap (R351). -/
  double : Bool := false
  /-- w0's REPC, loop registers, active loops and the order of their starts when the held record was taken (R37). -/
  repc : BitVec 10 := 0
  ls : Sparse Word := []
  order : List Nat := []
  began : List Nat := []
  /-- The supervisor's image and its section descriptors (R351, R383). -/
  image : Option Image := none
  sections : List Section := []
  /-- RSLOT by ring entry (R317). -/
  rslots : Sparse (BitVec 7) := []
  ring : Count := {}
  /-- The die's vector clock (R204). -/
  clock : Sparse Nat := []
  deriving DecidableEq, Repr, Inhabited

/-- A Swallowtail automaton slot (R301, R302). -/
structure StopSet where
  owner : Nat
  gen : BitVec 12
  strings : List (List Byte)
  deriving DecidableEq, Repr, Inhabited

/-- One Hamper: its boost pool (R340–R342), its Swallowtail (R301), its DRAM byte count (R332). -/
structure HamperState where
  pool : Nat := 64
  last : Nat := 0
  clean : Bool := true
  stops : Sparse StopSet := []
  dram : Count := {}
  deriving DecidableEq, Repr, Inhabited

/-- One partition (R315). -/
structure Partition where
  frg : BitVec 32 := 0
  frb : BitVec 32 := 0
  keyb : BitVec 9 := 0
  keyn : BitVec 10 := 0
  plmaps : BitVec 16 := 0x015A
  plcap : BitVec 3 := 7
  pwsh : BitVec 16 := 0
  efill : BitVec 32 := 0
  ecap : Word := 1
  eacc : Word := 0
  /-- Energy below 1 µJ carried to the next microsecond, in tenths of a pJ (R335). -/
  carry : Nat := 0
  /-- Energy of each of the last ten microseconds, without what was drawn above nominal, in tenths of a pJ (R336). -/
  draw : List Nat := []
  /-- The balance has reached 0 or less, and no refill has yet left it above 0 (R335). -/
  spent : Bool := false
  plvl : BitVec 3 := 0
  /-- A level has been granted since creation or reset (R336). -/
  granted : Bool := false
  /-- The limits of the signed manifest (R380). -/
  limit : Nat := 0
  dlctl : BitVec 3 := 0
  dlbase : BitVec 43 := 0
  dlhead : BitVec 13 := 0
  dltail : BitVec 13 := 0
  dirty : List Nat := []
  lkexp : BitVec 32 := 0
  cursor : Sparse Nat := []
  flpg : Sparse Word := []
  created : Bool := false
  /-- No new keys since the last reset (R369). -/
  locked : Bool := false
  endpoints : List Nat := []
  peers : Sparse Nat := []
  schedulers : List Nat := []
  deriving DecidableEq, Repr, Inhabited

/-- The launch at the head of a queue (R253–R256). -/
structure Launch where
  id : Nat
  index : BitVec 32
  tag : BitVec 32
  prio : Nat
  superstep : Bool
  levels : Nat
  order : BitVec 32
  bounds : List Nat
  kernel : Word
  args : Word
  tensors : Word
  tcount : Nat
  hdr : Header
  headAt : Nat
  /-- Iterations handed out, tasks completed, tasks ended by an error. -/
  next : Nat
  done : Nat
  failed : Nat
  cause : Option Nat
  /-- ns waited without a core at effective priority 0 (R283). -/
  waited : Nat
  deriving DecidableEq, Repr, Inhabited

/-- A launch queue of a partition (R253, R374) with its Lookout (R366). -/
structure LQueue where
  qbase : Word := 0
  qcfg : BitVec 32 := 0
  qstat : BitVec 8 := 0
  qwp : BitVec 32 := 0
  qrp : BitVec 32 := 0
  qcpl : Word := 0
  qiv : BitVec 32 := 0
  lklim : BitVec 32 := 100000
  lkcnt : BitVec 32 := 0
  /-- The expiries that are due, oldest first: the hang record of the moment at which LKCNT reached LKLIM (R368), none where no task of
  the launch was resident. -/
  expiring : List (Option Record) := []
  /-- Records copied in: index and bytes, none where the slot could not be read. -/
  recs : List (BitVec 32 × Option (List Byte)) := []
  head : Option Launch := none
  /-- Records that the clearing of en has kept from running; they complete after the head (R374). -/
  closing : List (BitVec 32 × Option (List Byte)) := []
  lastInt : Option Nat := none
  deferred : Bool := false
  deriving DecidableEq, Repr, Inhabited

/-- A key slot (R317, R318): the number of its key stands for the key. -/
structure KeySlot where
  loaded : Bool := false
  revoked : Bool := false
  kuse : Word := 0
  num : Nat := 0
  deriving DecidableEq, Repr, Inhabited

/-- An object's life word and frames (R322). -/
structure Obj where
  gen : BitVec 35
  count : Nat
  prio : BitVec 4
  live : Bool
  /-- The steps after the destruction point are due (R323). -/
  draining : Bool
  size : Nat
  space : Nat
  frames : List Nat
  key : Nat
  /-- The clock of the last write to its life word (R44, R323). -/
  clock : Sparse Nat := []
  deriving DecidableEq, Repr, Inhabited

/-- A window (R329, R330). -/
structure Window where
  exporter : Nat
  importer : Nat
  base : Nat
  length : Nat
  slot : Nat
  importerWrites : Bool
  count : Nat
  home : Nat
  live : Bool
  /-- Serials of the peer's tasks that ran while it was open. -/
  users : List Nat
  /-- The clock of its last publication (R330). -/
  published : Sparse Nat := []
  deriving DecidableEq, Repr, Inhabited

/-- A suffix index (R304). -/
structure Suffix where
  owner : Option Nat := none
  q : Nat := 0
  e : Nat := 0
  n : Nat := 0
  queries : Word := 0
  appends : Word := 0
  evicted : Word := 0
  toks : List (BitVec 32) := []
  /-- Its memory holds an uncorrectable error (R345). -/
  bad : Bool := false
  deriving DecidableEq, Repr, Inhabited

/-- A pin (R328): task serial, partition, frame code, count. -/
structure Pin where
  serial : Nat
  part : Nat
  frame : Nat
  count : Nat
  deriving DecidableEq, Repr, Inhabited

/-- A saved context (R285, R362). -/
structure Cocoon where
  task : Task
  parties : Sparse PartyState
  shared : Shared
  checkpoint : Option Checkpoint
  trellis : Sparse Trellis
  scratch : List Host.Cell
  accum : List Host.Cell
  fifoA : List FEntry
  fifoB : List FEntry
  vin : List VEntry
  /-- Parked by CTXSV (R363), or returned to its launch (R287). -/
  parked : Bool
  /-- Whether it ran on the upper core of its column, and the serial of the task bound to the column with it (R286); 0 for none. -/
  upper : Bool
  mate : Nat
  /-- What its die knew when it was saved (R192, R212). -/
  clock : Sparse Nat
  /-- The context is lost (R365). -/
  lost : Bool := false
  deriving DecidableEq, Repr, Inhabited

/-- A write under way to another home (R204). -/
structure Flight where
  id : Nat
  home : Nat
  writer : Nat
  num : Nat
  clock : Sparse Nat
  agent : PartyId
  part : Nat
  serial : Nat
  release : Bool
  phys : Nat
  bytes : List Byte
  /-- key slot and its key's number; none where no key covers the place -/
  slot : Option Nat
  /-- Applied, acknowledgement lost: a second copy (R205). -/
  copy : Bool
  deriving DecidableEq, Repr, Inhabited

/-- A load under way to another home (R204). -/
structure LoadReq where
  agent : PartyId
  home : Nat
  clock : Sparse Nat
  phys : Nat
  size : Nat
  signed : Bool
  consume : Bool
  acquires : Bool
  d : B6
  slot : Option Nat
  /-- How many writes behind the present it may go. -/
  lag : Nat
  w : B2
  g : B2
  deriving DecidableEq, Repr, Inhabited

/-- A collective or flag message under way to a die of this module (R246, R247). Endpoints: device in [15:4]. -/
structure Msg where
  src : Nat
  dst : Nat
  /-- The peer partition at the receiver. -/
  part : Nat
  flag : Bool
  tag : Nat
  kind : Nat
  type : Nat
  count : Nat
  /-- The sender's list (other than CSEND), for the comparison of R243. -/
  list : List Nat
  fromRank : Nat
  dfirst : Nat
  bytes : List Byte
  clock : Sparse Nat
  /-- The number of the message in its sending die's clock entry (R206). -/
  num : Nat
  /-- The sending queue of this module, its task's serial, and the turn in which the instruction was issued. -/
  agent : Option PartyId
  serial : Nat
  since : Nat
  /-- The collective queue whose instruction has received it and has not retired yet (R246). -/
  holder : Option PartyId := none
  deriving DecidableEq, Repr, Inhabited

/-- What the module sends outside. -/
inductive Out where
  | interrupt (fn : Nat) (vector : BitVec 32)
  | unsupported (device : Nat)
  | launchReply (device : Nat) (accepted : Bool) (reason : Nat)
  /-- A residency report (R379): device, TIME, partition, free slots, each queue's depth and its head's effective
  priority, PLVL. -/
  | report (endpoint device time part free : Nat) (queues : List (Nat × Option Nat)) (plvl : Nat)
  /-- What a host load returns; none where it reaches nothing. -/
  | hostLoad (fn va : Nat) (bytes : Option (List Byte))
  | message (m : Msg)
  /-- The answer to a message of another device that is matched wrongly (R244). -/
  | mismatch (endpoint : Nat) (tag : Nat)
  /-- What a host read of a register window returns (R374, R382): function, offset, value. -/
  | hostRegister (fn offset value : Nat)
  | resent
  deriving DecidableEq, Repr

/-- A frame owner change under way (R385). -/
structure Reassign where
  space : Nat
  die : Nat
  frame : Nat
  owner : Nat
  deriving DecidableEq, Repr, Inhabited

/-- A partition reset under way (R369): its next step and when it began. -/
structure Reset where
  part : Nat
  step : Nat
  since : Nat
  deriving DecidableEq, Repr, Inhabited

/-- The management function (R382). -/
structure Mgmt where
  mstat : BitVec 16 := 0
  mcause : BitVec 32 := 0
  hlver : BitVec 48 := 0
  fdev : BitVec 12 := 0
  idpub : BitVec 256 := 0
  atnonce : BitVec 256 := 0
  ataddr : Word := 0
  floor : Nat := 0
  /-- Every loaded image and manifest, in load order (R381). -/
  loaded : List (List Byte) := []
  /-- How many images have been loaded (R384). -/
  images : Nat := 0
  /-- The bring-up that is under way (R383). -/
  bringing : Option BringUp := none
  deriving DecidableEq, Repr, Inhabited

/-- The next moments of the periodic events (log 8 DESIGN CHOICE). -/
structure Due where
  energy : Nat := 1000
  refill : Nat := 1000000
  grant : Nat := 100000
  interval : Nat := 4000
  pool : Nat := 32000
  lookout : Nat := 1000
  publish : Nat := 1000000
  report : Nat := 100000
  deriving DecidableEq, Repr, Inhabited

structure State where
  /-- The model's own: who moves next, the number of turns taken, the number of open values drawn, how the last
  instruction ended, the party that executes, the moments of periodic events. -/
  plan : List Turn
  tick : Nat
  fresh : Nat
  last : Ending
  cur : PartyId
  due : Due
  /-- TIME in ns (R65). -/
  time : Nat
  /-- Every memory of the module, by flat physical address (`Ops`), unlisted bytes reading 0 (log 5 DESIGN CHOICE). -/
  mem : List Host.Cell
  /-- The key number under which a line was last written, by line (R319). -/
  tags : Sparse Nat
  /-- Flipped bits by protected word (R345). -/
  flips : Sparse Nat
  /-- The clock of a granule's last write (R204). -/
  stamps : Sparse (Sparse Nat)
  /-- By message, what the receiving die knew once it was delivered (R246, R247). -/
  delivered : Sparse (Sparse Nat)
  /-- What the host processor has read names (R201, R208; log 108 DESIGN CHOICE). -/
  hostClock : Sparse Nat
  /-- The model's own: the number of writes performed, and what granules held before them, oldest first (log 2 DESIGN CHOICE). -/
  seq : Nat
  past : List Past
  parties : Sparse PartyState
  ctxs : Sparse Ctx
  cores : Sparse CoreState
  dies : Sparse DieState
  hampers : Sparse HamperState
  parts : Sparse Partition
  queues : Sparse LQueue
  keys : Sparse KeySlot
  /-- Bytes moved since the last whole microsecond, by partition and resource (R332, R335). -/
  moved : Sparse Nat
  /-- The module's energy of each of the last hundred microseconds, without what was drawn above nominal, in tenths of a pJ
  (R336). -/
  moduleDraw : List Nat
  /-- Owners of frames (R385), by frame code; frames the supervisor has set aside. -/
  owners : Sparse Nat
  aside : List Nat
  reassigns : List Reassign
  /-- Paged spaces (R18), by partition and page. -/
  pages : Sparse PageTarget
  pins : List Pin
  objects : Sparse Obj
  windows : Sparse Window
  streams : Sparse (List (List (BitVec 32)))
  suffixes : Sparse Suffix
  cocoons : List Cocoon
  flights : List Flight
  loads : List LoadReq
  msgs : List Msg
  /-- The numbers of the messages of each endpoint of another device that have been applied (R206). -/
  heard : Sparse (List Nat)
  out : List Out
  /-- PRSTAT (R369) and the reset under way. -/
  prstat : BitVec 8
  resetting : Option Reset
  /-- Partitions whose reset follows from a lost context (R365). -/
  resetDue : List Nat
  /-- SXFAB and SXRECL with what guests read of them (R332). -/
  fabric : Count
  reclaim : Count
  mgmt : Mgmt
  /-- The serial of the next task, the number of the next launch, the next key's number. -/
  serial : Nat
  launches : Nat
  keynum : Nat
  deriving DecidableEq, Repr

/-- The machine right after reset: every register at its reset value, phase 0 of bring-up (R383), memory listing
nothing. Values that the spec does not give are 0, empty or off (log 4 DESIGN CHOICE). -/
def State.reset : State where
  plan := []
  tick := 0
  fresh := 0
  last := .none
  cur := ⟨16, 0, .w0⟩
  due := {}
  time := 0
  mem := []
  tags := []
  flips := []
  stamps := []
  delivered := []
  hostClock := []
  seq := 0
  past := []
  parties := []
  ctxs := []
  cores := []
  dies := []
  hampers := []
  parts := []
  queues := []
  keys := []
  moved := []
  moduleDraw := []
  owners := []
  aside := []
  reassigns := []
  pages := []
  pins := []
  objects := []
  windows := []
  streams := []
  suffixes := []
  cocoons := []
  flights := []
  loads := []
  msgs := []
  heard := []
  out := []
  prstat := 64
  resetting := none
  resetDue := []
  fabric := {}
  reclaim := {}
  mgmt := {}
  serial := 1
  launches := 0
  keynum := 1

end Sys2Proof.Machine
end

