-- ==== Sys2Proof/Machine/Ops.lean ====
section
/-! DEFINITION. The shared operations: finite maps, bytes of memory, the parts of the state, register writes, taking a
trap and returning from one, loops, tokens, and how an instruction ends. -/

namespace Sys2Proof

/-- The number of a party in TSTAT (R349). -/
def Party.num : Party → Nat
  | .w0 => 0 | .w1 => 1 | .w2 => 2 | .w3 => 3 | .m => 4 | .v => 5 | .x => 6 | .y => 7 | .c => 8 | .s => 9

def Party.isWing (p : Party) : Bool := decide (p.num < 4)

/-- The opcode map of a party (R46). -/
def Party.map : Party → Kind
  | .w0 | .w1 | .w2 | .w3 => .wing
  | .m => .matrix
  | .v => .vector
  | .x | .y => .copy
  | .c => .collective
  | .s => .swallowtail

end Sys2Proof

namespace Sys2Proof.Machine

/-! ## Finite maps and bytes -/

/-- What the map holds at `k`, `d` where it lists nothing. -/
def look {α : Type} (d : α) : Sparse α → Nat → α
  | [], _ => d
  | (k', v) :: m, k => if k = k' then v else look d m k

/-- What the map lists at `k`, if anything. -/
def seek {α : Type} : Sparse α → Nat → Option α
  | [], _ => none
  | (k', v) :: m, k => if k = k' then some v else seek m k

/-- The map with `v` at `k`. -/
def put {α : Type} : Sparse α → Nat → α → Sparse α
  | [], k, v => [(k, v)]
  | (k', v') :: m, k, v =>
    if k < k' then (k, v) :: (k', v') :: m
    else if k = k' then (k, v) :: m
    else (k', v') :: put m k v

/-- The map without `k`. -/
def drop {α : Type} (m : Sparse α) (k : Nat) : Sparse α := m.filter (fun e => e.1 != k)

/-- The entrywise greater of two clocks (R204). -/
def mergeClock (a : Sparse Nat) : Sparse Nat → Sparse Nat
  | [] => a
  | (k, v) :: b => mergeClock (if look 0 a k < v then put a k v else a) b

/-- What a byte that nothing has written reads as (log 5 DESIGN CHOICE). -/
def unwritten : Byte := 0

/-- One byte of memory. -/
def readByte (m : List Host.Cell) (a : Nat) : Byte := look unwritten m a

/-- One byte written, keeping the canonical form. -/
def writeByte : List Host.Cell → Nat → Byte → List Host.Cell
  | [], a, v => if v = unwritten then [] else [(a, v)]
  | (a', v') :: m, a, v =>
    if a < a' then (if v = unwritten then (a', v') :: m else (a, v) :: (a', v') :: m)
    else if a = a' then (if v = unwritten then m else (a, v) :: m)
    else (a', v') :: writeByte m a v

/-- Keys strictly above `lo` and rising, no entry reading as an unlisted byte does. -/
def cellsFrom : Nat → List Host.Cell → Bool
  | _, [] => true
  | lo, (a, v) :: m => decide (lo ≤ a) && decide (v ≠ unwritten) && cellsFrom (a + 1) m

/-- The canonical form of a memory. -/
def Memory.wf (m : List Host.Cell) : Bool := cellsFrom 0 m

/-- `n` bytes from `a`. -/
def readBytes (m : List Host.Cell) (a : Nat) : Nat → List Byte
  | 0 => []
  | n + 1 => readByte m a :: readBytes m (a + 1) n

/-- Bytes written from `a` on. -/
def writeBytes (m : List Host.Cell) (a : Nat) : List Byte → List Host.Cell
  | [] => m
  | b :: bs => writeBytes (writeByte m a b) (a + 1) bs

/-- The little-endian value of bytes (R3). -/
def natOfBytes : List Byte → Nat
  | [] => 0
  | b :: bs => b.toNat + 256 * natOfBytes bs

/-- The `n` little-endian bytes of a value (R3). -/
def bytesOfNat : Nat → Nat → List Byte
  | 0, _ => []
  | n + 1, v => BitVec.ofNat 8 v :: bytesOfNat n (v / 256)

/-- The bytes of the cells from `a` up to `a + n`, rebased to 0. -/
def cellsIn (m : List Host.Cell) (a n : Nat) : List Host.Cell :=
  (m.filter (fun c => decide (a ≤ c.1) && decide (c.1 < a + n))).map (fun c => (c.1 - a, c.2))

/-- Memory with `n` bytes from `a` reading as unwritten. -/
def clearRange (m : List Host.Cell) (a n : Nat) : List Host.Cell :=
  m.filter (fun c => !(decide (a ≤ c.1) && decide (c.1 < a + n)))

/-- Cells written back from base `a`. -/
def writeCells (m : List Host.Cell) (a : Nat) : List Host.Cell → List Host.Cell
  | [] => m
  | (k, v) :: cs => writeCells (writeByte m (a + k) v) a cs

/-- Bits hi..lo of a natural number. -/
def bits (n hi lo : Nat) : Nat := n / 2 ^ lo % 2 ^ (hi + 1 - lo)

/-- A field of a little-endian record: `len` bytes at `o`. -/
def recField (r : List Byte) (o len : Nat) : Nat := natOfBytes ((r.drop o).take len)

/-- The same, read as a signed 4-byte value. -/
def recInt (r : List Byte) (o : Nat) : Int := (BitVec.ofNat 32 (recField r o 4)).toInt

/-! ## Parts of the state -/

/-- The wings. -/
def wings : List Party := [.w0, .w1, .w2, .w3]

/-- The engines, in the order of the queue numbers of R271. -/
def engines : List Party := [.m, .v, .x, .y, .c, .s]

def allParties : List Party := wings ++ engines

/-- The engine that serves queue `q` (R271). -/
def engineOf (q : Nat) : Party :=
  match q with
  | 0 => .m | 1 => .v | 2 => .x | 3 => .y | 4 => .c | _ => .s

/-- The queue that an engine serves. -/
def queueOf (p : Party) : Nat := p.num - 4

/-- The wing of number `w`. -/
def wingOf (w : Nat) : Party :=
  match w with
  | 0 => .w0 | 1 => .w1 | 2 => .w2 | _ => .w3

/-- The die of a core (R12). -/
def dieOf (core : Nat) : Nat := core / 17

/-- The Hamper of a core. -/
def hamperOf (core : Nat) : Nat := core / 34

/-- Whether a core is a system core (R12, R15). -/
def isSystem (core : Nat) : Bool := decide (core % 17 = 16)

/-- The other core of a compute core's column (R12). -/
def partnerOf (core : Nat) : Nat := if core / 17 % 2 = 0 then core + 17 else core - 17

/-- The core numbers of the module. -/
def allCores : List Nat := List.range 272

def partyKey (p : PartyId) : Nat := (p.core * 2 + p.slot) * 10 + p.party.num

/-- The state with another last ending. -/
def State.setLast (s : State) (e : Ending) : State := { s with last := e }

/-- The state with another executing party. -/
def State.setCur (s : State) (p : PartyId) : State := { s with cur := p }

def State.party (s : State) (p : PartyId) : PartyState := look {} s.parties (partyKey p)
def State.setParty (s : State) (p : PartyId) (x : PartyState) : State :=
  { s with parties := put s.parties (partyKey p) x }
def State.modParty (s : State) (p : PartyId) (f : PartyState → PartyState) : State := s.setParty p (f (s.party p))

def State.ctx (s : State) (core slot : Nat) : Ctx := look {} s.ctxs (core * 2 + slot)
def State.setCtx (s : State) (core slot : Nat) (x : Ctx) : State :=
  { s with ctxs := put s.ctxs (core * 2 + slot) x }
def State.modCtx (s : State) (core slot : Nat) (f : Ctx → Ctx) : State := s.setCtx core slot (f (s.ctx core slot))

def State.core (s : State) (c : Nat) : CoreState := look {} s.cores c
def State.setCore (s : State) (c : Nat) (x : CoreState) : State := { s with cores := put s.cores c x }
def State.modCore (s : State) (c : Nat) (f : CoreState → CoreState) : State := s.setCore c (f (s.core c))

def State.die (s : State) (d : Nat) : DieState := look {} s.dies d
def State.setDie (s : State) (d : Nat) (x : DieState) : State := { s with dies := put s.dies d x }
def State.modDie (s : State) (d : Nat) (f : DieState → DieState) : State := s.setDie d (f (s.die d))

def State.hamper (s : State) (h : Nat) : HamperState := look {} s.hampers h
def State.setHamper (s : State) (h : Nat) (x : HamperState) : State := { s with hampers := put s.hampers h x }
def State.modHamper (s : State) (h : Nat) (f : HamperState → HamperState) : State := s.setHamper h (f (s.hamper h))

def State.part (s : State) (p : Nat) : Partition := look {} s.parts p
def State.setPart (s : State) (p : Nat) (x : Partition) : State := { s with parts := put s.parts p x }
def State.modPart (s : State) (p : Nat) (f : Partition → Partition) : State := s.setPart p (f (s.part p))

def State.queue (s : State) (p q : Nat) : LQueue := look {} s.queues (p * 32 + q)
def State.setQueue (s : State) (p q : Nat) (x : LQueue) : State := { s with queues := put s.queues (p * 32 + q) x }
def State.modQueue (s : State) (p q : Nat) (f : LQueue → LQueue) : State := s.setQueue p q (f (s.queue p q))

def State.key (s : State) (k : Nat) : KeySlot := look {} s.keys k
def State.setKey (s : State) (k : Nat) (x : KeySlot) : State := { s with keys := put s.keys k x }

/-- The party that executes. -/
def State.me (s : State) : PartyState := s.party s.cur
def State.setMe (s : State) (x : PartyState) : State := s.setParty s.cur x
def State.modMe (s : State) (f : PartyState → PartyState) : State := s.setMe (f s.me)

/-- The residency slot of the party that executes. -/
def State.myCtx (s : State) : Ctx := s.ctx s.cur.core s.cur.slot
def State.modMyCtx (s : State) (f : Ctx → Ctx) : State := s.modCtx s.cur.core s.cur.slot f
def State.modSh (s : State) (f : Shared → Shared) : State := s.modMyCtx (fun c => { c with sh := f c.sh })

/-- Supervisor context: exactly the parties of system cores (R15). -/
def State.supervisor (s : State) : Bool := isSystem s.cur.core

/-- The partition of the party that executes: its task's, or its core's; 64 for none. -/
def State.myPart (s : State) : Nat :=
  match s.myCtx.task with
  | some t => t.part
  | none => (s.core s.cur.core).part.toNat

/-- The serial of the task of the party that executes; 0 for none. -/
def State.mySerial (s : State) : BitVec 22 :=
  match s.myCtx.task with
  | some t => t.serial
  | none => 0

/-- A register of the party that executes. -/
def State.reg (s : State) (n : Nat) : Word := look 0 s.me.regs n

/-- Whether a register of the party that executes is tainted (R40). -/
def State.tainted (s : State) (n : Nat) : Bool := s.me.taint.getLsbD n

def setBit {n : Nat} (x : BitVec n) (i : Nat) (b : Bool) : BitVec n :=
  if b then x ||| BitVec.ofNat n (2 ^ i) else x &&& ~~~(BitVec.ofNat n (2 ^ i))

/-- A register write with the taint it leaves (R40); an error that the register held is overwritten (R346). -/
def State.setReg (s : State) (d : Nat) (v : Word) (taint : Bool) : State :=
  s.modMe (fun x => { x with regs := put x.regs d v, taint := setBit x.taint d taint, spoilt := setBit x.spoilt d false })

/-- A fresh open value, and the state that has drawn it. (Log 9 DESIGN CHOICE.) -/
def State.draw (s : State) : Nat × State := (Sys2Proof.Config.freeNat s.fresh, { s with fresh := s.fresh + 1 })

/-! ## Flat physical addresses -/

/-- A place: a space's tag and a byte offset in it. -/
def phys (tag off : Nat) : Nat := tag * 2 ^ 60 + off

def tagDram : Nat := 0
def tagTier : Nat := 1
def tagHost (fn : Nat) : Nat := 2 + fn
def tagRows : Nat := 70
/-- From this tag on, host addresses of the management function from 2^60 on. -/
def tagHostHigh : Nat := 4000
/-- Whether a physical address lies in a memory of the host. -/
def inHost (a : Nat) : Bool :=
  let t := a / 2 ^ 60
  (decide (2 ≤ t) && decide (t < tagRows)) || decide (tagHostHigh ≤ t)
def tagWeights (die : Nat) : Nat := 80 + die
def tagScratch (core : Nat) : Nat := 100 + core
def tagAcc (core : Nat) : Nat := 400 + core
/-- The instruction memories of a core: 0 wings, 1–4 M, V, X, Y, 5 collective, 6 Swallowtail (R45). -/
def tagImem (core k : Nat) : Nat := 1000 + core * 8 + k

/-- Which instruction memory a party fetches from. -/
def imemIndex (p : Party) : Nat := if p.isWing then 0 else p.num - 3

/-- The size of a party's instruction memory, or of its window for C and S (R45). -/
def imemSize (p : PartyId) : Nat :=
  match p.party with
  | .w0 | .w1 | .w2 | .w3 => 65536
  | .m | .v | .x | .y => 32768
  | .c => if isSystem p.core then 2048 else 1024
  | .s => if isSystem p.core then 512 else 256

/-- The rounded code size of a task's section (R261). -/
def codeSize (t : Task) (k : Nat) : Nat := ((t.hdr.sections.getD k {}).size + 63) / 64 * 64

/-- The physical address of offset `o` of a party's window (R261). -/
def imemPhys (s : State) (p : PartyId) (o : Nat) : Nat :=
  let k := imemIndex p.party
  let z := imemSize p
  if 5 ≤ k then phys (tagImem p.core k) (p.slot * z + o % z)
  else if p.slot = 0 then phys (tagImem p.core k) (o % z)
  else
    match (s.ctx p.core p.slot).task with
    | some t => phys (tagImem p.core k) ((z - codeSize t k % z + o) % z)
    | none => phys (tagImem p.core k) (o % z)

/-- The instruction word at offset `o` of a party's memory; the all-zero word beyond it (R45, log 12 DEDUCED). -/
def wordAt (s : State) (p : PartyId) (o : Nat) : IWord :=
  if o + 4 ≤ imemSize p then BitVec.ofNat 32 (natOfBytes (readBytes s.mem (imemPhys s p o) 4)) else 0

/-- The word that the executing party is at, as TVAL shows it (R348). -/
def State.curWord (s : State) : Word := (wordAt s s.cur s.me.pc.toNat).setWidth 64

/-- The size of a core's scratchpad (R14, R15). -/
def scratchSize (core : Nat) : Nat := if isSystem core then 2 ^ 20 else 2 ^ 22

/-- The physical address of offset `o` of a slot's scratchpad window (R259). -/
def scratchPhys (s : State) (core slot o : Nat) : Nat :=
  let z := scratchSize core
  if slot = 0 then phys (tagScratch core) (o % z)
  else
    match (s.ctx core slot).task with
    | some t => phys (tagScratch core) ((z - t.hdr.scratch % z + o) % z)
    | none => phys (tagScratch core) (o % z)

/-! ## Causes (R348) -/

def causeIllegal : Nat := 1
def causePrivilege : Nat := 2
def causeOperand : Nat := 3
def causeAlignment : Nat := 4
def causeUnderflow : Nat := 5
def causeOverflow : Nat := 6
def causeProbe : Nat := 7
def causeKat : Nat := 8
def causeSoftware : Nat := 9
def causeHang : Nat := 0x10
def errTranslation : Nat := 0x101
def errUncorrectable : Nat := 0x102
def errRetry : Nat := 0x103
def errType : Nat := 0x104
def errCollective : Nat := 0x105
def errDatapath : Nat := 0x106
def errLost : Nat := 0x107
def errRestart : Nat := 0x108

/-! ## Taking a trap and returning from one -/

/-- TSTAT of a trap of a party (R349). -/
def tstatOf (s : State) (p : PartyId) : Word :=
  let c := s.ctx p.core p.slot
  let serial := match c.task with | some t => t.serial.toNat | none => 0
  let retry := decide (c.sh.phst.toNat % 256 ≠ 0)
  let lstep := c.sh.lock && p.party.isWing
  word (serial * 2 ^ 32 + p.core * 2 ^ 17 + p.slot * 2 ^ 16 + retry.toNat * 2 ^ 11 + lstep.toNat * 2 ^ 10
    + (isSystem p.core).toNat * 2 ^ 9 + p.party.num)

/-- A record posted to a die's system core (R347). -/
def State.post (s : State) (die : Nat) (r : Record) : State :=
  s.modDie die (fun d => { d with pend := d.pend ++ [r] })

/-- The parties that a trap of `p` holds: all four wings in lock-step (R264, R347). -/
def heldBy (s : State) (p : PartyId) : List PartyId :=
  if (s.ctx p.core p.slot).sh.lock && p.party.isWing then wings.map (fun w => ⟨p.core, p.slot, w⟩) else [p]

/-- Sets the held mark of parties. -/
def setHeld (s : State) (b : Bool) : List PartyId → State
  | [] => s
  | p :: ps => setHeld (s.modParty p (fun x => { x with held := b })) b ps

/-- Taking a precise trap (R347): TCAUSE, TPC, TVAL and TSTAT of the party are set, the party is held, and a record goes
to the system core of its die. A trap of w0 of a system core whose handler runs is a double trap (R351): w0 stops. -/
def takeTrap (s : State) (p : PartyId) (cause : Nat) (tval : Word) : State :=
  let x := s.party p
  let ts := tstatOf s p
  let s1 := s.setParty p { x with tcause := BitVec.ofNat 16 cause, tpc := x.pc, tval := tval, tstat := ts, wait := .no }
  let s2 := setHeld s1 true (heldBy s p)
  let s3 := s2.modCtx p.core p.slot (fun c => { c with disturbed := true })
  let d := dieOf p.core
  let s4 := s3.setLast .trapped
  if isSystem p.core && decide (p.party = .w0) && (s.die d).inh then
    s4.modDie d (fun x => { x with double := true })
  else
    let part := match (s.ctx p.core p.slot).task with | some t => t.part | none => 64
    s4.post d ⟨BitVec.ofNat 16 cause, x.pc, tval, ts, some p, part, 0, 0⟩

/-! ## Loops (R268, R288) -/

def lsActive (l : Word) : Bool := l.getLsbD 63
def lsStart (l : Word) : Nat := bits l.toNat 61 48
def lsEnd (l : Word) : Nat := bits l.toNat 45 32
def lsLeft (l : Word) : Nat := bits l.toNat 31 0

/-- An active LS register (R288). -/
def lsMake (start stop left : Nat) : Word :=
  word (2 ^ 63 + start % 2 ^ 14 * 2 ^ 48 + stop % 2 ^ 14 * 2 ^ 32 + left % 2 ^ 32)

def lsOff (l : Word) : Word := setBit l 63 false

/-- The visit of the active loops whose end is word `e`, most recently started first (R268): the loop registers after
it, the loops still active, and the word to go round to. -/
def visitLoops (e : Nat) : List Nat → Sparse Word → Sparse Word × List Nat × Option Nat
  | [], ls => (ls, [], none)
  | l :: rest, ls =>
    let r := look 0 ls l
    if lsEnd r = e then
      if 2 ≤ lsLeft r then (put ls l (lsMake (lsStart r) e (lsLeft r - 1)), l :: rest, some (lsStart r))
      else visitLoops e rest (put ls l (lsOff (word (r.toNat - lsLeft r))))
    else
      let (ls', rest', t) := visitLoops e rest ls
      (ls', l :: rest', t)

/-- Passing the word at byte offset `e`: the loop-end visit, then the next pc (`step` bytes on where no loop goes
round; R268, R264). -/
def passWord (x : PartyState) (e step : Nat) : PartyState :=
  let (ls, order, t) := visitLoops (e / 4) x.order x.ls
  let pc := match t with | some w => 4 * w | none => e + step
  { x with ls := ls, order := order, pc := word pc }

/-- Switching loops off: those of the list. -/
def loopsOff (ls : Sparse Word) : List Nat → Sparse Word
  | [] => ls
  | l :: rest => loopsOff (put ls l (lsOff (look 0 ls l))) rest

/-- The pc of a taken transfer: every active loop whose body does not contain the target is deactivated (R266). -/
def goTo (x : PartyState) (t : Nat) : PartyState :=
  let inside := fun l => decide (4 * lsStart (look 0 x.ls l) ≤ t) && decide (t ≤ 4 * lsEnd (look 0 x.ls l))
  { x with pc := word t, order := x.order.filter inside, ls := loopsOff x.ls (x.order.filter (fun l => !inside l)) }

/-! ## Tokens (R30, R273) -/

/-- The inbound count of queue k. -/
def tokens (x : PartyState) (k : B2) : Nat := bits x.tkc.toNat (4 * k.toNat - 1) (4 * k.toNat - 4)

def setTokens (x : PartyState) (k : B2) (n : Nat) : PartyState :=
  { x with tkc := BitVec.ofNat 12 (x.tkc.toNat - tokens x k * 2 ^ (4 * k.toNat - 4) + n * 2 ^ (4 * k.toNat - 4)) }

/-- The peer of queue k, if it is bound (R30). -/
def peerOf (x : PartyState) (k : B2) : Option Party := seek x.peers k.toNat

/-- Whether queue k of the executing party is bound; k = 0 names no queue. -/
def bound (s : State) (k : B2) : Bool := decide (k = 0) || (peerOf s.me k).isSome

/-- A point in a party's program after which its accesses follow every write that has been performed, and every write that
its die knows of (R190, R196, R199). (Log 2 DESIGN CHOICE.) -/
def orderPoint (s : State) (p : PartyId) : State :=
  s.modParty p (fun x =>
    { x with view := { x.view with floor := s.seq, known := mergeClock x.view.known (s.die (dieOf p.core)).clock } })

/-- An engine's instruction has ended: what follows it comes after its accesses (R209). -/
def settle (s : State) (p : PartyId) : State :=
  if (s.party p).view.mark = 0 then s
  else
    s.modParty p (fun x =>
      { x with view := { x.view with floor := max x.view.floor x.view.mark, mark := 0,
                                     known := mergeClock x.view.known (s.die (dieOf p.core)).clock } })

/-- Whether an instruction of a party finds its wait token: it names none, its command has popped it (R34), or the queue holds one. -/
def hasToken (x : PartyState) (k : B2) : Bool := decide (k = 0) || decide (x.popped = k) || decide (tokens x k ≠ 0)

/-- A command of a party starts: it pops its wait token, which it keeps until it ends (R34). An instruction that waits for anything
else has not started (log 123 DEDUCED). -/
def startPop (x : PartyState) (k : B2) : PartyState :=
  if k = 0 ∨ x.popped = k then x else { setTokens x k (tokens x k - 1) with popped := k }

/-- The command of a party has no effect: it gives back the token that it has popped (R49). At a full counter the party keeps it, for
the same word when it runs again (log 123 DEDUCED). -/
def giveBack (x : PartyState) : PartyState :=
  if x.popped = 0 ∨ 15 ≤ tokens x x.popped then x else { setTokens x x.popped (tokens x x.popped + 1) with popped := 0 }

/-- Pops the wait token, unless the instruction's command has popped it as it started (R34): what precedes its push is performed
before what follows (R196). -/
def popToken (s : State) (k : B2) : State :=
  if k = 0 then s
  else if s.me.popped = k then s.modMe (fun x => { x with popped := 0 })
  else orderPoint (s.modMe (fun x => setTokens x k (tokens x k - 1))) s.cur

/-- Whether a late store lies in the scratchpad. -/
def LateStore.inScratchpad (l : LateStore) : Bool := decide (100 ≤ l.phys / 2 ^ 60) && decide (l.phys / 2 ^ 60 < 400)

/-- Whether a store of a party to the scratchpad is not yet performed: what orders it for the agents of its core waits. -/
def scratchLate (s : State) (p : PartyId) : Bool := (s.party p).view.late.any LateStore.inScratchpad

/-- A party's late stores count as performed for the agents of its core, who wait for them (R196, R199). -/
def fenceLate (s : State) (p : PartyId) : State :=
  if (s.party p).view.late = [] then s
  else s.modParty p (fun x => { x with view := { x.view with late := x.view.late.map (fun l => { l with fenced := true }) } })

/-- The party at the other end of queue k of the executing party. -/
def peerId (s : State) (k : B2) : PartyId := ⟨s.cur.core, s.cur.slot, (peerOf s.me k).getD s.cur.party⟩

/-- Whether a push on queue k would wait (R273). -/
def pushFull (s : State) (k : B2) : Bool := !decide (k = 0) && decide (15 ≤ tokens (s.party (peerId s k)) k)

/-- EVP bits (R276). -/
def setEvent (x : PartyState) (i : Nat) : PartyState := { x with evp := setBit x.evp i true }

/-- Pushes a token on queue k: the peer's count rises and its EVP.tok is set (R273, R276). What precedes it is performed
for the agents of the core (R196). -/
def pushToken (s : State) (k : B2) : State :=
  if k = 0 then s
  else (fenceLate s s.cur).modParty (peerId s k) (fun x => setEvent (setTokens x k (tokens x k + 1)) 1)

/-! ## How an instruction ends -/

/-- What an instruction does. -/
inductive Act where
  /-- It retires and the party goes on at the next word (`n` words on: MKAT has three). -/
  | done (s : State) (n : Nat)
  /-- It retires with a transfer to a byte offset, already checked. -/
  | jump (s : State) (t : Nat)
  /-- It retires, having set the pc itself. -/
  | moved (s : State)
  /-- A precise trap: no effect (R347). -/
  | trap (cause : Nat) (tval : Word)
  /-- It waits: nothing but marks of its waiting changes. -/
  | wait (s : State)
  /-- A command has issued; it retires by an event. -/
  | issued (s : State) (cmd : Cmd)
  /-- The task meets a context error (R354). -/
  | ends (s : State) (cause : Nat) (tval : Word)
  /-- The instruction consumes an uncorrectable error (R346). -/
  | lost (s : State)
  | stop (f : Fault)
  /-- The next state as it stands. -/
  | raw (s : State)

/-- The task of a slot meets a context error: it is carried out by CONTEXT_ERROR (R354, log 13 DEDUCED). The first cause stays. -/
def markDying (s : State) (core slot cause : Nat) (tval : Word) : State :=
  s.modCtx core slot (fun c =>
    { c with dying := match c.dying with | some d => some d | none => some (cause, tval), disturbed := true })

/-- A task consumes an uncorrectable error (R346): phase cancellation where it holds a checkpoint, otherwise context
error 0x0102. A system wing, which runs no task, only never retires the instruction (log 17 DEDUCED). -/
def consume (s : State) (core slot : Nat) : State :=
  if (s.ctx core slot).task.isNone then s
  else if (s.ctx core slot).checkpoint.isSome then
    s.modCtx core slot (fun c => { c with cancel := true, disturbed := true })
  else markDying s core slot errUncorrectable 0

/-- Whether the executing party is a wing in lock-step (R264). -/
def State.inLock (s : State) : Bool := s.myCtx.sh.lock && s.cur.party.isWing

/-- The next pc of a party whose word has retired without a transfer: the repetition of a REP (R269), the visit of the
loops (R268); in lock-step the bundle's (R264), word 0 alone moving. -/
def advance (s : State) (n : Nat) : State :=
  let x := s.me
  let e := x.pc.toNat + 4 * (n - 1)
  if s.inLock then (if s.cur.party = .w0 then s.setMe (passWord x e 16) else s)
  else if 2 ≤ x.repc.toNat then s.setMe { x with repc := x.repc - 1 }
  else s.setMe (passWord { x with repc := 0 } e 4)

/-- The wings of a slot in lock-step stand at the words of w0's bundle (R264). -/
def syncWings (s : State) (core slot : Nat) : State :=
  let base := (s.party ⟨core, slot, .w0⟩).pc
  [Party.w1, .w2, .w3].foldl (fun t p => t.modParty ⟨core, slot, p⟩ (fun x => { x with pc := base + word (4 * p.num) })) s

/-- Returning from a trap (R352): the parties that it holds go on. Act 0 runs the word at `tpc` again; act 1 completes
it as though it had retired without a transfer, `n` words at once. In lock-step act 1 passes the bundle (log 20 DEDUCED). -/
def returnTo (s : State) (p : PartyId) (tpc : Word) (act n : Nat) : State :=
  let s1 := (setHeld s false (heldBy s p)).modParty p (fun x => { x with pc := tpc })
  if act = 0 then s1
  else if (s.ctx p.core p.slot).sh.lock && p.party.isWing then
    let t := advance (s1.setCur ⟨p.core, p.slot, .w0⟩) 1
    (syncWings t p.core p.slot).setCur s.cur
  else (advance (s1.setCur p) n).setCur s.cur

/-- The end of a command that has had its effect, when its signal token is pushed and its pc moves on: a push that finds
the counter at 15 keeps it from retiring (R273). -/
def retire (s : State) (g : B2) (n : Nat) : State :=
  let s1 := settle (s.modMe (fun x => { x with wait := .no, busy := none })) s.cur
  if pushFull s1 g then (s1.modMe (fun x => { x with push := some (g, n) })).setLast .waiting
  else
    let s2 := (pushToken s1 g).setLast .retired
    if n = 0 then s2 else advance s2 n

/-- A push that waited is made when there is room. -/
def finishPush (s : State) : State :=
  match s.me.push with
  | none => s
  | some (g, n) => if pushFull s g then s else retire (s.modMe (fun x => { x with push := none })) g n

/-- Whether drains of the executing party's queue are under way, which its tokens must follow (R196). -/
def drainsOut (s : State) : Bool :=
  decide (s.cur.party = .m) && (s.core s.cur.core).ops.any (fun o => decide (o.kind = 2) && decide (o.slot = s.cur.slot))

/-- Whether an instruction waits for room for its signal token (R273), or with it for earlier stores and drains (R196): it has no
effect before it retires (R36, R191). A command in progress has had its effect, and waits with its push. -/
def signalWaits (s : State) (g : B2) : Bool :=
  s.me.busy.isNone && (pushFull s g || (!decide (g = 0) && (scratchLate s s.cur || drainsOut s)))

/-- What an act makes of the machine, for an instruction with wait token `w` and signal token `g`. `s` is the state in
which it began. -/
def conclude (s : State) (w g : B2) : Act → Host.Outcome State Fault Refusal
  | .done t n => .next (if signalWaits s g then s.setLast .waiting else retire (popToken t w) g n)
  | .jump t o =>
    let t1 := retire (popToken (t.modMe (fun x => goTo x o)) w) g 0
    .next (if signalWaits s g then s.setLast .waiting
      else if t1.last = .retired then t1.setLast .transferred else t1)
  | .moved t => .next (t.setLast .transferred)
  | .trap c v => .next (takeTrap s s.cur c v)
  | .wait t => .next (t.setLast .waiting)
  | .issued t c => .next (((orderPoint t t.cur).modMe (fun x => { startPop x w with busy := some (c, w, g) })).setLast .waiting)
  | .ends t c v => .next ((markDying t t.cur.core t.cur.slot c v).setLast .waiting)
  | .lost t => .next ((consume t t.cur.core t.cur.slot).setLast .waiting)
  | .stop f => .fault f
  | .raw t => .next t

/-- An instruction of the control subset: it carries no tokens (R29). -/
def control (s : State) (body : State → Act) : Host.Outcome State Fault Refusal := conclude s 0 0 (body s)

/-- What an instruction with an unbound queue traps as: as its privilege trap where it would raise one, otherwise as an
illegal operand (R30, R49). -/
def unboundTrap (s : State) (a : Act) : Act :=
  match a with
  | .trap c v => if c = causePrivilege then .trap c v else .trap causeOperand s.curWord
  | _ => .trap causeOperand s.curWord

/-- An instruction of the private half in a party whose map has it: an unbound queue traps first but for privilege (R30,
R49), then the instruction waits for its token (R34). In a party of another kind the word is illegal (R46, R47). -/
def tokened (s : State) (k : Kind) (w g : B2) (body : State → Act) : Host.Outcome State Fault Refusal :=
  if s.cur.party.map ≠ k then conclude s w g (.trap causeIllegal s.curWord)
  else if !(bound s w && bound s g) then conclude s w g (unboundTrap s (body s))
  else if !hasToken s.me w then conclude s w g (.wait s)
  else conclude s w g (body s)

/-- A private-half instruction that only supervisor code may issue: privilege comes before the tokens (R49). The trap of ERET, CTXSV
and CTXLD has neither an address nor a register number: its TVAL is 0 (log 87 DESIGN CHOICE). -/
def supervised (s : State) (w g : B2) (body : State → Act) : Host.Outcome State Fault Refusal :=
  if s.cur.party.map ≠ .wing then conclude s w g (.trap causeIllegal s.curWord)
  else if !s.supervisor then conclude s w g (.trap causePrivilege 0)
  else tokened s .wing w g body

/-- An illegal operand: TVAL is the word (R348). -/
def badOperand (s : State) : Act := .trap causeOperand s.curWord

/-- What an event does as another party, the party that executes being as before afterwards. -/
def asParty (s : State) (p : PartyId) (f : State → Host.Outcome State Fault Refusal) : Host.Outcome State Fault Refusal :=
  match f (s.setCur p) with
  | .next t => .next (t.setCur s.cur)
  | .fault e => .fault e
  | .refused e => .refused e

/-- An event of the machine: with its condition it occurs, otherwise nothing changes (log 7 DESIGN CHOICE). -/
def occurs (s : State) (enabled : Bool) (t : State) : Host.Outcome State Fault Refusal :=
  .next (if enabled then t else s)

end Sys2Proof.Machine
end

