-- ==== Sys2Proof/Machine/Digest.lean ====
section
/-! DEFINITION. The SHA-512 digest of the attestation report (R381), as FIPS 180-4 defines it: the spec names the function, the
standard gives it (log 81 PRESUMED). -/

namespace Sys2Proof.Machine

/-- The greatest number below 2 ^ `k` above `r` whose `e`-th power does not exceed `n`: one bit at a time, the highest first. -/
def rootBits (e n : Nat) : Nat → Nat → Nat
  | 0, r => r
  | k + 1, r => rootBits e n k (if (r + 2 ^ k) ^ e ≤ n then r + 2 ^ k else r)

/-- The first 64 bits behind the binary point of the `e`-th root of a number below 2⁹. -/
def rootFraction (e p : Nat) : Word := word (rootBits e (p * 2 ^ (64 * e)) 69 0)

/-- The first `n` primes: those below 410 are 80. -/
def firstPrimes (n : Nat) : List Nat :=
  ((List.range 410).filter (fun p => decide (2 ≤ p) && (List.range p).all (fun d => decide (d < 2) || decide (p % d ≠ 0)))).take n

/-- The round constants: of the cube roots of the first eighty primes. -/
def digestK : List Word := (firstPrimes 80).map (rootFraction 3)

/-- The initial hash value: of the square roots of the first eight. -/
def digestInit : List Word := (firstPrimes 8).map (rootFraction 2)

/-- The big-endian value of bytes. -/
def natOfBig (bs : List Byte) : Nat := bs.foldl (fun n b => n * 256 + b.toNat) 0

/-- The `n` big-endian bytes of a value. -/
def bigOfNat (n v : Nat) : List Byte := (bytesOfNat n v).reverse

/-- A message padded to whole blocks of 128 bytes: a one bit, zeros, its length in bits. -/
def digestPad (m : List Byte) : List Byte :=
  m ++ [0x80] ++ List.replicate ((239 - m.length % 128) % 128) 0 ++ bigOfNat 16 (8 * m.length)

/-- A word rotated right by each of the counts, the results added without carries. -/
def rotations (x : Word) (counts : List Nat) : Word := counts.foldl (fun y n => y ^^^ x.rotateRight n) 0

/-- One more word of the message schedule; the newest word comes first. -/
def digestExtend (w : List Word) : List Word :=
  let back := fun n => w.getD (n - 1) 0
  (back 16 + (rotations (back 15) [1, 8] ^^^ back 15 >>> 7) + back 7 + (rotations (back 2) [19, 61] ^^^ back 2 >>> 6)) :: w

/-- The message schedule of a block. -/
def digestSchedule (block : List Byte) : List Word :=
  let first := (List.range 16).map (fun i => word (natOfBig ((block.drop (8 * i)).take 8)))
  ((List.range 64).foldl (fun w _ => digestExtend w) first.reverse).reverse

/-- One round, by the two sequences that the working variables are the last four values of, the newest first: each takes one more
value. A bit of the second sequence chooses between the two before it, and three of the first vote. -/
def digestRound (v : List Word × List Word) (kw : Word × Word) : List Word × List Word :=
  match v with
  | ([p, q, r, old], [x, y, z, last]) =>
    let t := last + rotations x [14, 18, 41] + (z ^^^ (x &&& (y ^^^ z))) + kw.1 + kw.2
    ([t + rotations p [28, 34, 39] + ((p &&& q) ||| (r &&& (p ||| q))), p, q, r], [old + t, x, y, z])
  | _ => v

/-- The hash value after `n` more blocks. -/
def digestBlocks : Nat → List Byte → List Word → List Word
  | 0, _, h => h
  | n + 1, m, h =>
    let v := (digestK.zip (digestSchedule (m.take 128))).foldl digestRound (h.take 4, h.drop 4)
    digestBlocks n (m.drop 128) (List.zipWith (· + ·) h (v.1 ++ v.2))

/-- The SHA-512 digest of bytes: 64 bytes. -/
def digest (m : List Byte) : List Byte :=
  let p := digestPad m
  (digestBlocks (p.length / 128) p digestInit).flatMap (fun x => bigOfNat 8 x.toNat)

end Sys2Proof.Machine
end

