-- ==== Sys2Proof/Machine/Order.lean ====
section
/-! DEFINITION. What orders accesses (R185–R206): the vector clocks of the dies (R204), the order of writes with what granules
held before them, and what a party may still read. A load reads its location as of some moment that nothing forbids: an
earlier one where the order of R190–R202 leaves it open, chosen by the turn (log 2 DESIGN CHOICE). -/

namespace Sys2Proof.Machine

/-! ## Vector clocks (R204) -/

/-- A die's clock. -/
def clockOf (s : State) (die : Nat) : Sparse Nat := (s.die die).clock

/-- A die numbers a write or a message in its own clock entry (R204, R206). (Log 3 DEDUCED.) -/
def tickClock (s : State) (die : Nat) : State :=
  s.modDie die (fun d => { d with clock := put d.clock die (look 0 d.clock die + 1) })

/-- A die learns what a clock names. -/
def learn (s : State) (die : Nat) (clock : Sparse Nat) : State :=
  s.modDie die (fun d => { d with clock := mergeClock d.clock clock })

/-- Whether a write under way is named by a clock. -/
def named (clock : Sparse Nat) (f : Flight) : Bool := !f.copy && decide (f.num ≤ look 0 clock f.writer)

/-- Whether a write that a clock names is not yet applied at a home (R204). -/
def owed (s : State) (home : Nat) (clock : Sparse Nat) : Bool :=
  s.flights.any (fun f => named clock f && decide (f.home = home))

/-- Whether the writes that a clock names have all been applied. -/
def applied (s : State) (clock : Sparse Nat) : Bool := !s.flights.any (named clock)

/-- The parties of a core that hold late stores. -/
def lateParties (s : State) (core : Nat) : List (PartyId × List LateStore) :=
  s.parties.filterMap (fun e =>
    if e.1 / 20 = core ∧ e.2.view.late ≠ [] then
      (allParties.find? (fun p => decide (p.num = e.1 % 10))).map (fun p => (⟨core, e.1 / 10 % 2, p⟩, e.2.view.late))
    else none)

/-- Whether the agents of a die must wait for a store that counts as performed for those of its core (R196, R199). -/
def fencedLate (s : State) (die : Nat) : Bool :=
  s.parties.any (fun e => decide (dieOf (e.1 / 20) = die) && e.2.view.late.any (fun l => l.fenced))

/-- Whether every write that a die's clock names is applied, and every store that its cores know of is performed. -/
def settled (s : State) (die : Nat) : Bool := applied s (clockOf s die) && !fencedLate s die

/-- Whether a release of an agent is still under way: an acquire waits for it (R190). -/
def releaseOut (s : State) (p : PartyId) : Bool := s.flights.any (fun f => !f.copy && f.release && decide (f.agent = p))

/-- What all dies of the module know together. -/
def allKnown (s : State) : Sparse Nat := (List.range 16).foldl (fun c d => mergeClock c (clockOf s d)) []

/-- What a party does next follows every write that has been performed, and every write that any die knows of: what it has
read was written in one step of the module's (R293, R304, R330; log 2 DESIGN CHOICE). -/
def orderAll (s : State) (p : PartyId) : State := orderPoint (learn s (dieOf p.core) (allKnown s)) p

/-! ## The order of writes -/

/-- The granules that `n` bytes at `a` touch (R193). -/
def granulesOf (a n : Nat) : List Nat := (List.range ((a + n - 1) / 8 + 1 - a / 8)).map (fun i => a / 8 + i)

/-- The granules of a write in the order in which they come, one of them at a time. -/
def shuffle (turn : Nat) : Nat → List (List Nat) → List (List Nat)
  | 0, us => us
  | _ + 1, [] => []
  | _ + 1, [u] => [u]
  | fuel + 1, u :: us =>
    let i := Sys2Proof.Config.arrival turn ((u.headD 0) + fuel) % (us.length + 1)
    match (u :: us)[i]? with
    | some x => x :: shuffle turn fuel ((u :: us).eraseIdx i)
    | none => u :: us

/-- How a party sees the granules of a place: by how much the keys of their clocks in `stamps` are moved, whether it lies in a
window, and where a clock holds what the party's partition has acquired of publications (R330). -/
structure Sight where
  shift : Nat := 0
  window : Bool := false
  acquired : Nat := 0

/-- From this key on a clock holds, by die, how many of the die's writes the publications name that a partition has acquired. -/
def windowKey (part : Nat) : Nat := 2 ^ 20 + 16 * part

/-- The clock that a publication of a partition's agent carries: the writes of the dies that happen before it, those among them
that it knows of by publications it has acquired itself (R330). -/
def publication (s : State) (die part : Nat) : Sparse Nat :=
  (List.range 16).map (fun d => (d, max (look 0 (clockOf s die) d) (look 0 (clockOf s die) (windowKey part + d))))

/-- A die learns for a partition what a publication carries (R330). -/
def learnPublished (s : State) (die part : Nat) (clock : Sparse Nat) : State :=
  learn s die (clock.map (fun e => (windowKey part + e.1, e.2)))

/-- How agents of a partition see a place under a key slot: in a live window the writes of the importer keep clocks of their own,
which only its agents learn (R330). -/
def sightOf (s : State) (part : Nat) (slot : Option Nat) : Sight :=
  match slot with
  | none => ⟨0, false, windowKey part⟩
  | some k =>
    match s.windows.find? (fun e => e.2.live && decide (e.2.slot = k)) with
    | some (_, w) => ⟨if w.exporter = part then 0 else (part + 1) * 2 ^ 80, true, windowKey part⟩
    | none => ⟨0, false, windowKey part⟩

/-- What the history keeps of units of granules that are written one after another, each at one point. -/
def pastOf (s : State) (t : Sight) (writer num : Nat) (us : List (List Nat)) : List Past :=
  ((List.range us.length).zip us).flatMap (fun e =>
    e.2.map (fun g => ⟨s.seq + e.1 + 1, g, readBytes s.mem (8 * g) 8, look [] s.stamps (t.shift + g), t.shift + g, writer, num⟩))

/-- The newest write of a granule is one that the party has made (R189); an engine's next instruction follows it (R209). -/
def madeBy (s : State) (who : PartyId) (gs : List Nat) : State :=
  if 272 ≤ who.core then s
  else
    s.modParty who (fun x =>
      { x with view := { x.view with
          mine := s.seq, mark := if who.party.isWing then x.view.mark else s.seq,
          seen := gs.foldl (fun m g =>
            put m g (((s.past.filter (fun e => decide (e.granule = g))).getLastD ⟨0, 0, [], [], 0, 0, 0⟩).seq)) x.view.seen } })

/-- The running party has written a location of the module whose older values nobody can read: a sequence-table row, a suffix
index, a life word or the count of a window (R193, R304). -/
def wrote (s : State) : State := madeBy s s.cur []

/-- A write of a party is about to change these units of granules, each at a point of its own (R193). -/
def remember (s : State) (who : PartyId) (t : Sight) (num : Nat) (us : List (List Nat)) : State :=
  madeBy { s with seq := s.seq + us.length, past := s.past ++ pastOf s t (dieOf who.core) num (shuffle s.tick us.length us) } who
    (us.flatMap id)

/-- No party can still read what these bytes held: their keys change, or they are written for all at once. -/
def forget (s : State) (a n : Nat) : State :=
  if s.past = [] then s
  else { s with past := s.past.filter (fun e => !(decide (a / 8 ≤ e.granule) && decide (8 * e.granule < a + n))) }

/-! ## What a party may still read (R189–R202) -/

/-- What a granule held as of a point, and the clock that it kept. -/
def granuleAt (s : State) (v : Sight) (g t : Nat) : List Byte × Sparse Nat :=
  let later := s.past.filter (fun e => decide (e.granule = g) && decide (t < e.seq))
  ((later.head?.map (fun e => e.old)).getD (readBytes s.mem (8 * g) 8),
   ((later.find? (fun e => decide (e.key = v.shift + g))).map (fun e => e.stamp)).getD (look [] s.stamps (v.shift + g)))

/-- The points behind which a read may not go whatever its granule: where the location's home is the reader's die, that of
its last ordering instruction (R197); for an acquire that of its last release (R190); that of its own last write that a FENCE or
an acquiring atomic has ordered before it (R190, R199). -/
def firmPoint (v : View) (own acquires : Bool) : Nat :=
  max (max (if own then v.floor else 0) (if acquires then v.released else 0)) v.firm

/-- Whether a write of the history may not be missed by a reader: it happens before the read (R202), by way of a publication that the
reader's partition has acquired or otherwise. In a window the other side's writes are ordered by publications alone (R330). -/
def binds (v : View) (t : Sight) (firm : Nat) (e : Past) : Bool :=
  let named := fun k => decide (e.num ≠ 0) && decide (e.num ≤ look 0 v.known k)
  named (t.acquired + e.writer) ||
  (if t.window && decide (e.key ≠ t.shift + e.granule) then false else named e.writer || (t.window && decide (e.seq ≤ firm)))

/-- The earliest point as of which a party may read a granule: not before a write there that it has seen or made (R189), nor
before one that binds it. -/
def horizon (s : State) (v : View) (t : Sight) (firm g : Nat) : Nat :=
  (s.past.filter (fun e => decide (e.granule = g) && binds v t firm e)).foldl (fun m e => max m e.seq)
    (max (look 0 v.seen g) (if t.window then 0 else firm))

/-- The point as of which a party reads a granule by itself in this turn: a wing as far back as the turn says, an engine up to
that, each granule by itself (R193). -/
def momentAlone (s : State) (who : PartyId) (t : Sight) (firm g : Nat) : Nat :=
  let v := (s.party who).view
  let back := if who.party.isWing then v.lag else Sys2Proof.Config.arrival s.tick g % (v.lag + 1)
  max (s.seq - back) (horizon s v t firm g)

/-- The other granule of the aligned 16 bytes that a granule lies in. -/
def siblingOf (g : Nat) : Nat := if g % 2 = 0 then g + 1 else g - 1

/-- The latest point, up to `t`, at which both halves of the 16 bytes of a granule were written as one (R193). -/
def wroteBoth (s : State) (g t : Nat) : Nat :=
  (s.past.filter (fun e => decide (e.granule = g) && decide (e.seq ≤ t) &&
    s.past.any (fun h => decide (h.seq = e.seq) && decide (h.granule = siblingOf g)))).foldl (fun m e => max m e.seq) 0

/-- The point as of which a party reads a granule in this turn: an engine, which may read both halves of 16 bytes in one access,
sees neither half older than a write of both that the other half shows (R193). -/
def moment (s : State) (who : PartyId) (t : Sight) (firm g : Nat) : Nat :=
  if (s.party who).view.lag = 0 then s.seq
  else if who.party.isWing then momentAlone s who t firm g
  else max (momentAlone s who t firm g) (wroteBoth s g (momentAlone s who t firm (siblingOf g)))

/-- The bytes at addresses as a party reads them in this turn. -/
def bytesFor (s : State) (who : PartyId) (t : Sight) (firm : Nat) (as : List Nat) : List Byte :=
  if (s.party who).view.lag = 0 then as.map (readByte s.mem)
  else as.map (fun a => (granuleAt s t (a / 8) (moment s who t firm (a / 8))).1.getD (a % 8) 0)

/-- A party has seen granules as it reads them in this turn (R189); an engine's next instruction follows them (R209). -/
def sawBy (s : State) (who : PartyId) (t : Sight) (firm : Nat) (gs : List Nat) : State :=
  if s.past = [] ∨ 272 ≤ who.core then s
  else
    s.modParty who (fun x =>
      { x with view := { x.view with
          mark := if who.party.isWing then x.view.mark else gs.foldl (fun m g => max m (moment s who t firm g)) x.view.mark,
          seen := gs.foldl (fun m g =>
            if s.past.any (fun e => decide (e.granule = g)) then put m g (max (look 0 m g) (moment s who t firm g)) else m)
            x.view.seen } })

/-- A reading die merges the clocks of the granules that it reads (R204). (Log 3 DEDUCED.) -/
def mergeRead (s : State) (who : PartyId) (t : Sight) (firm : Nat) (gs : List Nat) : State :=
  let die := dieOf who.core
  let c := gs.foldl (fun c g => mergeClock c (granuleAt s t g (moment s who t firm g)).2) (clockOf s die)
  sawBy (if c = clockOf s die then s else s.modDie die (fun d => { d with clock := c })) who t firm gs

/-- The granules of a write keep the clock that it carries with those of the writes before it there (R200, R201). -/
def stampRange (s : State) (t : Sight) (clock : Sparse Nat) (a n : Nat) : State :=
  if clock = [] then s
  else
    { s with stamps := (granulesOf a n).foldl (fun m g => put m (t.shift + g) (mergeClock (look [] m (t.shift + g)) clock)) s.stamps }

/-- What a party has written comes before its later loads, wherever those lead (R190, R199). -/
def firmUp (s : State) (p : PartyId) : State :=
  s.modParty p (fun x => { x with view := { x.view with firm := max x.view.firm x.view.mine } })

end Sys2Proof.Machine
end

