-- ==== Sys2Proof/Machine/Space.lean ====
section
/-! DEFINITION. The memory spaces: homes (R186), frames and their owners (R385), the paged space of a partition (R18,
R319, R322, R329), the addresses of a system wing (R388), and reads and writes of places under their keys (R319, R320),
their check bits (R345, R346), and the dirty log (R371). -/

namespace Sys2Proof.Machine

/-! ## Frames -/

/-- The code of a frame, as FRSEL holds it: die of a weight store, space, frame number (R226, R385). -/
def frameCode (die space f : Nat) : Nat := (if space = 3 then die * 2 ^ 44 else 0) + space * 2 ^ 40 + f

def framesOf (space : Nat) : Nat :=
  match space with
  | 0 => 2 ^ 22 | 1 => 62500000 | 3 => 6144 | _ => 0

/-- The owner of a frame; 64 for none (R385). -/
def ownerOf (s : State) (code : Nat) : Nat := look 64 s.owners code

/-- The physical address of byte `o` of a frame. Space 2 is the host memory of function `fn`; space 3 is of `die`. -/
def framePhys (die fn space f o : Nat) : Nat :=
  match space with
  | 0 => phys tagDram (f * 65536 + o)
  | 1 => phys tagTier (f * 65536 + o)
  | 2 => phys (tagHost fn) (f * 65536 + o)
  | _ => phys (tagWeights die) (f * 65536 + o)

/-- The home die of a frame (R186). -/
def frameHome (die space f : Nat) : Nat :=
  match space with
  | 0 => 2 * (f / 2 ^ 19) + f % 2
  | 1 => f % 16
  | 2 => f % 16
  | _ => die

/-- The key slot number that stands for the supervisor key (R388). -/
def supervisorSlot : Nat := 512

/-- The number under which a slot's key tags lines; 0 is the supervisor key. Every slot that has held no key works under number 1,
an access under such a slot having no effect of its own in the spec (log 82 DESIGN CHOICE). -/
def keyNum (s : State) (slot : Nat) : Nat := if slot = supervisorSlot then 0 else (s.key slot).num + 1

def isRevoked (s : State) (slot : Nat) : Bool := !decide (slot = supervisorSlot) && (s.key slot).revoked

/-- The partition whose range of key slots contains a slot (R317). (Log 26 DESIGN CHOICE.) -/
def slotOwner (s : State) (slot : Nat) : Option Nat :=
  (s.parts.find? (fun e => decide (e.2.keyb.toNat ≤ slot) && decide (slot < e.2.keyb.toNat + e.2.keyn.toNat))).map (·.1)

/-- Whether a partition may name a key slot: its bit in KUSE, the owner's always set (R317). -/
def mayName (s : State) (part slot : Nat) : Bool :=
  decide (slot < 512) && (decide (slotOwner s slot = some part) || (s.key slot).kuse.getLsbD part)

def homeKey (s : State) (part : Nat) : Nat := if part < 64 then (s.part part).keyb.toNat else supervisorSlot

/-! ## Where an address leads -/

/-- A place in memory that an access reaches. -/
structure Place where
  phys : Nat
  home : Nat
  /-- The key slot that covers it, where the part encrypts it (R319). -/
  slot : Option Nat
  /-- The frame of stacked DRAM or second tier it lies in. -/
  frame : Option Nat
  /-- It lies in a row of the sequence table (R289). -/
  isRow : Bool
  /-- It lies in a window that this side does not write (R330). -/
  readOnly : Bool
  deriving DecidableEq, Repr

inductive Reach where
  | place (p : Place)
  | unmapped
  | privilege
  /-- The range of a closed window (R330). -/
  | closed
  deriving DecidableEq, Repr

def objectBase : Nat := 0x0C00000000000000
def windowBase : Nat := 0x0D00000000000000
def weightBase : Nat := 0x0FE0000000000000
def weightEnd : Nat := 0x0FE0000018000000
def scratchBase : Nat := 0x0FF0000000000000
def scratchEnd : Nat := 0x0FF0000000400000

/-- What the pages and objects of a partition put at a paged address: a frame with the slot of an object, or a row page
(R18, R322, R289). -/
inductive PageHit where
  | frame (space f : Nat) (slot : Option Nat)
  | rows (page : Nat)
  deriving DecidableEq, Repr

def pageHit (s : State) (part va : Nat) : Option PageHit :=
  if objectBase ≤ va ∧ va < windowBase then
    match seek s.objects (part * 2 ^ 24 + (va - objectBase) / 2 ^ 32) with
    | some o =>
      match o.frames[(va % 2 ^ 32) / 65536]? with
      | some f => some (.frame o.space f (some o.key))
      | none => none
    | none => none
  else
    match seek s.pages (part * 2 ^ 44 + va / 65536) with
    | some (.frame sp f) => some (.frame sp f none)
    | some (.rowPage g) => some (.rows g)
    | none => none

/-- The live windows in whose regions an exporter's address lies. -/
def windowsAt (s : State) (part va : Nat) : List Window :=
  (s.windows.filter (fun e => e.2.live && decide (e.2.exporter = part) && decide (e.2.base ≤ va) &&
    decide (va < e.2.base + e.2.length))).map (·.2)

/-- The window under whose key an exporter reaches an address: of those that overlap the one whose key is the newest. -/
def exportedIn (s : State) (part va : Nat) : Option Window :=
  (windowsAt s part va).foldl (fun best w =>
    match best with
    | some b => if (s.key b.slot).num < (s.key w.slot).num then some w else some b
    | none => some w) none

/-- The place of a frame reached by a partition: stacked DRAM and second tier only where the partition owns the frame
(R385). -/
def ownedPlace (s : State) (part owner space f o slot : Nat) (readOnly : Bool) : Reach :=
  match space with
  | 0 | 1 =>
    if f < framesOf space ∧ ownerOf s (frameCode 0 space f) = owner then
      .place ⟨framePhys 0 0 space f o, frameHome 0 space f, some slot, some (frameCode 0 space f), false, readOnly⟩
    else .unmapped
  | 2 => .place ⟨framePhys 0 part 2 f o, frameHome 0 2 f, none, none, false, readOnly⟩
  | _ => .unmapped

/-- The paged space of a partition (R18) with its objects (R322) and windows (R329). The range of a window leads the importer where the
exporter's page leads at the access (log 101 DESIGN CHOICE). -/
def paged (s : State) (part va : Nat) : Reach :=
  let o := va % 65536
  if windowBase ≤ va ∧ va < windowBase + 256 * 2 ^ 32 then
    match seek s.windows ((va - windowBase) / 2 ^ 32) with
    | some w =>
      let d := va % 2 ^ 32
      if w.importer ≠ part then .unmapped
      else if w.length ≤ d then .unmapped
      else if !w.live then .closed
      else
        match pageHit s w.exporter (w.base + d) with
        | some (.frame sp f _) => ownedPlace s part w.exporter sp f o w.slot (!w.importerWrites)
        | _ => .unmapped
    | none => .unmapped
  else
    match pageHit s part va with
    | some (.frame sp f slot) =>
      match exportedIn s part va with
      | some w => ownedPlace s part part sp f o w.slot w.importerWrites
      | none => ownedPlace s part part sp f o (slot.getD (homeKey s part)) false
    | some (.rows g) => .place ⟨phys tagRows (g * 65536 + o), 2 * (g / 4), none, none, true, false⟩
    | none => .unmapped

/-- Where an address leads for a wing of a task (R18). -/
def taskReach (s : State) (p : PartyId) (part va : Nat) (store : Bool) : Reach :=
  if va < weightBase then paged s part va
  else if va < weightEnd then
    let o := va - weightBase
    if store then .privilege
    else if ownerOf s (frameCode (dieOf p.core) 3 (o / 65536)) = part then
      .place ⟨phys (tagWeights (dieOf p.core)) o, dieOf p.core, none, none, false, true⟩
    else .unmapped
  else if scratchBase ≤ va ∧ va < scratchEnd then
    .place ⟨scratchPhys s p.core p.slot (va - scratchBase), dieOf p.core, none, none, false, false⟩
  else .unmapped

/-- Where an address leads for a wing of a system core (R388). The host provides every frame number of each function's memory: the
spec says no more than that it is as large as the host provides (R17, log 83 DESIGN CHOICE). -/
def systemReach (s : State) (p : PartyId) (va : Nat) (store : Bool) : Reach :=
  let die := dieOf p.core
  if va < 0x0400000000000000 then
    let space := va / 2 ^ 56
    let o := va % 2 ^ 56
    let f := o / 65536
    match space with
    | 0 | 1 =>
      if f < framesOf space ∧ ownerOf s (frameCode 0 space f) = 64 then
        .place ⟨framePhys 0 0 space f (o % 65536), frameHome 0 space f, some supervisorSlot, none, false, false⟩
      else .privilege
    | 2 => .place ⟨phys (tagHost 64) o, frameHome 0 2 f, none, none, false, false⟩
    | _ =>
      if !store ∧ f < 6144 ∧ ownerOf s (frameCode die 3 f) = 64 then
        .place ⟨phys (tagWeights die) o, die, none, none, false, true⟩
      else .privilege
  else if va < weightBase then .privilege
  else if va < weightEnd then
    if store then .privilege else .place ⟨phys (tagWeights die) (va - weightBase), die, none, none, false, true⟩
  else if scratchBase ≤ va ∧ va < scratchBase + 2 ^ 20 then
    .place ⟨scratchPhys s p.core p.slot (va - scratchBase), die, none, none, false, false⟩
  else .unmapped

/-- Where an address of the executing wing leads. (Log 64 DESIGN CHOICE.) -/
def reach (s : State) (va : Nat) (store : Bool) : Reach :=
  if s.supervisor then systemReach s s.cur va store else taskReach s s.cur s.myPart va store

/-- Whether `n` bytes at a place overlap a control byte of a row (R290, R291). -/
def hitsControl (p : Place) (n : Nat) : Bool :=
  let o := p.phys % 128
  p.isRow && ((decide (o < 16) && decide (8 < o + n)) || (decide (o < 128) && decide (96 < o + n)))

/-! ## Keys and check bits (R319, R320, R345) -/

/-- The key number under which a line was last written. -/
def tagOf (s : State) (line : Nat) : Nat :=
  let t := look 0 s.tags (2 * line + 1)
  if t ≠ 0 then t - 1
  else
    let f := look 0 s.tags (2 * (line / 1024))
    if f ≠ 0 then f - 1 else 0

/-- The lines that `n` bytes at `a` touch. -/
def linesOf (a n : Nat) : List Nat := (List.range ((a + n - 1) / 64 + 1 - a / 64)).map (fun i => a / 64 + i)

/-- Lines written under a key: what they held under another can no longer be read. -/
def tagLines (s : State) (num : Nat) (lines : List Nat) : State :=
  let t := (lines.filter (fun l => decide (tagOf s l ≠ num))).foldl (fun t l => forget t (64 * l) 64) s
  { t with tags := lines.foldl (fun m l => put m (2 * l + 1) (num + 1)) t.tags }

/-- The size of a protected word (R345). -/
def protectedSize (a : Nat) : Nat :=
  let t := a / 2 ^ 60
  if (100 ≤ t ∧ t < 400) ∨ 1000 ≤ t then 4 else 8

/-- The count of one bits. -/
def popCount : Nat → Nat → Nat
  | 0, _ => 0
  | k + 1, n => n % 2 + popCount k (n / 2)

/-- The protected words that `n` bytes at `a` touch. -/
def wordsOf (a n : Nat) : List Nat :=
  let z := protectedSize a
  (List.range ((a + n - 1) / z + 1 - a / z)).map (fun i => (a / z + i) * z)

/-- Checking words as they are read: one flipped bit is corrected, written back and counted (R345); two in one word are
uncorrectable. -/
def checkWords (s : State) (die : Nat) : List Nat → Option State
  | [] => some s
  | a :: as =>
    let f := look 0 s.flips a
    if f = 0 then checkWords s die as
    else if popCount 64 f = 1 then
      checkWords { s.modDie die (fun d => { d with cecnt := d.cecnt + 1 }) with flips := drop s.flips a } die as
    else none

/-- Sets ISTAT.krev of the task of a party (R320). -/
def setKrev (s : State) (p : PartyId) : State :=
  s.modCtx p.core p.slot (fun c => { c with sh := { c.sh with istat := setBit c.sh.istat 0 true } })

def setWclosed (s : State) (p : PartyId) : State :=
  s.modCtx p.core p.slot (fun c => { c with sh := { c.sh with istat := setBit c.sh.istat 1 true } })

/-- Whether a place lies under a revoked key slot (R317). -/
def revokedPlace (s : State) (p : Place) : Bool := match p.slot with | some k => isRevoked s k | none => false

/-- Whether a line at a place fails its check: it was last written under another key (R319, R320). -/
def lineFails (s : State) (p : Place) (l : Nat) : Bool :=
  match p.slot with | some k => decide (tagOf s l ≠ keyNum s k) | none => false

/-! ## Bytes moved (R332, R335) -/

/-- The partition on whose behalf a party acts: its task's, otherwise its core's; 64 for none. -/
def partOf (s : State) (p : PartyId) : Nat :=
  match (s.ctx p.core p.slot).task with
  | some t => t.part
  | none => (s.core p.core).part.toNat

/-- Bytes moved for a partition, on resource `k`: 0–7 the stacked DRAM of a Hamper, 8 the second tier, 9 the Hizer link, 10 the
fabric. -/
def countMoved (s : State) (part k n : Nat) : State :=
  if n = 0 then s else { s with moved := put s.moved (16 * part + k) (look 0 s.moved (16 * part + k) + n) }

/-- The bytes that an access of a partition's agent moves: those that it names (log 30 DESIGN CHOICE). -/
def countAccess (s : State) (part a n : Nat) : State :=
  let t := a / 2 ^ 60
  if t = tagDram then countMoved s part (a % 2 ^ 60 / 65536 / 2 ^ 19) n
  else if t = tagTier then countMoved s part 8 n
  else if t < tagRows then countMoved s part 9 n
  else s

/-- `n` bytes read at a place for a party, as a partition sees them, on `payer`'s behalf: zero under a revoked slot; none where a line
or a word fails its check (R320, R346). `acquires` says that the read is an acquire. -/
def readSeen (s : State) (who : PartyId) (part payer : Nat) (acquires : Bool) (p : Place) (n : Nat) : State × Option (List Byte) :=
  if revokedPlace s p then (setKrev s who, some (List.replicate n 0))
  else if (linesOf p.phys n).any (lineFails s p) then (s, none)
  else
    match checkWords s p.home (wordsOf p.phys n) with
    | none => (s, none)
    | some t =>
      let firm := firmPoint (t.party who).view (decide (p.home = dieOf who.core)) acquires
      let sight := sightOf t part p.slot
      (countAccess (mergeRead t who sight firm (granulesOf p.phys n)) payer p.phys n,
       some (bytesFor t who sight firm ((List.range n).map (fun i => p.phys + i))))

/-- `n` bytes read at a place for a party, on behalf of a partition. -/
def readPlace (s : State) (who : PartyId) (part : Nat) (acquires : Bool) (p : Place) (n : Nat) : State × Option (List Byte) :=
  readSeen s who part part acquires p n

/-! ## Frame accounts (R321) -/

/-- The resident tasks: core, slot, task. -/
def residents (s : State) : List (Nat × Nat × Task) :=
  s.ctxs.filterMap (fun e => e.2.task.map (fun t => (e.1 / 2, e.1 % 2, t)))

/-- The frames of objects, as frame codes. -/
def objFrames (o : Obj) : List Nat := o.frames.map (frameCode 0 o.space)

/-- The objects of a partition, by id. -/
def objectsOf (s : State) (part : Nat) : List (Nat × Obj) :=
  (s.objects.filter (fun e => decide (e.1 / 2 ^ 24 = part))).map (fun e => (e.1 % 2 ^ 24, e.2))

/-- The Cocoon frames of a partition's tasks (R362). -/
def cocoonFrames (s : State) (part : Nat) : List Nat :=
  ((residents s).filter (fun e => decide (e.2.2.part = part))).flatMap (fun e => e.2.2.frames) ++
  (s.cocoons.filter (fun c => decide (c.task.part = part))).flatMap (fun c => c.task.frames)

/-- The bytes at a paged address of a partition as they stand: zero where nothing is mapped. -/
def peekPaged (s : State) (part va n : Nat) : List Byte :=
  (List.range n).map (fun i =>
    match paged s part (va + i) with
    | .place p => readByte s.mem p.phys
    | _ => 0)

/-- How many tiles a descriptor's grid has (R225). -/
def gridTiles (d : List Byte) : Nat :=
  ((List.range (recField d 1 1)).map (fun i =>
    let z := 2 ^ bits (recField d 0x18 7) (5 * i + 4) (5 * i)
    (recField d (0x20 + 4 * i) 4 + z - 1) / z)).foldl (· * ·) 1

/-- The frames that the tile table of a descriptor names: space and number (R224, R226). A weak source's table holds nothing
(R228). -/
def tileFrames (s : State) (part : Nat) (d : List Byte) : List (Nat × Nat) :=
  if 1 < recField d 4 1 then []
  else
    (List.range (gridTiles d)).filterMap (fun k =>
      let e := natOfBytes (peekPaged s part (recField d 8 8 + 8 * k) 8)
      if e.testBit 63 ∧ bits e 62 43 = 0 then some (bits e 42 40, bits e 39 0) else none)

/-- The frames that the tile tables of a tensor table of `n` descriptors name. -/
def tableEntries (s : State) (part tensors n : Nat) : List (Nat × Nat) :=
  (List.range n).flatMap (fun i => tileFrames s part (peekPaged s part (tensors + 128 * i) 128))

/-- The frames of stacked DRAM and second tier, its own, that a partition's tile tables map. -/
def tableFrames (s : State) (part tensors n : Nat) : List Nat :=
  (tableEntries s part tensors n).filterMap (fun e =>
    if e.1 < 2 ∧ ownerOf s (frameCode 0 e.1 e.2) = part then some (frameCode 0 e.1 e.2) else none)

/-- Its frames of weight stores that they map, on every die on which it owns one of that number. -/
def tableWeights (s : State) (part tensors n : Nat) : List Nat :=
  (tableEntries s part tensors n).flatMap (fun e =>
    if e.1 = 3 then ((List.range 16).map (fun d => frameCode d 3 e.2)).filter (fun c => decide (ownerOf s c = part)) else [])

/-- The tensor tables of a partition: those of its tasks, resident or saved, and of its launches. (Log 14 DEDUCED.) -/
def tensorTables (s : State) (part : Nat) : List (Nat × Nat) :=
  (((residents s).filter (fun e => decide (e.2.2.part = part))).map (fun e => (e.2.2.tensors.toNat, e.2.2.tcount)) ++
    (s.cocoons.filter (fun c => decide (c.task.part = part))).map (fun c => (c.task.tensors.toNat, c.task.tcount)) ++
    (List.range 32).filterMap (fun q => ((s.queue part q).head).map (fun l => (l.tensors.toNat, l.tcount)))).eraseDups

/-- The frames of stacked DRAM and second tier, its own, that a partition's pages and tile tables map. -/
def mappedFrames (s : State) (part : Nat) : List Nat :=
  (s.pages.filter (fun e => decide (e.1 / 2 ^ 44 = part))).filterMap (fun e =>
    match e.2 with
    | .frame sp f => if (sp = 0 ∨ sp = 1) ∧ ownerOf s (frameCode 0 sp f) = part then some (frameCode 0 sp f) else none
    | .rowPage _ => none) ++
  (tensorTables s part).flatMap (fun e => tableFrames s part e.1 e.2)

/-- The frames that a partition holds strongly (R321): those its pages and tile tables map, its strongly held objects use,
its tasks' probes have pinned, its Cocoons take (log 14 DEDUCED). -/
def strongFrames (s : State) (part : Nat) : List Nat :=
  let objs := ((objectsOf s part).filter (fun e => decide (0 < e.2.count))).flatMap (fun e => objFrames e.2)
  let pinned := ((s.pins.filter (fun p => decide (p.part = part))).map (fun p => p.frame)).filter
    (fun c => decide (c / 2 ^ 40 % 8 < 2))
  (mappedFrames s part ++ objs ++ pinned ++ cocoonFrames s part).eraseDups

/-- FRS. -/
def frs (s : State) (part : Nat) : Nat := (strongFrames s part).length

/-- FRW: frames that objects use and nothing holds strongly. -/
def frw (s : State) (part : Nat) : Nat :=
  let strong := strongFrames s part
  (((objectsOf s part).flatMap (fun e => objFrames e.2)).eraseDups.filter (fun c => !strong.contains c)).length

/-! ## The dirty log (R371) -/

/-- Every frame that a partition's tile tables and pages map, those of weight stores among them (R371). -/
def loggedFrames (s : State) (part : Nat) : List Nat :=
  mappedFrames s part ++ (tensorTables s part).flatMap (fun e => tableWeights s part e.1 e.2)

/-- The first write to a frame of a partition whose log is on: its dirty bit is set and an entry appended, before the
write is performed. An entry has the layout of R226, which shows no die (log 84 DESIGN CHOICE). -/
def logDirty (s : State) (frame : Option Nat) : State :=
  match frame with
  | none => s
  | some code =>
    let p := ownerOf s code
    let x := s.part p
    let base := x.dlbase.toNat
    if 64 ≤ p ∨ x.dlctl.getLsbD 0 = false ∨ code ∈ x.dirty ∨ ownerOf s base ≠ 64 then s
    else if x.dlctl.getLsbD 2 then s.setPart p { x with dirty := code :: x.dirty }
    else if (x.dlhead.toNat + 1) % 8192 = x.dltail.toNat then
      s.setPart p { x with dlctl := setBit x.dlctl 2 true, dirty := (code :: x.dirty ++ loggedFrames s p).eraseDups }
    else
      let a := framePhys 0 64 (bits base 42 40) (bits base 39 0) (8 * x.dlhead.toNat)
      let t := { forget s a 8 with mem := writeBytes s.mem a (bytesOfNat 8 (2 ^ 63 + code % 2 ^ 44)) }
      t.setPart p { x with dirty := code :: x.dirty, dlhead := x.dlhead + 1 }

/-! ## Writing -/

/-- Whether `n` bytes at `a` cover a whole block of `z` bytes at `b`. -/
def covers (a n b z : Nat) : Bool := decide (a ≤ b) && decide (b + z ≤ a + n)

/-- The bytes of a write of a partition's agent merged into the lines that they cover: discarded under a revoked slot; none, dropped
alone, where a line that it covers in part fails its check, in its key or in any word of it (R320, R346). `kept` are the bytes of
which the write leaves some bits as they are, so that it covers their lines and words in part. -/
def mergeBytes (s : State) (who : PartyId) (part : Nat) (clock : Sparse Nat) (p : Place) (kept : List Nat) (bs : List Byte) :
    Option State :=
  let n := bs.length
  if bs = [] then some s
  else if revokedPlace s p then some (setKrev s who)
  else
    let wholly := fun b z => covers p.phys n b z && !kept.any (fun k => decide (b ≤ k) && decide (k < b + z))
    let cut := (linesOf p.phys n).filter (fun l => !wholly (64 * l) 64)
    let (whole, cutWords) := (wordsOf p.phys n).partition (fun a => wholly a (protectedSize p.phys))
    if cut.any (lineFails s p) then none
    else
      match checkWords s p.home (if p.slot.isSome then cut.flatMap (fun l => wordsOf (64 * l) 64) else cutWords) with
      | none => none
      | some t =>
        let t1 := logDirty { t with flips := whole.foldl (fun m a => if look 0 m a = 0 then m else drop m a) t.flips } p.frame
        let t2 := { t1 with mem := writeBytes t1.mem p.phys bs }
        let t3 := match p.slot with | some k => tagLines t2 (keyNum s k) (linesOf p.phys n) | none => t2
        some (stampRange t3 (sightOf s part p.slot) clock p.phys n)

/-- The granules of a write, which come one by one, are about to be written by a party whose die has numbered the write; what
an agent that is no party of a die writes, and what is written to a row, is there for all at once. -/
def rememberPlace (s : State) (who : PartyId) (part : Nat) (clock : Sparse Nat) (p : Place) (n : Nat) : State :=
  let num := look 0 clock (dieOf who.core)
  if num = 0 ∨ n = 0 then forget s p.phys n
  else if p.isRow then madeBy (forget s p.phys n) who (granulesOf p.phys n)
  else remember s who (sightOf s part p.slot) num ((granulesOf p.phys n).map (fun g => [g]))

/-- A write to a place as its home applies it, under the clock that it carries. -/
def writePlace (s : State) (who : PartyId) (part : Nat) (clock : Sparse Nat) (p : Place) (bs : List Byte) : Option State :=
  mergeBytes (rememberPlace s who part clock p bs.length) who part clock p [] bs

/-- A write performed by a party at once: its die numbers it (R204). -/
def performWrite (s : State) (who : PartyId) (p : Place) (bs : List Byte) : Option State :=
  let t := countAccess (tickClock s (dieOf who.core)) (partOf s who) p.phys bs.length
  writePlace t who (partOf s who) (clockOf t (dieOf who.core)) p bs

/-- A frame rewritten as zero under a key (R323, R385). -/
def zeroFrame (s : State) (die space f num : Nat) : State :=
  let a := framePhys die 64 space f 0
  let t := { forget s a 65536 with mem := clearRange s.mem a 65536 }
  if space = 0 ∨ space = 1 then
    let inFrame := fun (e : Nat × Nat) => !(decide (e.1 % 2 = 1) && decide (e.1 / 2 / 1024 = a / 65536))
    { t with tags := put (t.tags.filter inFrame) (2 * (a / 65536)) (num + 1),
             flips := t.flips.filter (fun e => !decide (e.1 / 65536 = a / 65536)) }
  else { t with flips := t.flips.filter (fun e => !decide (e.1 / 65536 = a / 65536)) }

end Sys2Proof.Machine
end

