-- ==== Sys2Proof/Machine/Operands.lean ====
section
/-! DEFINITION. The operand forms: register fields (R48), immediates (R51), effective addresses (R53), transfer targets
(R51, R264, R266), vector operand codes (R54). -/

namespace Sys2Proof.Machine

/-- A 6-bit register field names s0–s63 in a wing and s0–s31 elsewhere (R48). -/
def regOk (s : State) (r : B6) : Bool := s.cur.party.isWing || decide (r.toNat < 32)

/-- sext(imm13, 64) (R51). -/
def imm13 (i : BitVec 13) : Word := i.signExtend 64

/-- The effective address of PM: s[a] + sint(off9) × size (R53, R213). -/
def memAddr (s : State) (a : B6) (f : BitVec 9) (size : Nat) : Word := s.reg a.toNat + wordOfInt (f.toInt * size)

/-- Whether the executing party may execute a branch here: in lock-step only word 0 may (R264). -/
def mayBranch (s : State) : Bool := !s.inLock || decide (s.cur.party = .w0)

/-- Whether a transfer target is legal: inside the party's instruction memory, and a multiple of 16 in lock-step
(R51, R264, R266). -/
def targetOk (s : State) (t : Int) : Bool :=
  decide (0 ≤ t) && decide (t < (imemSize s.cur : Int)) && (!s.inLock || decide (t % 16 = 0))

/-- transfer(t) of R266. -/
def transfer (s : State) (t : Int) : Act :=
  if targetOk s t then .jump s t.toNat else badOperand s

/-- The target of a relative branch: pc + 4 × sint(off) (R51). -/
def relTarget (s : State) (off : Int) : Int := (s.me.pc.toNat : Int) + 4 * off

/-- A vector operand code (R54). -/
inductive VOperand where
  | v (n : Nat)
  | vq
  | vz
  | reserved
  | port (n : Nat)
  deriving DecidableEq, Repr

def voperand (f : B5) : VOperand :=
  let n := f.toNat
  if n < 20 then .v n else if n = 20 then .vq else if n = 21 then .vz else if n < 24 then .reserved else .port (n - 24)

/-- The rounded VREGS count of the executing party's task (R70). -/
def vregs (s : State) : Nat :=
  match s.myCtx.task with
  | some t => (t.hdr.vregs + 3) / 4 * 4
  | none => 0

end Sys2Proof.Machine
end

