-- ==== Sys2Proof/Machine/Flags.lean ====
section
/-! DEFINITION. Flags and events: comparisons, the gone flag G (R325), pending events (R276), progress of a launch
(R252, R366). -/

namespace Sys2Proof.Machine

/-- The comparisons of R266 and R108. -/
def signedLt (x y : Word) : Bool := decide (x.toInt < y.toInt)
def unsignedLt (x y : Word) : Bool := decide (x.toNat < y.toNat)

/-- The gone flag of the executing wing. -/
def setGone (s : State) (b : Bool) : State := s.modMe (fun x => { x with gone := b })

/-- Sets an event for parties of a slot. -/
def eventFor (s : State) (core slot i : Nat) : List Party → State
  | [] => s
  | p :: ps => eventFor (s.modParty ⟨core, slot, p⟩ (fun x => setEvent x i)) core slot i ps

/-- Sets an event for every party of a task (EVP is held by every party, R288). -/
def eventAll (s : State) (core slot i : Nat) : State := eventFor s core slot i allParties

/-- A progress event of a task's launch sets LKCNT of its queue to 0 (R252, R366). -/
def progress (s : State) (core slot : Nat) : State :=
  match (s.ctx core slot).task with
  | some t => s.modQueue t.part t.queue (fun q => { q with lkcnt := 0 })
  | none => s

end Sys2Proof.Machine
end

