-- ==== Sys2Proof/Machine/Integer.lean ====
section
/-! DEFINITION. Scalar integer instructions (R107–R113). -/

namespace Sys2Proof.Machine

/-- A register-register operation: destination tainted if a source is (R107, R108). -/
def arith2 (s : State) (d a b : B6) (f : Word → Word → Word) : Act :=
  if regOk s d && regOk s a && regOk s b then
    .done (s.setReg d.toNat (f (s.reg a.toNat) (s.reg b.toNat)) (s.tainted a.toNat || s.tainted b.toNat)) 1
  else badOperand s

/-- A register-immediate operation (R110). -/
def arith1 (s : State) (d a : B6) (f : Word → Word) : Act :=
  if regOk s d && regOk s a then .done (s.setReg d.toNat (f (s.reg a.toNat)) (s.tainted a.toNat)) 1
  else badOperand s

/-- An operation that reads no register: it clears the taint (R107, R111, R112). -/
def arith0 (s : State) (d : B6) (v : Word) : Act :=
  if regOk s d then .done (s.setReg d.toNat v false) 1 else badOperand s

/-- The shift amount: the low six bits (R108). -/
def shamt (y : Word) : Nat := y.toNat % 64

def mulLow (x y : Word) : Word := wordOfInt (x.toInt * y.toInt)
def mulHigh (x y : Word) : Word := wordOfInt (x.toInt * y.toInt / 2 ^ 64)
def mulHighU (x y : Word) : Word := word (x.toNat * y.toNat / 2 ^ 64)

/-- Division never traps (R109). -/
def divS (x y : Word) : Word := if y = 0 then BitVec.allOnes 64 else wordOfInt (x.toInt.tdiv y.toInt)
def divU (x y : Word) : Word := if y = 0 then BitVec.allOnes 64 else word (x.toNat / y.toNat)
def remS (x y : Word) : Word := if y = 0 then x else wordOfInt (x.toInt - y.toInt * x.toInt.tdiv y.toInt)
def remU (x y : Word) : Word := if y = 0 then x else word (x.toNat % y.toNat)

def minS (x y : Word) : Word := if signedLt y x then y else x
def maxS (x y : Word) : Word := if signedLt x y then y else x
def minU (x y : Word) : Word := if unsignedLt y x then y else x
def maxU (x y : Word) : Word := if unsignedLt x y then y else x

/-- The count of zero bits above the highest one bit among the low `k` bits. -/
def leadingZeros (x : Nat) : Nat → Nat
  | 0 => 0
  | k + 1 => if x / 2 ^ k % 2 = 1 then 0 else 1 + leadingZeros x k

def clz (x : Word) : Word := word (leadingZeros x.toNat 64)
def popc (x : Word) : Word := word (popCount 64 x.toNat)

def execAdd (d a b : B6) (s : State) : Host.Outcome State Fault Refusal :=
  control s (fun s => arith2 s d a b (fun x y => x + y))

def execSub (d a b : B6) (s : State) : Host.Outcome State Fault Refusal :=
  control s (fun s => arith2 s d a b (fun x y => x - y))

def execAnd (d a b : B6) (s : State) : Host.Outcome State Fault Refusal :=
  control s (fun s => arith2 s d a b (fun x y => x &&& y))

def execOr (d a b : B6) (s : State) : Host.Outcome State Fault Refusal :=
  control s (fun s => arith2 s d a b (fun x y => x ||| y))

def execXor (d a b : B6) (s : State) : Host.Outcome State Fault Refusal :=
  control s (fun s => arith2 s d a b (fun x y => x ^^^ y))

def execShl (d a b : B6) (s : State) : Host.Outcome State Fault Refusal :=
  control s (fun s => arith2 s d a b (fun x y => x <<< shamt y))

def execShr (d a b : B6) (s : State) : Host.Outcome State Fault Refusal :=
  control s (fun s => arith2 s d a b (fun x y => x >>> shamt y))

def execSar (d a b : B6) (s : State) : Host.Outcome State Fault Refusal :=
  control s (fun s => arith2 s d a b (fun x y => x.sshiftRight (shamt y)))

def execMul (d a b : B6) (s : State) : Host.Outcome State Fault Refusal :=
  control s (fun s => arith2 s d a b (fun x y => mulLow x y))

def execMulh (d a b : B6) (s : State) : Host.Outcome State Fault Refusal :=
  control s (fun s => arith2 s d a b (fun x y => mulHigh x y))

def execMulhu (d a b : B6) (s : State) : Host.Outcome State Fault Refusal :=
  control s (fun s => arith2 s d a b (fun x y => mulHighU x y))

def execDiv (d a b : B6) (s : State) : Host.Outcome State Fault Refusal :=
  control s (fun s => arith2 s d a b (fun x y => divS x y))

def execDivu (d a b : B6) (s : State) : Host.Outcome State Fault Refusal :=
  control s (fun s => arith2 s d a b (fun x y => divU x y))

def execRem (d a b : B6) (s : State) : Host.Outcome State Fault Refusal :=
  control s (fun s => arith2 s d a b (fun x y => remS x y))

def execRemu (d a b : B6) (s : State) : Host.Outcome State Fault Refusal :=
  control s (fun s => arith2 s d a b (fun x y => remU x y))

def execMin (d a b : B6) (s : State) : Host.Outcome State Fault Refusal :=
  control s (fun s => arith2 s d a b (fun x y => minS x y))

def execMax (d a b : B6) (s : State) : Host.Outcome State Fault Refusal :=
  control s (fun s => arith2 s d a b (fun x y => maxS x y))

def execMinu (d a b : B6) (s : State) : Host.Outcome State Fault Refusal :=
  control s (fun s => arith2 s d a b (fun x y => minU x y))

def execMaxu (d a b : B6) (s : State) : Host.Outcome State Fault Refusal :=
  control s (fun s => arith2 s d a b (fun x y => maxU x y))

def execSlt (d a b : B6) (s : State) : Host.Outcome State Fault Refusal :=
  control s (fun s => arith2 s d a b (fun x y => wordOfBool (signedLt x y)))

def execSltu (d a b : B6) (s : State) : Host.Outcome State Fault Refusal :=
  control s (fun s => arith2 s d a b (fun x y => wordOfBool (unsignedLt x y)))

def execClz (d a : B6) (s : State) : Host.Outcome State Fault Refusal := control s (fun s => arith1 s d a clz)

def execPopc (d a : B6) (s : State) : Host.Outcome State Fault Refusal := control s (fun s => arith1 s d a popc)

def execAddi (d a : B6) (i : BitVec 13) (s : State) : Host.Outcome State Fault Refusal :=
  control s (fun s => arith1 s d a (fun x => x + imm13 i))

def execAndi (d a : B6) (i : BitVec 13) (s : State) : Host.Outcome State Fault Refusal :=
  control s (fun s => arith1 s d a (fun x => x &&& imm13 i))

def execOri (d a : B6) (i : BitVec 13) (s : State) : Host.Outcome State Fault Refusal :=
  control s (fun s => arith1 s d a (fun x => x ||| imm13 i))

def execXori (d a : B6) (i : BitVec 13) (s : State) : Host.Outcome State Fault Refusal :=
  control s (fun s => arith1 s d a (fun x => x ^^^ imm13 i))

def execSlti (d a : B6) (i : BitVec 13) (s : State) : Host.Outcome State Fault Refusal :=
  control s (fun s => arith1 s d a (fun x => wordOfBool (signedLt x (imm13 i))))

def execSltiu (d a : B6) (i : BitVec 13) (s : State) : Host.Outcome State Fault Refusal :=
  control s (fun s => arith1 s d a (fun x => wordOfBool (unsignedLt x (imm13 i))))

def execShli (d a : B6) (n : BitVec 6) (s : State) : Host.Outcome State Fault Refusal :=
  control s (fun s => arith1 s d a (fun x => x <<< n.toNat))

def execShri (d a : B6) (n : BitVec 6) (s : State) : Host.Outcome State Fault Refusal :=
  control s (fun s => arith1 s d a (fun x => x >>> n.toNat))

def execSari (d a : B6) (n : BitVec 6) (s : State) : Host.Outcome State Fault Refusal :=
  control s (fun s => arith1 s d a (fun x => x.sshiftRight n.toNat))

/-- LUI (R111): the product imm19 × 2^13 is a 32-bit vector, then sign-extended. -/
def execLui (d : B6) (i : BitVec 19) (s : State) : Host.Outcome State Fault Refusal :=
  control s (fun s => arith0 s d ((BitVec.ofNat 32 (i.toNat * 2 ^ 13)).signExtend 64))

def execAddpc (d : B6) (i : BitVec 19) (s : State) : Host.Outcome State Fault Refusal :=
  control s (fun s => arith0 s d (s.me.pc + wordOfInt (4 * i.toInt)))

def execAgen (d a b : B6) (h : BitVec 4) (s : State) : Host.Outcome State Fault Refusal :=
  control s (fun s => arith2 s d a b (fun x y => x + (y <<< h.toNat)))

end Sys2Proof.Machine
end

