-- ==== Sys2Proof/Machine/Flow.lean ====
section
/-! DEFINITION. Control flow in every party: branches, jumps, loops, REP, LEXIT (R266–R270), tokens (R273), NOP (R63), END
(R272), TRAP (R353), WAITEV (R276), and the barriers that a wing's END may complete (R277, R278). -/

namespace Sys2Proof.Machine

/-! ## Groups and barriers -/

/-- The set of names that a wing's groups belong to: its partition's, or the one of the system cores (R277). -/
def groupSpace (s : State) (p : PartyId) : Nat :=
  match (s.ctx p.core p.slot).task with
  | some t => t.part
  | none => 64

/-- The wings that have joined group `g` of a name space. A pre-empted task's wings still count (R278). -/
def members (s : State) (space g : Nat) : List (PartyId × PartyState) :=
  (s.parties.filterMap (fun e =>
    let p : PartyId := ⟨e.1 / 20, e.1 / 10 % 2, wingOf (e.1 % 10)⟩
    if e.1 % 10 < 4 ∧ e.2.groups.contains g ∧ groupSpace s p = space then some (p, e.2) else none))

/-- A member of the group that is pre-empted or parked keeps the barrier waiting (R278). -/
def memberAway (s : State) (space g : Nat) : Bool :=
  s.cocoons.any (fun c => decide (c.task.part = space) && c.parties.any (fun e => e.2.groups.contains g))

def waitsAt (g : Nat) (x : PartyState) : Bool :=
  match x.wait with
  | .bar h false => h == g
  | _ => false

/-- Marks a completed barrier for its members: each may go on, with EVP.bar set, and its die knows the writes that the
others knew (R276, R278). -/
def passBarrier (s : State) (g : Nat) (clock : Sparse Nat) : List (PartyId × PartyState) → State
  | [] => s
  | (p, _) :: ps =>
    let t := s.modParty p (fun x => { setEvent x 2 with wait := .bar g true })
    passBarrier (orderPoint (learn t (dieOf p.core) clock) p) g clock ps

/-- Completes the barrier on `g` if every current member waits at it (R278). -/
def checkBarrier (s : State) (space g : Nat) : State :=
  let ms := members s space g
  if ms ≠ [] ∧ !memberAway s space g ∧ ms.all (fun m => waitsAt g m.2) then
    passBarrier s g (ms.foldl (fun c m => mergeClock c (clockOf s (dieOf m.1.core))) []) ms
  else s

/-- A wing leaves groups; the barriers that this completes, complete. -/
def leaveGroups (s : State) (p : PartyId) : List Nat → State
  | [] => s
  | g :: gs =>
    let t := s.modParty p (fun x => { x with groups := x.groups.filter (fun h => h != g) })
    leaveGroups (checkBarrier t (groupSpace s p) g) p gs

/-! ## Branches and jumps -/

/-- A compare-and-branch (R266). -/
def branch (s : State) (a b : B6) (o : BitVec 13) (taken : Word → Word → Bool) : Act :=
  if !(regOk s a && regOk s b) || !mayBranch s then badOperand s
  else if taken (s.reg a.toNat) (s.reg b.toNat) then transfer s (relTarget s o.toInt)
  else .done s 1

def execBeq (a b : B6) (o : BitVec 13) (s : State) : Host.Outcome State Fault Refusal :=
  control s (fun s => branch s a b o (fun x y => decide (x = y)))

def execBne (a b : B6) (o : BitVec 13) (s : State) : Host.Outcome State Fault Refusal :=
  control s (fun s => branch s a b o (fun x y => decide (x ≠ y)))

def execBlt (a b : B6) (o : BitVec 13) (s : State) : Host.Outcome State Fault Refusal :=
  control s (fun s => branch s a b o (fun x y => signedLt x y))

def execBge (a b : B6) (o : BitVec 13) (s : State) : Host.Outcome State Fault Refusal :=
  control s (fun s => branch s a b o (fun x y => !signedLt x y))

def execBltu (a b : B6) (o : BitVec 13) (s : State) : Host.Outcome State Fault Refusal :=
  control s (fun s => branch s a b o (fun x y => unsignedLt x y))

def execBgeu (a b : B6) (o : BitVec 13) (s : State) : Host.Outcome State Fault Refusal :=
  control s (fun s => branch s a b o (fun x y => !unsignedLt x y))

def execJmp (o : BitVec 25) (s : State) : Host.Outcome State Fault Refusal :=
  control s (fun s => if mayBranch s then transfer s (relTarget s o.toInt) else badOperand s)

/-- The link register: s63 in a wing, s31 in any other party (R267). -/
def linkReg (s : State) : Nat := if s.cur.party.isWing then 63 else 31

/-- The link: pc + 4, or the address of the next bundle (R264, R267). -/
def linkValue (s : State) : Word := s.me.pc + (if s.inLock then 16 else 4)

def execJal (o : BitVec 25) (s : State) : Host.Outcome State Fault Refusal :=
  control s (fun s =>
    let t := relTarget s o.toInt
    if mayBranch s && targetOk s t then .jump (s.setReg (linkReg s) (linkValue s) false) t.toNat else badOperand s)

def execJr (a : B6) (i : BitVec 13) (s : State) : Host.Outcome State Fault Refusal :=
  control s (fun s =>
    if !regOk s a || !mayBranch s then badOperand s
    else
      let t := s.reg a.toNat + imm13 i
      if t.toNat % 4 ≠ 0 then .trap causeAlignment t else transfer s t.toNat)

/-! ## Loops -/

/-- The loop registers whose loops were started after the loop that register `l` last held, that loop ended or not (R268, R269). -/
def startedAfter (l : Nat) (began : List Nat) : List Nat := if began.contains l then began.takeWhile (fun k => k != l) else []

/-- The active loops that stop when loop `l` is started or left: itself and those started after the one that its register last held. -/
def youngerFrom (l : Nat) (began order : List Nat) : List Nat :=
  order.filter (fun k => k == l || (startedAfter l began).contains k)

/-- The active loops that go on then. -/
def olderThan (l : Nat) (began order : List Nat) : List Nat :=
  order.filter (fun k => !(k == l || (startedAfter l began).contains k))

/-- The order of starts once loop `l` has started. -/
def startLast (l : Nat) (began : List Nat) : List Nat := l :: began.filter (fun k => k != l)

/-- LOOP and LOOPI with count `n` (R268, R264). -/
def startLoop (s : State) (l n body : Nat) : Act :=
  let x := s.me
  let pc := x.pc.toNat
  if !mayBranch s || decide (body = 0) || (s.inLock && decide (body % 4 ≠ 0)) then badOperand s
  else if imemSize s.cur ≤ pc + 4 * body then badOperand s
  else if 2 ^ 32 ≤ n then badOperand s
  else if n = 0 then .done s (body + 1)
  else
    let first := if s.inLock then pc / 4 + 4 else pc / 4 + 1
    let ls := put (loopsOff x.ls (youngerFrom l x.began x.order)) l (lsMake first (pc / 4 + body) n)
    .done (s.setMe { x with ls := ls, order := l :: olderThan l x.began x.order, began := startLast l x.began }) 1

def execLoop (l : B2) (c : B6) (n : BitVec 13) (s : State) : Host.Outcome State Fault Refusal :=
  control s (fun s => if regOk s c then startLoop s l.toNat (s.reg c.toNat).toNat n.toNat else badOperand s)

def execLoopi (l : B2) (i : BitVec 10) (n : BitVec 13) (s : State) : Host.Outcome State Fault Refusal :=
  control s (fun s => startLoop s l.toNat i.toNat n.toNat)

/-- The words that may not follow a REP (R269, R154). -/
def notRepeatable (i : Instr) : Bool :=
  match i with
  | .beq .. | .bne .. | .blt .. | .bge .. | .bltu .. | .bgeu .. | .jmp .. | .jal .. | .jr .. | .bgone .. | .swpt ..
  | .loop .. | .loopi .. | .rep .. | .lexit .. | .endOp | .waitev .. | .mkat .. => true
  | _ => false

/-- The instruction at an offset of the executing party's memory, if the word is assigned. -/
def instrAt (s : State) (p : PartyId) (o : Nat) : Option Instr := (decode p.party.map (wordAt s p o)).toOption

/-- Whether byte offset `e` is the last word of an active loop's body. -/
def endsLoop (x : PartyState) (e : Nat) : Bool := x.order.any (fun l => decide (4 * lsEnd (look 0 x.ls l) = e))

def execRep (i : BitVec 10) (s : State) : Host.Outcome State Fault Refusal :=
  control s (fun s =>
    let x := s.me
    let pc := x.pc.toNat
    let bad := match instrAt s s.cur (pc + 4) with | some j => notRepeatable j | none => false
    if s.inLock || bad || endsLoop x pc then badOperand s
    else if i = 0 then .done s 2
    else .moved (s.setMe { x with repc := i, pc := word (pc + 4) }))

def execLexit (l : B2) (s : State) : Host.Outcome State Fault Refusal :=
  control s (fun s =>
    if !mayBranch s then badOperand s
    else
      let x := s.me
      .done (s.setMe { x with ls := loopsOff x.ls (youngerFrom l.toNat x.began x.order), order := olderThan l.toNat x.began x.order }) 1)

/-! ## Tokens -/

def execTokw (k : B2) (s : State) : Host.Outcome State Fault Refusal :=
  if k = 0 || !bound s k then conclude s 0 0 (badOperand s)
  else if tokens s.me k = 0 then conclude s 0 0 (.wait s)
  else conclude s k 0 (.done s 1)

def execToks (k : B2) (s : State) : Host.Outcome State Fault Refusal :=
  if k = 0 || !bound s k then conclude s 0 0 (badOperand s) else conclude s 0 k (.done s 1)

/-! ## NOP, END, TRAP, WAITEV -/

def execNop (s : State) : Host.Outcome State Fault Refusal := control s (fun s => .done s 1)

/-- END (R272): a wing stops for the rest of the task and leaves every group; an engine's entry ends, a progress event,
once every matrix operation of the entry is performed (R148). -/
def execEndOp (s : State) : Host.Outcome State Fault Refusal :=
  control s (fun s =>
    if s.inLock then badOperand s
    else if s.cur.party.isWing then
      .moved (leaveGroups (s.modMe (fun x => { x with run := .ended, wait := .no })) s.cur s.me.groups)
    else if decide (s.cur.party = .m) && (s.core s.cur.core).ops.any (fun o => decide (o.slot = s.cur.slot)) then .wait s
    else .moved (progress (s.modMe (fun x => { x with run := .idle })) s.cur.core s.cur.slot))

def execTrap (i : BitVec 19) (s : State) : Host.Outcome State Fault Refusal :=
  control s (fun _ => .trap causeSoftware (i.setWidth 64))

/-- WAITEV's deadline has passed: s[a] ≠ 0 and TIME ≥ uint(s[a]) (R276). -/
def deadlinePassed (s : State) (a : B6) : Bool := decide (s.reg a.toNat ≠ 0) && decide ((s.reg a.toNat).toNat ≤ s.time)

def execWaitev (d a : B6) (m : BitVec 5) (s : State) : Host.Outcome State Fault Refusal :=
  control s (fun s =>
    if !(regOk s d && regOk s a) then badOperand s
    else if m = 0 ∧ s.reg a.toNat = 0 then badOperand s
    else
      let hit := s.me.evp &&& m
      if hit = 0 ∧ deadlinePassed s a = false then .wait s
      else
        let v := hit.setWidth 64 + (if deadlinePassed s a then 32 else 0)
        .done ((s.modMe (fun x => { x with evp := x.evp &&& ~~~hit })).setReg d.toNat v false) 1)

end Sys2Proof.Machine
end

