-- ==== Sys2Proof/Machine/Tasks.lean ====
section
/-! DEFINITION. What a task holds and gives up: rows of the sequence table (R289–R298), pins (R328), groups, boost claims
(R343), its slot of the core (R354), and the windows of a partition (R330). -/

namespace Sys2Proof.Machine

/-! ## Rows (R289, R290)

Rows lie in no frame, so no key covers them; their words have check bits (R345; log 34 DEDUCED). -/

def rowPhys (r o : Nat) : Nat := phys tagRows (128 * r + o)
def rowGet (s : State) (r o len : Nat) : Nat := natOfBytes (readBytes s.mem (rowPhys r o) len)
def rowPut (s : State) (r o len v : Nat) : State := { s with mem := writeBytes s.mem (rowPhys r o) (bytesOfNat len v) }

/-- Bytes of a row that have been written keep the clock of the write, as offsets and lengths (R204). -/
def stampRow (s : State) (clock : Sparse Nat) (r : Nat) (rs : List (Nat × Nat)) : State :=
  rs.foldl (fun t e => stampRange t {} clock (rowPhys r e.1) e.2) s

/-- The executing party has written bytes of a row: its die numbers the write, whose clock they keep (R204). -/
def signRow (s : State) (r : Nat) (rs : List (Nat × Nat)) : State :=
  let t := tickClock s (dieOf s.cur.core)
  wrote (stampRow t (clockOf t (dieOf s.cur.core)) r rs)

def rowPhase (s : State) (r : Nat) : Nat := rowGet s r 9 1
def rowClaimed (s : State) (r : Nat) : Bool := decide (rowGet s r 10 1 % 2 = 1)
def rowVoiding (s : State) (r : Nat) : Bool := decide (rowGet s r 10 1 / 2 % 2 = 1)
def rowTenant (s : State) (r : Nat) : Nat := rowGet s r 8 1
def rowSerial (s : State) (r : Nat) : Nat := rowGet s r 12 4 / 2 ^ 10

/-- The home die of a row (R289). -/
def rowHome (r : Nat) : Nat := 2 * (r / 2048)

/-- Words of a row checked as they are read (R345, R346): none where one of them is uncorrectable. -/
def rowChecked (s : State) (r o n : Nat) : Option State :=
  if s.flips = [] then some s else checkWords s (rowHome r) (wordsOf (rowPhys r o) n)

/-- The partition to which a row's page is assigned, if any. -/
def rowOwner (s : State) (r : Nat) : Option Nat :=
  (s.pages.find? (fun e => decide (e.2 = .rowPage (r / 512)))).map (fun e => e.1 / 2 ^ 44)

/-- Sets EVP.seq of the partition's tasks on the dies of a row's Hamper (R276, R296). -/
def eventSeq (s : State) (part r : Nat) : State :=
  ((residents s).filter (fun e => decide (e.2.2.part = part) && decide (hamperOf e.1 = r / 2048))).foldl
    (fun t e => eventAll t e.1 e.2.1 4) s

/-- The rows whose claim bit is set. -/
def claimedRows (s : State) : List Nat :=
  (s.mem.filter (fun c => decide (c.1 / 2 ^ 60 = tagRows) && decide (c.1 % 128 = 10) && decide (c.2.toNat % 2 = 1))).map
    (fun c => c.1 % 2 ^ 60 / 128)

/-- The end of a claim: VOID when the row is voiding, else the phase given (R296–R298). -/
def endClaim (s : State) (r phase : Nat) : State :=
  let p := if rowVoiding s r then 0 else phase
  let t := rowPut (rowPut (rowPut s r 9 1 p) r 10 1 0) r 12 4 0
  if p = rowPhase s r then t else
    match rowOwner s r with
    | some owner => eventSeq t owner r
    | none => t

/-- Ends every claim of a task, after the release of R211: who reads the row learns the clock of what the task has made (R297). -/
def endClaims (s : State) (serial : Nat) (clock : Sparse Nat) : State :=
  ((claimedRows s).filter (fun r => decide (rowSerial s r = serial))).foldl
    (fun t r => stampRow (endClaim t r (rowPhase t r)) clock r [(8, 8)]) s

/-- A row becomes VOID: one that was not changes phase (R276, R298). -/
def voidRow (s : State) (r : Nat) : State :=
  let t := rowPut s r 9 1 0
  if rowPhase s r = 0 then t else
    match rowOwner s r with
    | some owner => eventSeq t owner r
    | none => t

/-- Voids the rows of a tenant at their next phase boundary (R298). -/
def voidRows (s : State) (tenant : Nat) : List Nat → State
  | [] => s
  | r :: rs =>
    let t :=
      if rowTenant s r = tenant then
        if rowClaimed s r then rowPut s r 10 1 (rowGet s r 10 1 ||| 2) else voidRow s r
      else s
    voidRows t tenant rs

/-- The rows that hold any byte: a row of zeros is VOID already. -/
def liveRows (s : State) : List Nat :=
  ((s.mem.filter (fun c => decide (c.1 / 2 ^ 60 = tagRows))).map (fun c => c.1 % 2 ^ 60 / 128)).eraseDups

/-! ## Giving up a core -/

/-- Releases the boost claims that a slot's task set (R343). -/
def dropClaims (s : State) (core slot : Nat) : State :=
  s.modCore core (fun c =>
    (c.claimBy.filter (fun e => decide (e.2.2 = slot))).foldl
      (fun x e => { x with claim := setBit x.claim e.1 false, claimBy := drop x.claimBy e.1 }) c)

/-- Every party of a slot stops for good. -/
def stopParties (s : State) (core slot : Nat) : List Party → State
  | [] => s
  | p :: ps =>
    let id : PartyId := ⟨core, slot, p⟩
    let t := leaveGroups s id (s.party id).groups
    stopParties (t.modParty id (fun x =>
      { x with run := .off, wait := .no, busy := none, push := none, held := false, tkc := 0, popped := 0, peers := [], groups := [], view := {} }))
      core slot ps

/-- The messages that an instruction has received which will not retire: they are gone, and what names those of other devices no
longer waits for them. -/
def dropHeld (s : State) (core slot : Nat) : State :=
  let ours := fun (m : Msg) => decide (m.holder = some ⟨core, slot, .c⟩)
  if s.msgs.any ours = false then s
  else
    { s with msgs := s.msgs.filter (fun m => !ours m),
             heard := (s.msgs.filter (fun m => ours m && m.agent.isNone)).foldl (fun h m => put h m.src (m.num :: look [] h m.src)) s.heard }

/-- What stays behind when a slot's task leaves its core: no matrix operation, no search, no load under way, no message that it
has received in part, and no trellis definition of a task that held the slots (R164). -/
def vacate (s : State) (core slot : Nat) : State :=
  let holds := match (s.ctx core slot).task with | some t => t.hdr.flags.getLsbD 2 | none => false
  let t := s.modCore core (fun c =>
    { c with ops := c.ops.filter (fun o => decide (o.slot ≠ slot)),
             trellis := if holds then [] else c.trellis,
             search := match c.search with | some (k, p) => if k = slot then none else some (k, p) | none => none })
  dropHeld { t with loads := t.loads.filter (fun l => !(decide (l.agent.core = core) && decide (l.agent.slot = slot))) } core slot

/-- The messages of a collective instruction that will not retire are not delivered (R354). -/
def dropSends (s : State) (core slot : Nat) : State :=
  match (s.party ⟨core, slot, .c⟩).busy with
  | some (.coll c, _, _) =>
    { s with msgs := s.msgs.filter (fun m => !(decide (m.agent = some ⟨core, slot, .c⟩) && decide (m.since = c.since))) }
  | _ => s

/-- A task no longer uses the ranges of closed windows (R330). -/
def leaveWindows (s : State) (serial : Nat) : State :=
  let ws := s.windows.map (fun e => (e.1, { e.2 with users := e.2.users.filter (fun u => u != serial) }))
  { s with windows := ws.filter (fun e => e.2.live || !e.2.users.isEmpty) }

/-- Cocoon frames go back to the free pool, zeroed (R362, R385). -/
def freeFrames (s : State) (codes : List Nat) : State :=
  codes.foldl (fun t c => zeroFrame { t with owners := drop t.owners c } 0 (bits c 42 40) (bits c 39 0) 0) s

/-- A task gives up everything it holds: claims, pins, groups, boost claims, its slot (R297, R328, R343, R354). -/
def releaseTask (s : State) (core slot : Nat) (t : Task) : State :=
  let serial := t.serial.toNat
  let s1 := stopParties (dropClaims (dropSends s core slot) core slot) core slot allParties
  let s2 := vacate s1 core slot
  let s3 := { endClaims s2 serial (clockOf s2 (dieOf core)) with pins := s2.pins.filter (fun p => decide (p.serial ≠ serial)) }
  (freeFrames (leaveWindows s3 serial) t.frames).setCtx core slot {}

/-- A saved context is discarded with what its task holds (R354, R369); the barriers that it kept waiting complete (R278). -/
def releaseCocoon (s : State) (c : Cocoon) : State :=
  let serial := c.task.serial.toNat
  let s1 := { endClaims s serial c.clock with pins := s.pins.filter (fun p => decide (p.serial ≠ serial)) }
  let s2 := freeFrames (leaveWindows s1 serial) c.task.frames
  let s3 := { s2 with cocoons := s2.cocoons.filter (fun d => decide (d.task.serial ≠ c.task.serial)) }
  (c.parties.flatMap (fun e => e.2.groups)).eraseDups.foldl (fun t g => checkBarrier t c.task.part g) s3

/-! ## Windows (R330) -/

/-- The frames of a partition's region, as (space, frame). -/
def regionFrames (s : State) (part base length : Nat) : List (Nat × Nat) :=
  (List.range (length / 65536)).filterMap (fun i =>
    match pageHit s part (base + i * 65536) with
    | some (.frame sp f _) => if sp = 0 ∨ sp = 1 then some (sp, f) else none
    | _ => none)

/-- Re-encrypts the lines of frames under a key, keeping their values; lines that fail their check keep failing. -/
def rekeyFrames (s : State) (old new : Nat) : List (Nat × Nat) → State
  | [] => s
  | (sp, f) :: fs =>
    let first := framePhys 0 0 sp f 0 / 64
    let good := ((List.range 1024).map (fun i => first + i)).filter (fun l => decide (tagOf s l = old))
    rekeyFrames (tagLines s new good) old new fs

/-- Ends a window for both sides: the region goes back under the exporter's home key, the slot is revoked and freed; the
range stays reserved while a task of the peer that ran meanwhile lives (R330). -/
def closeWindow (s : State) (n : Nat) (w : Window) : State :=
  let s1 := rekeyFrames s (keyNum s w.slot) (keyNum s (homeKey s w.exporter)) (regionFrames s w.exporter w.base w.length)
  let s2 := s1.setKey w.slot { s1.key w.slot with loaded := false, revoked := true, kuse := 0, num := 0 }
  if w.users.isEmpty then { s2 with windows := drop s2.windows n }
  else { s2 with windows := put s2.windows n { w with live := false } }

/-! ## Pre-emptions asked for, and energy -/

/-- Whether a collective instruction of a slot is in progress. -/
def inCollective (s : State) (core slot : Nat) : Bool :=
  match (s.party ⟨core, slot, .c⟩).busy with
  | some (.coll _, _, _) => true
  | _ => false

/-- Asks for the pre-emption of a slot's task (R284), once: its wait counts for the Lookout only while a collective keeps it
waiting (R249). -/
def haltSlot (s : State) (core slot : Nat) : State :=
  if (s.ctx core slot).halting then s
  else s.modCtx core slot (fun c => { c with halting := true, disturbed := c.disturbed || !inCollective s core slot })

/-- Every task of a partition on a core is to be pre-empted: its account is exhausted (R335). -/
def haltPart (s : State) (part : Nat) : State :=
  ((residents s).filter (fun e => decide (e.2.2.part = part))).foldl (fun t e => haltSlot t e.1 e.2.1) s

/-- The sum of a list. -/
def total (l : List Nat) : Nat := l.foldl (· + ·) 0

/-- Whether a partition's draw over the last ten microseconds exceeds the cap of its level, PWSH × (L + 1) / 8 W (R336). -/
def overCap (q : Partition) : Bool := decide (10 ^ 8 * q.pwsh.toNat * (q.plvl.toNat + 1) < 8 * total q.draw)

/-- The bytes that a partition has moved on resource `k` since the last charge (R335). -/
def movedBytes (s : State) (k part : Nat) : Nat := look 0 s.moved (16 * part + k)

/-- The bytes moved on resource `k` since the last charge, for every partition and for none. -/
def movedAll (s : State) (k : Nat) : Nat := total ((List.range 65).map (movedBytes s k))

/-! ## Iterations of launches -/

/-- The number of iterations of a launch: the product of the bounds of its levels (R79, R256). -/
def iterations (l : Launch) : Nat := (l.bounds.take l.levels).foldl (· * ·) 1

/-- A trap record of a party of partition `p`. -/
def recordOf (p : Nat) (r : Record) : Bool := decide (r.part = p)

end Sys2Proof.Machine
end

