-- ==== Sys2Proof/Machine/SysRegs.lean ====
section
/-! DEFINITION. System registers: who holds each (R61, R64, R65, R288 and the tables of the other chapters), what it reads
and what a write does under its fields' access codes (R6, R62); MFS and MTS; and the rows of the opcode table that are
writes of a system wing to one register. -/

namespace Sys2Proof.Machine

/-! ## Which numbers are assigned, supervisor-only and held -/

def inRange (n lo hi : Nat) : Bool := decide (lo ≤ n) && decide (n ≤ hi)

/-- Whether a chapter's table names the number (R64). -/
def regAssigned (n : Nat) : Bool :=
  inRange n 0 2 || n == 8 || n == 0x10 || n == 0x18 || inRange n 0x40 0x44 || inRange n 0x80 0x84 || inRange n 0x88 0x89 ||
  inRange n 0x90 0x95 || inRange n 0xA0 0xAF || inRange n 0x100 0x110 || inRange n 0x120 0x121 || n == 0x180 || n == 0x184 ||
  n == 0x188 || inRange n 0x1A0 0x1A3 || inRange n 0x1C0 0x1C4 || inRange n 0x200 0x212 || inRange n 0x218 0x219 ||
  inRange n 0x241 0x244 || inRange n 0x280 0x285 || inRange n 0x290 0x295 || inRange n 0x300 0x307 || inRange n 0x310 0x318 ||
  inRange n 0x320 0x321 || inRange n 0x330 0x333

/-- Whether access needs supervisor context: the isolation range, and every register whose table gives SV for it or a
field of it (R61). -/
def regSv (n : Nat) : Bool :=
  inRange n 0x200 0x27F || inRange n 0x1A0 0x1A3 || inRange n 0x1C0 0x1C4 || inRange n 0x290 0x294 || inRange n 0x300 0x307 ||
  n == 0x321 || inRange n 0x330 0x333

/-- A flag of the kernel header of the executing party's task (R76, R261). -/
def taskFlag (s : State) (i : Nat) : Bool :=
  match s.myCtx.task with
  | some t => t.hdr.flags.getLsbD i
  | none => false

/-- Whether the executing party holds the register. -/
def regHeld (s : State) (n : Nat) : Bool :=
  let p := s.cur.party
  let wing := p.isWing
  let sys := s.supervisor
  if n = 0 then wing
  else if inRange n 1 2 || n == 8 || n == 0x18 || n == 0x180 || inRange n 0x1C0 0x1C4 || inRange n 0x300 0x303 then true
  else if n = 0x10 then (wing || decide (p = .v)) && !sys
  else if inRange n 0x80 0x83 then decide (p = .v) || decide (p = .m)
  else if n = 0x84 then decide (p = .v)
  else if inRange n 0x90 0x95 then (wing || decide (p = .m)) && !sys && taskFlag s 1
  else if inRange n 0xA0 0xAF then wing || decide (p = .x) || decide (p = .y)
  else if n = 0x110 then wing || decide (p = .m) || decide (p = .v) || decide (p = .x) || decide (p = .y)
  else if inRange n 0x120 0x121 then decide (p = .x) || decide (p = .y)
  else if inRange n 0x40 0x44 || inRange n 0x88 0x89 || inRange n 0x100 0x10F || n == 0x184 || n == 0x188 ||
      inRange n 0x280 0x282 || n == 0x284 then wing
  else if n == 0x283 || n == 0x285 || inRange n 0x310 0x318 || n == 0x320 then wing && !sys
  else wing && sys

/-! ## Values that are computed -/

/-- The core of a column's upper die. -/
def upperOf (core : Nat) : Nat := if core / 17 % 2 = 1 then core else core + 17

/-- The divisor in force in a domain (R340, DIVC). -/
def divisor (c : CoreState) (dom : Nat) : Nat :=
  if c.boosting.getLsbD dom then 10
  else if c.falling.getLsbD dom then 11
  else match dom with | 0 => c.div0.toNat | 1 => c.div1.toNat | 2 => c.div2.toNat | _ => c.div3.toNat

/-- The domains in cool-down. -/
def coolBits (s : State) (core : Nat) : Nat :=
  (List.range 4).foldl (fun a d => if s.time < look 0 (s.core core).cool d then a + 2 ^ d else a) 0

/-- BSTAT (R343): the pool only as supervisor code reads it. -/
def bstat (s : State) (core : Nat) : Nat :=
  let c := s.core core
  (if isSystem core then (s.hamper (hamperOf core)).pool * 2 ^ 12 else 0) + coolBits s core * 2 ^ 8 + c.boosting.toNat * 2 ^ 4
    + c.claim.toNat

/-- Free slots of the outgoing vertical FIFO (R222): the other core's incoming one, entries in transit included. -/
def vqFree (s : State) (core : Nat) : Nat :=
  let o := s.core (partnerOf core)
  16 - (o.vin.length + o.vfly.length)

/-- A trellis slot register (R163). -/
def trellisReg (t : Option Trellis) : Nat :=
  match t with
  | some t => 2 ^ 52 + t.h * 2 ^ 32 + t.c * 2 ^ 24 + t.v * 2 ^ 16 + t.b * 2 ^ 8 + t.m
  | none => 0

/-- Whether CSEL names a compute core (R317). -/
def cselOk (s : State) : Bool := decide (s.me.csel.toNat < 272) && !isSystem s.me.csel.toNat

/-- The frame code that FRSEL selects, if it is a frame that has an owner (R385). -/
def frselFrame (s : State) : Option Nat :=
  let v := s.me.frsel.toNat
  let space := bits v 42 40
  let f := bits v 39 0
  if f < framesOf space then some (frameCode (bits v 47 44) space f) else none

/-- The owner that FROWN shows: of the last change under way, else the frame's. (Log 28 DEDUCED.) -/
def frownOf (s : State) (code : Nat) : Nat :=
  match (s.reassigns.filter (fun r => decide (frameCode r.die r.space r.frame = code))).getLast? with
  | some r => r.owner
  | none => ownerOf s code

/-- KSTATE (R317). (Log 27 DESIGN CHOICE.) -/
def kstate (s : State) (slot : Nat) : Nat :=
  let k := s.key slot
  k.loaded.toNat * 2 ^ 15 + k.revoked.toNat * 2 ^ 14 + (slotOwner s slot).getD (Sys2Proof.Config.unownedKey slot).toNat

/-- What a register reads for the executing party (R61): a WO register reads zero (R6). Every die reads the one TIME of the
module: of the differences that R65 and R387 allow the model takes 0 (log 68 DESIGN CHOICE). TS0–TS15 are the core's, for a task
too whose header does not name them (log 86 DESIGN CHOICE). EACC, PLVL and PLMAP on a system wing, which belongs to no
partition, read the state kept under number 64 (log 117 DESIGN CHOICE). -/
def readReg (s : State) (n : Nat) : Word :=
  let x := s.me
  let core := s.cur.core
  let c := s.core core
  let d := s.die (dieOf core)
  let sh := s.myCtx.sh
  let p := s.part s.myPart
  let sel := s.part x.psel.toNat
  let lp := x.lksel.toNat / 32
  let lq := s.queue lp (x.lksel.toNat % 32)
  let h := s.hamper (hamperOf core)
  if inRange n 0x80 0x83 then (look 0x00070000 x.cw (n - 0x80)).setWidth 64
  else if inRange n 0x90 0x95 then look 0 sh.ns (n - 0x90)
  else if inRange n 0xA0 0xAF then word (trellisReg (seek c.trellis (n - 0xA0)))
  else if inRange n 0x100 0x10F then (look 0 sh.rv (n - 0x100)).setWidth 64
  else if inRange n 0x1C0 0x1C3 then look 0 x.ls (n - 0x1C0)
  else if inRange n 0x310 0x317 then look 0 sh.phb (n - 0x310)
  else
    match n with
    | 0x000 => word s.cur.party.num
    | 0x001 => word (core % 17)
    | 0x002 => word (dieOf core)
    | 0x008 => word s.time
    | 0x010 => word (vqFree s core)
    | 0x018 => word (61 * 2 ^ 32 + 4000 * 2 ^ 16 + 40 * 2 ^ 8 + 96)
    | 0x040 => sh.istat.setWidth 64
    | 0x041 => h.dram.shown.setWidth 64
    | 0x042 => d.ring.shown.setWidth 64
    | 0x043 => s.fabric.shown.setWidth 64
    | 0x044 => s.reclaim.shown.setWidth 64
    | 0x084 => x.vm
    | 0x088 => x.ml
    | 0x089 => x.cp
    | 0x110 => x.tkc.setWidth 64
    | 0x120 => x.xstat
    | 0x121 => x.xprog.setWidth 64
    | 0x180 => x.evp.setWidth 64
    | 0x184 => sh.ssn.setWidth 64
    | 0x188 => word s.cur.slot
    | 0x1A0 => x.lksel.setWidth 64
    | 0x1A1 => lq.lklim.setWidth 64
    | 0x1A2 => lq.lkcnt.setWidth 64
    | 0x1A3 => (s.part lp).lkexp.setWidth 64
    | 0x1C4 => x.repc.setWidth 64
    | 0x200 => x.psel.setWidth 64
    | 0x201 => sel.frg.setWidth 64
    | 0x202 => sel.frb.setWidth 64
    | 0x203 => word (frs s x.psel.toNat)
    | 0x204 => word (frw s x.psel.toNat)
    | 0x205 => sel.keyb.setWidth 64
    | 0x206 => sel.keyn.setWidth 64
    | 0x207 => look 0 sel.flpg (dieOf core)
    | 0x208 => x.csel.setWidth 64
    | 0x209 => word ((s.core x.csel.toNat).scrub.toNat * 128 + (s.core x.csel.toNat).part.toNat)
    | 0x20A => x.ksel.setWidth 64
    | 0x20B =>
      match slotOwner s x.ksel.toNat with
      | some o => setBit (s.key x.ksel.toNat).kuse o true
      | none => (s.key x.ksel.toNat).kuse
    | 0x20C => word (kstate s x.ksel.toNat)
    | 0x20D => word ((s.core x.csel.toNat).katpend.toNat * 2 + (s.core x.csel.toNat).failed.toNat)
    | 0x20E => x.rsel.setWidth 64
    | 0x20F => (look 64 (s.die (x.rsel.toNat / 256)).rslots (x.rsel.toNat % 256)).setWidth 64
    | 0x210 => x.frsel.setWidth 64
    | 0x211 => word (match frselFrame s with | some f => frownOf s f | none => 64)
    | 0x212 => x.iref.setWidth 64
    | 0x219 => s.prstat.setWidth 64
    | 0x241 => h.dram.exact + word (movedAll s (hamperOf core))
    | 0x242 => d.ring.exact
    | 0x243 => s.fabric.exact + word (movedAll s 10)
    | 0x244 => s.reclaim.exact
    | 0x280 => p.eacc
    | 0x281 => p.plvl.setWidth 64
    | 0x282 => p.plmaps.setWidth 64
    | 0x283 => word (divisor c 0 + divisor c 1 * 2 ^ 6 + divisor c 2 * 2 ^ 12 + divisor c 3 * 2 ^ 18)
    | 0x284 => word (bstat s core)
    | 0x285 => word ((s.core (upperOf core)).gatePending.toNat + (s.core (upperOf core)).gated.toNat * 2)
    | 0x290 => sel.efill.setWidth 64
    | 0x291 => sel.ecap
    | 0x292 => sel.plmaps.setWidth 64
    | 0x293 => sel.plcap.setWidth 64
    | 0x294 => sel.pwsh.setWidth 64
    | 0x300 => x.tcause.setWidth 64
    | 0x301 => x.tpc
    | 0x302 => x.tval
    | 0x303 => x.tstat
    | 0x304 => d.tvec.setWidth 64
    | 0x305 => d.tret.setWidth 64
    | 0x306 => word (d.en.toNat * 2 + d.inh.toNat)
    | 0x307 => word (d.pend.length % 256)
    | 0x318 => sh.phst.setWidth 64
    | 0x320 => c.katb.setWidth 64
    | 0x321 => d.cecnt
    | 0x330 => sel.dlctl.setWidth 64
    | 0x331 => sel.dlbase.setWidth 64
    | 0x332 => sel.dlhead.setWidth 64
    | 0x333 => sel.dltail.setWidth 64
    | _ => 0

/-! ## Writes that do more than keep a value -/

/-- A refused supervisor write sets a bit of IREF in the writing wing (R386). -/
def refuse (s : State) (i : Nat) : State := s.modMe (fun x => { x with iref := setBit x.iref i true })

/-- Changes the partition that PSEL selects. -/
def modSel (s : State) (f : Partition → Partition) : State := s.modPart s.me.psel.toNat f

/-- FRG: refused when the guarantees would exceed the frames present (R317). -/
def writeFrg (s : State) (v : Word) : State :=
  let p := s.me.psel.toNat
  let x : BitVec 32 := v.setWidth 32
  let others := (s.parts.filter (fun e => decide (e.1 ≠ p))).foldl (fun a e => a + e.2.frg.toNat) 0
  if framesOf 0 + framesOf 1 < others + x.toNat then refuse s 0 else modSel s (fun q => { q with frg := x })

/-- Whether a range of key slots passes slot 511 or overlaps another partition's (R317). -/
def keysClash (s : State) (p base count : Nat) : Bool :=
  decide (512 < base + count) ||
  s.parts.any (fun e => decide (e.1 ≠ p) && decide (base < e.2.keyb.toNat + e.2.keyn.toNat) &&
    decide (e.2.keyb.toNat < base + count) && decide (0 < count) && decide (0 < e.2.keyn.toNat))

def writeKeyb (s : State) (v : Word) : State :=
  let p := s.me.psel.toNat
  if keysClash s p (v.toNat % 512) (s.part p).keyn.toNat then refuse s 2 else modSel s (fun q => { q with keyb := v.setWidth 9 })

def writeKeyn (s : State) (v : Word) : State :=
  let p := s.me.psel.toNat
  if keysClash s p (s.part p).keyb.toNat (v.toNat % 1024) then refuse s 2
  else modSel s (fun q => { q with keyn := v.setWidth 10 })

/-- RSLOT: refused above 64, and where it would reserve an entry that another partition holds (R317, R314). (Log 25 DESIGN CHOICE.) -/
def writeRslot (s : State) (v : Word) : State :=
  let x : BitVec 7 := v.setWidth 7
  let die := s.me.rsel.toNat / 256
  let e := s.me.rsel.toNat % 256
  let old := look 64 (s.die die).rslots e
  if 64 < x.toNat ∨ (x.toNat < 64 ∧ old.toNat < 64 ∧ old ≠ x) then refuse s 3
  else s.modDie die (fun d => { d with rslots := put d.rslots e x })

/-- FLPG: the frame must be homed at the die and owned by PSEL (R248). -/
def writeFlpg (s : State) (v : Word) : State :=
  let die := dieOf s.cur.core
  let f := bits v.toNat 39 0
  if v.getLsbD 63 && !(decide (f < framesOf 0) && decide (frameHome 0 0 f = die) &&
      decide (ownerOf s (frameCode 0 0 f) = s.me.psel.toNat)) then refuse s 1
  else modSel s (fun q => { q with flpg := put q.flpg die (word ((if v.getLsbD 63 then 2 ^ 63 else 0) + f)) })

/-- CPART (R318): none where a resident task makes it trap; a value of 65–127 is refused; the value held has no effect;
any other starts the scrub of the column and wakes a gated core (R331, R344). The first column makes a partition, once and for all (log
134 DESIGN CHOICE). -/
def writeCpart (s : State) (v : Word) : Option State :=
  let x : BitVec 7 := v.setWidth 7
  let a := s.me.csel.toNat
  let b := partnerOf a
  if !cselOk s then none
  else if [a, b].any (fun c => [0, 1].any (fun k => (s.ctx c k).task.isSome)) then none
  else if 64 < x.toNat then some (refuse s 4)
  else if (s.core a).part = x then some s
  else
    let f := fun (c : CoreState) =>
      { c with former := if c.part.toNat < 64 then c.part.toNat :: c.former else c.former, part := x, scrub := true,
               holders := if c.gated then c.holders else (x.toNat :: c.part.toNat :: c.holders).eraseDups,
               waking := c.waking || c.gated }
    let t := (s.modCore a f).modCore b f
    if x.toNat < 64 ∧ (s.part x.toNat).created = false then
      some (t.modPart x.toNat (fun q => { q with created := true, granted := false, plvl := 0, cursor := [] }))
    else some t

/-- CSTAT (R361): a 1 takes the column out of service and ends its tasks with a datapath fault. -/
def writeCstat (s : State) (v : Word) : Option State :=
  let a := s.me.csel.toNat
  if !cselOk s then none
  else if v.getLsbD 0 = false then some s
  else
    let f := fun (c : CoreState) => { c with failed := true }
    let t := (s.modCore a f).modCore (partnerOf a) f
    some ([(a, 0), (a, 1), (partnerOf a, 0), (partnerOf a, 1)].foldl (fun t e =>
      if (t.ctx e.1 e.2).task.isSome then markDying t e.1 e.2 errDatapath (word e.1) else t) t)

/-- Whether a frame may not change its owner: pinned, used by an object, a Cocoon frame or a flag page (R385). -/
def frameBusy (s : State) (code : Nat) : Bool :=
  s.pins.any (fun p => decide (p.frame = code)) || s.objects.any (fun e => (objFrames e.2).contains code) ||
  s.parts.any (fun e => (cocoonFrames s e.1).contains code) ||
  s.parts.any (fun e => e.2.flpg.any (fun g => g.2.getLsbD 63 && decide (frameCode 0 0 (bits g.2.toNat 39 0) = code)))

/-- FROWN (R385): the change completes by FRAME_REASSIGN_COMPLETE. -/
def writeFrown (s : State) (v : Word) : State :=
  let x := v.toNat % 128
  match frselFrame s with
  | none => refuse s 6
  | some code =>
    if 64 < x then refuse s 6
    else if frownOf s code = x then s
    else if frameBusy s code then refuse s 6
    else
      let sel := s.me.frsel.toNat
      { s with reassigns := s.reassigns ++ [⟨bits sel 42 40, bits sel 47 44, bits sel 39 0, x⟩] }

/-- ECAP (R334). A balance above the new ceiling stays until the next refill or EADJ (log 106 DESIGN CHOICE). -/
def writeEcap (s : State) (v : Word) : State := if v = 0 then refuse s 7 else modSel s (fun q => { q with ecap := v })

/-- PLMAPS: refused for a field of 3 (R334). -/
def writePlmaps (s : State) (v : Word) : State :=
  if (List.range 8).any (fun i => decide (bits v.toNat (2 * i + 1) (2 * i) = 3)) then refuse s 7
  else modSel s (fun q => { q with plmaps := v.setWidth 16 })

/-- PWSH: refused when the shares would sum above 3,000 W (R334). -/
def writePwsh (s : State) (v : Word) : State :=
  let p := s.me.psel.toNat
  let x : BitVec 16 := v.setWidth 16
  let others := (s.parts.filter (fun e => decide (e.1 ≠ p))).foldl (fun a e => a + e.2.pwsh.toNat) 0
  if 3000 < others + x.toNat then refuse s 7 else modSel s (fun q => { q with pwsh := x })

/-- A balance changed by an amount and clamped to its ceiling (R334, R335). -/
def addBalance (q : Partition) (v : Int) : Partition :=
  { q with eacc := wordOfInt (min (q.eacc.toInt + v) (q.ecap.toNat : Int)) }

/-- EADJ (R334): a balance that it takes to 0 or less is exhausted, which pre-empts the partition's tasks (R335). -/
def writeEadj (s : State) (v : Word) : State :=
  let p := s.me.psel.toNat
  let r := addBalance (s.part p) v.toInt
  let t := s.setPart p { r with spent := r.spent || decide (r.eacc.toInt ≤ 0) }
  if !r.spent && decide (r.eacc.toInt ≤ 0) then haltPart t p else t

/-- DLBASE (R371): 43 bits in the layout of R226. -/
def writeDlbase (s : State) (v : Word) : State := modSel s (fun q => { q with dlbase := v.setWidth 43 })

/-- The frames named by the log entries from `a` on, `n` of them. -/
def logEntries (s : State) (base : Nat) : Nat → Nat → List Nat
  | 0, _ => []
  | n + 1, i =>
    let e := natOfBytes (readBytes s.mem (framePhys 0 64 (bits base 42 40) (bits base 39 0) (8 * (i % 8192))) 8)
    e % 2 ^ 43 :: logEntries s base n (i + 1)

/-- DLTAIL (R371): advancing it clears the dirty bits of the entries passed, whatever the die of a weight store's frame, which an
entry does not show (log 84 DESIGN CHOICE). -/
def writeDltail (s : State) (v : Word) : State :=
  modSel s (fun q =>
    let t : BitVec 13 := v.setWidth 13
    let passed := logEntries s q.dlbase.toNat ((t - q.dltail).toNat) q.dltail.toNat
    { q with dltail := t, dirty := q.dirty.filter (fun c => !passed.contains (c % 2 ^ 44)) })

/-- Stops the wings of a slot at their next boundary (R369 step 2). -/
def stopWings (s : State) (core slot : Nat) : State :=
  wings.foldl (fun t w => t.modParty ⟨core, slot, w⟩ (fun x => { x with run := .off, wait := .no })) s

/-- The trap and hang records of a partition that are pending are dismissed (R369 step 2, R372); notices stay (log 97 DEDUCED). -/
def dismiss (s : State) (p : Nat) : State :=
  let goes := fun (r : Record) => recordOf p r && (r.party.isSome || decide (r.cause.toNat = causeHang))
  { s with dies := s.dies.map (fun e => (e.1, { e.2 with pend := e.2.pend.filter (fun r => !goes r) })) }

/-- A reset of partition `p` begins (R369 steps 1 and 2, R372): wings stop, parked tasks and pending records go, those of expiries
that are due among them, and every LKCNT of p is 0. -/
def beginReset (s : State) (p : Nat) : State :=
  let s1 : State := { s with prstat := BitVec.ofNat 8 (128 + p), resetting := some ⟨p, 2, s.time⟩ }
  let s2 : State := ((residents s1).filter (fun e => decide (e.2.2.part = p))).foldl (fun t e => stopWings t e.1 e.2.1) s1
  let s3 : State := (s2.cocoons.filter (fun c => decide (c.task.part = p))).foldl releaseCocoon s2
  let s4 : State := dismiss s3 p
  { s4 with queues := s4.queues.map (fun e =>
      (e.1, if e.1 / 32 = p then { e.2 with lkcnt := 0, expiring := e.2.expiring.map (fun _ => none) } else e.2)) }

/-- PRST (R369, R386). -/
def writePrst (s : State) (v : Word) : State :=
  let x := v.toNat % 128
  if 64 ≤ x ∨ s.prstat.getLsbD 7 then refuse s 5 else beginReset s x

/-- TSTAT of a record that no party holds (R348, R349). -/
def tstatNone (serial core slot : Nat) : Word := word (serial * 2 ^ 32 + core * 2 ^ 17 + slot * 2 ^ 16 + 15)

/-- The resident task of a launch on the lowest core (R368); of two there that of slot 0 (log 119 DESIGN CHOICE). -/
def lowestTask (s : State) (launch : Nat) : Option (Nat × Nat × Task) :=
  ((residents s).filter (fun e => decide (e.2.2.launch = launch))).head?

/-- The hang record of a queue's head (R368, R372): none where no task of it is resident. -/
def hangRecord (s : State) (part queue : Nat) : Option Record :=
  (s.queue part queue).head.bind (fun l =>
    (lowestTask s l.id).map (fun e =>
      ⟨BitVec.ofNat 16 causeHang, 0, word (part * 2 ^ 8 + queue), tstatNone e.2.2.serial.toNat e.1 e.2.1, none, part, queue, l.id⟩))

/-- LKLIM (R367, R368): a limit at or below a count that had not yet reached the old one is reached by the write. (Log 39
DEDUCED.) -/
def writeLklim (s : State) (part queue : Nat) (v : BitVec 32) : State :=
  s.modQueue part queue (fun x =>
    if v ≠ 0 ∧ v.toNat ≤ x.lkcnt.toNat then
      { x with lklim := v, lkcnt := v,
               expiring := if x.lklim = 0 ∨ x.lkcnt.toNat < x.lklim.toNat then x.expiring ++ [hangRecord s part queue] else x.expiring }
    else { x with lklim := v })

/-- LS registers (R288): reserved bits stay 0; a loop made active counts as started last (log 15 DESIGN CHOICE). -/
def writeLs (s : State) (l : Nat) (v : Word) : State :=
  s.modMe (fun x =>
    let w := v &&& word 0xBFFF3FFFFFFFFFFF
    let order := if lsActive w then (if x.order.contains l then x.order else l :: x.order) else x.order.filter (fun k => k != l)
    { x with ls := put x.ls l w, order := order,
             began := if lsActive w && !x.order.contains l then startLast l x.began else x.began })

/-! ## MFS and MTS -/

/-- A write of `v` to register `n` under its fields' access codes (R62): none where the register's own rule makes it
trap as an illegal operand. -/
def writeReg (s : State) (n : Nat) (v : Word) : Option State :=
  let x := s.me
  let die := dieOf s.cur.core
  if inRange n 0x80 0x83 then some (s.setMe { x with cw := put x.cw (n - 0x80) (v.setWidth 32 &&& 0x003F0FFF) })
  else if inRange n 0x90 0x95 then
    some (s.modSh (fun h => { h with ns := put h.ns (n - 0x90) (v &&& word 0xFF00FFFFFF) }))
  else if inRange n 0x1C0 0x1C3 then some (writeLs s (n - 0x1C0) v)
  else if inRange n 0x310 0x317 then
    some (s.modSh (fun h =>
      let old := look 0 h.phb (n - 0x310)
      { h with phb := put h.phb (n - 0x310) ((v &&& word 0x800000003FFFFFFF) ||| (old &&& word 0x4000000000000000)) }))
  else
    match n with
    | 0x040 => some (s.modSh (fun h => { h with istat := h.istat &&& ~~~(v.setWidth 2) }))
    | 0x084 => some (s.setMe { x with vm := v })
    | 0x180 => some (s.setMe { x with evp := x.evp &&& ~~~(v.setWidth 5) })
    | 0x1A0 => some (s.setMe { x with lksel := v.setWidth 11 })
    | 0x1A1 => some (writeLklim s (x.lksel.toNat / 32) (x.lksel.toNat % 32) (v.setWidth 32))
    | 0x1A3 => some (s.modPart (x.lksel.toNat / 32) (fun p => { p with lkexp := p.lkexp &&& ~~~(v.setWidth 32) }))
    | 0x1C4 => some (s.setMe { x with repc := v.setWidth 10 })
    | 0x200 => some (s.setMe { x with psel := v.setWidth 6 })
    | 0x201 => some (writeFrg s v)
    | 0x202 => some (modSel s (fun q => { q with frb := v.setWidth 32 }))
    | 0x205 => some (writeKeyb s v)
    | 0x206 => some (writeKeyn s v)
    | 0x207 => some (writeFlpg s v)
    | 0x208 => some (s.setMe { x with csel := v.setWidth 9 })
    | 0x209 => writeCpart s v
    | 0x20A => some (s.setMe { x with ksel := v.setWidth 9 })
    | 0x20B => some (s.setKey x.ksel.toNat { s.key x.ksel.toNat with kuse := v })
    | 0x20D => writeCstat s v
    | 0x20E => some (s.setMe { x with rsel := v.setWidth 12 })
    | 0x20F => some (writeRslot s v)
    | 0x210 => some (s.setMe { x with frsel := setBit (v.setWidth 48) 43 false })
    | 0x211 => some (writeFrown s v)
    | 0x212 => some (s.setMe { x with iref := x.iref &&& ~~~(v.setWidth 8) })
    | 0x218 => some (writePrst s v)
    | 0x290 => some (modSel s (fun q => { q with efill := v.setWidth 32 }))
    | 0x291 => some (writeEcap s v)
    | 0x292 => some (writePlmaps s v)
    | 0x293 => some (modSel s (fun q => { q with plcap := v.setWidth 3 }))
    | 0x294 => some (writePwsh s v)
    | 0x295 => some (writeEadj s v)
    | 0x300 => some (s.setMe { x with tcause := v.setWidth 16 })
    | 0x301 => some (s.setMe { x with tpc := v })
    | 0x302 => some (s.setMe { x with tval := v })
    | 0x303 => some (s.setMe { x with tstat := v &&& word 0x003FFFFF03FF0E0F })
    | 0x304 => some (s.modDie die (fun d => { d with tvec := v.setWidth 16 &&& 0xFFFC }))
    | 0x305 => some (s.modDie die (fun d => { d with tret := v.setWidth 16 }))
    | 0x306 => some (s.modDie die (fun d => { d with en := v.getLsbD 1, inh := v.getLsbD 0 }))
    | 0x330 =>
      some (modSel s (fun q => { q with dlctl := (v.setWidth 3 &&& 3) ||| (q.dlctl &&& 4 &&& ~~~(v.setWidth 3)) }))
    | 0x331 => some (writeDlbase s v)
    | 0x333 => some (writeDltail s v)
    | _ => some s

/-- The traps of MFS and MTS, in the order of R61: the cause and its value, if any. CPART and CSTAT take a CSEL that names no
compute core as an illegal operand alike (log 69 DEDUCED). -/
def regTrap (s : State) (n : Nat) : Option (Nat × Word) :=
  if regSv n && !s.supervisor then some (causePrivilege, word n)
  else if !(decide (n ≤ 0x3FF) && regAssigned n && regHeld s n) then some (causeOperand, s.curWord)
  else if (n == 0x209 || n == 0x20D) && !cselOk s then some (causeOperand, s.curWord)
  else none

def execMfs (d : B6) (r : BitVec 13) (s : State) : Host.Outcome State Fault Refusal :=
  control s (fun s =>
    match regTrap s r.toNat with
    | some (c, v) => .trap c v
    | none => if regOk s d then .done (s.setReg d.toNat (readReg s r.toNat) false) 1 else badOperand s)

/-- MTS (R62). A write of REPC governs from the next word on. -/
def execMts (a : B6) (r : BitVec 13) (s : State) : Host.Outcome State Fault Refusal :=
  control s (fun s =>
    match regTrap s r.toNat with
    | some (c, v) => .trap c v
    | none =>
      if !regOk s a then badOperand s
      else if r = 0x1C4 then .moved ((advance s 1).modMe (fun x => { x with repc := (s.reg a.toNat).setWidth 10 }))
      else
        match writeReg s r.toNat (s.reg a.toNat) with
        | some t => .done t 1
        | none => badOperand s)

/-! ## The rows of the opcode table that are a system wing's write to one register

Each is what the write does, by the executing system wing; outside supervisor context, or where the register's own rule
makes the write trap, it does nothing by itself: the trap belongs to the MTS (log 16 DEDUCED). -/

/-- A register write as an event of its own. -/
def regEvent (s : State) (t : Option State) : Host.Outcome State Fault Refusal :=
  .next (if s.supervisor && s.cur.party.isWing then t.getD s else s)

def execPrst (v : Word) (s : State) : Host.Outcome State Fault Refusal := regEvent s (some (writePrst s v))
def execCpart (v : Word) (s : State) : Host.Outcome State Fault Refusal := regEvent s (writeCpart s v)
def execFrown (v : Word) (s : State) : Host.Outcome State Fault Refusal := regEvent s (some (writeFrown s v))
def execFrg (v : Word) (s : State) : Host.Outcome State Fault Refusal := regEvent s (some (writeFrg s v))
def execKeyb (v : Word) (s : State) : Host.Outcome State Fault Refusal := regEvent s (some (writeKeyb s v))
def execKeyn (v : Word) (s : State) : Host.Outcome State Fault Refusal := regEvent s (some (writeKeyn s v))
def execRslot (v : Word) (s : State) : Host.Outcome State Fault Refusal := regEvent s (some (writeRslot s v))
def execFlpg (v : Word) (s : State) : Host.Outcome State Fault Refusal := regEvent s (some (writeFlpg s v))
def execEcap (v : Word) (s : State) : Host.Outcome State Fault Refusal := regEvent s (some (writeEcap s v))
def execPlmaps (v : Word) (s : State) : Host.Outcome State Fault Refusal := regEvent s (some (writePlmaps s v))
def execPwsh (v : Word) (s : State) : Host.Outcome State Fault Refusal := regEvent s (some (writePwsh s v))
def execEadj (v : Word) (s : State) : Host.Outcome State Fault Refusal := regEvent s (some (writeEadj s v))
def execCstat (v : Word) (s : State) : Host.Outcome State Fault Refusal := regEvent s (writeCstat s v)
def execDlbase (v : Word) (s : State) : Host.Outcome State Fault Refusal := regEvent s (some (writeDlbase s v))
def execDltail (v : Word) (s : State) : Host.Outcome State Fault Refusal := regEvent s (some (writeDltail s v))

/-- Whether the Hizer link is up: once training has passed (R373, R383). -/
def linkUp (s : State) : Bool := decide (3 < s.mgmt.mstat.toNat % 16)

/-- A write to a register without a row of its own (R62): a system register by the executing party, or a register of
the host's windows that only keeps its value (QIV, ATNONCE, ATADDR; R374, R382). -/
def execRegisterWrite (target : RegTarget) (v : Nat) (s : State) : Host.Outcome State Fault Refusal :=
  match target with
  | .sysreg n => .next (if (regTrap s n).isNone then (writeReg s n (word v)).getD s else s)
  | .qiv p q =>
    .next (if p < 64 ∧ q < 32 ∧ s.mgmt.mstat.toNat % 16 = 7 then s.modQueue p q (fun x => { x with qiv := BitVec.ofNat 32 v })
      else s)
  | .atnonce => occurs s (linkUp s) { s with mgmt := { s.mgmt with atnonce := BitVec.ofNat 256 v } }
  | .ataddr => occurs s (linkUp s) { s with mgmt := { s.mgmt with ataddr := word v } }

end Sys2Proof.Machine
end

