-- ==== Sys2Proof/Machine/WingMemory.lean ====
section
/-! DEFINITION. Wing loads and stores (R213, R214), atomics (R215), FENCE (R216), MWAIT (R218), and the arrival of writes
and loads at other homes (R204, R205). -/

namespace Sys2Proof.Machine

/-- The die of the party that executes. -/
def myDie (s : State) : Nat := dieOf s.cur.core

/-- Whether a weight-store byte's bank is in refresh (R239). -/
def inRefresh (s : State) (o : Nat) : Bool :=
  let k := o / 4096 % 96
  let t := s.time % 4000
  decide (40 * k ≤ t) && decide (t < 40 * k + 61)

/-- Whether a read at a place is held by the refresh of its bank (R239). -/
def held (s : State) (p : Place) : Bool :=
  let t := p.phys / 2 ^ 60
  decide (80 ≤ t) && decide (t < 96) && inRefresh s (p.phys % 2 ^ 60)

/-- The place of a physical address at its home, for a write or load that has travelled. -/
def placeOf (a home : Nat) (slot : Option Nat) : Place :=
  let t := a / 2 ^ 60
  { phys := a, home := home, slot := slot,
    frame := if t < 2 ∧ slot ≠ some supervisorSlot then some (frameCode 0 t (a % 2 ^ 60 / 65536))
      else if tagWeights 0 ≤ t ∧ t < tagWeights 16 then some (frameCode (t - tagWeights 0) 3 (a % 2 ^ 60 / 65536)) else none,
    isRow := decide (t = tagRows), readOnly := false }

/-- Reading a place now: the value of `n` bytes, or the consumption of an uncorrectable error. -/
def readNow (s : State) (p : Place) (n : Nat) (k : State → List Byte → Act) : Act :=
  match readPlace s s.cur s.myPart false p n with
  | (t, some bs) => k t bs
  | (t, none) => .lost t

/-! ## Late stores (R190, R191, R196, R199) -/

/-- Whether a late store meets `n` bytes at `a`. -/
def LateStore.meets (l : LateStore) (a n : Nat) : Bool := decide (a < l.phys + l.bytes.length) && decide (l.phys < a + n)

/-- Whether the executing party's own late stores meet `n` bytes at `a`. -/
def ownLate (s : State) (a n : Nat) : Bool := s.me.view.late.any (fun l => l.meets a n)

/-- Whether an access of `n` bytes at `a` waits for a store of another agent of the core that already counts as performed for
the executing party. -/
def mateLate (s : State) (a n : Nat) : Bool :=
  (lateParties s s.cur.core).any (fun e => decide (e.1 ≠ s.cur) && e.2.any (fun l => l.fenced && l.meets a n))

/-- Whether a store of the executing party, or one that counts as performed for its core, is not yet performed: a release
waits for it. -/
def storesLate (s : State) : Bool :=
  decide (s.me.view.late ≠ []) || (lateParties s s.cur.core).any (fun e => e.2.any (fun l => l.fenced))

/-- What the party's newest late store that meets a load gives it (R189, R194): its bytes, or where it gives only some of
them no bytes yet. -/
def forwarded (s : State) (a n : Nat) : Option (Option (List Byte)) :=
  ((s.me.view.late.filter (fun l => l.meets a n)).getLast?).map (fun l =>
    if l.phys ≤ a ∧ a + n ≤ l.phys + l.bytes.length then some ((l.bytes.drop (a - l.phys)).take n) else none)

/-- Whether the word at the executing party's pc pushes a signal token, which its writes precede (R196). -/
def signals (s : State) : Bool := s.curWord.getLsbD 31 && decide (bits s.curWord.toNat 28 27 ≠ 0)

/-- Whether a load of the executing party has read a store of its own that is not yet performed: the store happens before the load,
and the load before what the party writes next (R190, R201), which waits for it. -/
def readLate (s : State) : Bool := s.me.view.late.any (fun l => l.read.isSome)

/-- A load of the executing party has read the newest of its late stores that meet `n` bytes at `a`. -/
def noteRead (s : State) (a n : Nat) : State :=
  match ((List.range s.me.view.late.length).zip s.me.view.late).filter (fun e => e.2.meets a n) |>.getLast? with
  | some (k, _) =>
    s.modMe (fun x => { x with view := { x.view with
      late := x.view.late.modify k (fun l => { l with read := some (l.read.getD s.tick) }) } })
  | none => s

/-- A store that has retired and is performed later. -/
def leaveLate (s : State) (p : Place) (bs : List Byte) (fenced : Bool) : State :=
  s.modMe (fun x => { x with view := { x.view with late := x.view.late ++ [⟨p.phys, p.home, p.slot, bs, fenced, s.tick, none⟩] } })

/-- Whether a late store comes after another of its agent's, made before it: both to the same location (R189), or a load between
the two has read the other (R190, R201). -/
def LateStore.follows (l e : LateStore) : Bool :=
  e.meets l.phys l.bytes.length || (match e.read with | some t => decide (t < l.made) | none => false)

/-- The accesses of a party in this turn may go `n` writes behind the present. -/
def withLag (s : State) (p : PartyId) (n : Nat) : State :=
  if (s.party p).view.lag = n then s else s.modParty p (fun x => { x with view := { x.view with lag := n } })

/-- What follows an acquire follows the point as of which it has read, and what its die then knows (R190, R200). -/
def acquire (s : State) (t : Nat) : State :=
  s.modMe (fun x =>
    { x with view := { x.view with floor := max x.view.floor t, known := mergeClock x.view.known (clockOf s (myDie s)) } })

/-- A release of a party has been performed at its home: its later acquires follow it (R190). -/
def released (s : State) (p : PartyId) : State :=
  if 272 ≤ p.core then s else s.modParty p (fun x => { x with view := { x.view with released := s.seq } })

/-- The value of a load of `bs`, extended to 64 bits (R213). -/
def loaded (signed : Bool) (bs : List Byte) : Word :=
  let v := natOfBytes bs
  if signed && decide (2 ^ (8 * bs.length - 1) ≤ v) then word (v + (2 ^ 64 - 2 ^ (8 * bs.length))) else word v

/-- An address that leads nowhere: a context error of a task (R19); a system wing runs none, and the spec gives it no
effect. -/
def noPlace (s : State) (va : Word) : Act :=
  if s.supervisor then .stop (.systemTranslation va) else .ends s errTranslation va

/-- The end of a load at a place: its register, and for an acquire what follows it (R190). -/
def loadPlace (s : State) (p : Place) (d : B6) (size : Nat) (signed consumes acquires : Bool) : Act :=
  match readPlace s s.cur s.myPart acquires p size with
  | (t, none) => .lost t
  | (t, some bs) =>
    let own := decide (p.home = myDie s)
    let at_ := if own then moment s s.cur (sightOf s s.myPart p.slot) (firmPoint s.me.view own acquires) (p.phys / 8) else s.seq
    .done ((if acquires then acquire t at_ else t).setReg d.toNat (loaded signed bs) consumes) 1

/-- The writes that a load's home must have applied before it answers (R204), and how far behind the present it goes: a load
that goes behind asks only for what its party knows, and an address that carries taint keeps it at the present (R40). -/
def loadOrder (s : State) (p : Place) (a : B6) : Sparse Nat × Nat :=
  if s.me.view.lag = 0 ∨ s.tainted a.toNat = true ∨
      s.flights.any (fun f => decide (f.agent = s.cur) && decide (f.home = p.home)) = true then (clockOf s (myDie s), 0)
  else (s.me.view.known, s.me.view.lag)

/-- A wing load (R213): at its own home at once, from another die by a request that travels (R204). -/
def load (s : State) (w g : B2) (d a : B6) (f : BitVec 9) (size : Nat) (signed consumes acquires : Bool) : Act :=
  let va := memAddr s a f size
  match reach s va.toNat false with
  | .privilege => .trap causePrivilege va
  | r =>
    if va.toNat % size ≠ 0 then .trap causeAlignment va
    else
      match r with
      | .place p =>
        let (clock, lag) := loadOrder s p a
        if (acquires && releaseOut s s.cur) || mateLate s p.phys size then .wait s
        else
          match forwarded s p.phys size with
          | some none => .wait s
          | some (some bs) =>
            let t := noteRead s p.phys size
            .done ((if acquires then acquire t t.seq else t).setReg d.toNat (loaded signed bs) consumes) 1
          | none =>
            if p.home = myDie s ∨ s.inLock then
              if owed s p.home clock || held s p then .wait s
              else loadPlace (withLag s s.cur lag) p d size signed consumes acquires
            else
              let q : LoadReq := ⟨s.cur, p.home, clock, p.phys, size, signed, consumes, acquires, d, p.slot, lag, w, g⟩
              .wait { s.modMe (fun x => { x with wait := .load }) with loads := s.loads ++ [q] }
      | .closed => .done ((setWclosed s s.cur).setReg d.toNat 0 consumes) 1
      | _ => noPlace s va

def execLdb (w g : B2) (d a : B6) (f : BitVec 9) (s : State) : Host.Outcome State Fault Refusal :=
  tokened s .wing w g (fun s => load s w g d a f 1 true false false)
def execLdh (w g : B2) (d a : B6) (f : BitVec 9) (s : State) : Host.Outcome State Fault Refusal :=
  tokened s .wing w g (fun s => load s w g d a f 2 true false false)
def execLdw (w g : B2) (d a : B6) (f : BitVec 9) (s : State) : Host.Outcome State Fault Refusal :=
  tokened s .wing w g (fun s => load s w g d a f 4 true false false)
def execLdd (w g : B2) (d a : B6) (f : BitVec 9) (s : State) : Host.Outcome State Fault Refusal :=
  tokened s .wing w g (fun s => load s w g d a f 8 true false false)
def execLdbu (w g : B2) (d a : B6) (f : BitVec 9) (s : State) : Host.Outcome State Fault Refusal :=
  tokened s .wing w g (fun s => load s w g d a f 1 false false false)
def execLdhu (w g : B2) (d a : B6) (f : BitVec 9) (s : State) : Host.Outcome State Fault Refusal :=
  tokened s .wing w g (fun s => load s w g d a f 2 false false false)
def execLdwu (w g : B2) (d a : B6) (f : BitVec 9) (s : State) : Host.Outcome State Fault Refusal :=
  tokened s .wing w g (fun s => load s w g d a f 4 false false false)
def execLda (w g : B2) (d a : B6) (f : BitVec 9) (s : State) : Host.Outcome State Fault Refusal :=
  tokened s .wing w g (fun s => load s w g d a f 8 false false true)
def execLdc (w g : B2) (d a : B6) (f : BitVec 9) (s : State) : Host.Outcome State Fault Refusal :=
  tokened s .wing w g (fun s => load s w g d a f 8 false true false)

/-- A write at its home at once. A wing store retires even where its merge fails: the write alone is dropped and the
error consumed (R191, R346). -/
def storeNow (s : State) (p : Place) (bs : List Byte) : State :=
  match performWrite s s.cur p bs with
  | some t => t
  | none => consume s s.cur.core s.cur.slot

/-- A write sent to another home: numbered in the die's own clock entry and carrying the whole clock (R204). -/
def sendWrite (s : State) (p : Place) (bs : List Byte) (release : Bool) : State :=
  let die := myDie s
  let s1 := tickClock s die
  let f : Flight := { id := 0, home := p.home, writer := die, num := look 0 (clockOf s1 die) die, clock := clockOf s1 die,
                      agent := s.cur, part := s.myPart, serial := s.mySerial.toNat, release := release, phys := p.phys,
                      bytes := bs, slot := p.slot, copy := false }
  { countAccess s1 s.myPart p.phys bs.length with flights := s1.flights ++ [f] }

/-- A wing store that retires, performed now or later (R190, R191). -/
def storePlace (s : State) (p : Place) (bs : List Byte) (releases : Bool) : Act :=
  let n := bs.length
  if mateLate s p.phys n || (releases && storesLate s) then .wait s
  else if s.me.view.lag ≠ 0 ∧ releases = false ∧ signals s = false then .done (leaveLate s p bs false) 1
  else if ownLate s p.phys n || readLate s then .wait s
  else if p.home = myDie s then
    if owed s p.home (clockOf s (myDie s)) then .wait s
    else .done (if releases then released (storeNow s p bs) s.cur else storeNow s p bs) 1
  else .done (sendWrite s p bs releases) 1

/-- A wing store (R213). -/
def store (s : State) (d a : B6) (f : BitVec 9) (size : Nat) (releases : Bool) : Act :=
  let va := memAddr s a f size
  match reach s va.toNat true with
  | .privilege => .trap causePrivilege va
  | .place p =>
    if p.readOnly || hitsControl p size then .trap causePrivilege va
    else if va.toNat % size ≠ 0 then .trap causeAlignment va
    else storePlace s p (bytesOfNat size (s.reg d.toNat).toNat) releases
  | r =>
    if va.toNat % size ≠ 0 then .trap causeAlignment va
    else
      match r with
      | .closed => .done (setWclosed s s.cur) 1
      | _ => noPlace s va

def execStb (w g : B2) (d a : B6) (f : BitVec 9) (s : State) : Host.Outcome State Fault Refusal :=
  tokened s .wing w g (fun s => store s d a f 1 false)
def execSth (w g : B2) (d a : B6) (f : BitVec 9) (s : State) : Host.Outcome State Fault Refusal :=
  tokened s .wing w g (fun s => store s d a f 2 false)
def execStw (w g : B2) (d a : B6) (f : BitVec 9) (s : State) : Host.Outcome State Fault Refusal :=
  tokened s .wing w g (fun s => store s d a f 4 false)
def execStd (w g : B2) (d a : B6) (f : BitVec 9) (s : State) : Host.Outcome State Fault Refusal :=
  tokened s .wing w g (fun s => store s d a f 8 false)
def execStl (w g : B2) (d a : B6) (f : BitVec 9) (s : State) : Host.Outcome State Fault Refusal :=
  tokened s .wing w g (fun s => store s d a f 8 true)

/-! ## Atomics (R215) -/

/-- Whether an order field acquires or releases: 1 acquire, 2 release, 3 both (R58). -/
def acquiresOf (o : B2) : Bool := o.getLsbD 0
def releasesOf (o : B2) : Bool := o.getLsbD 1

/-- Whether an access of an order, performed at a home in one step, must wait for writes under way (R190, R204). -/
def mustWait (s : State) (home : Nat) (acquires releases : Bool) : Bool :=
  owed s home (clockOf s (myDie s)) || (acquires && releaseOut s s.cur) ||
  (releases && (!settled s (myDie s) || decide (s.me.view.late ≠ [])))

/-- Whether a write to a home, performed in one step, must wait: so do the party's writes that come before it (R190, R201). -/
def writeWaits (s : State) (home : Nat) (acquires releases : Bool) : Bool := mustWait s home acquires releases || readLate s

/-- What an access of an order leaves behind it once it is performed, at the present (R190). -/
def ordered (s : State) (acquires releases : Bool) : State :=
  let t := if acquires then firmUp (acquire s s.seq) s.cur else s
  if releases then released t t.cur else t

/-- An atomic read-modify-write of the aligned 8-byte word at s[a]: `f old` is the new value, or none for no write. -/
def atomic (s : State) (d a : B6) (o : B2) (f : Word → Option Word) : Act :=
  let va := s.reg a.toNat
  if weightBase ≤ va.toNat ∧ va.toNat < weightEnd then .trap causePrivilege va
  else
    match reach s va.toNat true with
    | .privilege => .trap causePrivilege va
    | .place p =>
      if p.readOnly || hitsControl p 8 then .trap causePrivilege va
      else if va.toNat % 8 ≠ 0 then .trap causeAlignment va
      else if writeWaits s p.home (acquiresOf o) (releasesOf o) || ownLate s p.phys 8 || mateLate s p.phys 8 then .wait s
      else
        readNow s p 8 (fun t bs =>
          let old := word (natOfBytes bs)
          match (match f old with | none => some t | some v => performWrite t t.cur p (bytesOfNat 8 v.toNat)) with
          | some u => .done ((ordered u (acquiresOf o) (releasesOf o)).setReg d.toNat old false) 1
          | none => .lost t)
    | r =>
      if va.toNat % 8 ≠ 0 then .trap causeAlignment va
      else
        match r with
        | .closed => .done ((setWclosed s s.cur).setReg d.toNat 0 false) 1
        | _ => noPlace s va

def execAmoAdd (w g o : B2) (d a b : B6) (s : State) : Host.Outcome State Fault Refusal :=
  tokened s .wing w g (fun s => let x := s.reg b.toNat; atomic s d a o (fun old => some (old + x)))
def execAmoAnd (w g o : B2) (d a b : B6) (s : State) : Host.Outcome State Fault Refusal :=
  tokened s .wing w g (fun s => let x := s.reg b.toNat; atomic s d a o (fun old => some (old &&& x)))
def execAmoOr (w g o : B2) (d a b : B6) (s : State) : Host.Outcome State Fault Refusal :=
  tokened s .wing w g (fun s => let x := s.reg b.toNat; atomic s d a o (fun old => some (old ||| x)))
def execAmoXor (w g o : B2) (d a b : B6) (s : State) : Host.Outcome State Fault Refusal :=
  tokened s .wing w g (fun s => let x := s.reg b.toNat; atomic s d a o (fun old => some (old ^^^ x)))
def execAmoMin (w g o : B2) (d a b : B6) (s : State) : Host.Outcome State Fault Refusal :=
  tokened s .wing w g (fun s => let x := s.reg b.toNat; atomic s d a o (fun old => some (minS old x)))
def execAmoMax (w g o : B2) (d a b : B6) (s : State) : Host.Outcome State Fault Refusal :=
  tokened s .wing w g (fun s => let x := s.reg b.toNat; atomic s d a o (fun old => some (maxS old x)))
def execAmoSwap (w g o : B2) (d a b : B6) (s : State) : Host.Outcome State Fault Refusal :=
  tokened s .wing w g (fun s => let x := s.reg b.toNat; atomic s d a o (fun _ => some x))

/-- CAS: a failing one writes nothing and orders as its form states (R215). -/
def execCas (w g : B2) (d a b : B6) (o : B2) (s : State) : Host.Outcome State Fault Refusal :=
  tokened s .wing w g (fun s =>
    let x := s.reg b.toNat
    let e := s.reg d.toNat
    atomic s d a o (fun old => if old = e then some x else none))

/-! ## FENCE and MWAIT -/

/-- FENCE (R216, R199): its predecessor set's stores are performed at its scope, at .CORE those to other memory than the
scratchpad counting as performed for the agents of the core; at .MOD and .SYS every write that the die's clock names is
applied. The loads of its successor set follow it, and at .MOD and .SYS they follow the party's own stores wherever they lead. -/
def fence (s : State) (sets scope : Nat) : Act :=
  let stores := decide (sets = 0) || sets.testBit 1
  let loads := decide (sets = 0) || sets.testBit 2
  let t0 := if loads then orderPoint s s.cur else s
  let t := if stores && loads && decide (2 ≤ scope) then firmUp t0 t0.cur else t0
  if scope = 0 then (if stores && scratchLate s s.cur then .wait s else .done (if stores then fenceLate t t.cur else t) 1)
  else if (stores && storesLate s) || (decide (2 ≤ scope) && !settled s (myDie s)) then .wait s
  else .done t 1

def execFence (w g : B2) (p : BitVec 4) (c : B2) (s : State) : Host.Outcome State Fault Refusal :=
  if s.cur.party.map = .wing ∧ p ≠ 0 ∧ (p.toNat % 4 = 0 ∨ p.toNat / 4 = 0) then
    conclude s w g (.trap causeIllegal s.curWord)
  else tokened s .wing w g (fun s => fence s p.toNat c.toNat)

/-- MWAIT (R218): each read is an acquire; while the word equals s[b] the wing sleeps, at most 1 µs. A read of a revoked
slot or a closed window sets its ISTAT bit although the MWAIT goes on waiting (log 67 DEDUCED). -/
def mwait (s : State) (d a b : B6) : Act :=
  let va := s.reg a.toNat
  let r := reach s va.toNat false
  if r = .privilege then .trap causePrivilege va
  else if va.toNat % 8 ≠ 0 then .trap causeAlignment va
  else if weightBase ≤ va.toNat ∧ va.toNat < weightEnd then badOperand s
  else
    match r with
    | .place p =>
      if mustWait s p.home true false || ownLate s p.phys 8 || mateLate s p.phys 8 then .wait s
      else
        readNow s p 8 (fun t bs =>
          let t := acquire t t.seq
          let y := word (natOfBytes bs)
          if y = s.reg b.toNat then
            .wait (if t.inLock then t else t.modMe (fun x => { x with wait := .asleep (p.phys / 64) (t.time + 1000) }))
          else .done (t.setReg d.toNat y false) 1)
    | .closed =>
      if s.reg b.toNat = 0 then .wait (setWclosed s s.cur) else .done ((setWclosed s s.cur).setReg d.toNat 0 false) 1
    | _ => noPlace s va

def execMwait (w g : B2) (d a b : B6) (s : State) : Host.Outcome State Fault Refusal :=
  tokened s .wing w g (fun s => mwait s d a b)

/-- Whether every wing of a launch stands at an SSTEP that has completed, or has ended. -/
def atStep (s : State) (launch : Nat) : Bool :=
  (residents s).all (fun e => decide (e.2.2.launch ≠ launch) || wings.all (fun w =>
    let x := s.party ⟨e.1, e.2.1, w⟩
    decide (x.run = .ended) || decide (x.wait = .step true)))

/-- Whether a pre-emption stops a wing here: those of a superstep launch only together, at an SSTEP that has completed and that none
of them has passed (R284). -/
def haltedHere (s : State) (p : PartyId) : Bool :=
  let c := s.ctx p.core p.slot
  c.halting && p.party.isWing &&
  (match c.task with
   | some t => !t.superstep || atStep s t.launch
   | none => false)

/-- Whether w0 of a system core runs its handler, so that no trap of its own holds it (R351). -/
def handling (s : State) (p : PartyId) : Bool :=
  isSystem p.core && decide (p.party = .w0) && (s.die (dieOf p.core)).inh

/-- Whether a party may go on by itself: it runs, no trap holds it, and its task is not being stopped. -/
def alive (s : State) (p : PartyId) : Bool :=
  let x := s.party p
  let c := s.ctx p.core p.slot
  decide (x.run = .running) && (!x.held || handling s p) && c.dying.isNone && !c.cancel && !haltedHere s p &&
  !(s.core p.core).gated && !(isSystem p.core && decide (p.party = .w0) && (s.die (dieOf p.core)).double)

/-- MWAIT_WAKE (R218): a sleeping MWAIT reads its word again once the word differs or its microsecond has passed. -/
def execMwaitWake (p : PartyId) (s : State) : Host.Outcome State Fault Refusal :=
  match (s.party p).wait, instrAt s p (s.party p).pc.toNat with
  | .asleep _ wake, some (.mwait w g d a b) =>
    if !alive s p then .next s
    else
      match asParty (s.modParty p (fun x => { x with wait := .no })) p (execMwait w g d a b) with
      | .next t => .next (if t.last ≠ .waiting ∨ wake ≤ s.time then t else s)
      | r => r
  | _, _ => .next s

/-! ## Arrivals at other homes (R204, R205) -/

/-- Whether flight `f` may be applied: every write that its clock names is, at whichever home (R205). -/
def mayApply (s : State) (f : Flight) : Bool := !s.flights.any (fun h => decide (h ≠ f) && named f.clock h)

/-- A write applied at its home, under the keys as they are then. -/
def applyFlight (s : State) (f : Flight) : State :=
  match writePlace s f.agent f.part f.clock (placeOf f.phys f.home f.slot) f.bytes with
  | some t => if f.release then released t f.agent else t
  | none =>
    match (s.ctx f.agent.core f.agent.slot).task with
    | some t => if t.serial.toNat = f.serial then consume s f.agent.core f.agent.slot else s
    | none => s

/-- A second copy of a write is recognised by its writing die and number, and dropped (R205). -/
def execRemoteWriteArrival (k : Nat) (s : State) : Host.Outcome State Fault Refusal :=
  match s.flights[k]? with
  | some f =>
    let rest := s.flights.eraseIdx k
    if f.copy then .next { s with flights := rest }
    else if mayApply s f then .next (applyFlight { s with flights := rest } f)
    else .next s
  | none => .next s

/-- LINK_FAILURE (R205): the write is applied, and its acknowledgement is lost, so a second copy is under way. -/
def execLinkFailure (k : Nat) (s : State) : Host.Outcome State Fault Refusal :=
  match s.flights[k]? with
  | some f =>
    if f.copy then .next s
    else if mayApply s f then .next (applyFlight { s with flights := s.flights.set k { f with copy := true } } f)
    else .next s
  | none => .next s

/-- REMOTE_LOAD_ARRIVAL (R204): the home answers once it has applied the writes that the load's clock names; the load
then retires. A load whose wing no longer waits for it is abandoned. -/
def execRemoteLoadArrival (k : Nat) (s : State) : Host.Outcome State Fault Refusal :=
  match s.loads[k]? with
  | some q =>
    let s1 := { s with loads := s.loads.eraseIdx k }
    let p := placeOf q.phys q.home q.slot
    if (s.party q.agent).wait ≠ .load ∨ alive s q.agent = false then .next s1
    else if owed s q.home q.clock || held s p || signalWaits (s.setCur q.agent) q.g then .next s
    else
      match asParty (withLag s1 q.agent q.lag) q.agent (fun s =>
          conclude s q.w q.g (loadPlace s p q.d q.size q.signed q.consume q.acquires)) with
      | .next t => .next (withLag t q.agent 0)
      | r => r
  | none => .next s

end Sys2Proof.Machine
end

