-- ==== Sys2Proof/Machine/Queues.lean ====
section
/-! DEFINITION. Engine queues and entries (R271–R275, R210, R217), groups and barriers (R277, R278), lock-step (R263–R265),
supersteps (R279), and the events that move queues. -/

namespace Sys2Proof.Machine

/-- The queue of an engine of a slot. -/
def queueAt (s : State) (core slot q : Nat) : List Item := look [] (s.ctx core slot).sh.queues q

/-- Appends an item to a queue of the executing party's slot. -/
def pushItem (s : State) (q : Nat) (i : Item) : State :=
  s.modSh (fun h => { h with queues := put h.queues q (look [] h.queues q ++ [i]) })

/-- The queues that a mask names. -/
def maskQueues (m : Nat) : List Nat := (List.range 6).filter (fun q => m.testBit q)

/-- Whether each queue of a list has room for one more item (R260). -/
def roomIn (s : State) (qs : List Nat) : Bool := qs.all (fun q => decide ((queueAt s s.cur.core s.cur.slot q).length < 16))

/-- Whether a queue of a list has received the task's notify (R33). -/
def anyNotified (s : State) (qs : List Nat) : Bool := qs.any (fun q => s.myCtx.sh.notified.getLsbD q)

/-- M or V on a system core (R15, R271, R274, R217). -/
def noSuchQueue (s : State) (qs : List Nat) : Bool := s.supervisor && qs.any (fun q => decide (q < 2))

/-- Pushes one item into each queue of a list. -/
def pushAll (s : State) (i : Item) (qs : List Nat) : State := qs.foldl (fun t q => pushItem t q i) s

/-- Marks queues as used by the task (R275). -/
def useQueues (s : State) (qs : List Nat) : State :=
  s.modSh (fun h => { h with used := qs.foldl (fun u q => setBit u q true) h.used })

/-- The code size of a section of the executing party's slot: its task's, or the supervisor image's. -/
def sectionSize (s : State) (k : Nat) : Nat :=
  match s.myCtx.task with
  | some t => (t.hdr.sections.getD k {}).size
  | none => ((s.die (myDie s)).sections.getD k {}).size

/-- ENQ (R271). -/
def execEnq (w g : B2) (f : B6) (n : BitVec 3) (e : BitVec 9) (q : BitVec 3) (s : State) :
    Host.Outcome State Fault Refusal :=
  if s.cur.party.map = .wing ∧ (5 < q.toNat ∨ 4 < n.toNat ∨ (n = 0 ∧ f ≠ 0)) then
    conclude s w g (.trap causeIllegal s.curWord)
  else
    tokened s .wing w g (fun s =>
      let k := q.toNat
      if noSuchQueue s [k] || anyNotified s [k] || decide (sectionSize s (k + 1) ≤ 64 * e.toNat) ||
          (decide (n ≠ 0) && decide (63 < f.toNat + n.toNat - 1)) then badOperand s
      else if !roomIn s [k] || scratchLate s s.cur then .wait s
      else
        let args := (List.range n.toNat).map (fun i => s.reg (f.toNat + i))
        let t := useQueues (pushItem (fenceLate s s.cur) k (.entry (word (64 * e.toNat)) args)) [k]
        .done (progress t s.cur.core s.cur.slot) 1)

/-- MARK (R274). -/
def execMark (w g : B2) (n : BitVec 4) (m : BitVec 6) (s : State) : Host.Outcome State Fault Refusal :=
  tokened s .wing w g (fun s =>
    let qs := maskQueues m.toNat
    if decide (m = 0) || noSuchQueue s qs || anyNotified s qs then badOperand s
    else if look 0 s.myCtx.sh.rv n.toNat ≠ 0 ∨ roomIn s qs = false then .wait s
    else
      let t := s.modSh (fun h => { h with rv := put h.rv n.toNat m })
      .done (useQueues (pushAll t (.mark n.toNat) qs) qs) 1)

/-- RDV (R274). -/
def execRdv (w g : B2) (n : BitVec 4) (s : State) : Host.Outcome State Fault Refusal :=
  tokened s .wing w g (fun s => if look 0 s.myCtx.sh.rv n.toNat ≠ 0 then .wait s else .done (orderPoint s s.cur) 1)

/-- NOTIFY (R274). -/
def execNotify (w g : B2) (m : BitVec 6) (s : State) : Host.Outcome State Fault Refusal :=
  tokened s .wing w g (fun s =>
    let qs := maskQueues m.toNat
    if decide (m = 0) || noSuchQueue s qs || anyNotified s qs then badOperand s
    else if !roomIn s qs then .wait s
    else .done ((pushAll s .notify qs).modSh (fun h => { h with notified := h.notified ||| m })) 1)

/-- QFENCE (R210, R217). -/
def execQfence (w g : B2) (m : BitVec 4) (s : State) : Host.Outcome State Fault Refusal :=
  tokened s .wing w g (fun s =>
    let qs := maskQueues m.toNat
    if decide (qs.length < 2) || noSuchQueue s qs || anyNotified s qs then badOperand s
    else if !roomIn s qs then .wait s
    else .done (useQueues (pushAll s (.join (m.setWidth 6)) qs) qs) 1)

/-! ## Groups -/

/-- JOIN (R277). -/
def execJoin (w g : B2) (a : B6) (s : State) : Host.Outcome State Fault Refusal :=
  tokened s .wing w g (fun s =>
    let n := (s.reg a.toNat).toNat
    if 4095 < n then badOperand s
    else if s.me.groups.contains n then .done s 1
    else if 8 ≤ s.me.groups.length then badOperand s
    else .done (s.modMe (fun x => { x with groups := x.groups ++ [n] })) 1)

/-- LEAVE (R277): a barrier that this completes, completes (R278). -/
def execLeave (w g : B2) (a : B6) (s : State) : Host.Outcome State Fault Refusal :=
  tokened s .wing w g (fun s =>
    let n := (s.reg a.toNat).toNat
    if 4095 < n then badOperand s
    else if s.me.groups.contains n then .done (leaveGroups s s.cur [n]) 1
    else .done s 1)

/-- BAR (R278): it counts as waiting once every access before it is performed at module scope. In lock-step the words of a
bundle come to wait together, and complete when the bundle is tried again (log 35 DEDUCED). -/
def execBar (w g : B2) (a : B6) (s : State) : Host.Outcome State Fault Refusal :=
  tokened s .wing w g (fun s =>
    let n := (s.reg a.toNat).toNat
    if decide (4095 < n) || !s.me.groups.contains n then badOperand s
    else if s.me.wait = .bar n true then .done s 1
    else if settled s (myDie s) = false ∨ s.me.view.late ≠ [] then .wait s
    else if s.inLock ∧ s.me.wait ≠ .bar n false then .wait (s.modMe (fun x => { x with wait := .bar n false }))
    else
      let t := checkBarrier (s.modMe (fun x => { x with wait := .bar n false })) (groupSpace s s.cur) n
      if t.me.wait = .bar n true ∧ signalWaits s g = false then .done t 1 else .wait t)

/-! ## Lock-step -/

/-- The address of a waiting WLOCK. -/
def lockAddr (x : PartyState) : Option Word :=
  match x.wait with
  | .lock a _ _ => some a
  | _ => none

/-- The parties of the executing party's wings. -/
def myWings (s : State) : List PartyId := wings.map (fun p => ⟨s.cur.core, s.cur.slot, p⟩)

/-- Each wing of a list retires its instruction with tokens `w` and `g`, its pc being set already. -/
def retireWings (s : State) (w g : B2) : List PartyId → State
  | [] => s
  | p :: ps => retireWings ((retire (popToken (s.setCur p) w) g 0).setCur s.cur) w g ps

/-- Places the four wings at a bundle: wing w at word w. -/
def placeWings (s : State) (base : Nat) : State :=
  wings.foldl (fun t p => t.modParty ⟨s.cur.core, s.cur.slot, p⟩ (fun x => { x with pc := word (base + 4 * p.num) })) s

/-- All wings of a list trap as illegal operand at their words. -/
def trapWings (s : State) : List PartyId → State
  | [] => s
  | p :: ps => trapWings (takeTrap s p causeOperand ((wordAt s p (s.party p).pc.toNat).setWidth 64)) ps

/-- WLOCK (R263). The wings go on at the bundle whatever loops are active: for a WLOCK that is the last word of a loop body no loop-end
visit is made (log 99 DESIGN CHOICE). -/
def execWlock (w g : B2) (s : State) : Host.Outcome State Fault Refusal :=
  tokened s .wing w g (fun s =>
    if s.inLock then badOperand s
    else
      let t := s.modMe (fun x => { x with wait := .lock x.pc w g })
      let addrs := (myWings s).map (fun p => lockAddr (t.party p))
      if addrs.any (fun a => a.isNone) then .wait t
      else if !addrs.all (fun a => decide (a = some s.me.pc)) then .raw (trapWings t (myWings s))
      else if (myWings s).any (fun p => pushFull (t.setCur p) g) then .wait t
      else
        let u := retireWings (placeWings t (s.me.pc.toNat / 16 * 16 + 16)) w g (myWings s)
        .raw ((u.modMyCtx (fun c => { c with sh := { c.sh with lock := true } })).setLast .transferred))

/-- WFREE (R265). The wings go on at WFREE + 4 whatever loops are active: for a WFREE in the last bundle of a loop body no loop-end
visit is made (log 99 DESIGN CHOICE). -/
def execWfree (w g : B2) (s : State) : Host.Outcome State Fault Refusal :=
  tokened s .wing w g (fun s =>
    if !s.inLock then .done s 1
    else if s.cur.party ≠ .w0 then badOperand s
    else if pushFull s g then .wait s
    else
      let next := s.me.pc + 4
      let t := wings.foldl (fun t p => t.modParty ⟨s.cur.core, s.cur.slot, p⟩ (fun x => { x with pc := next })) s
      let u := retireWings t w g [s.cur]
      .raw ((u.modMyCtx (fun c => { c with sh := { c.sh with lock := false } })).setLast .transferred))

/-! ## Supersteps -/

/-- SSTEP (R279). -/
def execSstep (w g : B2) (d : B6) (s : State) : Host.Outcome State Fault Refusal :=
  tokened s .wing w g (fun s =>
    match s.myCtx.task with
    | some t =>
      if !t.superstep then badOperand s
      else if s.me.wait = .step true then .done (s.setReg d.toNat (s.myCtx.sh.ssn.setWidth 64) false) 1
      else .wait (s.modMe (fun x => { x with wait := .step false }))
    | none => badOperand s)

/-- Whether an engine of a slot runs no entry. -/
def engineIdle (s : State) (core slot : Nat) (p : Party) : Bool := decide ((s.party ⟨core, slot, p⟩).run ≠ .running)

/-- Whether every queue of a slot is empty and no entry runs. -/
def drained (s : State) (core slot : Nat) : Bool :=
  engines.all (fun p => decide (queueAt s core slot (queueOf p) = []) && engineIdle s core slot p)

/-- Whether everything that a slot queued, apart from notifies, has ended. -/
def quiet (s : State) (core slot : Nat) : Bool :=
  engines.all (fun p => (queueAt s core slot (queueOf p)).all (fun i => decide (i = .notify)) && engineIdle s core slot p)

/-- The slots that hold tasks of the head launch of a queue. -/
def launchSlots (s : State) (part queue : Nat) : List (Nat × Nat) :=
  match (s.queue part queue).head with
  | some l => ((residents s).filter (fun e => decide (e.2.2.launch = l.id))).map (fun e => (e.1, e.2.1))
  | none => []

/-- Whether the superstep of a launch may advance (R279). -/
def mayAdvance (s : State) (part queue : Nat) : Bool :=
  match (s.queue part queue).head with
  | some l =>
    let slots := launchSlots s part queue
    let states := slots.flatMap (fun e => wings.map (fun p => s.party ⟨e.1, e.2, p⟩))
    l.superstep && decide (l.next = iterations l) &&
    states.all (fun x => decide (x.run = .ended) || decide (x.wait = .step false)) &&
    states.any (fun x => decide (x.wait = .step false)) && states.all (fun x => decide (x.view.late = [])) &&
    !s.cocoons.any (fun c => decide (c.task.launch = l.id)) &&
    slots.all (fun e => quiet s e.1 e.2 && settled s (dieOf e.1) &&
      !s.msgs.any (fun m => decide (m.agent.map (fun a => (a.core, a.slot)) = some e)))
  | none => false

/-- One slot's share of a superstep's advance: what the dies of the launch knew before it, its wings know after it. -/
def stepSlot (clock : Sparse Nat) (s : State) (core slot : Nat) : State :=
  let s0 := learn s (dieOf core) clock
  let s1 := s0.modCtx core slot (fun c => { c with sh := { c.sh with ssn := c.sh.ssn + 1 } })
  let s2 := wings.foldl (fun t p => (orderPoint t ⟨core, slot, p⟩).modParty ⟨core, slot, p⟩ (fun x =>
    if x.wait = .step false then { x with wait := .step true } else x)) s1
  eventAll s2 core slot 3

def execSuperstepAdvance (part queue : Nat) (s : State) : Host.Outcome State Fault Refusal :=
  let slots := launchSlots s part queue
  let clock := slots.foldl (fun c e => mergeClock c (clockOf s (dieOf e.1))) []
  occurs s (mayAdvance s part queue) (slots.foldl (fun t e => stepSlot clock t e.1 e.2) s)

/-! ## The events of queues -/

/-- Whether the slot's work may go on: no error of its task, no reset of its partition, no gate. -/
def slotAlive (s : State) (core slot : Nat) : Bool :=
  let c := s.ctx core slot
  c.dying.isNone && !c.cancel && !(s.core core).gated &&
  !(c.halting && (match c.task with | some t => !t.superstep | none => true)) &&
  (match c.task, s.resetting with
   | some t, some r => decide (t.part ≠ r.part)
   | _, _ => true)

/-- Whether the first word of an entry finds its wait token, if it names one (R251, R271). -/
def headToken (s : State) (p : PartyId) (o : Word) : Bool :=
  let w := wordAt s p o.toNat
  let k : B2 := (w.toNat / 2 ^ 29) |> BitVec.ofNat 2
  !w.getLsbD 31 || (peerOf (s.party p) k).isNone || hasToken (s.party p) k

/-- Whether the head of an engine's queue is an entry that is ready to begin. -/
def headReady (s : State) (p : PartyId) : Bool :=
  match queueAt s p.core p.slot (queueOf p.party) with
  | .entry o _ :: _ => slotAlive s p.core p.slot && engineIdle s p.core p.slot p.party && headToken s p o
  | _ => false

/-- Whether an entry may begin: the engine is free, and where both slots have ready heads they alternate (R251, R260).
The collective engine and Swallowtail serve each queue as an agent of its own (R242, R301). -/
def mayBegin (s : State) (p : PartyId) : Bool :=
  let q := queueOf p.party
  let other : PartyId := ⟨p.core, 1 - p.slot, p.party⟩
  !p.party.isWing && headReady s p &&
  (decide (4 ≤ q) || (engineIdle s p.core (1 - p.slot) p.party &&
    (!headReady s other || decide (look 1 (s.core p.core).served q ≠ p.slot))))

/-- The queue of an engine without its head. -/
def popItem (s : State) (core slot q : Nat) : State :=
  s.modCtx core slot (fun c => { c with sh := { c.sh with queues := put c.sh.queues q ((look [] c.sh.queues q).drop 1) } })

/-- Arguments loaded into s0, s1, …, untainted. -/
def loadArgs (x : PartyState) : Nat → List Word → PartyState
  | _, [] => x
  | i, v :: vs => loadArgs { x with regs := put x.regs i v, taint := setBit x.taint i false, spoilt := setBit x.spoilt i false } (i + 1) vs

/-- A matrix or vector engine that becomes ready while its partition's draw is above the cap is withheld for a cycle, which
throttles its task in this microsecond (R336, R366). -/
def withheldAt (s : State) (p : PartyId) : State :=
  match (s.ctx p.core p.slot).task with
  | some t =>
    if overCap (s.part t.part) && (decide (p.party = .m) || decide (p.party = .v)) then
      s.modCtx p.core p.slot (fun c => { c with disturbed := true })
    else s
  | none => s

/-- An entry begins (R270, R271): its arguments, its offset, no loop active. -/
def beginEntry (s : State) (p : PartyId) (o : Word) (args : List Word) : State :=
  let s1 := withheldAt (popItem s p.core p.slot (queueOf p.party)) p
  let s2 := s1.modCore p.core (fun c => { c with served := put c.served (queueOf p.party) p.slot })
  (orderPoint s2 p).modParty p (fun x =>
    { loadArgs x 0 args with pc := o, ls := loopsOff x.ls [0, 1, 2, 3], order := [], began := [], repc := 0, run := .running, wait := .no })

def execEntryBegin (p : PartyId) (s : State) : Host.Outcome State Fault Refusal :=
  match queueAt s p.core p.slot (queueOf p.party) with
  | .entry o args :: _ => occurs s (mayBegin s p) (beginEntry s p o args)
  | _ => .next s

/-- A mark reaches its queue's head after every earlier entry has ended: its bit clears, and when none is left the
rendezvous fires (R274). -/
def retireMark (s : State) (p : PartyId) (n : Nat) : State :=
  let q := queueOf p.party
  let s1 := popItem s p.core p.slot q
  let rv := setBit (look 0 (s1.ctx p.core p.slot).sh.rv n) q false
  let s2 := s1.modCtx p.core p.slot (fun c => { c with sh := { c.sh with rv := put c.sh.rv n rv } })
  progress (if rv = 0 then eventAll s2 p.core p.slot 0 else s2) p.core p.slot

def execMarkRetire (p : PartyId) (s : State) : Host.Outcome State Fault Refusal :=
  match queueAt s p.core p.slot (queueOf p.party) with
  | .mark n :: _ =>
    occurs s (!p.party.isWing && slotAlive s p.core p.slot && engineIdle s p.core p.slot p.party) (retireMark s p n)
  | _ => .next s

def retireNotify (s : State) (p : PartyId) : State :=
  let s1 := popItem s p.core p.slot (queueOf p.party)
  s1.modCtx p.core p.slot (fun c => { c with sh := { c.sh with retired := setBit c.sh.retired (queueOf p.party) true } })

def execNotifyRetire (p : PartyId) (s : State) : Host.Outcome State Fault Refusal :=
  match queueAt s p.core p.slot (queueOf p.party) with
  | .notify :: _ =>
    occurs s (!p.party.isWing && slotAlive s p.core p.slot && engineIdle s p.core p.slot p.party) (retireNotify s p)
  | _ => .next s

/-- The join at the head of queue `q`, if each queue that it names has reached it with its engine idle (R210). -/
def readyJoin (s : State) (core slot q : Nat) : Option (List Nat) :=
  match queueAt s core slot q with
  | .join m :: _ =>
    let qs := maskQueues m.toNat
    if qs.all (fun k => decide ((queueAt s core slot k).head? = some (.join m)) && engineIdle s core slot (engineOf k)) then
      some qs
    else none
  | _ => none

def execQfenceJoinRelease (core slot : Nat) (s : State) : Host.Outcome State Fault Refusal :=
  match (List.range 4).filterMap (readyJoin s core slot) with
  | qs :: _ => occurs s (slotAlive s core slot) (qs.foldl (fun t q => popItem t core slot q) s)
  | [] => .next s

/-- WAITEV_TIMEOUT (R276): the deadline of a waiting WAITEV has come. In lock-step it retires with its bundle, when that is tried
again (R264). -/
def execWaitevTimeout (p : PartyId) (s : State) : Host.Outcome State Fault Refusal :=
  match instrAt s p (s.party p).pc.toNat with
  | some (.waitev d a m) =>
    if alive s p && !(s.setCur p).inLock && deadlinePassed (s.setCur p) a then asParty s p (execWaitev d a m) else .next s
  | _ => .next s

end Sys2Proof.Machine
end

