-- ==== Sys2Proof/Machine/Scratch.lean ====
section
/-! DEFINITION. The scratchpad as the engines and the row instructions reach it: byte ranges of a slot's window (R259). -/

namespace Sys2Proof.Machine

/-- The physical addresses of `n` bytes from offset `o` of a window. -/
def scratchBytes (s : State) (core slot o n : Nat) : List Nat :=
  (List.range n).map (fun i => scratchPhys s core slot (o + i))

/-- The bank words that addresses touch. -/
def bankWords (as : List Nat) : List Nat := (as.map (fun a => a / 4 * 4)).eraseDups

/-- The granules of addresses. -/
def granulesIn (as : List Nat) : List Nat := (as.map (fun a => a / 8)).eraseDups

/-- Bytes of a window read by the executing party with their check bits; none where two bits of a word have flipped (R346). -/
def readScratch (s : State) (core slot o n : Nat) : Option (State × List Byte) :=
  let as := scratchBytes s core slot o n
  match checkWords s (dieOf core) (bankWords as) with
  | some t =>
    let firm := firmPoint t.me.view true false
    some (sawBy t t.cur {} firm (if t.past = [] then [] else granulesIn as), bytesFor t t.cur {} firm as)
  | none => none

/-- Bytes of a window as they stand, for the records that checks read. -/
def peekScratch (s : State) (core slot o n : Nat) : List Byte := (scratchBytes s core slot o n).map (readByte s.mem)

/-- Bytes written at addresses. -/
def writeAt (m : List Host.Cell) : List Nat → List Byte → List Host.Cell
  | a :: as, b :: bs => writeAt (writeByte m a b) as bs
  | _, _ => m

/-- Cells of the scratchpad of a core written by the executing party (R195): a bank word covered in part is read, corrected and
merged; none where that read meets an uncorrectable error. `size` is the span of the granules that are written at one point
(R193). -/
def writeCellsNow (s : State) (core size : Nat) (cells : List (Nat × Byte)) : Option State :=
  let as := cells.map (fun c => c.1)
  let whole := fun w => [w, w + 1, w + 2, w + 3].all (fun a => as.contains a)
  let (full, part) := (bankWords as).partition whole
  match checkWords s (dieOf core) part with
  | some t =>
    let units := ((as.map (fun a => a / size)).eraseDups).map (fun u => (granulesIn as).filter (fun g => decide (8 * g / size = u)))
    let t1 := remember t t.cur {} 0 units
    some { t1 with mem := writeAt t1.mem as (cells.map (fun c => c.2)),
                   flips := full.foldl (fun m a => if look 0 m a = 0 then m else drop m a) t1.flips }
  | none => none

/-- The units of `size` bytes that cells touch, with their cells. -/
def unitsOf (size : Nat) (cells : List (Nat × Byte)) : List (List (Nat × Byte)) :=
  ((cells.map (fun c => c.1 / size)).eraseDups).map (fun u => cells.filter (fun c => decide (c.1 / size = u)))

/-- Whether a unit of cells is left for later: those that the turn chooses, of one run of bytes. -/
def leftLate (turn size : Nat) (u : List (Nat × Byte)) : Bool :=
  let a := (u.headD (0, 0)).1
  decide (Sys2Proof.Config.arrival turn (a / size) % 2 = 1) && decide (u.map (fun c => c.1) = (List.range u.length).map (fun i => a + i))

/-- Cells of the scratchpad written in a turn: at once, or where the turn lets the writes of an engine's instruction come
granule by granule, some of them later (R193, R209). Those of a command in progress, and those that a token follows, are
performed when it ends. (Log 2 DESIGN CHOICE.) -/
def putCells (s : State) (core size : Nat) (cells : List (Nat × Byte)) : Option State :=
  if s.me.view.lag = 0 ∨ s.me.busy.isSome = true ∨ signals s = true then writeCellsNow s core size cells
  else
    let (later, now) := (unitsOf size cells).partition (leftLate s.tick size)
    let ls : List LateStore := later.map (fun u => ⟨(u.headD (0, 0)).1, dieOf core, none, u.map (fun c => c.2), false, s.tick, none⟩)
    (writeCellsNow s core size (now.flatMap id)).map (fun t =>
      t.modMe (fun x => { x with view := { x.view with late := x.view.late ++ ls } }))

/-- Bytes written to a window. -/
def writeScratch (s : State) (core slot o : Nat) (bs : List Byte) : Option State :=
  putCells s core 8 ((scratchBytes s core slot o bs.length).zip bs)

/-- Whether `n` bytes from `o` lie within a core's scratchpad. -/
def inScratch (core o n : Nat) : Bool := decide (o + n ≤ scratchSize core)

/-- A read of the executing party's window, after its own stores there (R189), that consumes an uncorrectable error. -/
def withScratch (s : State) (o n : Nat) (k : State → List Byte → Act) : Act :=
  if scratchLate s s.cur then .wait s else
  match readScratch s s.cur.core s.cur.slot o n with
  | some (t, bs) => k t bs
  | none => .lost s

/-- A write of the executing party's window, then `k`. -/
def thenWrite (s : State) (o : Nat) (bs : List Byte) (k : State → Act) : Act :=
  match writeScratch s s.cur.core s.cur.slot o bs with
  | some t => k t
  | none => .lost s

/-- A late store of a party is performed: not before an earlier one that it follows (R189, R201), and where it counted as
performed for the agents of its core, none of them misses it any more (R196, R199). -/
def performLate (s : State) (p : PartyId) (k : Nat) : State :=
  let ls := (s.party p).view.late
  match ls[k]? with
  | none => s
  | some l =>
    let die := dieOf p.core
    let place := placeOf l.phys l.home l.slot
    if (ls.take k).any (fun e => l.follows e) || (decide (l.home = die) && owed s l.home (clockOf s die)) then s
    else
      let t := (s.modParty p (fun x => { x with view := { x.view with late := ls.eraseIdx k } })).setCur p
      let u :=
        if l.inScratchpad then
          let cells := ((List.range l.bytes.length).map (fun i => l.phys + i)).zip l.bytes
          (writeCellsNow t p.core (if l.phys / 8 = (l.phys + l.bytes.length - 1) / 8 then 8 else 16) cells).getD (consume t p.core p.slot)
        else if l.home = die then storeNow t place l.bytes
        else sendWrite t place l.bytes false
      let mates := if l.fenced then [0, 1].flatMap (fun n => allParties.map (fun q => (⟨p.core, n, q⟩ : PartyId))) else []
      let now := [(die, look 0 (clockOf u die) die)]
      let v := if p.party.isWing then u else settle u p
      (mates.foldl (fun u q => u.modParty q (fun x => { x with view := { x.view with known := mergeClock x.view.known now } })) v).setCur
        s.cur

end Sys2Proof.Machine
end

