-- ==== Sys2Proof/Machine/Generation.lean ====
section
/-! DEFINITION. Claiming and advancing rows (R293–R298) and the suffix memory (R304–R308). -/

namespace Sys2Proof.Machine

/-! ## Rows -/

/-- The rows of a partition, ascending (R289). -/
def rowsOf (s : State) (part : Nat) : List Nat :=
  let mine := s.pages.filterMap (fun e =>
    match e.2 with
    | .rowPage g => if e.1 / 2 ^ 44 = part then some g else none
    | .frame _ _ => none)
  ((List.range 32).filter (fun g => mine.contains g)).flatMap (fun g => (List.range 512).map (fun i => 512 * g + i))

/-- The order in which a SEQCLM examines rows: from the cursor, wrapping once (R293). -/
def fromCursor (rows : List Nat) (c : Nat) : List Nat :=
  rows.filter (fun r => decide (c ≤ r)) ++ rows.filter (fun r => decide (r < c))

/-- The claimer field of the executing task (R290). It stays as the claim has written it where the task resumes on another core, and
the task is known by the serial in it (log 130 DESIGN CHOICE). -/
def claimerOf (s : State) : Nat := s.cur.core + s.cur.slot * 2 ^ 9 + s.mySerial.toNat * 2 ^ 10

/-- SEQCLM's walk (R293, R294), each claim and each move to LATE a write of its own (R204): the state, the rows claimed so far, those made LATE, the cursor. -/
def claimRows (gated : Bool) (f n part : Nat) : List Nat → State → List Nat → Nat → Nat → State × List Nat × Nat × Nat
  | [], s, got, late, cur => (s, got, late, cur)
  | r :: rs, s, got, late, cur =>
    if n ≤ got.length then (s, got, late, cur)
    else if rowPhase s r = f ∧ rowClaimed s r = false then
      if !gated || decide (rowGet s r 0x30 8 = rowGet s r 0x10 4) then
        let t := signRow (rowPut (rowPut s r 10 1 (rowGet s r 10 1 ||| 1)) r 12 4 (claimerOf s)) r [(8, 8)]
        claimRows gated f n part rs t (got ++ [r]) late ((r + 1) % 16384)
      else if rowGet s r 0x38 8 ≠ 0 ∧ rowGet s r 0x38 8 ≤ s.time then
        claimRows gated f n part rs (eventSeq (signRow (rowPut s r 9 1 0xFE) r [(8, 8)]) part r) got (late + 1) ((r + 1) % 16384)
      else claimRows gated f n part rs s got late ((r + 1) % 16384)
    else claimRows gated f n part rs s got late ((r + 1) % 16384)

/-- The rows that a walk has examined, which claimed `got`. -/
def examined (rows got : List Nat) (n : Nat) : List Nat :=
  if got.length < n then rows else rows.takeWhile (fun r => r != got.getLastD 0) ++ [got.getLastD 0]

/-- The words of a row that the walk reads: phase and claim, and behind the gate pos, mpos and deadline. -/
def seenWords (gated : Bool) (f : Nat) (s : State) (r : Nat) : List Nat :=
  if gated && decide (rowPhase s r = f) && !rowClaimed s r then
    [8, 0x10, 0x30] ++ (if rowGet s r 0x30 8 = rowGet s r 0x10 4 then [] else [0x38])
  else [8]

/-- The examined rows' words checked as they are read (R345, R346). -/
def checkRows (gated : Bool) (f : Nat) : List Nat → State → Option State
  | [], s => some s
  | r :: rs, s =>
    match checkWords s (rowHome r) ((seenWords gated f s r).map (rowPhys r)) with
    | some t => checkRows gated f rs t
    | none => none

/-- SEQCLM (R293). A system wing, which has no task, claims as partition number 64, which owns no row: it gets 0 (log 100 DESIGN
CHOICE). -/
def execSeqclm (w g : B2) (d a b : B6) (s : State) : Host.Outcome State Fault Refusal :=
  tokened s .wing w g (fun s =>
    let v := (s.reg b.toNat).toNat
    let o := (s.reg a.toNat).toNat
    let f := bits v 7 0
    let n := bits v 14 8
    if v / 2 ^ 16 ≠ 0 ∨ f = 0 ∨ n = 0 ∨ 64 < n then badOperand s
    else if o % 2 ≠ 0 then .trap causeAlignment (word o)
    else if !inScratch s.cur.core o (2 * n) then badOperand s
    else if settled s (myDie s) = false ∨ s.me.view.late ≠ [] then .wait s
    else
      let p := s.myPart
      let c := look 0 (s.part p).cursor f
      let gated := decide (bits v 15 15 = 1)
      let rows := fromCursor (rowsOf s p) c
      let seen := fun (_ : Unit) => examined rows (claimRows gated f n p rows s [] 0 c).2.1 n
      match (if s.flips = [] then some s else checkRows gated f (seen ()) s) with
      | none => .lost s
      | some s =>
        let (t, got, late, cur) := claimRows gated f n p rows (learn s (myDie s) (allKnown s)) [] 0 c
        let t := t.modPart p (fun q => { q with cursor := put q.cursor f cur })
        thenWrite t o (got.flatMap (bytesOfNat 2)) (fun t =>
          .done ((orderAll t t.cur).setReg d.toNat (word (late % 2 ^ 16 * 2 ^ 16 + got.length)) false) 1))

/-- SEQADV (R296), a release at .MOD: the row's bytes keep the clock of the write (R200, R204). An admission is made whatever keys are
loaded: R296 tests none, though R298 speaks of one after the tenant's new key is in place (log 114 DESIGN CHOICE). -/
def execSeqadv (w g : B2) (d a b : B6) (s : State) : Host.Outcome State Fault Refusal :=
  tokened s .wing w g (fun s =>
    let x := (s.reg a.toNat).toNat
    let v := (s.reg b.toNat).toNat
    if v / 2 ^ 8 ≠ 0 ∨ 16383 < x ∨ rowOwner s x ≠ some s.myPart then badOperand s
    else if mustWait s (rowHome x) false true then .wait s
    else
      let after := fun (t : State) (rs : List (Nat × Nat)) =>
        let u := progress (eventSeq (signRow t x rs) s.myPart x) s.cur.core s.cur.slot
        Act.done (u.setReg d.toNat (word (rowPhase t x)) false) 1
      match rowChecked s x 8 8 with
      | none => .lost s
      | some s =>
        if rowPhase s x = 0 ∧ rowClaimed s x = false then
          let kept := s.flips.filter (fun e => !(decide (rowPhys x 0x60 ≤ e.1) && decide (e.1 < rowPhys x 0x80)))
          after (rowPut { s with mem := clearRange s.mem (rowPhys x 0x60) 32, flips := kept } x 9 1 v) [(8, 8), (0x60, 32)]
        else if rowClaimed s x ∧ rowSerial s x = s.mySerial.toNat then after (endClaim s x v) [(8, 8)]
        else badOperand s)

/-! ## The suffix memory -/

/-- The home die of an index (R304). -/
def suffixHome (id : Nat) : Nat := id / 4096

def suffix (s : State) (id : Nat) : Suffix := look {} s.suffixes id
def setSuffix (s : State) (id : Nat) (x : Suffix) : State := { s with suffixes := put s.suffixes id x }

/-- Positions that the indexes of a die reserve, index `id` left out (R304). -/
def reservedPositions (s : State) (die id : Nat) : Nat :=
  (s.suffixes.filter (fun e => decide (e.1 / 4096 = die) && decide (e.1 ≠ id))).foldl (fun n e => n + e.2.q) 0

/-- The capacity of a die's suffix memory in positions (R16). -/
def suffixCapacity : Nat := 4194304

/-- An index that the executing partition may use: the identifier in s[a], its high bits zero; owned by the partition
(R304). -/
def ownIndex (s : State) (a : B6) : Option Nat :=
  let v := (s.reg a.toNat).toNat
  if v < 2 ^ 16 ∧ (suffix s v).owner = some s.myPart then some v else none

/-- Whether a quota is legal for an index of a die (R305). -/
def quotaOk (s : State) (id q : Nat) : Bool :=
  decide (q % 256 = 0) && decide (256 ≤ q) && decide (q ≤ suffixCapacity) &&
  decide (reservedPositions s (suffixHome id) id + q ≤ suffixCapacity)

/-- SXRST (R305). A system wing, which has no task, owns what it resets under number 64 (log 100 DESIGN CHOICE). -/
def execSxrst (w g : B2) (d a b : B6) (s : State) : Host.Outcome State Fault Refusal :=
  tokened s .wing w g (fun s =>
    let id := (s.reg a.toNat).toNat
    let q := (s.reg b.toNat).toNat
    if decide (2 ^ 16 ≤ id) || !((suffix s id).owner.isNone || decide ((suffix s id).owner = some s.myPart)) ||
        !(decide (q = 0) || quotaOk s id q) then badOperand s
    else if writeWaits s (suffixHome id) false false then .wait s
    else
      let t := setSuffix s id (if q = 0 then {} else { owner := some s.myPart, q := q })
      .done ((wrote t).setReg d.toNat (word (suffixCapacity - reservedPositions t (suffixHome id) id - q)) false) 1)

def execSxapp (w g : B2) (d a b : B6) (s : State) : Host.Outcome State Fault Refusal :=
  tokened s .wing w g (fun s =>
    match ownIndex s a with
    | none => badOperand s
    | some id =>
      if writeWaits s (suffixHome id) false false then .wait s
      else
        let x := suffix s id
        let v := (s.reg b.toNat).toNat
        if v / 2 ^ 32 ≠ x.n then .trap causeOperand (word x.n)
        else
          let y := if x.n - x.e = x.q then { x with e := x.e + 256, toks := x.toks.drop 256, evicted := x.evicted + 1 } else x
          let z := { y with toks := y.toks ++ [BitVec.ofNat 32 v], n := y.n + 1, appends := y.appends + 1 }
          .done (orderAll ((setSuffix s id z).setReg d.toNat (word z.n) false) s.cur) 1)

/-- The length of the common prefix of two lists. -/
def commonPrefix : List (BitVec 32) → List (BitVec 32) → Nat
  | a :: as, b :: bs => if a = b then 1 + commonPrefix as bs else 0
  | _, _ => 0

/-- The longest suffix match, in the reversed tokens `r`: (ℓ, j) for the smallest distance j back that reaches the
greatest length ℓ; ℓ = 0 for none (R307). -/
def bestMatch (r : List (BitVec 32)) : List (BitVec 32) → Nat → Nat × Nat → Nat × Nat
  | [], _, best => best
  | t :: rest, j, best =>
    let l := commonPrefix r (t :: rest)
    bestMatch r rest (j + 1) (if best.1 < l then (l, j) else best)

def execSxqry (w g : B2) (d a b : B6) (s : State) : Host.Outcome State Fault Refusal :=
  tokened s .wing w g (fun s =>
    let v := (s.reg b.toNat).toNat
    let o := bits v 31 0
    let k := bits v 36 32
    match ownIndex s a with
    | none => badOperand s
    | some id =>
      if decide (v / 2 ^ 37 ≠ 0) || decide (16 < k) || !inScratch s.cur.core o (4 * k) then badOperand s
      else if o % 4 ≠ 0 then .trap causeAlignment (word o)
      else if mustWait s (suffixHome id) false false || scratchLate s s.cur then .wait s
      else if (suffix s id).bad then .lost s
      else
        let x := suffix s id
        let r := x.toks.reverse
        let (l, j) := bestMatch r (r.drop 1) 1 (0, 0)
        let c := if l = 0 then 0 else min k j
        let cands := (x.toks.drop (x.toks.length - j)).take c
        let t := setSuffix s id { x with queries := x.queries + 1 }
        let u := t.modMe (fun y => { y with ml := word l, cp := word (if l = 0 then x.n else x.n - j) })
        thenWrite u o ((if l = 0 then [] else cands).flatMap (fun t => bytesOfNat 4 t.toNat)) (fun u =>
          .done ((orderAll u u.cur).setReg d.toNat (word c) false) 1))

end Sys2Proof.Machine
end

