-- ==== Sys2Proof/Machine/Isolation.lean ====
section
/-! DEFINITION. Probes and pins (R328), objects and handles (R322–R327), BGONE (R326), windows (R329, R330). -/

namespace Sys2Proof.Machine

/-! ## Probes and pins -/

/-- What PROBE finds at a page: the frame it would pin, if the page has one that is pinned; or a fault. -/
inductive PageCheck where
  | pin (page frame : Nat)
  | fine
  | bad (page : Nat)
  | privileged (page : Nat)
  deriving DecidableEq, Repr

/-- The object that a paged address lies in. -/
def objectAt (s : State) (part va : Nat) : Option Obj :=
  if objectBase ≤ va ∧ va < windowBase then seek s.objects (part * 2 ^ 24 + (va - objectBase) / 2 ^ 32) else none

/-- The frame behind a paged address, a window's exporter being followed. -/
def frameAt (s : State) (part va : Nat) : Option Nat :=
  if windowBase ≤ va ∧ va < windowBase + 256 * 2 ^ 32 then
    match seek s.windows ((va - windowBase) / 2 ^ 32) with
    | some w =>
      match pageHit s w.exporter (w.base + va % 2 ^ 32) with
      | some (.frame sp f _) => some (frameCode 0 sp f)
      | _ => none
    | none => none
  else
    match pageHit s part va with
    | some (.frame sp f _) => some (frameCode 0 sp f)
    | _ => none

/-- One page of a PROBE's range (R328, R18): a page of an object is at fault unless its partition holds the frame strongly, as
`strong` lists (R321). The range of a closed window passes and pins nothing (log 102 DESIGN CHOICE). -/
def checkPage (s : State) (strong : List Nat) (page : Nat) : PageCheck :=
  let va := page * 65536
  match reach s va false with
  | .privilege => .privileged va
  | .unmapped => .bad va
  | .closed => .fine
  | .place _ =>
    if s.supervisor || decide (weightBase ≤ va) then .fine
    else
      match frameAt s s.myPart va with
      | some f => if (objectAt s s.myPart va).isSome && !strong.contains f then .bad va else .pin va f
      | none => .fine

/-- The first page of `n` from `page` that fails, or the pins to take. -/
def checkPages (s : State) (strong : List Nat) : Nat → Nat → List (Nat × Nat) → Except PageCheck (List (Nat × Nat))
  | 0, _, acc => .ok acc
  | n + 1, page, acc =>
    match checkPage s strong page with
    | .pin va f => checkPages s strong n (page + 1) (acc ++ [(va, f)])
    | .fine => checkPages s strong n (page + 1) acc
    | r => .error r

/-- The first page whose frame would take FRS above FRG (R321, R328). -/
def overGuarantee (s : State) (part : Nat) : List (Nat × Nat) → List Nat → Option Nat
  | [], _ => none
  | (va, f) :: ps, strong =>
    let now := if strong.contains f || decide (2 ≤ f / 2 ^ 40 % 8) then strong else f :: strong
    if (s.part part).frg.toNat < now.length ∧ now ≠ strong then some va else overGuarantee s part ps now

/-- One pin more of a task on a frame. -/
def addPin (serial part : Nat) (pins : List Pin) (frame : Nat) : List Pin :=
  if pins.any (fun p => decide (p.serial = serial) && decide (p.frame = frame)) then
    pins.map (fun p => if p.serial = serial ∧ p.frame = frame then { p with count := p.count + 1 } else p)
  else pins ++ [⟨serial, part, frame, 1⟩]

/-- How many pages of the `n` from `page` on lead to a frame. -/
def pagesTo (s : State) (part page n frame : Nat) : Nat :=
  ((List.range n).filter (fun i => decide (frameAt s part ((page + i) * 65536) = some frame))).length

/-- The pages of a byte range. -/
def pagesOf (a n : Nat) : Nat := (a + n - 1) / 65536 + 1 - a / 65536

/-- The first page of a PROBE's range whose access is a privilege trap: privilege comes before what R328 orders (R49). -/
def privilegedPage (s : State) (x n : Nat) : Option Word :=
  if n = 0 ∨ 2 ^ 60 < x + n then none
  else
    ((List.range (pagesOf x n)).map (fun i => (x / 65536 + i) * 65536)).findSome? (fun va =>
      match reach s va false with
      | .privilege => some (word va)
      | _ => none)

def execProbe (w g : B2) (a b : B6) (s : State) : Host.Outcome State Fault Refusal :=
  tokened s .wing w g (fun s =>
    let x := (s.reg a.toNat).toNat
    let n := (s.reg b.toNat).toNat
    match privilegedPage s x n with
    | some va => .trap causePrivilege va
    | none =>
    if !(drained s s.cur.core 0 && drained s s.cur.core 1) then badOperand s
    else if n = 0 then .done s 1
    else if 2 ^ 60 < x + n then badOperand s
    else
      let strong := strongFrames s s.myPart
      match checkPages s strong (pagesOf x n) (x / 65536) [] with
      | .error (.bad va) => .trap causeProbe (word va)
      | .error _ => badOperand s
      | .ok ps =>
        match overGuarantee s s.myPart ps strong with
        | some va => .trap causeProbe (word va)
        | none => .done { s with pins := ps.foldl (fun l e => addPin s.mySerial.toNat s.myPart l e.2) s.pins } 1)

def execUnpin (w g : B2) (a b : B6) (s : State) : Host.Outcome State Fault Refusal :=
  tokened s .wing w g (fun s =>
    let x := (s.reg a.toNat).toNat
    let n := (s.reg b.toNat).toNat
    if n = 0 then .done s 1
    else if 2 ^ 60 < x + n then badOperand s
    else
      let pins := s.pins.map (fun p =>
        if p.serial = s.mySerial.toNat then { p with count := p.count - pagesTo s s.myPart (x / 65536) (pagesOf x n) p.frame }
        else p)
      .done { s with pins := pins.filter (fun p => decide (0 < p.count)) } 1)

/-! ## Handles -/

def handleId (h : Word) : Nat := bits h.toNat 23 0
def handleGen (h : Word) : Nat := bits h.toNat 58 24
def handleWeak (h : Word) : Bool := h.getLsbD 59

/-- A handle (R322). -/
def makeHandle (o : Obj) (id : Nat) (weak : Bool) : Word :=
  word (o.prio.toNat * 2 ^ 60 + weak.toNat * 2 ^ 59 + o.gen.toNat * 2 ^ 24 + id)

/-- A handle with another priority and kind. -/
def rehandle (h : Word) (prio : Nat) (weak : Bool) : Word :=
  word (prio % 16 * 2 ^ 60 + weak.toNat * 2 ^ 59 + bits h.toNat 58 0)

def objKey (part id : Nat) : Nat := part * 2 ^ 24 + id

/-- The object that a handle of the executing partition names, unless the handle is stale (R324). -/
def handleObj (s : State) (h : Word) : Option Obj :=
  match seek s.objects (objKey s.myPart (handleId h)) with
  | some o => if o.gen.toNat = handleGen h ∧ handleId h ≠ 0 then some o else none
  | none => none

/-- The same, alive. -/
def liveObj (s : State) (h : Word) : Option Obj :=
  match handleObj s h with
  | some o => if o.live then some o else none
  | none => none

def objHome (o : Obj) : Nat := frameHome 0 o.space (o.frames.headD 0)

def setObj (s : State) (part id : Nat) (o : Obj) : State := { s with objects := put s.objects (objKey part id) o }

/-- A write of an object's life word by a die, in its coherence order: the die knows of what was written there before, numbers
its own write, and the word keeps the clock of both (R188, R201, R323). -/
def writeLife (s : State) (die part id : Nat) (o : Obj) : State :=
  let t := tickClock (if o.clock = [] then s else learn s die o.clock) die
  setObj t part id { o with clock := mergeClock o.clock (clockOf t die) }

/-- The executing party writes the life word that a handle leads to (R201). -/
def ownLife (s : State) (h : Word) (o : Obj) : State := wrote (writeLife s (myDie s) s.myPart (handleId h) o)

/-- The executing party's die reads the life word that a handle leads to (R201). -/
def readLife (s : State) (h : Word) : State :=
  match seek s.objects (objKey s.myPart (handleId h)) with
  | some o => if o.clock = [] then s else learn s (myDie s) o.clock
  | none => s

/-- The destruction point (R323): one write of the life word. -/
def destroy (s : State) (die part id : Nat) (o : Obj) : State :=
  writeLife s die part id { o with live := false, gen := o.gen + 1, count := 0, draining := true }

def objPinned (s : State) (o : Obj) : Bool := (objFrames o).any (fun c => s.pins.any (fun p => decide (p.frame = c)))

/-! ## Allocation and reclaim (R324, R327) -/

/-- Whether a frame is in the free pool (R385). -/
def isFree (s : State) (space f : Nat) : Bool :=
  decide (ownerOf s (frameCode 0 space f) = 64) && !s.aside.contains (frameCode 0 space f) &&
  !s.reassigns.any (fun r => decide (frameCode r.die r.space r.frame = frameCode 0 space f))

/-- The i-th frame of a space homed at a die (R186). -/
def homedFrame (space home i : Nat) : Nat := if space = 0 then home / 2 * 2 ^ 19 + 2 * i + home % 2 else 16 * i + home

/-- How many frames of a space each die is home of. -/
def homedCount (space : Nat) : Nat := if space = 0 then 2 ^ 18 else 3906250

/-- `n` free frames of a space homed at a die, looked for from the i-th on, `fuel` of them. -/
def pickFrames (s : State) (space home n : Nat) : Nat → Nat → List Nat → Option (List Nat)
  | 0, _, got => if n ≤ got.length then some got else none
  | fuel + 1, i, got =>
    if n ≤ got.length then some got
    else
      let f := homedFrame space home (i % homedCount space)
      pickFrames s space home n fuel (i + 1) (if isFree s space f then got ++ [f] else got)

/-- `n` free frames of one home, the homes tried from `h` on. -/
def pickHome (s : State) (space n i : Nat) : Nat → Nat → Option (List Nat)
  | 0, _ => none
  | k + 1, h =>
    match pickFrames s space (h % 16) n (homedCount space) i [] with
    | some fs => some fs
    | none => pickHome s space n i k (h + 1)

/-- How far above its guarantee a partition stands. -/
def above (s : State) (part : Nat) : Int := (frs s part + frw s part : Int) - ((s.part part).frg.toNat : Int)

/-- Whether victim `a` comes before `b` (R327): (part, id, object). Of objects of two partitions that tie in all of it the one of
the lower partition number comes first (log 92 DESIGN CHOICE). -/
def victimBefore (s : State) (a b : Nat × Nat × Obj) : Bool :=
  if a.2.2.prio ≠ b.2.2.prio then decide (b.2.2.prio.toNat < a.2.2.prio.toNat)
  else if above s a.1 ≠ above s b.1 then decide (above s b.1 < above s a.1)
  else if a.2.1 ≠ b.2.1 then decide (a.2.1 < b.2.1)
  else decide (a.1 < b.1)

/-- The object that reclaim destroys next: any partition's above its guarantee, or, for a burst, the requester's own. -/
def victim (s : State) (part : Nat) (burst : Bool) : Option (Nat × Nat × Obj) :=
  let all := s.objects.map (fun e => (e.1 / 2 ^ 24, e.1 % 2 ^ 24, e.2))
  let ok := all.filter (fun e => e.2.2.live && decide (e.2.2.count = 0) && !objPinned s e.2.2 &&
    (if burst then decide (e.1 = part) else decide (0 < above s e.1)))
  ok.foldl (fun best e => match best with | none => some e | some b => if victimBefore s e b then some e else some b) none

/-- Reclaim destroys a victim at its home, and counts its frames (R327). -/
def destroyVictim (s : State) (v : Nat × Nat × Obj) : State :=
  let t := destroy s (objHome v.2.2) v.1 v.2.1 v.2.2
  { t with reclaim := { t.reclaim with exact := t.reclaim.exact + word v.2.2.frames.length } }

/-- Reclaim destroys the next victim; none where there is none. -/
def reclaimOne (s : State) (part : Nat) (burst : Bool) : Option State := (victim s part burst).map (destroyVictim s)

/-- The first id from `i` on that names no object of a partition. An id whose generations have all passed is never given
again (R323). -/
def freeId (s : State) (part : Nat) : Nat → Nat → Option Nat
  | 0, _ => none
  | fuel + 1, i =>
    let id := i % (2 ^ 24 - 1) + 1
    match seek s.objects (objKey part id) with
    | none => some id
    | some o =>
      if !o.live && !o.draining && decide (o.gen ≠ BitVec.allOnes 35) then some id else freeId s part fuel (i + 1)

/-- An object made of frames: owned by the partition, zeroed under the slot, a write that the dirty log notes (R371), strong count 1
(R324). -/
def makeObj (s : State) (part id size space slot prio : Nat) (fs : List Nat) : State :=
  let (gen, clock) := match seek s.objects (objKey part id) with | some o => (o.gen, o.clock) | none => (0, [])
  let logged := fs.foldl (fun t f => logDirty { t with owners := put t.owners (frameCode 0 space f) part } (some (frameCode 0 space f))) s
  let s1 := fs.foldl (fun t f => zeroFrame t 0 space f (keyNum t slot)) logged
  setObj s1 part id ⟨gen, 1, BitVec.ofNat 4 prio, true, false, size, space, fs, slot, clock⟩

/-- HNEW (R324). Where its partition has no id left it returns 0 (log 94 DESIGN CHOICE). While it waits for reclaim, whether it is a
burst goes by the frames of the moment (log 93 DESIGN CHOICE). A burst that fails has destroyed its partition's weakly held objects all
the same (log 135 DESIGN CHOICE). -/
def execHnew (w g : B2) (d a b : B6) (s : State) : Host.Outcome State Fault Refusal :=
  tokened s .wing w g (fun s =>
    let p := s.myPart
    let size := (s.reg a.toNat).toNat
    let f := (s.reg b.toNat).toNat
    let slot := bits f 24 16
    let space := bits f 27 26
    let n := (size + 65535) / 65536
    if size = 0 ∨ 2 ^ 32 < size then badOperand s
    else if f / 2 ^ 28 ≠ 0 ∨ bits f 25 25 ≠ 0 ∨ bits f 15 4 ≠ 0 ∨ 1 < space ∨ mayName s p slot = false then badOperand s
    else if (s.part p).frg.toNat < frs s p + n ∨ (s.part p).frg.toNat + (s.part p).frb.toNat < frs s p + frw s p + n then
      .done (s.setReg d.toNat 0 false) 1
    else
      let (i, s1) := s.draw
      match pickHome s1 space n i 16 i with
      | some fs =>
        match freeId s1 p (2 ^ 24 - 1) i with
        | some id =>
          let t := makeObj s1 p id size space slot (bits f 3 0) fs
          let h := match seek t.objects (objKey p id) with | some o => makeHandle o id false | none => 0
          .done (t.setReg d.toNat h false) 1
        | none => .done (s.setReg d.toNat 0 false) 1
      | none =>
        let burst := decide ((s.part p).frg.toNat < frs s p + frw s p + n)
        if s.objects.any (fun e => e.2.draining) then .wait s
        else
          match reclaimOne s p burst with
          | some t => .wait t
          | none => if burst then .done (s.setReg d.toNat 0 false) 1 else .wait s)

/-- A handle instruction performs at the object's home, once the writes that the die's clock names there are applied, and one that
writes the life word (`writes`) once those of its party are that come before it. -/
def homeReady (s : State) (h : Word) (writes : Bool) : Bool :=
  match handleObj s h with
  | some o => !(if writes then writeWaits s (objHome o) false false else mustWait s (objHome o) false false)
  | none => true

def execHfree (w g : B2) (d a : B6) (s : State) : Host.Outcome State Fault Refusal :=
  tokened s .wing w g (fun s =>
    let h := s.reg a.toNat
    if !homeReady s h true then .wait s
    else
      let s := readLife s h
      match liveObj s h with
      | none => if handleWeak h then .done (s.setReg d.toNat 0 false) 1 else badOperand s
      | some o =>
        if handleWeak h = false ∧ o.count = 0 then badOperand s
        else
          let c := if handleWeak h then o.count else o.count - 1
          if c ≠ 0 then
            .done ((ownLife s h { o with count := c }).setReg d.toNat 0 false) 1
          else if objPinned s o then badOperand s
          else .done ((wrote (destroy s (myDie s) s.myPart (handleId h) o)).setReg d.toNat 1 false) 1)

def execHldw (w g : B2) (d a b : B6) (s : State) : Host.Outcome State Fault Refusal :=
  tokened s .wing w g (fun s =>
    let h := s.reg a.toNat
    let o := (s.reg b.toNat).toNat
    if o % 8 ≠ 0 then .trap causeAlignment (word o)
    else if !homeReady s h false then .wait s
    else
      let s := readLife s h
      match liveObj s h with
      | none => .done (setGone (s.setReg d.toNat 0 false) true) 1
      | some x =>
        match x.frames[o / 65536]? with
        | none => badOperand s
        | some f =>
          let p : Place := ⟨framePhys 0 0 x.space f (o % 65536), objHome x, some x.key, none, false, true⟩
          if ownLate s p.phys 8 || mateLate s p.phys 8 then .wait s else
          readNow s p 8 (fun t bs => .done (setGone (t.setReg d.toNat (word (natOfBytes bs)) false) false) 1))

def execBgone (w g : B2) (o : BitVec 18) (s : State) : Host.Outcome State Fault Refusal :=
  tokened s .wing w g (fun s =>
    if !mayBranch s then badOperand s
    else if s.me.gone then transfer s (relTarget s o.toInt)
    else .done s 1)

def execHupg (w g : B2) (d a : B6) (s : State) : Host.Outcome State Fault Refusal :=
  tokened s .wing w g (fun s =>
    let h := s.reg a.toNat
    let p := s.myPart
    if !homeReady s h true then .wait s
    else
      let s := readLife s h
      match liveObj s h with
      | none => .done (setGone (s.setReg d.toNat 0 false) true) 1
      | some o =>
        if (s.part p).frg.toNat < frs s p + o.frames.length ∧ o.count = 0 then
          .done (setGone (s.setReg d.toNat 0 false) false) 1
        else if o.count = 2 ^ 32 - 1 then badOperand s
        else
          let t := ownLife s h { o with count := o.count + 1 }
          .done (setGone (t.setReg d.toNat (rehandle h o.prio.toNat false) false) false) 1)

def execHdng (w g : B2) (d a : B6) (s : State) : Host.Outcome State Fault Refusal :=
  tokened s .wing w g (fun s =>
    let h := s.reg a.toNat
    if !homeReady s h true then .wait s
    else
      match handleObj s h with
      | none => badOperand s
      | some o =>
        if handleWeak h ∨ o.count = 0 then badOperand s
        else
          let t := ownLife s h { o with count := o.count - 1 }
          .done (t.setReg d.toNat (rehandle h (bits h.toNat 63 60) true) false) 1)

def execHpri (w g : B2) (d a b : B6) (s : State) : Host.Outcome State Fault Refusal :=
  tokened s .wing w g (fun s =>
    let h := s.reg a.toNat
    let p := (s.reg b.toNat).toNat
    if 16 ≤ p then badOperand s
    else if !homeReady s h true then .wait s
    else
      let s := readLife s h
      match liveObj s h with
      | none => if handleWeak h then .done (setGone (s.setReg d.toNat 0 false) true) 1 else badOperand s
      | some o =>
        let t := ownLife s h { o with prio := BitVec.ofNat 4 p }
        let u := t.setReg d.toNat (rehandle h p (handleWeak h)) false
        .done (if handleWeak h then setGone u false else u) 1)

/-- Whether a write or load is under way to a frame, or a store to it not yet performed. -/
def frameInFlight (s : State) (space f : Nat) : Bool :=
  let hit := fun a => decide (a / 65536 = framePhys 0 0 space f 0 / 65536)
  s.flights.any (fun x => !x.copy && hit x.phys) || s.loads.any (fun x => hit x.phys) ||
  s.parties.any (fun e => e.2.view.late.any (fun l => hit l.phys))

/-- OBJECT_DESTRUCTION (R323): once the accesses ordered before the point are performed, the range is unmapped and the
frames return, zeroed, to the free pool. -/
def execObjectDestruction (part id : Nat) (s : State) : Host.Outcome State Fault Refusal :=
  match seek s.objects (objKey part id) with
  | some o =>
    if o.draining && !o.frames.any (fun f => frameInFlight s o.space f) then
      let s1 := o.frames.foldl (fun t f => zeroFrame { t with owners := drop t.owners (frameCode 0 o.space f) } 0 o.space f 0) s
      .next (setObj s1 part id { o with draining := false, frames := [] })
    else .next s
  | none => .next s

/-! ## Windows -/

/-- The window that a number names for the executing partition while it is open. -/
def sharedWindow (s : State) (n : Nat) : Option Window :=
  match seek s.windows n with
  | some w => if w.live ∧ (w.exporter = s.myPart ∨ w.importer = s.myPart) then some w else none
  | none => none

/-- Whether the executing partition is the writer side (R330). -/
def isWriter (s : State) (w : Window) : Bool := decide ((if w.importerWrites then w.importer else w.exporter) = s.myPart)

/-- The key slots that descriptors of a partition name: those of the tensor tables of its tasks and launches. -/
def namedSlots (s : State) (part : Nat) : List Nat :=
  (tensorTables s part).flatMap (fun e =>
    (List.range e.2).map (fun i => natOfBytes (peekPaged s part (e.1 + 128 * i + 2) 2)))

/-- The first element of a list, looked for from the i-th on, that holds. -/
def firstFrom (l : List Nat) (i : Nat) (ok : Nat → Bool) : Option Nat :=
  ((l.drop (i % (l.length + 1))) ++ l.take (i % (l.length + 1))).find? ok

/-- The serials of a partition's living tasks. -/
def serialsOf (s : State) (part : Nat) : List Nat :=
  (((residents s).map (fun e => e.2.2) ++ s.cocoons.map (fun c => c.task)).filter (fun t => decide (t.part = part))).map
    (fun t => t.serial.toNat)

/-- Whether an access is under way to a region. (Log 33 DEDUCED.) -/
def regionBusy (s : State) (w : Window) : Bool :=
  (regionFrames s w.exporter w.base w.length).any (fun e => frameInFlight s e.1 e.2)

/-- The key numbers under which a partition's lines at an address are good: its page's or object's key, and those of its
windows there. -/
def keysAt (s : State) (part va : Nat) (slot : Option Nat) : List Nat :=
  (keyNum s (slot.getD (homeKey s part)) :: (windowsAt s part va).map (fun w => keyNum s w.slot)).eraseDups

/-- Whether an engine of a partition has a copy or a trellis command in progress of which a destination reaches a window's region. -/
def commandInto (s : State) (part : Nat) (w : Window) : Bool :=
  let region := regionFrames s w.exporter w.base w.length
  let into := fun (d : List Byte) => (tileFrames s part d).any region.contains
  s.parties.any (fun e =>
    decide (partOf s ⟨e.1 / 20, e.1 / 10 % 2, .w0⟩ = part) &&
    (match e.2.busy with
     | some (.copy c, _, _) => into (c.record.drop 336)
     | some (.trellis op r _, _, _) => (op ≤ 7 && (into (r.drop 32) || into (r.drop 288))) || (op = 8 && into (r.drop 160))
     | _ => false))

/-- Opens window `n` under a fresh key in `slot` (R329): the region's lines are re-encrypted, keeping their values. -/
def openWindow (s : State) (n slot : Nat) (w : Window) : State :=
  let s1 := { s with keynum := s.keynum + 1 }
  let s2 := s1.setKey slot ⟨true, false, setBit (setBit 0 w.exporter true) w.importer true, 2 * s.keynum + 1⟩
  let s3 := (List.range (w.length / 65536)).foldl (fun t i =>
    match pageHit s w.exporter (w.base + i * 65536) with
    | some (.frame sp f k) =>
      (keysAt s w.exporter (w.base + i * 65536) k).foldl (fun t old => rekeyFrames t old (keyNum s2 slot) [(sp, f)]) t
    | _ => t) s2
  { s3 with windows := put s3.windows n w }

/-- WINOPEN (R329), its illegal operands before the alignment trap (R49). -/
def execWinopen (w g : B2) (d a : B6) (s : State) : Host.Outcome State Fault Refusal :=
  tokened s .wing w g (fun s =>
    let o := (s.reg a.toNat).toNat
    if !inScratch s.cur.core o 32 then badOperand s
    else
      withScratch s o 32 (fun s r =>
        let p := s.myPart
        let base := recField r 0 8
        let len := recField r 8 8
        let peer := recField r 16 1
        let writer := recField r 17 1
        let strong := strongFrames s p
        let held := fun i => match frameAt s p (base + i * 65536) with | some f => strong.contains f | none => false
        if base % 65536 ≠ 0 ∨ len % 65536 ≠ 0 ∨ len < 65536 ∨ 2 ^ 32 < len ∨ 64 ≤ peer ∨ peer = p ∨ 64 ≤ p ∨ 1 < writer ∨
            recField r 18 14 ≠ 0 ∨ weightBase < base + len ∨ !(List.range (len / 65536)).all held then badOperand s
        else if o % 16 ≠ 0 then .trap causeAlignment (word o)
        else
          let (i, s1) := s.draw
          let q := s.part p
          let named := namedSlots s p
          let slots := (List.range q.keyn.toNat).map (fun k => q.keyb.toNat + k)
          let n := firstFrom (List.range 256) i (fun k => (seek s.windows k).isNone)
          let slot := firstFrom slots i (fun k => !(s.key k).loaded && !named.contains k)
          match n, slot with
          | some n, some slot =>
            let x : Window := ⟨p, peer, base, len, slot, decide (writer = 1), 0, myDie s, true, serialsOf s peer, []⟩
            if regionBusy s x then .wait s
            else .done ((openWindow s1 n slot x).setReg d.toNat (word n) false) 1
          | _, _ => .done (s.setReg d.toNat (BitVec.allOnes 64) false) 1))

/-- WINPUB (R330). A handover also waits for the issuer's copies and trellis commands in progress that write the region, which
would otherwise be at fault in their midst (log 80 DESIGN CHOICE). -/
def execWinpub (w g : B2) (d a b : B6) (s : State) : Host.Outcome State Fault Refusal :=
  tokened s .wing w g (fun s =>
    let n := (s.reg a.toNat).toNat
    if 255 < n then badOperand s
    else
      match sharedWindow s n with
      | none => .trap causePrivilege (word n)
      | some x =>
        if !isWriter s x then .trap causePrivilege (word n)
        else if (s.reg b.toNat).toNat / 2 ≠ 0 then badOperand s
        else
          let hand := (s.reg b.toNat).getLsbD 0
          if mustWait s x.home false true || (hand && commandInto s s.myPart x) then .wait s
          else
          let y := { x with count := x.count + 1, importerWrites := if hand then !x.importerWrites else x.importerWrites,
                            published := mergeClock x.published (publication s (myDie s) s.myPart) }
          .done ((wrote { s with windows := put s.windows n y }).setReg d.toNat (word y.count) false) 1)

def execWinacq (w g : B2) (d a : B6) (s : State) : Host.Outcome State Fault Refusal :=
  tokened s .wing w g (fun s =>
    let n := (s.reg a.toNat).toNat
    if 255 < n then badOperand s
    else
      match sharedWindow s n with
      | none => .trap causePrivilege (word n)
      | some x =>
        if mustWait s x.home true false then .wait s
        else
          let t := orderPoint (learnPublished s (myDie s) s.myPart x.published) s.cur
          .done (t.setReg d.toNat (word x.count) false) 1)

def execWinclose (w g : B2) (a : B6) (s : State) : Host.Outcome State Fault Refusal :=
  tokened s .wing w g (fun s =>
    let n := (s.reg a.toNat).toNat
    if 255 < n then badOperand s
    else
      match sharedWindow s n with
      | none => .trap causePrivilege (word n)
      | some x => if regionBusy s x then .wait s else .done (closeWindow s n x) 1)

end Sys2Proof.Machine
end

