-- ==== Sys2Proof/Machine/Budgets.lean ====
section
/-! DEFINITION. Energy, levels, clocks and boost (R333–R344), and the power gate of the upper core (R250, R344). -/

namespace Sys2Proof.Machine

/-! ## Switch points -/

/-- The schedule variant that the granted level selects (R337). -/
def variantOf (q : Partition) : Nat := bits q.plmaps.toNat (2 * q.plvl.toNat + 1) (2 * q.plvl.toNat)

/-- The byte offset of SWPT.v k in the switch table of the executing party's task (R77). (Log 50 DEDUCED.) -/
def switchAt (s : State) (k v : Nat) : Option Nat :=
  match s.myCtx.task with
  | some t =>
    (t.hdr.switches.find? (fun e => decide (e.1 = k))).map (fun e =>
      4 * (match v with | 0 => e.2.1 | 1 => e.2.2.1 | _ => e.2.2.2))
  | none => none

/-- SWPT (R338). In lock-step it is a branch of word 0, and goes on at the bundle after the one that holds its target. It transfers as
R266 does, active loops that do not hold the target being left (log 103 DEDUCED). -/
def execSwpt (k : BitVec 8) (v : BitVec 3) (s : State) : Host.Outcome State Fault Refusal :=
  if s.cur.party.map ≠ .wing ∨ 3 ≤ v.toNat then conclude s 0 0 (.trap causeIllegal s.curWord)
  else
    control s (fun s =>
      let x := variantOf (s.part s.myPart)
      if !taskFlag s 0 || (switchAt s k.toNat 0).isNone || !mayBranch s then badOperand s
      else if x = v.toNat then .done s 1
      else
        match switchAt s k.toNat x with
        | some t => transfer s (if s.inLock then t / 16 * 16 + 16 else t + 4)
        | none => badOperand s)

/-! ## Clock divisors and the gate -/

def setDivisor (c : CoreState) (dom : Nat) (v : BitVec 6) : CoreState :=
  match dom with
  | 0 => { c with div0 := v }
  | 1 => { c with div1 := v }
  | 2 => { c with div2 := v }
  | _ => { c with div3 := v }

def baseDivisor (c : CoreState) (dom : Nat) : BitVec 6 :=
  match dom with
  | 0 => c.div0 | 1 => c.div1 | 2 => c.div2 | _ => c.div3

/-- CLKDIV (R339). -/
def execClkdiv (w g : B2) (d a b : B6) (s : State) : Host.Outcome State Fault Refusal :=
  tokened s .wing w g (fun s =>
    let dom := (s.reg a.toNat).toNat
    let v := (s.reg b.toNat).toNat
    if 3 < dom ∨ (s.supervisor = true ∧ (dom = 1 ∨ dom = 2)) ∨ v < 12 ∨ 48 < v then badOperand s
    else
      let old := baseDivisor (s.core s.cur.core) dom
      let t := s.modCore s.cur.core (fun c => setDivisor c dom (BitVec.ofNat 6 v))
      .done (t.setReg d.toNat (old.setWidth 64) false) 1)

/-- PGATE (R344). -/
def execPgate (w g : B2) (a : B6) (s : State) : Host.Outcome State Fault Refusal :=
  tokened s .wing w g (fun s =>
    let u := upperOf s.cur.core
    let v := s.reg a.toNat
    if s.supervisor || decide (2 ≤ v.toNat) then badOperand s
    else if v = 1 then .done (s.modCore u (fun c => { c with gatePending := c.gatePending || !c.gated })) 1
    else .done (s.modCore u (fun c => { c with gatePending := false, waking := c.waking || c.gated })) 1)

/-- Whether a core may be gated (R250): its incoming vertical FIFO is empty, its queues are empty with no entry running,
and no task is resident. -/
def mayGate (s : State) (core : Nat) : Bool :=
  let c := s.core core
  c.gatePending && decide (c.vin = []) && decide (c.vfly = []) && drained s core 0 && drained s core 1 &&
  (s.ctx core 0).task.isNone && (s.ctx core 1).task.isNone

/-- GATE_GRANT (R250). -/
def execGateGrant (core : Nat) (s : State) : Host.Outcome State Fault Refusal :=
  occurs s (mayGate s core) (s.modCore core (fun c => { c with gatePending := false, gated := true }))

/-- The requests that can be granted now are granted, at the first moment at which they can (R250). -/
def grantGates (s : State) : State :=
  ((s.cores.filter (fun e => e.2.gatePending)).map (fun e => e.1)).foldl (fun t c =>
    if mayGate t c then t.modCore c (fun c => { c with gatePending := false, gated := true }) else t) s

/-- CORE_WAKE (R344). -/
def execCoreWake (core : Nat) (s : State) : Host.Outcome State Fault Refusal :=
  occurs s (s.core core).waking
    (s.modCore core (fun c => { c with waking := false, gated := false, holders := (c.part.toNat :: c.holders).eraseDups }))

/-! ## Boost permits -/

/-- Whether a domain is in cool-down. -/
def cooling (s : State) (core dom : Nat) : Bool := decide (s.time < look 0 (s.core core).cool dom)

/-- The domains of a Hamper, as 4 × core + code, ascending (R341). -/
def hamperDomains (h : Nat) : List Nat := (List.range 136).map (fun i => 136 * h + i)

/-- Whether a domain runs above nominal, or holds a claim outside cool-down (R342). -/
def unclean (s : State) (d : Nat) : Bool :=
  let c := s.core (d / 4)
  c.boosting.getLsbD (d % 4) || c.falling.getLsbD (d % 4) || (c.claim.getLsbD (d % 4) && !cooling s (d / 4) (d % 4))

/-- A claim that may be charged: held, outside cool-down, its domain not on the way down (R340). -/
def eligible (s : State) (d : Nat) : Bool :=
  let c := s.core (d / 4)
  c.claim.getLsbD (d % 4) && !cooling s (d / 4) (d % 4) && !c.falling.getLsbD (d % 4)

/-- The launch priority of a domain's claim. (Log 40 DESIGN CHOICE.) -/
def claimPrio (s : State) (d : Nat) : Nat := (look (12, 0) (s.core (d / 4)).claimBy (d % 4)).1

/-- The place of a domain in the round-robin order that begins after `last`. -/
def robin (last d : Nat) : Nat := (d + 1088 - last - 1) % 1088

/-- Whether claim `a` is served before claim `b` (R341). -/
def claimBefore (s : State) (last a b : Nat) : Bool :=
  if claimPrio s a ≠ claimPrio s b then decide (claimPrio s a < claimPrio s b) else decide (robin last a < robin last b)

/-- A claim placed in its turn. -/
def insertClaim (s : State) (last d : Nat) : List Nat → List Nat
  | [] => [d]
  | e :: es => if claimBefore s last d e then d :: e :: es else e :: insertClaim s last d es

/-- The claims in the order in which they are served. -/
def claimOrder (s : State) (last : Nat) (ds : List Nat) : List Nat := ds.foldl (fun l d => insertClaim s last d l) []

/-- What the start of an interval makes of one domain (R340). The cool-down follows an interval at /11 even where the claim has been
released in it (log 107 DESIGN CHOICE). -/
def stepDomain (won : List Nat) (s : State) (d : Nat) : State :=
  let c := s.core (d / 4)
  let k := d % 4
  if d ∈ won then s.setCore (d / 4) { c with boosting := setBit c.boosting k true, falling := setBit c.falling k false }
  else if c.falling.getLsbD k then
    s.setCore (d / 4) { c with falling := setBit c.falling k false, cool := put c.cool k (s.time + 40000) }
  else if c.boosting.getLsbD k then
    s.setCore (d / 4) { c with boosting := setBit c.boosting k false, falling := setBit c.falling k (c.claim.getLsbD k) }
  else s

/-- The start of an interval in one Hamper (R340, R341). -/
def boostHamper (s : State) (h : Nat) : State :=
  let x := s.hamper h
  let es := (hamperDomains h).filter (eligible s)
  let order := claimOrder s x.last es
  let won := order.take x.pool
  let lost := order.drop x.pool
  let tier := won.filter (fun d => match lost with | e :: _ => decide (claimPrio s d = claimPrio s e) | [] => false)
  let t := (hamperDomains h).foldl (stepDomain won) s
  let y := { x with pool := x.pool - won.length, last := tier.getLastD x.last }
  t.setHamper h { y with clean := y.clean && !(hamperDomains h).any (unclean t) }

/-- BOOST_INTERVAL (R340): every 4 µs; a refill of the same moment comes first (R342). -/
def execBoostInterval (s : State) : Host.Outcome State Fault Refusal :=
  let t := (List.range 8).foldl boostHamper s
  occurs s (decide (s.due.interval ≤ s.time) && decide (s.due.interval < s.due.pool))
    { t with due := { s.due with interval := s.due.interval + 4000 } }

/-- A refill of one pool (R342). The next window begins here: the interval start of the same moment, which comes after it,
finds what is above nominal in it. -/
def refillPool (s : State) (h : Nat) : State :=
  let x := s.hamper h
  s.setHamper h { x with pool := if x.clean then min 64 (x.pool + 1) else x.pool, clean := true }

/-- BOOST_REFILL (R342): every 32 µs. -/
def execBoostRefill (s : State) : Host.Outcome State Fault Refusal :=
  let t := (List.range 8).foldl refillPool s
  occurs s (decide (s.due.pool ≤ s.time)) { t with due := { s.due with pool := s.due.pool + 32000 } }

/-- One domain's claim recorded or dropped. A claim that both resident tasks set is held for the one that set it last (log 105 DESIGN
CHOICE). -/
def setClaim (on : Bool) (prio slot : Nat) (c : CoreState) (dom : Nat) : CoreState :=
  { c with claim := setBit c.claim dom on,
           claimBy := if on then put c.claimBy dom (prio, slot) else drop c.claimBy dom }

/-- The domains of a mask. -/
def maskDomains (m : Nat) : List Nat := (List.range 4).filter (fun d => m.testBit d)

/-- BOOST (R343). The claim of a system core, which runs no launch, has a priority that the spec does not give. -/
def execBoost (w g : B2) (d a : B6) (s : State) : Host.Outcome State Fault Refusal :=
  tokened s .wing w g (fun s =>
    let v := (s.reg a.toNat).toNat
    let core := s.cur.core
    if 32 ≤ v ∨ v % 16 = 0 ∨ (s.supervisor = true ∧ (v.testBit 1 = true ∨ v.testBit 2 = true)) then badOperand s
    else
      let (open_, s0) := s.draw
      let prio := match s.myCtx.task with | some t => t.prio | none => open_ % 12
      let s1 := if s.myCtx.task.isSome then s else s0
      let s2 := s1.modCore core (fun c => (maskDomains v).foldl (setClaim (v.testBit 4) prio s.cur.slot) c)
      let dirty := (maskDomains v).any (fun k => unclean s2 (4 * core + k))
      let s3 := s2.modHamper (hamperOf core) (fun h => { h with clean := h.clean && !dirty })
      .done (s3.setReg d.toNat ((s3.core core).claim.setWidth 64) false) 1)

/-! ## Accounts and levels -/

/-- What the bytes that a partition has moved in a microsecond cost it, in tenths of a pJ: 3.2 pJ a byte of stacked DRAM, 25 pJ of
the second tier, 20 pJ of the Hizer link and the fabric (R335). -/
def movedEnergy (s : State) (p : Nat) : Nat :=
  32 * total ((List.range 8).map (fun h => movedBytes s h p)) + 250 * movedBytes s 8 p + 200 * (movedBytes s 9 p + movedBytes s 10 p)

/-- A microsecond's charge of one account (R335): `measured` and how much of it was drawn above nominal, and what the bytes moved
cost, in tenths of a pJ. -/
def charge (measured above moved : Nat) (q : Partition) : Partition :=
  let used := measured + moved
  let e := q.carry + used
  let b := q.eacc - word (e / 10000000)
  { q with carry := e % 10000000, eacc := b, spent := q.spent || decide (b.toInt ≤ 0),
           draw := (q.draw ++ [used - above]).drop (q.draw.length - 9) }

/-- What was measured on the cores that a partition has held in the microsecond, ungated (R333, R335); on those that nobody holds,
for 64 and above. -/
def measuredOn (s : State) (p : Nat) (used : List (Nat × Nat × Nat × Nat)) : List (Nat × Nat × Nat × Nat) :=
  used.filter (fun u => decide (u.1 < 272) && decide (u.2.1 = p) && decide (u.2.2.2 ≤ u.2.2.1) &&
    (if p < 64 then (s.core u.1).holders.contains p else !(s.core u.1).gated))

/-- The charge of a partition for a microsecond. -/
def bill (s : State) (used : List (Nat × Nat × Nat × Nat)) (p : Nat) (q : Partition) : Partition :=
  let us := measuredOn s p used
  charge (total (us.map (fun u => u.2.2.1))) (total (us.map (fun u => u.2.2.2))) (movedEnergy s p) q

/-- The module's energy of a microsecond, without what was drawn above nominal (R336). -/
def moduleEnergy (s : State) (used : List (Nat × Nat × Nat × Nat)) : Nat :=
  total ((List.range 65).map (fun p => total ((measuredOn s p used).map (fun u => u.2.2.1 - u.2.2.2)) + movedEnergy s p))

/-- The bytes moved are in the counts, and the next microsecond begins with those who hold the cores now. -/
def countOut (s : State) : State :=
  let t := (List.range 8).foldl (fun t h =>
    if movedAll s h = 0 then t
    else t.modHamper h (fun x => { x with dram := { x.dram with exact := x.dram.exact + word (movedAll s h) } })) s
  { t with moved := [], fabric := { t.fabric with exact := t.fabric.exact + word (movedAll s 10) },
           cores := t.cores.map (fun e => (e.1, { e.2 with holders := if e.2.gated then [] else [e.2.part.toNat] })) }

/-- ENERGY_TICK (R335): every 1 µs; `used` is what was measured (log 19 DESIGN CHOICE). An account that it exhausts pre-empts every
task of its partition. -/
def execEnergyTick (used : List (Nat × Nat × Nat × Nat)) (s : State) : Host.Outcome State Fault Refusal :=
  let t := { countOut s with
    parts := s.parts.map (fun e => (e.1, bill s used e.1 e.2)),
    moduleDraw := (s.moduleDraw ++ [moduleEnergy s used]).drop (s.moduleDraw.length - 99),
    due := { s.due with energy := s.due.energy + 1000 } }
  let spent := (s.parts.filter (fun e => !e.2.spent && (bill s used e.1 e.2).spent)).map (fun e => e.1)
  occurs s (decide (s.due.energy ≤ s.time)) (spent.foldl haltPart t)

/-- Whether cycles are withheld from a task's matrix or vector engine (R336). -/
def throttled (s : State) (core slot : Nat) : Bool :=
  match (s.ctx core slot).task with
  | some t => overCap (s.part t.part) && [Party.m, .v].any (fun p => decide ((s.party ⟨core, slot, p⟩).run = .running))
  | none => false

/-- A refill (R335). -/
def refill (q : Partition) : Partition :=
  let r := addBalance q q.efill.toNat
  { r with spent := r.spent && decide (r.eacc.toInt ≤ 0) }

/-- ENERGY_REFILL (R335): at each whole millisecond. -/
def execEnergyRefill (s : State) : Host.Outcome State Fault Refusal :=
  occurs s (decide (s.due.refill ≤ s.time))
    { s with parts := s.parts.map (fun e => (e.1, refill e.2)), due := { s.due with refill := s.due.refill + 1000000 } }

/-- A grant to one partition (R336); `high` says that the module's average draw exceeded 3,000 W. -/
def grant (high : Bool) (q : Partition) : Partition :=
  let a := min 7 (8 * q.eacc.toInt / (q.ecap.toNat : Int)).toNat
  let want := min a q.plcap.toNat
  let prev := q.plvl.toNat
  let l := if !q.granted then (if high then 0 else want) else if high then min want (prev - 1) else min want (prev + 1)
  if q.created then { q with plvl := BitVec.ofNat 3 l, granted := true } else q

/-- Whether the module's average draw over the preceding 100 µs exceeded 3,000 W (R336): what its cores and the bytes that they
move drew, and the rest of the module (log 63 DESIGN CHOICE). -/
def drawsHigh (s : State) (rest : Nat) : Bool := decide (3 * 10 ^ 12 < total s.moduleDraw + rest)

/-- LEVEL_GRANT (R336): at each multiple of 100 µs, after the charge of the same moment (log 96 DESIGN CHOICE). -/
def execLevelGrant (rest : Nat) (s : State) : Host.Outcome State Fault Refusal :=
  occurs s (decide (s.due.grant ≤ s.time) && decide (s.due.grant < s.due.energy))
    { s with parts := s.parts.map (fun e => (e.1, grant (drawsHigh s rest) e.2)), due := { s.due with grant := s.due.grant + 100000 } }

end Sys2Proof.Machine
end

