-- ==== Sys2Proof/Machine/Launches.lean ====
section
/-! DEFINITION. What the scheduler and the host link share: reads and writes through a partition's mapping, completion
records and interrupts (R254, R374, R376), the end of tasks and launches, where a task may be placed (R258), the state a
task starts with (R261, R262), and saving and restoring its Cocoon (R284–R287, R362–R365). -/

namespace Sys2Proof.Machine

/-! ## A partition's memory, as the part itself reaches it -/

/-- The part itself, as a reader or writer that is no party of a core. -/
def thePart : PartyId := ⟨272, 0, .w0⟩

/-- What an access of the part leaves apart from memory: no party and no die has learnt anything. -/
def quietly (s t : State) : State := { t with ctxs := s.ctxs, dies := drop t.dies 16 }

/-- `n` bytes of a partition's paged space, page by page: an error is true for an uncorrectable error, false where the
mapping leads nowhere; the range of a closed window reads zero (R330). `rows` says that the host reads: rows are read by wings and
the host alone (R289), and what the host moves is charged to nobody (R335). -/
def partBytes (s : State) (part : Nat) (rows : Bool) : Nat → Nat → Nat → Except Bool (State × List Byte)
  | 0, _, n => if n = 0 then .ok (s, []) else .error false
  | fuel + 1, va, n =>
    if n = 0 then .ok (s, [])
    else if weightBase ≤ va then .error false
    else
      let k := min n (65536 - va % 65536)
      match paged s part va with
      | .place p =>
        if p.isRow && !rows then .error false
        else
          match readSeen s thePart part (if rows then 64 else part) false p k with
          | (t, some bs) =>
            match partBytes t part rows fuel (va + k) (n - k) with
            | .ok (u, cs) => .ok (u, bs ++ cs)
            | .error e => .error e
          | (_, none) => .error true
      | .closed =>
        match partBytes s part rows fuel (va + k) (n - k) with
        | .ok (u, cs) => .ok (u, List.replicate k 0 ++ cs)
        | .error e => .error e
      | _ => .error false

/-- `n` bytes of a partition's paged space as the part itself reads them. -/
def partRead (s : State) (part va n : Nat) : Except Bool (State × List Byte) :=
  match partBytes s part false (n / 65536 + 2) va n with
  | .ok (t, bs) => .ok (quietly s t, bs)
  | .error e => .error e

/-- A write of the part itself within one line of a partition's paged space, under a clock; none where its mapping does not take it, or
leads to a row (R289); discarded in the range of a closed window (R330). -/
def partWrite (s : State) (part va : Nat) (clock : Sparse Nat) (bs : List Byte) : Option State :=
  if weightBase ≤ va then none
  else
    match paged s part va with
    | .place p =>
      if p.readOnly || p.isRow then none
      else (writePlace (countAccess s part p.phys bs.length) thePart part clock p bs).map (quietly s)
    | .closed => some s
    | _ => none

/-! ## Completion records and interrupts -/

/-- The interrupt of a completion (R376): within coal µs of the last one it is deferred. -/
def signalHost (s : State) (p q : Nat) : State :=
  let x := s.queue p q
  if x.qcfg.getLsbD 29 = false then s
  else
    let coal := bits x.qcfg.toNat 23 16 * 1000
    if (match x.lastInt with | some t => decide (s.time < t + coal) | none => false) then s.setQueue p q { x with deferred := true }
    else { s.setQueue p q { x with lastInt := some s.time, deferred := false } with out := s.out ++ [.interrupt p x.qiv] }

/-- Writes the completion record of record `index` (R254, R375), or sets QSTAT[3]; the interrupt follows either way. The record is
a release: who reads it learns every write that any die knows of (R211). -/
def completeRecord (s : State) (p q : Nat) (index tag : BitVec 32) (status cause tasks : Nat) : State :=
  let x := s.queue p q
  let va := x.qcpl.toNat + 16 * (index.toNat % 2 ^ bits x.qcfg.toNat 4 0)
  let bs := bytesOfNat 4 tag.toNat ++ bytesOfNat 1 status ++ bytesOfNat 1 0 ++ bytesOfNat 2 cause ++ bytesOfNat 8 tasks
  let t := match partWrite s p va (allKnown s) bs with
    | some t => t
    | none => s.setQueue p q { x with qstat := setBit x.qstat 3 true }
  signalHost t p q

/-- The tag that a record carries; 0 where it could not be read (R254). -/
def recTag (r : Option (List Byte)) : BitVec 32 :=
  match r with
  | some bs => BitVec.ofNat 32 (recField bs 0x0C 4)
  | none => 0

/-- Records copied in that do not run complete with a status, in index order. -/
def cancelRecords (s : State) (p q status : Nat) : State :=
  let x := s.queue p q
  (x.closing ++ x.recs).foldl (fun t r => completeRecord t p q r.1 (recTag r.2) status 0 0)
    (s.setQueue p q { x with recs := [], closing := [] })

/-- The records that the clearing of en has kept from running complete with status 4 (R374). -/
def closeRecords (s : State) (p q : Nat) : State :=
  let x := s.queue p q
  x.closing.foldl (fun t r => completeRecord t p q r.1 (recTag r.2) 4 0 0) (s.setQueue p q { x with closing := [] })

/-- The head of a queue completes; the records of a queue that was disabled then end (R374). -/
def endHead (s : State) (p q status cause : Nat) : State :=
  match (s.queue p q).head with
  | some l =>
    let t := completeRecord (s.modQueue p q (fun x => { x with head := none })) p q l.index l.tag status cause l.done
    closeRecords t p q
  | none => s

/-- A launch completes once every iteration has been handed out and every task has ended. -/
def checkLaunch (s : State) (p q : Nat) : State :=
  match (s.queue p q).head with
  | some l =>
    if l.next = iterations l ∧ l.done + l.failed = iterations l then
      match l.cause with
      | some c => endHead s p q 2 c
      | none => endHead s p q 0 0
    else s
  | none => s

/-- A task of a launch has ended, with a cause when a context error ended it: a progress event (R252, R254). -/
def taskEnded (s : State) (t : Task) (cause : Option Nat) : State :=
  let x := s.queue t.part t.queue
  match x.head with
  | some l =>
    if l.id ≠ t.launch then s
    else
      let m := match cause with
        | none => { l with done := l.done + 1 }
        | some c => { l with failed := l.failed + 1, cause := match l.cause with | some d => some d | none => some c }
      checkLaunch (s.setQueue t.part t.queue { x with head := some m, lkcnt := 0 }) t.part t.queue
  | none => s

/-! ## Placing a task -/

/-- The tasks resident on a core. -/
def onCore (s : State) (core : Nat) : List Task := [0, 1].filterMap (fun k => (s.ctx core k).task)

/-- Whether an XWS for a partition is in flight on a die (R183). -/
def weightsBusy (s : State) (die part : Nat) : Bool :=
  s.parties.any (fun e => decide (dieOf (e.1 / 20) = die) &&
    (match e.2.busy with | some (.weights _ _ _ p _, _, _) => decide (p = part) | _ => false))

/-- Whether a frame of a die's weight store is changing its owner to or from a partition (R385). -/
def weightsMoving (s : State) (die part : Nat) : Bool :=
  s.reassigns.any (fun r => decide (r.space = 3) && decide (r.die = die) &&
    (decide (r.owner = part) || decide (ownerOf s (frameCode die 3 r.frame) = part)))

/-- Rounded VREGS of a header (R70). -/
def roundedRegs (h : Header) : Nat := (h.vregs + 3) / 4 * 4

/-- The free residency slot that the next task takes; where both are free, which one is open (log 21 DESIGN CHOICE). -/
def freeSlot (s : State) (core : Nat) : Option Nat :=
  match (s.ctx core 0).task.isNone, (s.ctx core 1).task.isNone with
  | true, true => some (if Sys2Proof.Config.freeNat s.fresh / 2 ^ 19 % 2 = 0 then 0 else 1)
  | true, false => some 0
  | false, true => some 1
  | false, false => none

/-- Whether a partition's tasks may start (R335, R369). -/
def partOpen (s : State) (p : Nat) : Bool :=
  let x := s.part p
  !x.spent && !x.locked && (match s.resetting with | some r => decide (r.part ≠ p) | none => true)

/-- R258 and R261, but for the Cocoon: whether a core can accept a task, a new one or a saved one. -/
def coreTakes (s : State) (core part : Nat) (h : Header) (superstep : Bool) : Bool :=
  let c := s.core core
  let ts := onCore s core
  let fits := fun k size => decide ((ts.map (fun t => codeSize t k)).foldl (· + ·) 0 + ((h.sections.getD k {}).size + 63) / 64 * 64 ≤ size)
  decide (core < 272) && !isSystem core && decide (c.part.toNat = part) && !c.scrub && !c.failed && partOpen s part &&
  (freeSlot s core).isSome &&
  decide ((ts.map (fun t => roundedRegs t.hdr)).foldl (· + ·) 0 + roundedRegs h ≤ 20) &&
  decide ((ts.map (fun t => t.hdr.scratch)).foldl (· + ·) 0 + h.scratch ≤ 2 ^ 22) &&
  !weightsBusy s (dieOf core) part && !weightsMoving s (dieOf core) part && (!superstep || ts.isEmpty) &&
  fits 0 65536 && fits 1 32768 && fits 2 32768 && fits 3 32768 && fits 4 32768 &&
  ts.all (fun t => decide (t.hdr.flags &&& h.flags &&& 0xE = 0))

/-- How many frames a Cocoon takes (R362). -/
def cocoonSize (h : Header) : Nat := 1 + (h.scratch + 65535) / 65536 + 8

/-- `n` free frames of a Hamper's stacked DRAM, looked for from the i-th on. -/
def pickCocoon (s : State) (h n : Nat) : Nat → Nat → List Nat → Option (List Nat)
  | 0, _, got => if n ≤ got.length then some got else none
  | fuel + 1, i, got =>
    if n ≤ got.length then some got
    else
      let f := h * 2 ^ 19 + i % 2 ^ 19
      pickCocoon s h n fuel (i + 1) (if isFree s 0 f then got ++ [f] else got)

/-- The frames of a Cocoon for a task of a partition on a core, if its guarantee and the free pool allow them. -/
def cocoonFor (s : State) (core part : Nat) (h : Header) (i : Nat) : Option (List Nat) :=
  if (s.part part).frg.toNat < frs s part + cocoonSize h then none
  else pickCocoon s (hamperOf core) (cocoonSize h) (2 ^ 19) i []

/-! ## The state a task starts with -/

/-- The peer that a binding code names (R77). -/
def peerOfCode (n : Nat) : Option Party :=
  match n with
  | 1 => some .m | 2 => some .v | 3 => some .x | 4 => some .y
  | 8 => some .w0 | 9 => some .w1 | 10 => some .w2 | 11 => some .w3
  | _ => none

/-- The joins that the sections' bindings record: (engine, k, peer). -/
def joinsOf (secs : List Section) : List (Party × Nat × Party) :=
  [(1, Party.m), (2, .v), (3, .x), (4, .y)].flatMap (fun e =>
    [1, 2, 3].filterMap (fun k =>
      (peerOfCode (bits (secs.getD e.1 {}).bindings.toNat (4 * k - 1) (4 * k - 4))).map (fun p => (e.2, k, p))))

/-- The peers of a party (R30). -/
def peersFor (js : List (Party × Nat × Party)) (p : Party) : Sparse Party :=
  js.foldl (fun m j => if j.1 = p then put m j.2.1 j.2.2 else if j.2.2 = p then put m j.2.1 j.1 else m) []

/-- `n` bytes at `a` written anew: zero but for `code` at `o`. An error that they held is overwritten unused (R346). -/
def layCode (s : State) (a n o : Nat) (code : List Byte) : State :=
  { s with mem := writeBytes (clearRange s.mem a n) o code,
           flips := s.flips.filter (fun e => !(decide (a ≤ e.1) && decide (e.1 < a + n))) }

/-- The bytes of an instruction memory that a slot's section does not take become zero, and the section is laid in its
window (R261, R262). `keep` is the code size of the other slot's section. -/
def loadSection (s : State) (core slot k size keep : Nat) (code : List Byte) : State :=
  let base := phys (tagImem core k) 0
  let z := (code.length + 63) / 64 * 64
  if 5 ≤ k then layCode s (base + slot * size) size (base + slot * size) code
  else if slot = 0 then layCode s base (size - keep) base code
  else layCode s (base + keep) (size - keep) (base + (size - z)) code

/-- The size of instruction memory k of a core, or of a window of it (R45). -/
def sectionRoom (core k : Nat) : Nat := imemSize ⟨core, 0, match k with | 0 => .w0 | 1 => .m | 2 => .v | 3 => .x | 4 => .y | 5 => .c | _ => .s⟩

/-- Loads the sections of a task into the instruction memories of its slot. -/
def loadSections (core slot : Nat) (t : Task) : List Nat → State → Except Bool State
  | [], s => .ok s
  | k :: ks, s =>
    let sec := t.hdr.sections.getD k {}
    let keep := match (s.ctx core (1 - slot)).task with | some o => codeSize o k | none => 0
    match partRead s t.part (t.kernel.toNat + sec.offset) sec.size with
    | .ok (u, code) => loadSections core slot t ks (loadSection u core slot k (sectionRoom core k) keep code)
    | .error e => .error e

/-- A party of a task at its start (R262). -/
def freshParty (t : Task) (js : List (Party × Nat × Party)) (p : Party) : PartyState :=
  if p.isWing then
    { run := .running, pc := word (4 * (t.hdr.sections.getD 0 {}).entry), peers := peersFor js p,
      regs := loadRegs (t.idx ++ [word p.num, t.args]) }
  else { run := .idle, peers := peersFor js p }
where
  loadRegs (vs : List Word) : Sparse Word :=
    ((List.range 8).zip vs).foldl (fun m e => if e.2 = 0 then m else put m e.1 e.2) []

/-- A slot whose parties hold nothing. -/
def clearParties (s : State) (core slot : Nat) : State :=
  { s with parties := s.parties.filter (fun e => decide (e.1 / 10 ≠ core * 2 + slot)) }

/-- A task laid on a slot: its code, its data image and its starting state (R261, R262). Its parties follow every task that
has completed (R211). What the part cannot read ends the task at once (R19, R346). (Log 51 DEDUCED.) The reset divisors that it brings
to a core with no other task are base divisors: a domain that still runs at /10 or /11 does so to the end of the interval (log 110
DESIGN CHOICE). -/
def startTask (s : State) (core slot : Nat) (t : Task) : State :=
  let js := joinsOf t.hdr.sections
  let alone := (onCore s core).isEmpty
  let s1 := allParties.foldl (fun u p => u.setParty ⟨core, slot, p⟩ (freshParty t js p)) (clearParties s core slot)
  let s2 := allParties.foldl (fun u p => orderAll u ⟨core, slot, p⟩) (s1.setCtx core slot { task := some t, disturbed := true })
  let s3 := s2.modCore core (fun c =>
    let c1 := if alone then { c with div0 := 12, div1 := 12, div2 := 12, div3 := 14 } else c
    { c1 with trellis := if alone || t.hdr.flags.getLsbD 2 then [] else c1.trellis, waking := c1.waking || c1.gated })
  let s4 := { s3 with windows := s3.windows.map (fun e =>
    (e.1, if e.2.live ∧ e.2.importer = t.part then { e.2 with users := e.2.users ++ [t.serial.toNat] } else e.2)) }
  match loadSections core slot t [0, 1, 2, 3, 4, 5, 6] s4 with
  | .error lost => markDying s4 core slot (if lost then errUncorrectable else errTranslation) 0
  | .ok s5 =>
    match partRead s5 t.part (t.kernel.toNat + t.hdr.dataOffset) t.hdr.dataSize with
    | .error lost => markDying s5 core slot (if lost then errUncorrectable else errTranslation) 0
    | .ok (s6, image) =>
      match writeScratch s6 core slot 0 image with
      | some s7 => s7
      | none => markDying s6 core slot errUncorrectable 0

/-! ## Saving and restoring a context -/

/-- The flipped words of `n` bytes at `a`. -/
def regionFlips (s : State) (a n : Nat) : List Nat :=
  (s.flips.filter (fun e => decide (a ≤ e.1) && decide (e.1 < a + n))).map (fun e => e.1)

/-- The parts of a task's Cocoon that saving it writes, each a frame and how many bytes of it: registers and phase checkpoint, the
scratchpad, and the accumulators of a task that holds the matrix engine (R285, R362). No rule gives the layout of the first frame, which
a save and a swap of a phase write whole (log 122 DESIGN CHOICE). -/
def cocoonParts (t : Task) : List (Nat × Nat) :=
  let n := (t.hdr.scratch + 65535) / 65536
  (t.frames.take 1).map (fun c => (c, 65536)) ++
  ((List.range n).zip (t.frames.drop 1)).map (fun e => (e.2, min 65536 (t.hdr.scratch - 65536 * e.1))) ++
  (if t.hdr.flags.getLsbD 1 then (t.frames.drop (1 + n)).map (fun c => (c, 65536)) else [])

/-- The flipped words of a part of a Cocoon. -/
def cocoonFlips (s : State) (e : Nat × Nat) : List Nat := regionFlips s (framePhys 0 64 0 (bits e.1 39 0) 0) e.2

/-- Parts of a Cocoon are written: their frames count as dirty (R371), and the errors that they held are overwritten unused (R346). -/
def cocoonWritten (s : State) (parts : List (Nat × Nat)) : State :=
  let gone := parts.flatMap (cocoonFlips s)
  parts.foldl (fun t e => logDirty t (some e.1)) { s with flips := s.flips.filter (fun e => !gone.contains e.1) }

/-- Parts of a Cocoon checked as they are read back, each word at the home die of its frame (R186, R350): none where a word of them is
uncorrectable (R345, R346). -/
def framesChecked (s : State) : List (Nat × Nat) → Option State
  | [] => some s
  | e :: es =>
    match checkWords s (frameHome 0 0 (bits e.1 39 0)) (cocoonFlips s e) with
    | some t => framesChecked t es
    | none => none

/-- Where a task's reservation lies in a core's scratchpad (R259). -/
def reservationBase (core slot : Nat) (h : Header) : Nat :=
  phys (tagScratch core) (if slot = 0 then 0 else (scratchSize core - h.scratch) % scratchSize core)

/-- The bytes of a core's accumulators (R14). -/
def accSize : Nat := 8 * 65536

/-- Whether a party may be saved where it stands (R284, R212): an engine that runs an entry only between two chunks of a
copy (R235), its other stores performed. -/
def saveable (x : PartyState) : Bool :=
  (decide (x.run ≠ .running) || (match x.busy with | some (.copy c, _, _) => decide (c.op < 5) | _ => false)) &&
  decide (x.view.late = [])

/-- Whether every store of a slot's task that has retired is performed. -/
def storesDone (s : State) (core slot : Nat) (t : Task) : Bool :=
  allParties.all (fun p => decide ((s.party ⟨core, slot, p⟩).view.late = [])) &&
  !s.flights.any (fun f => !f.copy && decide (f.serial = t.serial.toNat))

/-- Whether a slot may be saved: its engines are done, and every access is performed. -/
def slotSaveable (s : State) (core slot : Nat) : Bool :=
  engines.all (fun p => saveable (s.party ⟨core, slot, p⟩)) &&
  !(s.core core).ops.any (fun o => decide (o.slot = slot)) &&
  (match (s.ctx core slot).task with
   | some t => storesDone s core slot t && (!t.superstep || wings.all (fun w => let x := s.party ⟨core, slot, w⟩
         decide (x.run = .ended) || decide (x.wait = .step true)))
   | none => false)

/-- A waiting instruction is issued again (R284); a barrier, superstep or swap that has completed stays so. -/
def abandon (x : PartyState) : PartyState :=
  match x.wait with
  | .bar _ true | .step true | .phase _ true => x
  | _ => { x with wait := .no }

/-- The parties of a slot as a Cocoon keeps them. -/
def savedParties (s : State) (core slot : Nat) : Sparse PartyState :=
  allParties.map (fun p => (p.num, abandon (s.party ⟨core, slot, p⟩)))

/-- The slot of a core whose task holds the vertical FIFOs (R261). -/
def vqSlot (s : State) (core : Nat) : Option Nat :=
  [0, 1].find? (fun k => match (s.ctx core k).task with | some t => t.hdr.flags.getLsbD 3 | none => false)

/-- The slot of the other core whose task is bound to the column with a slot's: once one of the two has used vq (R286). -/
def columnMate (s : State) (core slot : Nat) : Option (Nat × Nat) :=
  match (s.ctx core slot).task, vqSlot s (partnerOf core) with
  | some t, some k =>
    match (s.ctx (partnerOf core) k).task with
    | some u => if t.hdr.flags.getLsbD 3 && (t.bound || u.bound) then some (partnerOf core, k) else none
    | none => none
  | _, _ => none

/-- The serial of the task of a slot; 0 for none. -/
def serialAt (s : State) (e : Nat × Nat) : Nat := match (s.ctx e.1 e.2).task with | some t => t.serial.toNat | none => 0

/-- Whether a register, a vertical entry or an operand of what is saved with a slot's task holds an uncorrectable error (R285,
R346). -/
def spoilt (s : State) (core slot : Nat) (mset pops : Bool) : Bool :=
  let c := s.core core
  allParties.any (fun p =>
    let x := s.party ⟨core, slot, p⟩
    decide (x.spoilt ≠ 0) || x.v.any (fun e => e.2.any (fun y => y.bad))) ||
  (mset && (c.fifoA ++ c.fifoB).any (fun x => x.bad)) || (pops && (c.vin ++ c.vfly).any (fun x => x.bad))

/-- Saves the task of a slot, with the serial of its column mate, and empties the slot; none where an uncorrectable error is
met (R365). The entries that it may pop go with it (R286), and its Cocoon is written (R371). (Log 43 DESIGN
CHOICE.) -/
def saveTask (s : State) (core slot mate : Nat) (parked : Bool) : Option State :=
  match (s.ctx core slot).task with
  | none => some s
  | some t =>
    let x := s.ctx core slot
    let base := reservationBase core slot t.hdr
    let acc := phys (tagAcc core) 0
    let mset := t.hdr.flags.getLsbD 1
    let flips := regionFlips s base t.hdr.scratch ++ (if mset then regionFlips s acc accSize else [])
    let pops := t.hdr.flags.getLsbD 3
    if spoilt s core slot mset pops then none
    else
    match checkWords s (dieOf core) flips with
    | none => none
    | some s0 =>
      let s1 := cocoonWritten s0 (cocoonParts t)
      let c := s1.core core
      let trellis := if t.hdr.flags.getLsbD 2 then c.trellis else []
      let accum := if mset then cellsIn s1.mem acc accSize else []
      let fifos := if mset then (c.fifoA, c.fifoB) else ([], [])
      let vin := if pops then c.vin ++ c.vfly else []
      let k : Cocoon := ⟨{ t with bound := t.bound || decide (mate ≠ 0) }, savedParties s core slot, x.sh, x.checkpoint, trellis,
        cellsIn s1.mem base t.hdr.scratch, accum, fifos.1, fifos.2, vin, parked, decide (core / 17 % 2 = 1), mate,
        clockOf s (dieOf core), false⟩
      let s2 := vacate (dropClaims s1 core slot) core slot
      let s3 := s2.modCore core (fun d =>
        { d with fifoA := if mset then [] else d.fifoA, fifoB := if mset then [] else d.fifoB,
                 vin := if pops then [] else d.vin, vfly := if pops then [] else d.vfly })
      let s4 := (clearParties s3 core slot).setCtx core slot {}
      some { s4 with cocoons := s4.cocoons ++ [k] }

/-- Parties laid on a slot. -/
def layParties (s : State) (core slot : Nat) : Sparse PartyState → State
  | [] => s
  | (n, x) :: rest =>
    let p := (allParties.getD n .w0)
    layParties (s.setParty ⟨core, slot, p⟩ x) core slot rest

/-- No party can still read what a core's scratchpad and accumulators held. -/
def forgetCore (s : State) (core : Nat) : State := forget (forget s (phys (tagScratch core) 0) (scratchSize core)) (phys (tagAcc core) 0) accSize

/-- Restores a Cocoon onto a slot; none where reading it, its code sections included, meets an uncorrectable error (R364,
R365). What its die knew, the new die learns, and every access that it has made before comes before what its parties do from now
on (R212). The core's divisors stay as they are (log 104 DESIGN CHOICE). -/
def restoreTask (s : State) (core slot : Nat) (k : Cocoon) : Option State :=
  let t := k.task
  match framesChecked s (cocoonParts t) with
  | none => none
  | some s =>
    let s0 := learn s (dieOf core) k.clock
    let mset := t.hdr.flags.getLsbD 1
    let base := reservationBase core slot t.hdr
    let acc := phys (tagAcc core) 0
    let s1 := { s0 with cocoons := s0.cocoons.filter (fun c => decide (c.task.serial ≠ t.serial)) }
    let m1 := writeCells (clearRange s1.mem base t.hdr.scratch) base k.scratch
    let m2 := if mset then writeCells (clearRange m1 acc accSize) acc k.accum else m1
    let gone := regionFlips s1 base t.hdr.scratch ++ (if mset then regionFlips s1 acc accSize else [])
    let s2 := forgetCore { s1 with mem := m2, flips := s1.flips.filter (fun e => !gone.contains e.1) } core
    let s3 := allParties.foldl (fun u p => orderPoint u ⟨core, slot, p⟩) (layParties (clearParties s2 core slot) core slot k.parties)
    let s4 := s3.setCtx core slot { task := some t, sh := k.shared, checkpoint := k.checkpoint, disturbed := true }
    let s5 := s4.modCore core (fun c =>
      { c with trellis := if t.hdr.flags.getLsbD 2 then k.trellis else c.trellis,
               fifoA := if mset then k.fifoA else c.fifoA, fifoB := if mset then k.fifoB else c.fifoB,
               vin := if t.hdr.flags.getLsbD 3 then k.vin ++ c.vin else c.vin, waking := c.waking || c.gated })
    match loadSections core slot t [0, 1, 2, 3, 4, 5, 6] s5 with
    | .ok s6 => some s6
    | .error true => none
    | .error false => some (markDying s5 core slot errTranslation 0)

/-- Posts the notice record of a context error (R348): the codes that the part itself gives (log 38 DEDUCED). -/
def notice (s : State) (die serial core slot part cause : Nat) (tval : Word) : State :=
  if 0x101 ≤ cause ∧ cause ≤ 0x108 then
    s.post die ⟨BitVec.ofNat 16 cause, 0, tval, tstatNone serial core slot, none, part, 0, 0⟩
  else s

/-! ## The task of a serial -/

/-- The serial that a record's TSTAT holds (R349). -/
def recSerial (r : Record) : Nat := bits r.tstat.toNat 53 32

/-- The core that a record's TSTAT holds (R349). -/
def recCore (r : Record) : Nat := bits r.tstat.toNat 25 17

/-- Where a task of a serial is resident. -/
def slotOfSerial (s : State) (serial : Nat) : Option (Nat × Nat × Task) :=
  (residents s).find? (fun e => decide (e.2.2.serial.toNat = serial))

/-- A pre-empted or parked task of a serial. -/
def cocoonOfSerial (s : State) (serial : Nat) : Option Cocoon := s.cocoons.find? (fun c => decide (c.task.serial.toNat = serial))

/-- The saved task bound to a column with a saved task (R286). -/
def mateOf (s : State) (c : Cocoon) : Option Cocoon := if c.mate = 0 then none else cocoonOfSerial s c.mate

/-- Tasks that are not resident end with a context error (R354). -/
def endSaved (s : State) (die cause : Nat) (tval : Word) : List Cocoon → State
  | [] => s
  | c :: cs =>
    let t := notice (releaseCocoon s c) die c.task.serial.toNat 0 0 c.task.part cause tval
    endSaved (taskEnded t c.task (some cause)) die cause tval cs

/-- A task that is not resident ends with a context error, and with the same cause the task bound to its column with it
(R354). -/
def endCocoon (s : State) (die cause : Nat) (tval : Word) (c : Cocoon) : State :=
  endSaved s die cause tval (c :: (mateOf s c).toList)

/-- TVAL of a context error's notice (R348): the core of a datapath fault, otherwise 0. -/
def errorVal (cause core : Nat) : Word := if cause = errDatapath then word core else 0

/-- The task of a serial, if it has not ended, meets a context error. `core` is where it was last known to be: the core of a
datapath fault of a task that is not resident (log 109 DESIGN CHOICE). -/
def endSerial (s : State) (die core serial cause : Nat) : State :=
  match slotOfSerial s serial with
  | some (here, slot, _) => markDying s here slot cause (errorVal cause here)
  | none =>
    match cocoonOfSerial s serial with
    | some c => endCocoon s die cause (errorVal cause core) c
    | none => s

/-- The context of a task, resident or saved, is marked lost (R365). -/
def markLost (s : State) (t : Task) : State :=
  { s with
    ctxs := s.ctxs.map (fun e => (e.1, if e.2.task.any (fun u => decide (u.serial = t.serial)) then { e.2 with lost := true } else e.2)),
    cocoons := s.cocoons.map (fun c => if c.task.serial = t.serial then { c with lost := true } else c) }

/-- A context is lost (R365): its launch ends with status 2 and cause 0x0107, a notice says so (R348), and its partition is
reset, after a reset that is under way. `e` is the slot where it was to be saved or restored. -/
def loseContext (s : State) (e : Nat × Nat) (t : Task) : State :=
  let s1 := (notice (markLost s t) (dieOf e.1) t.serial.toNat e.1 e.2 t.part errLost 0).modQueue t.part t.queue (fun q =>
    { q with head := q.head.map (fun l => if l.id = t.launch then { l with cause := some errLost } else l) })
  if s1.prstat.getLsbD 7 then { s1 with resetDue := s1.resetDue ++ [t.part] } else beginReset s1 t.part

/-- Where a saved task fits: its core's slot, if the core can accept it (R258), and no XWS has written its die's weight store since the
task began (R183; log 77 DEDUCED). -/
def restoreSlot (s : State) (core : Nat) (k : Cocoon) : Option Nat :=
  if k.task.stale.contains (dieOf core) then none
  else if coreTakes s core k.task.part k.task.hdr k.task.superstep then freeSlot s core else none

end Sys2Proof.Machine
end

