-- ==== Sys2Proof/Machine/Recovery.lean ====
section
/-! DEFINITION. Recovery: records and their handler (R351, R352), context errors (R354), PHSWAP (R355–R357), CTXSV and
CTXLD (R363, R364), known-answer checks and patrol (R345, R361), the Lookout (R366–R368), resets and scrubs (R331, R369),
owner changes (R385) and published counters (R332). -/

namespace Sys2Proof.Machine

/-! ## Records and their handler -/

/-- w0 of a die's system core. -/
def w0Of (die : Nat) : PartyId := ⟨17 * die + 16, 0, .w0⟩

/-- Whether w0 of a die takes a record at this boundary (R351). A barrier that has opened is past, unless it waits for room for its
token. -/
def mayTake (s : State) (die : Nat) : Bool :=
  let d := s.die die
  let x := s.party (w0Of die)
  d.en && !d.inh && !d.double && decide (x.run = .running) &&
  (match x.wait with
   | .bar _ true => pushFull (s.setCur (w0Of die)) (BitVec.ofNat 2 (bits (wordAt s (w0Of die) x.pc.toNat).toNat 28 27))
   | _ => true)

/-- w0 takes a record (R351): TRET, the trap registers, TCTL.inh, pc. Its repetitions and loops are put aside, and ERET
gives them back (R37). (Log 29 DEDUCED.) -/
def enterHandler (s : State) (die : Nat) (r : Record) (rest : List Record) : State :=
  let p := w0Of die
  let x := s.party p
  let s1 := s.setParty p { x with tcause := r.cause, tpc := r.tpc, tval := r.tval, tstat := r.tstat, wait := .no, push := none,
                                  pc := (s.die die).tvec.setWidth 64, repc := 0 }
  let s2 := s1.modDie die (fun d =>
    { d with tret := x.pc.setWidth 16, inh := true, pend := rest, held := some r, repc := x.repc, ls := x.ls, order := x.order, began := x.began })
  let s3 := { s2 with loads := s2.loads.filter (fun l => decide (l.agent ≠ p)) }
  if (s.ctx p.core 0).sh.lock then syncWings s3 p.core 0 else s3

/-- Whether a record is there for w0 of a die to take at this boundary. -/
def takesRecord (s : State) (die : Nat) : Bool := mayTake s die && !(s.die die).pend.isEmpty

/-- w0 takes the oldest pending record. -/
def takeRecord (s : State) (die : Nat) : State :=
  match (s.die die).pend with
  | r :: rest => enterHandler s die r rest
  | [] => s

/-- TAKE_RECORD (R351). -/
def execTakeRecord (die : Nat) (s : State) : Host.Outcome State Fault Refusal :=
  occurs s (takesRecord s die) (takeRecord s die)

/-- A saved party goes on at or past the word at `tpc` (R352). -/
def returnSaved (x : PartyState) (tpc : Word) (act n : Nat) : PartyState :=
  let y := { x with held := false, pc := tpc }
  if act = 0 then y
  else if 2 ≤ y.repc.toNat then { y with repc := y.repc - 1 }
  else passWord { y with repc := 0 } (tpc.toNat + 4 * (n - 1)) 4

/-- The return from a trap of a task that has been pre-empted meanwhile. -/
def returnCocoon (c : Cocoon) (p : Party) (tpc : Word) (act n : Nat) : Cocoon :=
  if c.shared.lock && p.isWing then
    let w0 := look {} c.parties 0
    let y := if act = 0 then w0 else passWord w0 w0.pc.toNat 16
    let f := fun (e : Nat × PartyState) =>
      if e.1 = 0 then (e.1, { y with held := false })
      else if e.1 < 4 then (e.1, { e.2 with held := false, pc := y.pc + word (4 * e.1) })
      else e
    { c with parties := c.parties.map f }
  else { c with parties := put c.parties p.num (returnSaved (look {} c.parties p.num) tpc act n) }

/-- The party that a trap record holds goes on (R352): nothing where its task has ended meanwhile. -/
def resumeRecord (s : State) (r : Record) (act : Nat) : State :=
  let n := if r.cause.toNat = causeKat then 3 else 1
  match r.party with
  | none => s
  | some p =>
    if isSystem p.core then returnTo s p r.tpc act n
    else
      match slotOfSerial s (recSerial r) with
      | some (core, slot, _) => returnTo s ⟨core, slot, p.party⟩ r.tpc act n
      | none =>
        { s with cocoons := s.cocoons.map (fun c =>
            if c.task.serial.toNat = recSerial r then returnCocoon c p.party r.tpc act n else c) }

/-- Every task of a launch meets a context error (R352). -/
def endTasksOf (s : State) (die core launch cause : Nat) : State :=
  let here := ((residents s).filter (fun e => decide (e.2.2.launch = launch))).map (fun e => e.2.2.serial.toNat)
  let saved := (s.cocoons.filter (fun c => decide (c.task.launch = launch))).map (fun c => c.task.serial.toNat)
  (here ++ saved).foldl (fun t n => endSerial t die core n cause) s

/-- Whether a partition is being reset. -/
def underReset (s : State) (p : Nat) : Bool := match s.resetting with | some r => decide (r.part = p) | none => false

/-- TPEND (R350). (Log 46 DEDUCED.) -/
def tpend (d : DieState) : Nat := d.pend.length % 256

/-- The end of an ERET that has disposed of its record: TCTL.inh, s[d], pc. -/
def leaveHandler (s : State) (die : Nat) (d : B6) (own : Bool) : Act :=
  let s1 := s.modDie die (fun x => { x with inh := false, held := none })
  let pc := if own then (s1.party (w0Of die)).pc else (s.die die).tret.setWidth 64
  .done ((s1.setReg d.toNat (word (tpend (s1.die die))) false).modMe (fun x => { x with pc := pc })) 0

/-- ERET (R352). The record is what w0 took; the handler has no means of changing it (log 36 DEDUCED). While the record's
partition is being reset, act 2 ends no task (R372). -/
def eret (s : State) (d a : B6) : Act :=
  let die := myDie s
  let v := (s.reg a.toNat).toNat
  let act := v % 4
  let code := bits v 31 16
  let bad := fun (_ : Unit) => badOperand s
  if (s.die die).inh = false then bad ()
  else if bits v 63 32 ≠ 0 ∨ bits v 15 2 ≠ 0 ∨ act = 3 then bad ()
  else if act = 2 ∧ ¬ ((0x101 ≤ code ∧ code ≤ 0x108) ∨ 0x8000 ≤ code) then bad ()
  else
    let s1 := s.modParty (w0Of die) (fun x =>
      { x with repc := (s.die die).repc, ls := (s.die die).ls, order := (s.die die).order,
               began := (s.die die).began })
    match (s.die die).held with
    | none => leaveHandler s1 die d false
    | some r =>
      match r.party with
      | some p =>
        let own := decide (p = w0Of die)
        if act = 2 then
          if isSystem p.core then bad ()
          else leaveHandler (if underReset s r.part then s1 else endSerial s1 die (recCore r) (recSerial r) code) die d own
        else if act = 1 ∧ r.cause.toNat ≠ causeSoftware ∧ r.cause.toNat ≠ causeKat then bad ()
        else leaveHandler (resumeRecord s1 r act) die d own
      | none =>
        if r.cause.toNat = causeHang then
          if act = 2 then leaveHandler (if underReset s r.part then s1 else endTasksOf s1 die (recCore r) r.launch code) die d false
          else leaveHandler (s1.modQueue r.part r.queue (fun q => { q with lkcnt := 0 })) die d false
        else leaveHandler s1 die d false

def execEret (w g : B2) (d a : B6) (s : State) : Host.Outcome State Fault Refusal :=
  supervised s w g (fun s => eret s d a)

/-! ## The supervisor's image -/

/-- The section descriptors of a kernel image, W first (R76, R77). -/
def sectionsOf (h : List Byte) : List Section :=
  (List.range 7).map (fun k =>
    let o := 0x18 + 16 * k
    ⟨recField h o 4, recField h (o + 4) 4, BitVec.ofNat 16 (recField h (o + 8) 2), recField h (o + 10) 2⟩)

/-- Loads a supervisor image and starts w0 of the die's system core at its entry (R351, R383). Its wings leave their groups, whose
barriers may complete (R278). (Log 32 DEDUCED.) -/
def startSupervisor (s : State) (die : Nat) (i : Image) : State :=
  let core := 17 * die + 16
  let secs := sectionsOf i.bytes
  let js := joinsOf secs
  let s1 := (List.range 7).foldl (fun t k =>
    let sec := secs.getD k {}
    loadSection t core 0 k (sectionRoom core k) 0 ((i.bytes.drop sec.offset).take sec.size)) s
  let left := (s.parties.filter (fun e => decide (e.1 / 20 = core))).flatMap (fun e => e.2.groups)
  let s2 := left.eraseDups.foldl (fun t g => checkBarrier t 64 g) ((clearParties s1 core 0).setCtx core 0 {})
  let s3 := allParties.foldl (fun t p => t.setParty ⟨core, 0, p⟩
    { run := if p = .w0 then .running else if p.isWing then .off else .idle, peers := peersFor js p,
      pc := if p = .w0 then word i.entry else 0 }) s2
  s3.modDie die (fun d =>
    { d with image := some i, sections := secs, tvec := 0, tret := 0, en := true, inh := false, held := none, double := false })

/-- SUPERVISOR_RESTART (R351): every task that a record on the die holds ends with 0x0108. A hang record or notice that w0 held
is pending again: it stands until the supervisor disposes of it (R372). (Log 37 DEDUCED.) -/
def execSupervisorRestart (die : Nat) (s : State) : Host.Outcome State Fault Refusal :=
  let d := s.die die
  let all := d.held.toList ++ d.pend
  let recs := all.filter (fun r => r.party.isSome)
  let s1 := s.modDie die (fun d => { d with pend := all.filter (fun r => r.party.isNone), held := none })
  let s2 := recs.foldl (fun t r =>
    match r.party with
    | some p => if isSystem p.core then t else endSerial t die (recCore r) (recSerial r) errRestart
    | none => t) s1
  match d.image with
  | some i => occurs s d.double (startSupervisor s2 die i)
  | none => .next s

/-! ## Context errors (R354) -/

/-- A resident task ends with a context error. -/
def endWithError (s : State) (core slot cause : Nat) (tval : Word) : State :=
  match (s.ctx core slot).task with
  | some t =>
    let s1 := releaseTask s core slot t
    taskEnded (notice s1 (dieOf core) t.serial.toNat core slot t.part cause tval) t (some cause)
  | none => s

/-- Empties the vertical FIFOs of a column. -/
def emptyColumn (s : State) (core : Nat) : State :=
  let f := fun (c : CoreState) => { c with vin := [], vfly := [] }
  (s.modCore core f).modCore (partnerOf core) f

def execContextError (core slot : Nat) (s : State) : Host.Outcome State Fault Refusal :=
  match (s.ctx core slot).dying, (s.ctx core slot).task with
  | some (cause, tval), some t =>
    let mate := columnMate s core slot
    let done := fun (e : Nat × Nat) => match (s.ctx e.1 e.2).task with | some u => storesDone s e.1 e.2 u | none => true
    let s1 := endWithError s core slot cause tval
    let s2 := match mate with | some e => endWithError s1 e.1 e.2 cause tval | none => s1
    occurs s (done (core, slot) && mate.all done) (if t.bound || mate.isSome then emptyColumn s2 core else s2)
  | _, _ => .next s

/-! ## PHSWAP (R355–R357) -/

def phbValid (p : Word) : Bool := p.getLsbD 63
def phbFront (p : Word) : Bool := p.getLsbD 62
def phbSize (p : Word) : Nat := 4096 * bits p.toNat 29 20
/-- The offset of half A (false) or B (true). -/
def phbBase (p : Word) (b : Bool) : Nat := 4096 * (if b then bits p.toNat 9 0 else bits p.toNat 19 10)

/-- Whether a pair may swap: in use, its halves inside the reservation and apart. -/
def phbOk (s : State) (p : Word) : Bool :=
  let res := match s.myCtx.task with | some t => t.hdr.scratch | none => 0
  let a := phbBase p false
  let b := phbBase p true
  let z := phbSize p
  phbValid p && decide (0 < z) && decide (a + z ≤ res) && decide (b + z ≤ res) && (decide (a + z ≤ b) || decide (b + z ≤ a))

/-- The swap itself, with its checkpoint, which is written into the Cocoon's first frame (R362, R371) before the retried bits clear;
each waiting wing goes on past its PHSWAP when it next moves. -/
def swapPhase (s : State) (n : Nat) : State :=
  let core := s.cur.core
  let slot := s.cur.slot
  let s1 := s.modSh (fun h =>
    { h with phb := put h.phb n (look 0 h.phb n ^^^ word (2 ^ 62)), front := put h.front n (look [] h.back n),
             back := put h.back n [], short := setBit h.short n (h.phst.getLsbD (8 + n)),
             phst := setBit h.phst (8 + n) false })
  let s2 := wings.foldl (fun t p => t.modParty ⟨core, slot, p⟩ (fun x =>
    if x.wait = .phase n false then { x with wait := .phase n true } else x)) s1
  let c := s2.core core
  let flags := match s2.myCtx.task with | some t => t.hdr.flags | none => 0
  let bound := match s2.myCtx.task with | some t => t.bound | none => false
  let trellis := if flags.getLsbD 2 then c.trellis else []
  let fifos := if flags.getLsbD 1 then (c.fifoA, c.fifoB) else ([], [])
  let vin := if bound then c.vin ++ c.vfly else []
  let k : Checkpoint := ⟨allParties.map (fun p => (p.num, s2.party ⟨core, slot, p⟩)), s2.myCtx.sh, trellis, fifos.1, fifos.2, vin⟩
  let s3 := match s2.myCtx.task with | some t => cocoonWritten s2 ((cocoonParts t).take 1) | none => s2
  s3.modMyCtx (fun x => { x with checkpoint := some k, sh := { x.sh with phst := x.sh.phst &&& 0xFF00 } })

/-- PHSWAP n. In lock-step the words of a bundle come to wait together (log 35 DEDUCED). -/
def phswap (s : State) (n : Nat) (g : B2) : Act :=
  if s.me.wait = .phase n true then .done s 1
  else if s.supervisor || !phbOk s (look 0 s.myCtx.sh.phb n) then badOperand s
  else
    let t := s.modMe (fun x => { x with wait := .phase n false })
    let there := fun (p : PartyId) => decide ((t.party p).run = .ended) || decide ((t.party p).wait = .phase n false)
    if s.inLock ∧ s.me.wait ≠ .phase n false then .wait t
    else if (myWings t).all there && drained t t.cur.core t.cur.slot &&
        (allParties.all (fun p => decide ((t.party ⟨t.cur.core, t.cur.slot, p⟩).view.late = []))) then
      (if signalWaits s g then .wait (swapPhase t n) else .done (swapPhase t n) 1)
    else .wait t

def execPhswap (w g : B2) (n : BitVec 3) (s : State) : Host.Outcome State Fault Refusal :=
  tokened s .wing w g (fun s => phswap s n.toNat g)

/-! ## Pre-emption by the supervisor (R363, R364) -/

/-- The slots whose tasks are pre-empted only together with one's: its column partner's (R286), every slot of its launch in a
superstep launch (R284). -/
def preemptMates (s : State) (e : Nat × Nat) : List (Nat × Nat) :=
  let whole := match (s.ctx e.1 e.2).task with
    | some t => if t.superstep then ((residents s).filter (fun r => decide (r.2.2.launch = t.launch))).map (fun r => (r.1, r.2.1)) else []
    | none => []
  (columnMate s e.1 e.2).toList ++ whole

/-- The slots closed under their mates, `fuel` rounds at most. -/
def closeGroup (s : State) : Nat → List (Nat × Nat) → List (Nat × Nat)
  | 0, es => es
  | fuel + 1, es =>
    let more := (es ++ es.flatMap (preemptMates s)).eraseDups
    if more.length = es.length then es else closeGroup s fuel more

/-- The slots that are pre-empted together with a task's, each with those that only go together with it (R284, R286). -/
def preemptGroup (s : State) (core slot : Nat) : List (Nat × Nat) := closeGroup s 544 [(core, slot)]

/-- Asks for the pre-emption of slots. -/
def haltSlots (s : State) (es : List (Nat × Nat)) : State := es.foldl (fun t e => haltSlot t e.1 e.2) s

/-- Saves slots, each with the serial of its column mate; where a save meets an uncorrectable error, its slot and task are
given back, and the context is lost. -/
def saveSlots (s : State) (mate : Nat × Nat → Nat) (park : Nat × Nat → Bool) :
    List (Nat × Nat) → State × Option ((Nat × Nat) × Task)
  | [] => (s, none)
  | e :: es =>
    match saveTask s e.1 e.2 (mate e) (park e) with
    | some t => saveSlots t mate park es
    | none => (s, (s.ctx e.1 e.2).task.map (fun t => (e, t)))

/-- The serial of the column mate of a slot's task; 0 for none. -/
def mateSerial (s : State) (e : Nat × Nat) : Nat :=
  match columnMate s e.1 e.2 with | some f => serialAt s f | none => 0

/-- Whether the slots of a group may be saved now: all of them stopped, none with an error or a cancellation to be carried
out first, none whose context is lost already (R365), none of a partition under reset, of which no Cocoon is saved (R284, R369). -/
def groupSaveable (s : State) (es : List (Nat × Nat)) : Bool :=
  es.all (fun e =>
    let c := s.ctx e.1 e.2
    slotSaveable s e.1 e.2 && c.dying.isNone && !c.cancel && !c.lost &&
      (match c.task with | some t => !underReset s t.part | none => true))

/-- A saved task is parked or returned to its launch, and with it the task bound to its column with it (R363, R364). -/
def setParked (s : State) (on : Bool) (c : Cocoon) : State :=
  let both := (c :: (mateOf s c).toList).map (fun k => k.task.serial)
  { s with cocoons := s.cocoons.map (fun k => if both.contains k.task.serial then { k with parked := on } else k) }

/-- CTXSV (R363). The task is that of the identifier's serial, whatever core and slot the identifier names; one with a high bit set
names none (log 118 DESIGN CHOICE). A context that is lost already stays so (R365). (Log 42 DEDUCED.) -/
def ctxsv (s : State) (d a : B6) : Act :=
  let id := (s.reg a.toNat).toNat
  let serial := bits id 31 10
  let fate := fun (t : State) (n : Nat) => Act.done (t.setReg d.toNat (word n) false) 1
  if 2 ^ 32 ≤ id ∨ serial = 0 then fate s 1
  else
    match slotOfSerial s serial with
    | some (core, slot, _) =>
      let es := preemptGroup s core slot
      let s1 := haltSlots s es
      if (s.ctx core slot).lost then fate s 2
      else if groupSaveable s1 es then
        let mates := (core, slot) :: (columnMate s core slot).toList
        match saveSlots s1 (mateSerial s) (fun e => mates.contains e) es with
        | (s2, none) => fate s2 0
        | (s2, some (e, u)) => fate (loseContext s2 e u) 2
      else .wait s1
    | none =>
      match cocoonOfSerial s serial with
      | some c => if c.parked then fate s 1 else if c.lost then fate s 2 else fate (setParked s true c) 0
      | none => fate s 1

def execCtxsv (w g : B2) (d a : B6) (s : State) : Host.Outcome State Fault Refusal :=
  supervised s w g (fun s => ctxsv s d a)

/-- Restores a task, with its column partner, at a core: none where a core cannot accept; where a context is lost, the slot and
the task. -/
def restoreAt (s : State) (core : Nat) (c : Cocoon) : Option (Except ((Nat × Nat) × Task) State) :=
  if !c.task.bound then
    match restoreSlot s core c with
    | some k => some (match restoreTask s core k c with | some t => .ok t.draw.2 | none => .error ((core, k), c.task))
    | none => none
  else if core / 17 % 2 = 1 then none
  else
    let up := core + 17
    let (lo, hi) := if c.upper then (mateOf s c, some c) else (some c, mateOf s c)
    let ok := fun (x : Option Cocoon) (at_ : Nat) => match x with | some k => (restoreSlot s at_ k).isSome | none => true
    let place := fun (x : Option Cocoon) (at_ : Nat) (r : Except ((Nat × Nat) × Task) State) =>
      match x, r with
      | some k, .ok t =>
        (match restoreSlot t at_ k with
         | some n => (match restoreTask t at_ n k with | some u => Except.ok u.draw.2 | none => .error ((at_, n), k.task))
         | none => .ok t)
      | _, r => r
    if ok lo core && ok hi up then some (place hi up (place lo core (.ok s))) else none

/-- CTXLD (R364), of the parked task of the identifier's serial (log 118 DESIGN CHOICE). A context that is lost already stays so
(R365). -/
def ctxld (s : State) (d a b : B6) : Act :=
  let id := (s.reg a.toNat).toNat
  let target := (s.reg b.toNat)
  let fate := fun (t : State) (n : Nat) => Act.done (t.setReg d.toNat (word n) false) 1
  match (if 2 ^ 32 ≤ id then none else cocoonOfSerial s (bits id 31 10)) with
  | none => fate s 1
  | some c =>
    if !c.parked then fate s 1
    else if c.lost then fate s 3
    else if target = BitVec.allOnes 64 then
      fate (setParked s false c) 0
    else
      match restoreAt s target.toNat c with
      | none => fate s 2
      | some (.ok t) => fate t 0
      | some (.error (e, t)) => fate (loseContext s e t) 3

def execCtxld (w g : B2) (d a b : B6) (s : State) : Host.Outcome State Fault Refusal :=
  supervised s w g (fun s => ctxld s d a b)

/-! ## Known-answer checks and patrol -/

/-- KATB_THRESHOLD (R361). -/
def execKatbThreshold (core : Nat) (s : State) : Host.Outcome State Fault Refusal :=
  occurs s (decide (1900 ≤ (s.core core).katb.toNat) && !isSystem core) (s.modCore core (fun c => { c with katpend := true }))

/-- A column goes out of service: its tasks end with a datapath fault (R361). -/
def failColumn (s : State) (core : Nat) : State :=
  let f := fun (c : CoreState) => { c with failed := true }
  let t := (s.modCore core f).modCore (partnerOf core) f
  [(core, 0), (core, 1), (partnerOf core, 0), (partnerOf core, 1)].foldl (fun t e =>
    if (t.ctx e.1 e.2).task.isSome then markDying t e.1 e.2 errDatapath (word e.1) else t) t

/-- KAT_CHECK (R361): with no run in flight. (Log 63 DESIGN CHOICE.) -/
def execKatCheck (core : Nat) (pass : Bool) (s : State) : Host.Outcome State Fault Refusal :=
  let c := s.core core
  occurs s (c.katpend && !c.ops.any (fun o => decide (o.kind = 0)))
    (if pass then s.setCore core { c with katb := 0, katpend := false } else failColumn s core)

/-- The die whose correction count a physical address belongs to. -/
def dieOfPhys (a : Nat) : Nat :=
  let t := a / 2 ^ 60
  let o := a % 2 ^ 60
  if t < 2 then frameHome 0 t (o / 65536)
  else if t < 70 then frameHome 0 2 (o / 65536)
  else if t < 80 then rowHome (o / 128)
  else if t < 100 then t - 80
  else if t < 400 then dieOf (t - 100)
  else if t < 1000 then dieOf (t - 400)
  else dieOf ((t - 1000) / 8)

/-- PATROL_READ (R345, R346): one flipped bit is corrected; what cannot be corrected is not consumed. -/
def execPatrolRead (addr : Nat) (s : State) : Host.Outcome State Fault Refusal :=
  match checkWords s (dieOfPhys addr) [addr / protectedSize addr * protectedSize addr] with
  | some t => .next t
  | none => .next s

/-! ## The Lookout (R366–R368) -/

/-- Whether a slot's task is not eligible now: a party held, an error, a reset of its partition (R252, R366, R372), a
pre-emption unless a collective keeps it waiting (R249). -/
def ineligible (s : State) (core slot : Nat) : Bool :=
  let c := s.ctx core slot
  c.dying.isSome || c.cancel || (c.halting && !inCollective s core slot) ||
  (match c.task with | some t => underReset s t.part | none => false) ||
  allParties.any (fun p => (s.party ⟨core, slot, p⟩).held)

/-- Whether a resident task advances the Lookout of its launch: eligible and not throttled throughout the microsecond. -/
def counts (s : State) (launch : Nat) (e : Nat × Nat × Task) : Bool :=
  decide (e.2.2.launch = launch) && !(s.ctx e.1 e.2.1).disturbed && !ineligible s e.1 e.2.1

/-- One queue's Lookout at a whole microsecond: the count that reaches the limit leaves the hang record of this moment (R368). -/
def lookoutQueue (s : State) (part queue : Nat) (q : LQueue) : LQueue :=
  match q.head with
  | some l =>
    let counts := (residents s).any (counts s l.id)
    if q.lklim ≠ 0 ∧ q.lkcnt.toNat < q.lklim.toNat ∧ counts then
      { q with lkcnt := q.lkcnt + 1,
               expiring := if q.lkcnt + 1 = q.lklim then q.expiring ++ [hangRecord s part queue] else q.expiring }
    else q
  | none => q

/-- LOOKOUT_TICK (R366): after the charge of the same moment, which says whose engines are withheld in the microsecond that
begins (R336; log 95 DESIGN CHOICE). -/
def execLookoutTick (s : State) : Host.Outcome State Fault Refusal :=
  let qs := s.queues.map (fun e => (e.1, lookoutQueue s (e.1 / 32) (e.1 % 32) e.2))
  let off := fun (k : Nat) => ineligible s (k / 2) (k % 2) || throttled s (k / 2) (k % 2)
  let cs := s.ctxs.map (fun e => (e.1, { e.2 with disturbed := off e.1 }))
  occurs s (decide (s.due.lookout ≤ s.time) && decide (s.due.lookout < s.due.energy))
    { s with queues := qs, ctxs := cs, due := { s.due with lookout := s.due.lookout + 1000 } }

/-- LOOKOUT_EXPIRY (R368): the LKEXP bit, and the hang record of the moment at which the count reached the limit, posted on the die of
the task that it names. An expiry that found no task resident sets the bit alone (log 120 DESIGN CHOICE). -/
def execLookoutExpiry (part queue : Nat) (s : State) : Host.Outcome State Fault Refusal :=
  match (s.queue part queue).expiring with
  | [] => .next s
  | r :: rest =>
    let s1 := s.modQueue part queue (fun q => { q with expiring := rest })
    let s2 := s1.modPart part (fun p => { p with lkexp := setBit p.lkexp queue true })
    .next (match r with | some r => s2.post (dieOf (recCore r)) r | none => s2)

/-! ## Scrubs and resets (R331, R369) -/

/-- A range of a memory reads zero, and its check bits agree. -/
def wipe (s : State) (tag n : Nat) : State :=
  let a := phys tag 0
  { s with mem := clearRange s.mem a n, flips := s.flips.filter (fun e => !(decide (a ≤ e.1) && decide (e.1 < a + n))) }

/-- The parties of a slot read zero (R331). -/
def zeroParties (s : State) (core slot : Nat) : State :=
  allParties.foldl (fun t p =>
    t.setParty ⟨core, slot, p⟩ { vm := 0, cw := [(0, 0), (1, 0), (2, 0), (3, 0)] }) (clearParties s core slot)

/-- The scrub of one core (R331). -/
def scrubCore (s : State) (core : Nat) : State :=
  let s1 := wipe (wipe s (tagScratch core) (2 ^ 22)) (tagAcc core) accSize
  let s2 := (List.range 7).foldl (fun t k => wipe t (tagImem core k) 65536) s1
  let s3 := zeroParties (zeroParties s2 core 0) core 1
  s3.modCore core (fun c => { c with fifoA := [], fifoB := [], vin := [], vfly := [], trellis := [], ops := [], search := none })

/-- The weight-store frames of a partition on a die read zero, unless it still holds a column there (R331). -/
def scrubWeights (s : State) (p die : Nat) : State :=
  if 64 ≤ p ∨ (List.range 16).any (fun k => decide ((s.core (17 * die + k)).part.toNat = p)) then s
  else
    ((s.owners.filter (fun e => decide (e.2 = p) && decide (bits e.1 42 40 = 3) && decide (e.1 / 2 ^ 44 = die))).map
      (fun e => bits e.1 39 0)).foldl (fun t f => zeroFrame t die 3 f 0) s

/-- SCRUB_COMPLETE (R331). -/
def execScrubComplete (core : Nat) (s : State) : Host.Outcome State Fault Refusal :=
  let other := partnerOf core
  let old := (s.core core).former
  let s1 := old.foldl (fun t p => scrubWeights (scrubWeights t p (dieOf core)) p (dieOf other)) (scrubCore (scrubCore s core) other)
  let f := fun (c : CoreState) => { c with scrub := false, former := [] }
  occurs s (s.core core).scrub ((s1.modCore core f).modCore other f)

/-- The slots that hold tasks of a partition. -/
def slotsOf (s : State) (p : Nat) : List (Nat × Nat × Task) := (residents s).filter (fun e => decide (e.2.2.part = p))

/-- Whether an entry of a partition still runs. -/
def partRuns (s : State) (p : Nat) : Bool :=
  (slotsOf s p).any (fun e => engines.any (fun k => !engineIdle s e.1 e.2.1 k))

/-- RESET_DRAIN_EXPIRY (R369 step 2, R372): as soon as no entry of the partition runs, and after 10 µs at the latest. What the
partition has written and no home has applied is dropped, and its matrix operations write nothing more (R370). -/
def execResetDrainExpiry (s : State) : Host.Outcome State Fault Refusal :=
  match s.resetting with
  | some r =>
    let stop := fun (x : PartyState) =>
      { x with run := .off, busy := none, push := none, wait := .no, view := { x.view with late := [] } }
    let quit := fun (t : State) (core slot : Nat) =>
      (dropSends t core slot).modCore core (fun c => { c with ops := c.ops.filter (fun o => decide (o.slot ≠ slot)) })
    let s1 := (slotsOf s r.part).foldl (fun t e =>
      allParties.foldl (fun u p => u.modParty ⟨e.1, e.2.1, p⟩ stop) (quit t e.1 e.2.1)) (dismiss s r.part)
    let s2 := { s1 with flights := s1.flights.filter (fun f => decide (f.part ≠ r.part)), resetting := some { r with step := 3 } }
    occurs s (decide (r.step = 2) && (!partRuns s r.part || decide (r.since + 10000 ≤ s.time))) s2
  | none => .next s

/-- The streams of a partition, on every die: key (die × 64 + partition) × 32 + n (R280). -/
def streamKey (die part n : Nat) : Nat := (die * 64 + part) * 32 + n

/-- A task that has met a context error which has not been carried out: its launch has the cause, and the notice is posted (R348,
R369 step 6). -/
def noteError (s : State) (core slot : Nat) (t : Task) : State :=
  match (s.ctx core slot).dying with
  | some (cause, tval) =>
    (notice s (dieOf core) t.serial.toNat core slot t.part cause tval).modQueue t.part t.queue (fun q =>
      { q with head := q.head.map (fun l => if l.id = t.launch ∧ l.cause = none then { l with cause := some cause } else l) })
  | none => s

/-- The tasks that a reset partition still holds give up what they hold. -/
def endTasks (s : State) (p : Nat) : State :=
  (slotsOf s p).foldl (fun t e => releaseTask (noteError t e.1 e.2.1 e.2.2) e.1 e.2.1 e.2.2) s

/-- Whether no access to a window of another partition is in flight in which partition p is the importer: closing the window waits for
those of its exporter, whose key slots are not revoked (R330, R370). -/
def windowsQuiet (s : State) (p : Nat) : Bool :=
  !s.windows.any (fun e => e.2.live && decide (e.2.importer = p) && regionBusy s e.2)

/-- R369 steps 3 and 4 and the tasks that are left: what partition p holds ends. -/
def stripPart (s : State) (p : Nat) : State :=
  let s1 : State := endTasks s p
  let s2 : State := voidRows s1 p (liveRows s1)
  let s3 : State := (s2.windows.filter (fun e => e.2.live && (decide (e.2.exporter = p) || decide (e.2.importer = p)))).foldl
    (fun t e => closeWindow t e.1 e.2) s2
  let q := s3.part p
  let s4 : State := (List.range q.keyn.toNat).foldl (fun t i =>
    t.setKey (q.keyb.toNat + i) { t.key (q.keyb.toNat + i) with revoked := true }) s3
  let hs := s4.hampers.map (fun e =>
    (e.1, { e.2 with stops := e.2.stops.map (fun x => if x.2.owner = p then (x.1, ⟨64, x.2.gen, []⟩) else x) }))
  let s5 : State := { s4 with
    hampers := hs
    streams := s4.streams.filter (fun e => decide (e.1 / 32 % 64 ≠ p))
    suffixes := s4.suffixes.filter (fun e => decide (e.2.owner ≠ some p))
    pins := s4.pins.filter (fun x => decide (x.part ≠ p)) }
  (objectsOf s5 p).foldl (fun t e => if e.2.live then destroy t (objHome e.2) p e.1 e.2 else t) s5

/-- R369 step 6: the launches of p that have not completed. -/
def endLaunches (s : State) (p : Nat) : State :=
  (List.range 32).foldl (fun t q =>
    match (t.queue p q).head with
    | some l =>
      let u := match l.cause with | some c => endHead t p q 2 c | none => endHead t p q 3 0
      cancelRecords u p q 3
    | none => if (t.queue p q).recs = [] then t else cancelRecords t p q 3) s

/-- PARTITION_RESET_COMPLETE (R369 steps 3–6, R372), once the windows that it closes for their exporters are quiet (R330). A reset that
a lost context asks for follows (R365). -/
def execPartitionResetComplete (s : State) : Host.Outcome State Fault Refusal :=
  match s.resetting with
  | some r =>
    let p := r.part
    let s1 := stripPart s p
    let s2 := (allCores.filter (fun c => !isSystem c && decide ((s1.core c).part.toNat = p))).foldl scrubCore s1
    let s3 := endLaunches s2 p
    let s4 := s3.modPart p (fun q => { q with locked := true, granted := false, plvl := 0 })
    let s5 := { s4 with prstat := BitVec.ofNat 8 p, resetting := none }
    let s6 := match s5.resetDue with
      | n :: rest => beginReset { s5 with resetDue := rest } n
      | [] => s5
    occurs s (decide (r.step = 3) && windowsQuiet (endTasks s p) p) s6
  | none => .next s

/-! ## Owner changes and published counters -/

/-- The frame of an owner change. -/
def Reassign.code (r : Reassign) : Nat := frameCode r.die r.space r.frame

/-- FRAME_REASSIGN_COMPLETE (R385): the changes of one frame complete in the order of their writes. -/
def execFrameReassignComplete (k : Nat) (s : State) : Host.Outcome State Fault Refusal :=
  match s.reassigns[k]? with
  | some r =>
    let code := r.code
    let clear := !(s.reassigns.take k).any (fun e => decide (e.code = code)) && (decide (r.space ≠ 3) ||
      !(residents s).any (fun e => decide (dieOf e.1 = r.die) &&
        (decide (e.2.2.part = ownerOf s code) || decide (e.2.2.part = r.owner))))
    let s1 := zeroFrame s r.die r.space r.frame (keyNum s (homeKey s r.owner))
    let owners := if r.owner = 64 then drop s1.owners code else put s1.owners code r.owner
    occurs s clear { s1 with owners := owners, reassigns := s1.reassigns.eraseIdx k }
  | none => .next s

/-- A counter at a whole millisecond (R332). -/
def publish (c : Count) : Count := { c with shown := BitVec.ofNat 48 (c.snap.toNat / 4096), snap := c.exact }

/-- COUNTER_PUBLISH (R332): after the charge of the same moment, which adds the bytes moved to the counts (log 96 DESIGN CHOICE). -/
def execCounterPublish (s : State) : Host.Outcome State Fault Refusal :=
  let dies := s.dies.map (fun e => (e.1, { e.2 with ring := publish e.2.ring }))
  let hampers := s.hampers.map (fun e => (e.1, { e.2 with dram := publish e.2.dram }))
  occurs s (decide (s.due.publish ≤ s.time) && decide (s.due.publish < s.due.energy))
    { s with dies := dies, hampers := hampers, fabric := publish s.fabric, reclaim := publish s.reclaim,
             due := { s.due with publish := s.due.publish + 1000000 } }

end Sys2Proof.Machine
end

