-- ==== Sys2Proof/Machine/Trailhead.lean ====
section
/-! DEFINITION. Launch queues and Trailhead: records become heads and are checked (R76–R80, R253, R254), iterations and
pre-empted tasks are handed out (R255–R258, R262, R287), tasks complete (R33, R211) and are pre-empted (R283, R284). -/

namespace Sys2Proof.Machine

/-! ## Checking a record and its kernel (R76–R80, R254) -/

/-- Whether bytes of a structure are zero. -/
def zeroBytes (r : List Byte) (o n : Nat) : Bool := ((r.drop o).take n).all (fun b => decide (b = 0))

/-- The order field names the levels below `levels` once each, and 0xF beyond (R79). -/
def orderOk (order levels : Nat) : Bool :=
  let f := fun i => bits order (4 * i + 3) (4 * i)
  (List.range levels).all (fun l => ((List.range levels).filter (fun i => decide (f i = l))).length == 1) &&
  (List.range 6).all (fun i => decide (i < levels) || decide (f i = 15))

/-- The reject code of a launch record by itself (R79): none where it passes. -/
def recordFault (r : List Byte) : Option Nat :=
  let major := recField r 1 1
  let minor := recField r 0 1
  let levels := recField r 4 1
  if major ≠ 1 then some 1
  else if minor = 0 ∧ (2 ≤ recField r 3 1 ∨ recField r 5 1 ≠ 0 ∨ recField r 0x0B 1 ≠ 0) then some 2
  else if 11 < recField r 2 1 ∨ levels = 0 ∨ 6 < levels ∨ orderOk (recField r 8 3) levels = false ∨ 64 < recField r 6 2 ∨
      recField r 0x10 8 % 64 ≠ 0 ∨ recField r 0x20 8 % 64 ≠ 0 then some 3
  else none

/-- Whether a binding code is one of R77's. -/
def bindingOk (n : Nat) : Bool := decide (n ≤ 4) || (decide (8 ≤ n) && decide (n ≤ 11))

/-- Whether the joins give no queue of a party two different peers (R77). -/
def joinsAgree (js : List (Party × Nat × Party)) : Bool :=
  let ends := js.flatMap (fun j => [(j.1, j.2.1, j.2.2), (j.2.2, j.2.1, j.1)])
  ends.all (fun a => ends.all (fun b => decide (a.1 = b.1 ∧ a.2.1 = b.2.1 → a.2.2 = b.2.2)))

/-- Whether a section descriptor is legal (R77); the entry lies in the wings' window. A section's code begins at a multiple of 64 bytes
(R76, R80); an absent one has none (log 85 DEDUCED). -/
def sectionOk (k : Nat) (x : Section) : Bool :=
  let b := x.bindings.toNat
  (decide (x.size = 0) || decide (x.offset % 64 = 0)) && decide (x.size % 4 = 0) && decide (x.size ≤ sectionRoom 0 k) &&
  (if k = 0 ∨ 5 ≤ k then decide (b = 0) else bindingOk (bits b 3 0) && bindingOk (bits b 7 4) && bindingOk (bits b 11 8) &&
    decide (bits b 15 12 = 0)) &&
  decide (x.entry < (if k = 0 then 2 ^ 14 else 1))

/-- The header as the part keeps it; the switch table follows. -/
def headerOf (h : List Byte) : Header :=
  { flags := BitVec.ofNat 16 (recField h 6 2), vregs := recField h 8 1, scratch := recField h 0x0C 4,
    dataOffset := recField h 0x10 4, dataSize := recField h 0x14 4, sections := sectionsOf h, switches := [] }

/-- The reject code of a kernel header (R76, R77). -/
def headerFault (h : List Byte) : Option Nat :=
  let x := headerOf h
  let n := recField h 0x0A 2
  if recField h 0 4 ≠ 0x4B585649 ∨ recField h 5 1 ≠ 1 then some 1
  else if recField h 4 1 = 0 ∧ !(zeroBytes h 9 1 && zeroBytes h 0x92 46 &&
      (List.range 7).all (fun k => zeroBytes h (0x18 + 16 * k + 12) 4)) then some 2
  else if 16 ≤ x.flags.toNat ∨ 20 < x.vregs ∨ 256 < n ∨ (x.flags.getLsbD 0 = false ∧ n ≠ 0) ∨ x.scratch % 4096 ≠ 0 ∨
      2 ^ 22 < x.scratch ∨ x.scratch < x.dataSize ∨ 64 < recField h 0x90 2 then some 4
  else if !((List.range 7).all (fun k => sectionOk k (x.sections.getD k {})) && joinsAgree (joinsOf x.sections)) then some 4
  else none

/-- The switch table: none where an entry is illegal, its word offsets lying in the wing memory (R77). -/
def switchesOf (b : List Byte) (n : Nat) : Option (List (Nat × Nat × Nat × Nat)) :=
  let es := (List.range n).map (fun i => (recField b (8 * i) 2, recField b (8 * i + 2) 2, recField b (8 * i + 4) 2, recField b (8 * i + 6) 2))
  if es.all (fun e => decide (e.1 < 256) && [e.2.1, e.2.2.1, e.2.2.2].all (fun o => decide (o < 2 ^ 14))) then some es else none

/-- The reject code of a descriptor at launch (R80, R224). -/
def descriptorFault (minor : Nat) (d : List Byte) : Option Nat :=
  if 9 < recField d 0 1 ∨ recField d 1 1 = 0 ∨ 10 < recField d 1 1 then some 5
  else if minor = 0 ∧ !(zeroBytes d 6 2 && zeroBytes d 0x1F 1 && zeroBytes d 0x48 56) then some 2
  else none

/-- The reject code of a tensor requirement (R77, R80). Its reserved byte goes by the header's minor version, and gives code 2.
(Log 72 DESIGN CHOICE.) -/
def requirementFault (minor tcount : Nat) (ds r : List Byte) : Option Nat :=
  let slot := recField r 0 1
  if minor = 0 ∧ recField r 3 1 ≠ 0 then some 2
  else if tcount ≤ slot ∨ recField ds (128 * slot) 1 ≠ recField r 1 1 ∨ recField ds (128 * slot + 1) 1 ≠ recField r 2 1 then some 5
  else none

/-- The first reject code of a list of checks. -/
def firstFault : List (Option Nat) → Option Nat
  | [] => none
  | some c :: _ => some c
  | none :: cs => firstFault cs

/-- Whether every range of a kernel image can be read (R80). -/
def imageReads (s : State) (part kernel : Nat) (h : Header) : Bool :=
  let reads := fun o n => match partRead s part (kernel + o) n with | .ok _ => true | .error _ => false
  h.sections.all (fun x => reads x.offset x.size) && reads h.dataOffset h.dataSize

/-- The checks of R80 on a record that has been read: a reject code, or the launch (R254). Of several checks that fail the first
in the order of this function gives the code. (Log 71 DESIGN CHOICE.) -/
def checkRecord (s : State) (p : Nat) (index : BitVec 32) (r : List Byte) : Except Nat Launch :=
  match recordFault r with
  | some c => .error c
  | none =>
    let kernel := recField r 0x10 8
    let tensors := recField r 0x20 8
    let tcount := recField r 6 2
    match partRead s p kernel 192 with
    | .error _ => .error 4
    | .ok (_, h) =>
      match headerFault h with
      | some c => .error c
      | none =>
        let n := recField h 0x0A 2
        let m := recField h 0x90 2
        match partRead s p (kernel + recField h 0x88 4) (8 * n), partRead s p (kernel + recField h 0x8C 4) (4 * m),
            imageReads s p kernel (headerOf h) with
        | .ok (_, sw), .ok (_, reqs), true =>
          match switchesOf sw n, partRead s p tensors (128 * tcount) with
          | none, _ => .error 4
          | some _, .error _ => .error 5
          | some sws, .ok (_, ds) =>
            let faults := (List.range tcount).map (fun i => descriptorFault (recField r 0 1) ((ds.drop (128 * i)).take 128)) ++
              (List.range m).map (fun i => requirementFault (recField h 4 1) tcount ds ((reqs.drop (4 * i)).take 4))
            let l : Launch :=
              { id := s.launches, index := index, tag := BitVec.ofNat 32 (recField r 0x0C 4), prio := recField r 2 1,
                superstep := decide (recField r 3 1 % 2 = 1), levels := recField r 4 1, order := BitVec.ofNat 32 (recField r 8 3),
                bounds := (List.range 6).map (fun i => recField r (0x28 + 4 * i) 4), kernel := word kernel,
                args := word (recField r 0x18 8), tensors := word tensors, tcount := tcount,
                hdr := { headerOf h with switches := sws }, headAt := s.time, next := 0, done := 0, failed := 0, cause := none,
                waited := 0 }
            let cores := (allCores.filter (fun c => !isSystem c && decide ((s.core c).part.toNat = p))).length
            match firstFault faults with
            | some c => .error c
            | none => if l.superstep && decide (cores < iterations l) then .error 6 else .ok l
        | _, _, _ => .error 4

/-! ## Heads of queues (R253, R374, R375) -/

/-- Whether a queue takes records now (R369, R374). -/
def queueMoves (s : State) (p q : Nat) : Bool :=
  !(s.queue p q).qstat.getLsbD 3 && !(s.part p).locked && (match s.resetting with | some r => decide (r.part ≠ p) | none => true)

/-- Copies in the records QRP … QWP − 1, `n` of them (R375). -/
def copyRecords (s : State) (p q : Nat) : Nat → State
  | 0 => s
  | n + 1 =>
    let x := s.queue p q
    let va := x.qbase.toNat + 64 * (x.qrp.toNat % 2 ^ bits x.qcfg.toNat 4 0)
    match partRead s p va 64 with
    | .ok (t, bs) => copyRecords (t.setQueue p q { x with recs := x.recs ++ [(x.qrp, some bs)], qrp := x.qrp + 1 }) p q n
    | .error _ => copyRecords (s.setQueue p q { x with recs := x.recs ++ [(x.qrp, none)], qrp := x.qrp + 1 }) p q n

/-- Copies in every record that a doorbell has announced, where the queue takes records. -/
def copyIn (s : State) (p q : Nat) : State :=
  let x := s.queue p q
  if queueMoves s p q && x.qcfg.getLsbD 31 then copyRecords s p q (x.qwp - x.qrp).toNat else s

/-- LAUNCH_HEAD (R253): the next record becomes head and is checked; a rejected one completes with status 1, and a launch
with no iterations completes at once. -/
def execLaunchHead (part queue : Nat) (s : State) : Host.Outcome State Fault Refusal :=
  let s1 := copyIn s part queue
  let x := s1.queue part queue
  match x.head, x.recs with
  | none, (index, r) :: rest =>
    let s2 := s1.setQueue part queue { x with recs := rest }
    let reject := fun c => completeRecord s2 part queue index (recTag r) 1 c 0
    let t :=
      match r with
      | none => reject 7
      | some bs =>
        match checkRecord s2 part index bs with
        | .error c => reject c
        | .ok l =>
          checkLaunch { s2.modQueue part queue (fun y => { y with head := some l }) with launches := s2.launches + 1 } part queue
    occurs s (queueMoves s part queue) t
  | _, _ => .next s

/-- INTERRUPT_COALESCE_EXPIRY (R376). -/
def execInterruptCoalesceExpiry (part queue : Nat) (s : State) : Host.Outcome State Fault Refusal :=
  let x := s.queue part queue
  let due := match x.lastInt with | some t => decide (t + bits x.qcfg.toNat 23 16 * 1000 ≤ s.time) | none => true
  occurs s (x.deferred && due)
    { s.setQueue part queue { x with deferred := false, lastInt := some s.time } with out := s.out ++ [.interrupt part x.qiv] }

/-! ## Hand-out (R255–R258, R262, R287) -/

/-- The effective priority of a launch (R255). -/
def effPrio (s : State) (l : Launch) : Nat := l.prio - (s.time - l.headAt) / 250000

/-- The heads of a partition's queues, with their queue. -/
def headsOf (s : State) (p : Nat) : List (Nat × Launch) :=
  (List.range 32).filterMap (fun q => ((s.queue p q).head).map (fun l => (q, l)))

/-- The pre-empted tasks of a launch that are not parked, and whose contexts are not lost (R365). -/
def waitingTasks (s : State) (l : Launch) : List Cocoon :=
  s.cocoons.filter (fun c => !c.parked && !c.lost && decide (c.task.launch = l.id))

/-- A pre-empted task resumed on a core: tasks bound to a column together on the core's column (R286, R287). -/
def resumeAt (s : State) (core : Nat) (c : Cocoon) : Option (Except ((Nat × Nat) × Task) State) :=
  restoreAt s (if c.task.bound ∧ core / 17 % 2 = 1 then core - 17 else core) c

/-- The cores that a pre-empted task and the one bound to its column with it take (R286). -/
def resumeCores (s : State) (core : Nat) (c : Cocoon) : List Nat :=
  if c.task.bound then
    ((c :: (mateOf s c).toList).map (fun k => if k.upper = decide (core / 17 % 2 = 1) then core else partnerOf core)).eraseDups
  else [core]

/-- The pre-empted task of a launch that a core can take. -/
def resumable (s : State) (core : Nat) (l : Launch) : Option Cocoon :=
  (waitingTasks s l).find? (fun c => (resumeAt s core c).isSome)

/-- Whether a core can accept the next iteration of a launch (R258, R362). -/
def coreStarts (s : State) (core p : Nat) (l : Launch) : Bool :=
  coreTakes s core p l.hdr l.superstep && decide ((s.part p).frg.toNat ≥ frs s p + cocoonSize l.hdr)

/-- The cores that a launch can start on. -/
def startCores (s : State) (p : Nat) (l : Launch) : List Nat := allCores.filter (fun c => coreStarts s c p l)

/-- Whether a core can take a new iteration of a launch: every iteration of a superstep launch starts at once (R279), their Cocoons
together within the guarantee (R362). Until all of them fit, the launch keeps no core from others (log 124 DESIGN CHOICE). -/
def startable (s : State) (core p : Nat) (l : Launch) : Bool :=
  decide (l.next < iterations l) && coreStarts s core p l &&
  (!l.superstep || (decide (iterations l ≤ (startCores s p l).length) &&
    decide (frs s p + cocoonSize l.hdr * iterations l ≤ (s.part p).frg.toNat)))

/-- Whether a launch is served before another (R255): by effective priority, then by the time it became head. -/
def servedBefore (s : State) (a b : Nat × Launch) : Bool :=
  if effPrio s a.2 ≠ effPrio s b.2 then decide (effPrio s a.2 < effPrio s b.2)
  else if a.2.headAt ≠ b.2.headAt then decide (a.2.headAt < b.2.headAt)
  else decide (a.2.id < b.2.id)

/-- The launch that a core is given to (R255). -/
def chosen (s : State) (core p : Nat) : Option (Nat × Launch) :=
  ((headsOf s p).filter (fun e => (resumable s core e.2).isSome || startable s core p e.2)).foldl
    (fun best e => match best with | none => some e | some b => if servedBefore s e b then some e else some b) none

/-- The indices of the k-th iteration (R79, R256): depth 0 outermost, s0–s5 by level. -/
def iterationIndex (l : Launch) (k : Nat) : List Word :=
  let digits := (List.range l.levels).reverse.foldl (fun (acc : Sparse Nat × Nat) d =>
    let level := bits l.order.toNat (4 * d + 3) (4 * d)
    let b := l.bounds.getD level 1
    (put acc.1 level (acc.2 % b), acc.2 / b)) ([], k)
  (List.range 6).map (fun i => word (look 0 digits.1 i))

/-- The serial after one: never 0 (R290). -/
def nextSerial (n : Nat) : Nat := if (n + 1) % 2 ^ 22 = 0 then 1 else (n + 1) % 2 ^ 22

/-- Hands the next iteration of a launch to a core (R262, R362). -/
def handOut (s : State) (core p q : Nat) : Option State :=
  match (s.queue p q).head, freeSlot s core with
  | some l, some slot =>
    let (i, s1) := s.draw
    match cocoonFor s1 core p l.hdr i with
    | none => none
    | some frames =>
      let codes := frames.map (frameCode 0 0)
      let t : Task :=
        { part := p, queue := q, launch := l.id, serial := BitVec.ofNat 22 s1.serial, prio := l.prio, idx := iterationIndex l l.next,
          args := l.args, kernel := l.kernel, tensors := l.tensors, tcount := l.tcount, superstep := l.superstep, hdr := l.hdr,
          frames := codes, bound := false, begun := s.tick }
      let s2 := { s1 with serial := nextSerial s1.serial, owners := codes.foldl (fun m c => put m c p) s1.owners }
      let s3 := s2.modQueue p q (fun x => { x with head := some { l with next := l.next + 1, waited := 0 } })
      some (startTask s3 core slot t)
  | _, _ => none

/-- Hands iterations to cores in order. -/
def handAll (s : State) (p q : Nat) : List Nat → Option State
  | [] => some s
  | c :: cs =>
    match handOut s c p q with
    | some t => handAll t p q cs
    | none => none

/-- Whether the free pool is short for Cocoons on cores although they keep a partition within its guarantee (R327, R362). -/
def poolShort (s : State) (p : Nat) (h : Header) (cores : List Nat) : Bool :=
  let z := cocoonSize h
  decide (frs s p + z * cores.length ≤ (s.part p).frg.toNat) &&
  cores.any (fun c => (pickCocoon s (hamperOf c) (z * (cores.filter (fun d => decide (hamperOf d = hamperOf c))).length) (2 ^ 19) 0 []).isNone)

/-- Reclaim for a request within a partition's guarantee: the next victim, once the last one's frames are back (R327). -/
def reclaimFor (s : State) (p : Nat) : State :=
  if s.objects.any (fun e => e.2.draining) then s else (reclaimOne s p false).getD s

/-- Whether a core is given to the head of queue `q` (R255). -/
def givenTo (s : State) (p q core : Nat) : Bool := decide ((chosen s core p).map (fun e => e.1) = some q)

/-- TASK_START (R251, R255–R257, R262): among cores that can take an iteration of the launch the lowest comes first (log 41
DEDUCED). A superstep launch takes cores that are given to it, all at once (R279). Where the free pool is short for a Cocoon within the guarantee, reclaim comes first (R327). -/
def execTaskStart (core : Nat) (s : State) : Host.Outcome State Fault Refusal :=
  let p := (s.core core).part.toNat
  match chosen s core p with
  | some (q, l) =>
    let fresh := (resumable s core l).isNone
    let first := !((List.range core).any (fun c => startable s c p l && givenTo s p q c))
    let cores := if l.superstep then ((startCores s p l).filter (givenTo s p q)).take (iterations l) else [core]
    let enough := !l.superstep || decide (cores.length = iterations l)
    match handAll s p q cores with
    | some t => occurs s (fresh && first && enough) t
    | none => occurs s (fresh && first && enough && poolShort s p l.hdr cores) (reclaimFor s p)
  | none => .next s

/-- A pre-empted task has been handed out: its launch waits anew (R283). -/
def handedBack (s : State) (t : Task) : State :=
  s.modQueue t.part t.queue (fun x =>
    { x with head := x.head.map (fun l => if l.id = t.launch then { l with waited := 0 } else l) })

/-- TASK_RESUME (R287): ahead of iterations not yet handed out, on cores that are given to the launch (R255). -/
def execTaskResume (core : Nat) (s : State) : Host.Outcome State Fault Refusal :=
  let p := (s.core core).part.toNat
  match chosen s core p with
  | some (q, l) =>
    match resumable s core l with
    | some c =>
      let given := (resumeCores s core c).all (givenTo s p q)
      match resumeAt s core c with
      | some (.ok t) => occurs s given ((c :: (mateOf s c).toList).foldl (fun t k => handedBack t k.task) t)
      | some (.error (e, u)) => occurs s given (loseContext s e u)
      | none => .next s
    | none => .next s
  | none => .next s

/-! ## Completion (R33, R211) -/

/-- Whether a task is complete: its wings have ended, every queue that it used has retired its notify, and every access
is performed at .SYS (R33, R211). -/
def taskDone (s : State) (core slot : Nat) (t : Task) : Bool :=
  let h := (s.ctx core slot).sh
  wings.all (fun p => decide ((s.party ⟨core, slot, p⟩).run = .ended)) && decide (h.used &&& ~~~h.retired = 0) &&
  drained s core slot && !(s.core core).ops.any (fun o => decide (o.slot = slot)) && storesDone s core slot t &&
  (s.ctx core slot).dying.isNone && !(s.ctx core slot).cancel

/-- TASK_COMPLETION (R33). -/
def execTaskCompletion (core slot : Nat) (s : State) : Host.Outcome State Fault Refusal :=
  match (s.ctx core slot).task with
  | some t => occurs s (taskDone s core slot t) (taskEnded (releaseTask s core slot t) t none)
  | none => .next s

/-! ## Pre-emption (R283, R284) -/

/-- Whether a launch holds work that waits for a core. -/
def hasWork (s : State) (l : Launch) : Bool := decide (l.next < iterations l) || !(waitingTasks s l).isEmpty

/-- The tasks that may make room for a waiting launch: those of launches that do not stand ahead of it. -/
def victims (s : State) (p : Nat) (e : Nat × Launch) : List (Nat × Nat × Task) :=
  (slotsOf s p).filter (fun v => decide (v.2.2.launch ≠ e.2.id) &&
    !(headsOf s p).any (fun h => decide (h.2.id = v.2.2.launch) && servedBefore s h e))

/-- A launch of a partition that has waited 50 µs at effective priority 0 without a core, and for which a task can make room
(R283). -/
def starved (s : State) (p : Nat) : Option (Nat × Launch) :=
  (headsOf s p).find? (fun e => decide (effPrio s e.2 = 0) && decide (50000 ≤ e.2.waited) && hasWork s e.2 &&
    !allCores.any (fun c => startable s c p e.2 || (resumable s c e.2).isSome) && !(victims s p e).isEmpty)

/-- PREEMPT_WAIT_EXPIRY (R283): which task makes room is not fixed. -/
def execPreemptWaitExpiry (part : Nat) (s : State) : Host.Outcome State Fault Refusal :=
  match starved s part with
  | some e =>
    let vs := victims s part e
    let (i, s1) := s.draw
    match vs[i % vs.length]? with
    | some v =>
      occurs s (!(slotsOf s part).any (fun x => (s.ctx x.1 x.2.1).halting)) (haltSlots s1 (preemptGroup s v.1 v.2.1))
    | none => .next s
  | none => .next s

/-- PREEMPTION (R284): a pre-emption that is due first stops the wings of its tasks, and once their engines are done it
saves them. -/
def execPreemption (core slot : Nat) (s : State) : Host.Outcome State Fault Refusal :=
  match (s.ctx core slot).task with
  | some t =>
    let es := preemptGroup s core slot
    let asked := (s.part t.part).spent || es.any (fun e => (s.ctx e.1 e.2).halting)
    if !asked then .next s
    else if !es.all (fun e => (s.ctx e.1 e.2).halting) then .next (haltSlots s es)
    else if groupSaveable s es then
      match saveSlots s (mateSerial s) (fun _ => false) es with
      | (u, none) => .next u
      | (u, some (e, v)) => .next (loseContext u e v)
    else .next s
  | none => .next s

end Sys2Proof.Machine
end

