-- ==== Sys2Proof/Machine/HostLink.lean ====
section
/-! DEFINITION. The Hizer link and the fabric as the module sees them: queue registers (R374, R375), host accesses (R208,
R291, R374), launch packets and reports (R377–R379), images, manifests and attestation (R380, R381), bring-up (R383, R384). -/

namespace Sys2Proof.Machine

/-! ## Queue registers (R374, R375) -/

/-- Whether the function's queue block takes writes: from phase 7 on (R383). -/
def blockOpen (s : State) (fn queue : Nat) : Bool :=
  decide (s.mgmt.mstat.toNat % 16 = 7) && decide (fn < 64) && decide (queue < 32)

def enabled (x : LQueue) : Bool := x.qcfg.getLsbD 31

/-- Sets a bit of QSTAT. -/
def flagQueue (x : LQueue) (i : Nat) : LQueue := { x with qstat := setBit x.qstat i true }

/-- QWP (R375, R378). -/
def execQwp (fn queue : Nat) (v : BitVec 32) (s : State) : Host.Outcome State Fault Refusal :=
  let x := s.queue fn queue
  let room := 2 ^ bits x.qcfg.toNat 4 0
  let ok := enabled x && !x.qcfg.getLsbD 30 && decide ((v - x.qrp).toNat ≤ room) && decide ((v - x.qwp).toNat ≤ room)
  occurs s (blockOpen s fn queue)
    (if ok then copyIn (s.setQueue fn queue { x with qwp := v }) fn queue else s.setQueue fn queue (flagQueue x 0))

/-- QCFG (R374). Clearing en keeps the records that are not head from running; they complete after the head. -/
def execQcfg (fn queue : Nat) (v : BitVec 32) (s : State) : Host.Outcome State Fault Refusal :=
  let x := s.queue fn queue
  let new := v &&& 0xE0FF001F
  let k := new.toNat % 32
  let on := new.getLsbD 31
  let refused :=
    if enabled x then decide (new.getLsbD 30 ≠ x.qcfg.getLsbD 30) || decide (k ≠ x.qcfg.toNat % 32)
    else on && (decide (k < 4) || decide (16 < k))
  let t :=
    if refused then s.setQueue fn queue (flagQueue x 1)
    else if on && !enabled x then s.setQueue fn queue { x with qcfg := new, qrp := 0, qwp := 0 }
    else if enabled x && !on then
      let u := s.setQueue fn queue { x with qcfg := new, closing := x.closing ++ x.recs, recs := [] }
      if x.head.isNone then closeRecords u fn queue else u
    else s.setQueue fn queue { x with qcfg := new }
  occurs s (blockOpen s fn queue) t

/-- QBASE (R374). -/
def execQbase (fn queue : Nat) (v : Word) (s : State) : Host.Outcome State Fault Refusal :=
  let x := s.queue fn queue
  occurs s (blockOpen s fn queue)
    (s.setQueue fn queue (if enabled x || decide (v.toNat % 64 ≠ 0) then flagQueue x 1 else { x with qbase := v }))

/-- QCPL (R374). -/
def execQcpl (fn queue : Nat) (v : Word) (s : State) : Host.Outcome State Fault Refusal :=
  let x := s.queue fn queue
  occurs s (blockOpen s fn queue)
    (s.setQueue fn queue (if enabled x || decide (v.toNat % 16 ≠ 0) then flagQueue x 1 else { x with qcpl := v }))

/-- QSTAT (R374): W1C; clearing bit 3 lets the queue proceed. -/
def execQstat (fn queue : Nat) (v : BitVec 8) (s : State) : Host.Outcome State Fault Refusal :=
  let x := s.queue fn queue
  occurs s (blockOpen s fn queue) (copyIn (s.setQueue fn queue { x with qstat := x.qstat &&& ~~~v }) fn queue)

/-! ## Host accesses -/

/-- `n` bytes as the host reads them, rows included (R289). It learns what the writes that it reads knew (R201, R208; log 108 DESIGN
CHOICE). -/
def hostRead (s : State) (part va n : Nat) : Except Bool (State × List Byte) :=
  match partBytes s part true (n / 65536 + 2) va n with
  | .ok (t, bs) => .ok ({ quietly s t with hostClock := mergeClock s.hostClock (clockOf t (dieOf thePart.core)) }, bs)
  | .error e => .error e

/-- Whether every write that the host has learnt of at the homes of these bytes is applied (R204, R208; log 108 DESIGN CHOICE). -/
def hostReady (s : State) (part va n : Nat) : Bool :=
  (List.range (n / 65536 + 2)).all (fun i =>
    match paged s part (if i = 0 then va else (va / 65536 + i) * 65536) with
    | .place p => !owed s p.home s.hostClock
    | _ => true)

/-- Bytes of one line stored by the host, under the key of their page and with what the host knows (R201; log 108 DESIGN CHOICE): dropped
where the mapping does not take them or their merge fails (R320). Of a store that meets control bytes of a row these alone are
discarded (R291; log 131 DESIGN CHOICE). -/
def hostPiece (s : State) (part va : Nat) (bs : List Byte) : State :=
  if weightBase ≤ va then s
  else
    match paged s part va with
    | .place p =>
      if p.readOnly then s
      else
        let put1 := fun (t : State) (q : Place) (cs : List Byte) => ((writePlace t thePart part t.hostClock q cs).map (quietly t)).getD t
        if hitsControl p bs.length then
          ((List.range bs.length).zip bs).foldl (fun t e =>
            let q := { p with phys := p.phys + e.1 }
            if hitsControl q 1 then t else put1 t q [e.2]) s
        else put1 s p bs
    | _ => s

/-- Bytes stored by the host, line by line, each where the page it lies in leads (R319). -/
def hostStore (part : Nat) : Nat → Nat → List Byte → State → State
  | 0, _, _, s => s
  | fuel + 1, va, bs, s =>
    if bs = [] then s
    else
      let k := 64 - va % 64
      hostStore part fuel (va + k) (bs.drop k) (hostPiece s part va (bs.take k))

/-- Whether a page of a partition may be mapped anew or unmapped by the host: not one that the supervisor has given to rows
(R289), nor one whose frame a probe has pinned (R39, R328). -/
def pageFree (s : State) (part page : Nat) : Bool :=
  match seek s.pages (part * 2 ^ 44 + page) with
  | some (.frame sp f) => !s.pins.any (fun p => decide (p.frame = frameCode 0 sp f) && (decide (sp ≠ 2) || decide (p.part = part)))
  | some (.rowPage _) => false
  | none => true

/-- A page mapped by the host to a frame; refused where it would raise FRS above FRG (R321). -/
def hostMap (s : State) (part page : Nat) (target : PageTarget) : State :=
  let t := { s with pages := put s.pages (part * 2 ^ 44 + page) target }
  match target with
  | .rowPage _ => s
  | .frame _ _ =>
    if 2 ^ 44 ≤ page ∨ pageFree s part page = false ∨ ((s.part part).frg.toNat < frs t part ∧ frs s part < frs t part) then s else t

/-- The register at an offset of a queue block (R374): its value; the reserved offset reads 0. -/
def queueRegister (x : LQueue) (o : Nat) : Option Nat :=
  match o with
  | 0x00 => some x.qbase.toNat
  | 0x08 => some x.qcfg.toNat
  | 0x0C => some x.qstat.toNat
  | 0x10 => some x.qwp.toNat
  | 0x14 => some x.qrp.toNat
  | 0x18 => some x.qcpl.toNat
  | 0x20 => some x.qiv.toNat
  | 0x24 => some 0
  | _ => none

/-- The register at an offset of the management function's window (R382); those that are only written read 0 (R6). -/
def mgmtRegister (m : Mgmt) (o : Nat) : Option Nat :=
  match o with
  | 0x000 => some m.mstat.toNat
  | 0x008 => some m.mcause.toNat
  | 0x010 => some m.hlver.toNat
  | 0x018 => some m.fdev.toNat
  | 0x040 => some m.idpub.toNat
  | 0x060 => some 0
  | 0x080 => some m.ataddr.toNat
  | 0x088 => some 0
  | _ => none

/-- The register at an offset of a function's window; none where the spec lists none (log 79 DESIGN CHOICE). -/
def windowRegister (s : State) (fn o : Nat) : Option Nat :=
  if fn = 64 then mgmtRegister s.mgmt o
  else if 0x1000 ≤ o ∧ o < 0x1800 then queueRegister (s.queue fn ((o - 0x1000) / 64)) (o % 64)
  else none

/-- HOST_ACCESS (R374, R321, R382): at .SYS, under the key of the page, the host being no party of a task; nothing while the
link is down (R373). The management function has no paged space. (Log 31 DESIGN CHOICE.) (Log 48 DESIGN CHOICE.) -/
def execHostAccess (fn : Nat) (op : HostOp) (s : State) : Host.Outcome State Fault Refusal :=
  if 64 < fn ∨ linkUp s = false then .next s
  else
    match op with
    | .register o =>
      match windowRegister s fn o with
      | some v => .next { s with out := s.out ++ [.hostRegister fn o v] }
      | none => .next s
    | .load va size =>
      if fn = 64 ∨ hostReady s fn va size = false then .next s
      else
        match hostRead s fn va size with
        | .ok (t, bs) => .next { t with out := t.out ++ [.hostLoad fn va (some bs)] }
        | .error _ => .next { s with out := s.out ++ [.hostLoad fn va none] }
    | .store va bytes => .next (if fn = 64 ∨ hostReady s fn va bytes.length = false then s else hostStore fn (bytes.length / 64 + 2) va bytes s)
    | .mapPage page target => .next (if fn = 64 then s else hostMap s fn page target)
    | .unmapPage page =>
      .next (if fn = 64 ∨ 2 ^ 44 ≤ page ∨ pageFree s fn page = false then s
        else { s with pages := drop s.pages (fn * 2 ^ 44 + page) })

/-- FLIT_CRC_ERROR (R345): the flit is sent again; nothing else can be observed. -/
def execFlitCrcError (s : State) : Host.Outcome State Fault Refusal := .next { s with out := s.out ++ [.resent] }

/-! ## The fabric -/

/-- FABRIC_MEMORY_REQUEST (R377). -/
def execFabricMemoryRequest (device : Nat) (_r : FabricRequest) (s : State) : Host.Outcome State Fault Refusal :=
  .next { s with out := s.out ++ [.unsupported device] }

/-- Why a launch packet is refused: 1 the sender, 2 the queue, 3 no room (log 22 DEDUCED); 0 for none. -/
def packetFault (s : State) (k : LaunchPacket) : Nat :=
  let x := s.queue k.partition k.queue
  if k.device ≠ s.mgmt.fdev.toNat ∨ 64 ≤ k.partition ∨ !(s.part k.partition).schedulers.contains k.sender then 1
  else if 32 ≤ k.queue ∨ enabled x = false ∨ x.qcfg.getLsbD 30 = false then 2
  else if 2 ^ bits x.qcfg.toNat 4 0 ≤ (x.qwp - x.qrp).toNat then 3
  else 0

/-- FABRIC_LAUNCH_PACKET (R378): placed at index QWP as one step, or refused with a reason; where the partition's mapping does not take
the record, there is no room for it (log 121 DESIGN CHOICE). -/
def execFabricLaunchPacket (k : LaunchPacket) (s : State) : Host.Outcome State Fault Refusal :=
  let x := s.queue k.partition k.queue
  let refuse := fun n =>
    let t := if k.partition < 64 ∧ k.queue < 32 then s.setQueue k.partition k.queue (flagQueue x 2) else s
    { t with out := t.out ++ [.launchReply k.sender false n] }
  match packetFault s k with
  | 0 =>
    let va := x.qbase.toNat + 64 * (x.qwp.toNat % 2 ^ bits x.qcfg.toNat 4 0)
    match partWrite s k.partition va [] (k.record.take 64) with
    | some t =>
      let u := copyIn (t.setQueue k.partition k.queue { x with qwp := x.qwp + 1 }) k.partition k.queue
      .next { u with out := u.out ++ [.launchReply k.sender true 0] }
    | none => .next (refuse 3)
  | n => .next (refuse n)

/-- The free residency slots of a partition (R379). -/
def freeSlots (s : State) (p : Nat) : Nat :=
  ((allCores.filter (fun c => !isSystem c && decide ((s.core c).part.toNat = p))).map (fun c =>
    ([0, 1].filter (fun k => (s.ctx c k).task.isNone)).length)).foldl (· + ·) 0

/-- The report of a partition to one scheduler (R379). -/
def reportOf (s : State) (p endpoint : Nat) : Out :=
  let qs := (List.range 32).map (fun q =>
    let x := s.queue p q
    ((x.qwp - x.qrp).toNat, x.head.map (effPrio s)))
  .report endpoint s.mgmt.fdev.toNat s.time p (freeSlots s p) qs (s.part p).plvl.toNat

/-- RESIDENCY_REPORT (R379): nothing is sent before phase 7 (R383). -/
def execResidencyReport (s : State) : Host.Outcome State Fault Refusal :=
  let outs := if s.mgmt.mstat.toNat % 16 = 7 then s.parts.flatMap (fun e => e.2.schedulers.map (reportOf s e.1)) else []
  occurs s (decide (s.due.report ≤ s.time)) { s with out := s.out ++ outs, due := { s.due with report := s.due.report + 100000 } }

/-! ## Images, manifests, attestation -/

/-- Why an image is refused in phase 1 (R380, R384): the reason, if any. -/
def imageFault (floor : Nat) (i : Image) : Option Nat :=
  if !i.verifies then some 1
  else if i.version < floor then some 2
  else if !i.formed then some 3
  else none

/-- MCAUSE (R384). -/
def mcauseOf (phase reason detail : Nat) : BitVec 32 := BitVec.ofNat 32 (phase * 2 ^ 24 + reason * 2 ^ 16 + detail % 2 ^ 16)

/-- FIRMWARE_IMAGE_LOAD (R380, R384): after phase 7 a refused image leaves the old one in place. -/
def execFirmwareImageLoad (i : Image) (s : State) : Host.Outcome State Fault Refusal :=
  let t :=
    match imageFault s.mgmt.floor i with
    | some reason => { s with mgmt := { s.mgmt with mcause := mcauseOf 1 reason s.mgmt.images } }
    | none =>
      let u := { s with mgmt := { s.mgmt with loaded := s.mgmt.loaded ++ [i.bytes], images := s.mgmt.images + 1 } }
      match i.die with
      | some d => if d < 16 then u.modDie d (fun x => { x with image := some i }) else u
      | none => u
  occurs s (decide (s.mgmt.mstat.toNat % 16 = 7)) t

/-- The number that stands for a manifest's key; windows' fresh keys have odd ones. -/
def manifestNum (n : Nat) : Nat := 2 * n + 2

/-- Loads keys into slots (R318). -/
def loadKeys (s : State) : List (Nat × Nat) → State
  | [] => s
  | (slot, n) :: ks =>
    loadKeys (if slot < 512 then s.setKey slot { s.key slot with loaded := true, revoked := false, num := manifestNum n } else s) ks

/-- KEY_MANIFEST_LOAD (R318, R369, R380): a partition whose home slot gets a new key runs again. (Log 45 DEDUCED.) -/
def execKeyManifestLoad (k : KeyManifest) (s : State) : Host.Outcome State Fault Refusal :=
  let s1 := loadKeys s k.keys
  let named := k.keys.map (fun e => e.1)
  let open_ := fun (q : Partition) =>
    if named.contains q.keyb.toNat && decide (0 < q.keyn.toNat) then { q with locked := false } else q
  let parts := s1.parts.map (fun e => (e.1, open_ e.2))
  let s2 := { s1 with parts := parts, mgmt := { s1.mgmt with loaded := s1.mgmt.loaded ++ [k.bytes] } }
  occurs s (decide (s.mgmt.mstat.toNat % 16 = 7) && k.verifies) s2

/-- The little-endian bytes of a 256-bit register. -/
def bytes256 (v : BitVec 256) : List Byte := bytesOfNat 32 v.toNat

/-- The attestation report (R381): the nonce, the device number, the SHA-512 digests, the signature over all of them. (Log 44
DESIGN CHOICE.) -/
def attestation (m : Mgmt) : List Byte :=
  let body := bytes256 m.atnonce ++ bytesOfNat 2 m.fdev.toNat ++ m.loaded.flatMap digest
  body ++ bytesOfNat 64 (Sys2Proof.Config.signature body).toNat

/-- Where byte `a` of the management function's host address space lies: addresses from 2^60 on have a range of their own. -/
def hostPhys (a : Nat) : Nat := if a < 2 ^ 60 then phys (tagHost 64) a else phys tagHostHigh a

/-- Bytes written to the management function's host address space, whose addresses have 64 bits (R382). -/
def writeHost (m : List Host.Cell) (a : Nat) : List Byte → List Host.Cell
  | [] => m
  | b :: bs => writeHost (writeByte m (hostPhys (a % 2 ^ 64)) b) (a + 1) bs

/-- ATGO (R381, R382): ignored where ATADDR is not 64-byte aligned, or the link is down. -/
def execAtgo (v : BitVec 1) (s : State) : Host.Outcome State Fault Refusal :=
  let a := s.mgmt.ataddr.toNat
  occurs s (linkUp s && decide (v = 1) && decide (a % 64 = 0))
    { s with mem := writeHost s.mem a (attestation s.mgmt),
             mgmt := { s.mgmt with mstat := s.mgmt.mstat ||| 0x100 } }

/-! ## Bring-up (R383, R384) -/

/-- The version that two partners agree on (R373): the highest that both offer, the part offering 1.0 … 1.`ours`, the partner
for each major version up to a highest minor. -/
def agree (ours : Nat) (theirs : List (Nat × Nat)) : Option (Nat × Nat) :=
  match (theirs.filter (fun v => decide (v.1 = 1))).map (fun v => v.2) with
  | [] => none
  | n :: ns => some (1, min ours (ns.foldl max n))

/-- The dies whose system core gets no supervisor image (R383): the first of them. -/
def noSupervisor (b : BringUp) : Option Nat := (List.range 16).find? (fun d => !b.images.any (fun i => decide (i.die = some d)))

/-- The failures that the part itself finds (R380, R373, R383): (phase, reason, detail). An image's index is its place in load
order (R384). -/
def ownFailures (b : BringUp) : List (Nat × Nat × Nat) :=
  let images := ((List.range b.images.length).zip b.images).filterMap (fun e =>
    (imageFault b.manifest.floor e.2).map (fun r => (1, r, e.1)))
  let manifest := if b.manifest.verifies then [] else [(2, 2, 0)]
  let link := if (agree 2 b.link).isNone then [(3, 1, 1)] else if (agree 1 b.transaction).isNone then [(3, 1, 2)]
    else if (agree 3 b.command).isNone then [(3, 1, 3)] else []
  images.take 1 ++ manifest ++ link ++ (noSupervisor b).toList.map (fun d => (5, 1, d))

/-- The first phase that fails, and in it the first reason. A failure of a step that the part does not decide itself is one of
R384's table. -/
def firstFailure (b : BringUp) : Option (Nat × Nat × Nat) :=
  (ownFailures b ++ b.failure.toList.filter (failureOk b.manifest.device)).foldl (fun best f =>
    match best with
    | none => some f
    | some g => if f.1 < g.1 ∨ (f.1 = g.1 ∧ f.2.1 < g.2.1) then some f else some g) none

/-- HLVER (R382). -/
def hlverOf (b : BringUp) : BitVec 48 :=
  let f := fun (o : Option (Nat × Nat)) => match o with | some v => v.1 % 256 * 256 + v.2 % 256 | none => 0
  BitVec.ofNat 48 (f (agree 2 b.link) + f (agree 1 b.transaction) * 2 ^ 16 + f (agree 3 b.command) * 2 ^ 32)

/-- The fabric sets of the manifest (R315). -/
def loadFabric (s : State) : List FabricSet → State
  | [] => s
  | f :: fs =>
    loadFabric (s.modPart f.partition (fun q =>
      { q with endpoints := f.endpoints, schedulers := f.schedulers, peers := f.peers.foldl (fun m e => put m e.1 e.2) [] })) fs

/-- The limits of the manifest (R380). -/
def loadLimits (s : State) : List (Nat × Nat) → State
  | [] => s
  | e :: es => loadLimits (if e.1 < 64 then s.modPart e.1 (fun q => { q with limit := e.2 }) else s) es

/-- The phase of bring-up (R382). -/
def phaseOf (s : State) : Nat := s.mgmt.mstat.toNat % 16

/-- What memories of the host hold: none of the module's. -/
def hostCells (m : List Host.Cell) : List Host.Cell := m.filter (fun c => inHost c.1)

/-- The memories of the module zeroed, under no key yet (R319). -/
def zeroAll (s : State) : State := { s with mem := hostCells s.mem, tags := [], flips := [] }

/-- The step of a phase that passes (R383). -/
def phaseStep (s : State) (b : BringUp) (n : Nat) : State :=
  match n with
  | 1 => { s with mgmt := { s.mgmt with loaded := b.images.map (fun i => i.bytes), images := b.images.length } }
  | 2 =>
    loadLimits (loadFabric { s with mgmt := { s.mgmt with
      floor := b.manifest.floor, idpub := Sys2Proof.Config.identityKey, loaded := s.mgmt.loaded ++ [b.manifest.bytes] } }
      b.manifest.fabric) b.manifest.limits
  | 3 => { s with mgmt := { s.mgmt with hlver := hlverOf b } }
  | 4 => zeroAll s
  | 5 => b.images.foldl (fun t i => match i.die with | some d => if d < 16 then startSupervisor t d i else t | none => t) s
  | 6 => { s with mgmt := { s.mgmt with fdev := BitVec.ofNat 12 b.manifest.device } }
  | _ => s

/-- The phase that the part is in passes or fails (R383, R384): the next one is reached, or the part stops in it. -/
def bringUp (s : State) : State :=
  match s.mgmt.bringing with
  | none => s
  | some b =>
    match firstFailure b with
    | some (phase, reason, detail) =>
      if phase = phaseOf s then
        { s with mgmt := { s.mgmt with mstat := s.mgmt.mstat ||| 0x80, mcause := mcauseOf phase reason detail, bringing := none } }
      else nextPhase s b
    | none => nextPhase s b
where
  nextPhase (s : State) (b : BringUp) : State :=
    let t := phaseStep s b (phaseOf s)
    { t with mgmt := { t.mgmt with mstat := t.mgmt.mstat + 1, bringing := if 6 ≤ phaseOf s then none else some b } }

/-- POWER_GOOD (R383): the part is reset and in phase 0; the phases follow, each by a turn (log 6 DESIGN CHOICE). The host keeps its
memory. -/
def execPowerGood (b : BringUp) (s : State) : Host.Outcome State Fault Refusal :=
  .next { State.reset with
    plan := s.plan, tick := s.tick, fresh := s.fresh, cur := s.cur, mem := hostCells s.mem, mgmt := { bringing := some b } }

end Sys2Proof.Machine
end

