-- ==== Sys2Proof/Machine/Numbers.lean ====
section
/-! DEFINITION. Number formats and rounding (R84–R101, R135, R142): a finite value is an exact integer in units of
2^−300, which holds every value of a format and every product of two; each result is rounded once. -/

namespace Sys2Proof.Machine

/-! ## Formats -/

/-- A floating-point format (R84): codes below the sign bit rise with the magnitude. -/
structure Fmt where
  width : Nat
  frac : Nat
  bias : Int
  /-- The code of the largest finite magnitude. -/
  top : Nat
  /-- The code of +∞, in the formats that have one. -/
  inf : Option Nat
  nan : Nat
  deriving DecidableEq, Repr

def fp32 : Fmt := ⟨32, 23, 127, 0x7F7FFFFF, some 0x7F800000, 0x7FC00000⟩
def bf16 : Fmt := ⟨16, 7, 127, 0x7F7F, some 0x7F80, 0x7FC0⟩
def fp16 : Fmt := ⟨16, 10, 15, 0x7BFF, some 0x7C00, 0x7E00⟩
def e4m3 : Fmt := ⟨8, 3, 7, 0x7E, none, 0x7F⟩
def e5m2 : Fmt := ⟨8, 2, 15, 0x7B, some 0x7C, 0x7E⟩

/-- The float format of a type code (R90). -/
def fmtOf (t : Nat) : Option Fmt :=
  match t with
  | 0 => some fp32 | 1 => some bf16 | 2 => some fp16 | 3 => some e4m3 | 4 => some e5m2 | _ => none

/-- The size in bytes of an element (R90), an unpacked code counting as one byte (R114). -/
def typeSize (t : Nat) : Nat :=
  match t with
  | 0 => 4 | 1 => 2 | 2 => 2 | 7 => 4 | 8 => 8 | _ => 1

def isFloat (t : Nat) : Bool := decide (t ≤ 4)
def isInt (t : Nat) : Bool := decide (5 ≤ t) && decide (t ≤ 7)

/-- The unit of exact values: 2^300 of them are 1. -/
def unit : Nat := 2 ^ 300

/-- A value of a floating-point format (R85): NaN, an infinity, or a finite value with the sign that a zero carries. -/
inductive FV where
  | nan
  | inf (neg : Bool)
  | fin (v : Int) (neg : Bool)
  deriving DecidableEq, Repr

/-- A finite value, its sign being its own. -/
def FV.of (v : Int) : FV := .fin v (decide (v < 0))

/-- The sign of a value. -/
def FV.neg : FV → Bool
  | .nan => false
  | .inf n => n
  | .fin v n => if v = 0 then n else decide (v < 0)

def FV.isNan : FV → Bool
  | .nan => true
  | _ => false

/-- The value of a code (R85). -/
def FV.read (f : Fmt) (code : Nat) : FV :=
  let neg := decide (2 ^ (f.width - 1) ≤ code)
  let m := code % 2 ^ (f.width - 1)
  let e := m / 2 ^ f.frac
  let x := m % 2 ^ f.frac
  if m = f.inf.getD (2 ^ f.width) then .inf neg
  else if f.top < m then .nan
  else
    let mag : Nat :=
      if e = 0 then x * 2 ^ (301 - f.bias - f.frac).toNat else (2 ^ f.frac + x) * 2 ^ (300 + (e : Int) - f.bias - f.frac).toNat
    .fin (if neg then -(mag : Int) else mag) neg

/-! ## Rounding (R8, R88, R89) -/

/-- floor(log2(num / den)) for positive numbers. -/
def log2Rat (num den : Nat) : Int :=
  let e := (num.log2 : Int) - (den.log2 : Int)
  let below := if 0 ≤ e then decide (num < den * 2 ^ e.toNat) else decide (num * 2 ^ (-e).toNat < den)
  if below then e - 1 else e

/-- Whether a quotient with remainder `r` of `d` is rounded away from zero: 0 RNE, 1 RTZ, 2 RDN, 3 RUP. A tie goes up
where `tie` says so (R103). -/
def roundsUp (rm : Nat) (neg tie : Bool) (n r d : Nat) : Bool :=
  match rm with
  | 0 => decide (d < 2 * r) || (decide (2 * r = d) && (tie || decide (n % 2 = 1)))
  | 1 => false
  | 2 => neg && decide (r ≠ 0)
  | _ => !neg && decide (r ≠ 0)

/-- The magnitude code of num / den > 0 rounded as though the exponent had no upper limit. -/
def roundCode (f : Fmt) (rm : Nat) (neg tie : Bool) (num den : Nat) : Nat :=
  let low := 1 - f.bias
  let e := log2Rat num den
  let q := (if e < low then low else e) - f.frac
  let n := if 0 ≤ q then num else num * 2 ^ (-q).toNat
  let d := if 0 ≤ q then den * 2 ^ q.toNat else den
  let m := n / d + (roundsUp rm neg tie (n / d) (n % d) d).toNat
  m + (q - (low - f.frac)).toNat * 2 ^ f.frac

/-- A code with its sign bit. -/
def signed (f : Fmt) (neg : Bool) (m : Nat) : Nat := if neg then 2 ^ (f.width - 1) + m else m

/-- An infinity as a result (R88, R89): E4M3 has none. -/
def infCode (f : Fmt) (neg sat : Bool) : Nat :=
  match f.inf with
  | some c => signed f neg c
  | none => if sat then signed f neg f.top else f.nan

/-- A finite result that overflows (R89). -/
def overflowCode (f : Fmt) (rm : Nat) (neg sat : Bool) : Nat :=
  let far := match rm with | 0 => true | 1 => false | 2 => neg | _ => !neg
  if far && !sat then infCode f neg false else signed f neg f.top

/-- num / den > 0 with a sign, rounded into a format. -/
def encodeRat (f : Fmt) (rm : Nat) (sat neg : Bool) (num den : Nat) : Nat :=
  let c := roundCode f rm neg false num den
  if c ≤ f.top then signed f neg c else overflowCode f rm neg sat

/-- A value rounded into a format (R88, R89). -/
def FV.encode (f : Fmt) (rm : Nat) (sat : Bool) : FV → Nat
  | .nan => f.nan
  | .inf n => infCode f n sat
  | .fin v n => if v = 0 then signed f n 0 else encodeRat f rm sat (decide (v < 0)) v.natAbs unit

/-- The sign of an exact zero whose operands have the signs given (R88). -/
def zeroSign (rm : Nat) (negs : List Bool) : Bool :=
  if negs.all (fun b => !b) then false else if negs.all (fun b => b) then true else decide (rm = 2)

def FV.negate : FV → FV
  | .nan => .nan
  | .inf n => .inf (!n)
  | .fin v n => .fin (-v) (!n)

/-- x + y (R86, R88). -/
def FV.add (rm : Nat) : FV → FV → FV
  | .nan, _ | _, .nan => .nan
  | .inf a, .inf b => if a = b then .inf a else .nan
  | .inf a, _ => .inf a
  | _, .inf b => .inf b
  | x@(.fin a _), y@(.fin b _) => if a + b = 0 then .fin 0 (zeroSign rm [x.neg, y.neg]) else .of (a + b)

/-- x × y (R86, R88), exact. -/
def FV.mul : FV → FV → FV
  | .nan, _ | _, .nan => .nan
  | .inf a, .inf b => .inf (a != b)
  | .inf a, y@(.fin b _) => if b = 0 then .nan else .inf (a != y.neg)
  | x@(.fin a _), .inf b => if a = 0 then .nan else .inf (x.neg != b)
  | x@(.fin a _), y@(.fin b _) => .fin (a * b / (unit : Int)) (x.neg != y.neg)

/-- The order of R121 on values that are no NaN: −0 below +0. -/
def FV.lt : FV → FV → Bool
  | .nan, _ | _, .nan => false
  | .inf a, .inf b => a && !b
  | .inf a, _ => a
  | _, .inf b => !b
  | x@(.fin a _), y@(.fin b _) => if a = 0 ∧ b = 0 then x.neg && !y.neg else decide (a < b)

def FV.minimum (x y : FV) : FV := if x.isNan || y.isNan then .nan else if FV.lt y x then y else x
def FV.maximum (x y : FV) : FV := if x.isNan || y.isNan then .nan else if FV.lt x y then y else x

def FV.abs : FV → FV
  | .nan => .nan
  | .inf _ => .inf false
  | .fin v _ => .fin (v.natAbs : Int) false

/-- Equality of exact values (R124). -/
def FV.same : FV → FV → Bool
  | .inf a, .inf b => a == b
  | .fin a _, .fin b _ => decide (a = b)
  | _, _ => false

/-- x < y in exact value, −0 equal to +0 (R124). -/
def FV.below : FV → FV → Bool
  | .fin a _, .fin b _ => decide (a < b)
  | x, y => FV.lt x y

/-! ## Integers (R93, R94) -/

/-- Whether a type code reads as a signed integer, `s` being the control word's bit. -/
def intSigned (t : Nat) (s : Bool) : Bool := match t with | 5 => true | 6 => false | _ => s

/-- The value of an integer element. -/
def readInt (t : Nat) (s : Bool) (code : Nat) : Int :=
  let n := 8 * typeSize t
  if intSigned t s && decide (2 ^ (n - 1) ≤ code) then (code : Int) - 2 ^ n else code

/-- The range of an integer of n bits. -/
def intMin (n : Nat) (s : Bool) : Int := if s then -(2 ^ (n - 1) : Int) else 0
def intMax (n : Nat) (s : Bool) : Int := if s then 2 ^ (n - 1) - 1 else 2 ^ n - 1

/-- An exact integer as n bits (R94). -/
def encodeInt (n : Nat) (s sat : Bool) (v : Int) : Nat :=
  let w := if sat then (if v < intMin n s then intMin n s else if intMax n s < v then intMax n s else v) else v
  (w % (2 ^ n : Int)).toNat

/-- An exact value rounded to an integer under rm. -/
def roundInt (rm : Nat) (v : Int) : Int :=
  let n := v.natAbs / unit
  let r := v.natAbs % unit
  let m := n + (roundsUp rm (decide (v < 0)) false n r unit).toNat
  if v < 0 then -(m : Int) else m

/-- A float value as an integer of n bits (R94). -/
def FV.toInteger (n : Nat) (s sat : Bool) (rm : Nat) : FV → Nat
  | .nan => 0
  | .inf neg => encodeInt n s true (if neg then intMin n s else intMax n s)
  | .fin v _ => encodeInt n s sat (roundInt rm v)

/-- An integer as an exact value. -/
def FV.ofInt (v : Int) : FV := .fin (v * unit) (decide (v < 0))

/-! ## Block codes (R96–R98) -/

/-- M of R97, in eighths. -/
def hybrid8 (n : Nat) : Nat := match n with | 0 => 0 | 1 => 4 | 2 => 8 | 3 => 12 | 4 => 16 | 5 => 24 | 6 => 32 | _ => 48

/-- codevalue(t, q) in eighths (R97). -/
def codeEighths (t q : Nat) : Int :=
  let c : Int := if 8 ≤ q then (q : Int) - 16 else q
  let sm := fun (m : Nat) => if 8 ≤ q then -(m : Int) else m
  match t with
  | 0 => 8 * c
  | 1 => sm (hybrid8 (q % 8))
  | 2 => if q % 8 = 0 then 0 else sm (2 ^ (q % 8 - 1))
  | _ => if q = 8 then 0 else if c < 0 then -(hybrid8 c.natAbs : Int) else hybrid8 c.natAbs

/-- codevalue(t, q): type 1 has a −0. -/
def codeValue (t q : Nat) : FV :=
  let e := codeEighths t q
  .fin (e * 2 ^ 297) (decide (e < 0) || (decide (t = 1) && decide (q = 8)))

/-- codevalue(t, q) × 2^(e − 32) (R96). -/
def blockValue (scale q : Nat) : FV :=
  let t := scale / 64
  let e := codeEighths t q
  .fin (e * 2 ^ (265 + scale % 64)) (decide (e < 0) || (decide (t = 1) && decide (q = 8)))

/-- The codes that stand for the values of a type, zero by code 0 alone. -/
def codesOf (t : Nat) : List Nat := (List.range 16).filter (fun q => decide (q = 0) || decide (codeEighths t q ≠ 0))

/-- The code among `cs` of the greatest value at or below `v`. -/
def codeBelow (t : Nat) (v : Int) (cs : List Nat) : Option Nat :=
  cs.foldl (fun best q =>
    if codeEighths t q * 2 ^ 297 ≤ v then
      match best with
      | none => some q
      | some b => if codeEighths t b < codeEighths t q then some q else some b
    else best) none

def codeAbove (t : Nat) (v : Int) (cs : List Nat) : Option Nat :=
  cs.foldl (fun best q =>
    if v ≤ codeEighths t q * 2 ^ 297 then
      match best with
      | none => some q
      | some b => if codeEighths t q < codeEighths t b then some q else some b
    else best) none

/-- A value rounded into a block code (R98). Type 0 holds magnitude 8 only as −8: what a value above 8 gives, and one above 7 that is
rounded up, is open (log 73 DESIGN CHOICE: a free value); any other value above 7 has the one candidate 7. -/
def encodeCode (t rm : Nat) : FV → Nat
  | .nan => 0
  | .inf neg =>
    if t = 0 ∧ neg = false then Sys2Proof.Config.wideCode 0 % 16
    else if neg then (codeAbove t (-(2 ^ 310 : Int)) (codesOf t)).getD 0 else (codeBelow t (2 ^ 310) (codesOf t)).getD 0
  | .fin v _ =>
    if t = 0 ∧ 64 * 2 ^ 297 < v then Sys2Proof.Config.wideCode 0 % 16
    else if t = 0 ∧ 56 * 2 ^ 297 < v ∧ 3 ≤ rm then Sys2Proof.Config.wideCode v.toNat % 16
    else
    match codeBelow t v (codesOf t), codeAbove t v (codesOf t) with
    | some lo, some hi =>
      let dl := v - codeEighths t lo * 2 ^ 297
      let dh := codeEighths t hi * 2 ^ 297 - v
      match rm with
      | 0 => if dl < dh then lo else if dh < dl then hi else if lo % 2 = 0 then lo else hi
      | 1 => if v < 0 then hi else lo
      | 2 => lo
      | _ => hi
    | some lo, none => lo
    | none, some hi => hi
    | none, none => 0

/-! ## Functions (R130, R135, R142)

Square roots are taken exactly. Exponentials and logarithms are formed in fixed point to 320 bits, and an irrational
result is then rounded once (log 23 DEDUCED). -/

/-- Fixed point: 2^320 is 1. -/
def fixOne : Nat := 2 ^ 320

/-- The integer square root, by bits from the highest. -/
def isqrt (n : Nat) : Nat → Nat → Nat
  | 0, r => r
  | k + 1, r => let c := r + 2 ^ k; isqrt n k (if c * c ≤ n then c else r)

/-- Σ z^(2k+1) / (2k+1), atanh z for a fixed-point z. -/
def atanhSum (z2 : Nat) : Nat → Nat → Nat → Nat
  | 0, _, _ => 0
  | fuel + 1, k, p => p / (2 * k + 1) + atanhSum z2 fuel (k + 1) (p * z2 / fixOne)

def atanhFix (z : Nat) : Nat := atanhSum (z * z / fixOne) 110 0 z

/-- ln 2. -/
def ln2 : Nat := 2 * atanhFix (fixOne / 3)

/-- Σ t^k / k!. -/
def expSum (t : Nat) : Nat → Nat → Nat → Nat
  | 0, _, _ => 0
  | fuel + 1, k, p => p + expSum t fuel (k + 1) (p * t / fixOne / (k + 1))

/-- ln(num / den) in fixed point, as an exponent of two and the logarithm of a number in [1, 2). -/
def lnParts (num den : Nat) : Int × Nat :=
  let e := log2Rat num den
  let n := if 0 ≤ e then num else num * 2 ^ (-e).toNat
  let d := if 0 ≤ e then den * 2 ^ e.toNat else den
  (e, 2 * atanhFix ((n - d) * fixOne / (n + d)))

/-- An irrational number near v / 2^320, rounded into a format. -/
def encodeFix (f : Fmt) (rm : Nat) (sat : Bool) (v : Int) : Nat :=
  encodeRat f rm sat (decide (v < 0)) (2 * v.natAbs + 1) (2 * fixOne)

/-- 1 / x into FP32 (R130). -/
def recip : FV → Nat
  | .nan => fp32.nan
  | .inf n => signed fp32 n 0
  | .fin v n => if v = 0 then infCode fp32 n false else encodeRat fp32 0 false (decide (v < 0)) unit v.natAbs

/-- 1 / √x (R135). -/
def rsqrt (f : Fmt) (rm : Nat) (sat : Bool) : FV → Nat
  | .nan => f.nan
  | .inf n => if n then f.nan else 0
  | .fin v n =>
    if v = 0 then infCode f n sat
    else if v < 0 then f.nan
    else
      let a := 2 ^ 1100
      let r := isqrt (a / v.natAbs) 600 0
      if r * r * v.natAbs = a then encodeRat f rm sat false r (2 ^ 400) else encodeRat f rm sat false (2 * r + 1) (2 ^ 401)

/-- 2^x (R135). -/
def exp2 (f : Fmt) (rm : Nat) (sat : Bool) : FV → Nat
  | .nan => f.nan
  | .inf n => if n then 0 else infCode f false sat
  | .fin v _ =>
    let i := v / (unit : Int)
    let x := (v % (unit : Int)).toNat
    if 2000 ≤ i then encodeRat f rm sat false (2 ^ 2000) 1
    else if i ≤ -2000 then encodeRat f rm sat false 1 (2 ^ 2000)
    else
      let y := if x = 0 then 2 * fixOne else 2 * expSum (x * ln2 / unit) 90 0 fixOne + 1
      if 0 ≤ i then encodeRat f rm sat false (y * 2 ^ i.toNat) (2 * fixOne)
      else encodeRat f rm sat false y (2 * fixOne * 2 ^ (-i).toNat)

/-- log2 x (R135). -/
def log2 (f : Fmt) (rm : Nat) (sat : Bool) : FV → Nat
  | .nan => f.nan
  | .inf n => if n then f.nan else infCode f false sat
  | .fin v _ =>
    if v = 0 then infCode f true sat
    else if v < 0 then f.nan
    else
      let (e, l) := lnParts v.natAbs unit
      if l = 0 ∧ v.natAbs = 2 ^ v.natAbs.log2 then FV.encode f rm sat (.ofInt e)
      else encodeFix f rm sat (e * fixOne + (l * fixOne / ln2 : Nat))

/-- −ln(−ln u) for u = n / 2^24 into FP32 (R142). -/
def gumbel (n : Nat) : Nat :=
  let (e, l) := lnParts n (2 ^ 24)
  let y := (-(e * ln2 + l)).toNat
  let (e2, l2) := lnParts y fixOne
  encodeFix fp32 0 false (-(e2 * ln2 + l2))

/-- mix of R142. -/
def mix64 (z : Word) : Word :=
  let a := (z ^^^ (z >>> 30)) * word 0xBF58476D1CE4E5B9
  let b := (a ^^^ (a >>> 27)) * word 0x94D049BB133111EB
  b ^^^ (b >>> 31)

/-! ## CRC-64 (R153) -/

def crcBits : Nat → Word → Word
  | 0, c => c
  | k + 1, c => crcBits k (if c.getLsbD 63 then (c <<< 1) ^^^ word 0x42F0E1EBA9EA3693 else c <<< 1)

/-- The CRC-64 of bytes, each most significant bit first. -/
def crc64 (bs : List Byte) : Word := bs.foldl (fun (c : Word) (b : Byte) => crcBits 8 (c ^^^ ((b.setWidth 64 : Word) <<< 56))) 0

end Sys2Proof.Machine
end

