-- ==== Sys2Proof/Machine/Vector.lean ====
section
/-! DEFINITION. The vector engine: its operand model (R114–R118), every vector instruction (R121–R142), ports (R140,
R141), record streams (R280–R282) and the vertical FIFO (R221). -/

namespace Sys2Proof.Machine

/-! ## Control words and types (R91, R118) -/

/-- The control word that a cw field names. -/
def cwOf (s : State) (c : B2) : BitVec 32 := look 0x00070000 s.me.cw c.toNat

def cwTa (w : BitVec 32) : Nat := bits w.toNat 3 0
def cwTb (w : BitVec 32) : Nat := bits w.toNat 7 4
def cwTd (w : BitVec 32) : Nat := bits w.toNat 11 8
def cwSa (w : BitVec 32) : Bool := w.getLsbD 16
def cwSb (w : BitVec 32) : Bool := w.getLsbD 17
def cwSd (w : BitVec 32) : Bool := w.getLsbD 18
def cwRm (w : BitVec 32) : Nat := bits w.toNat 20 19
def cwSat (w : BitVec 32) : Bool := w.getLsbD 21

/-- The types that the vector engine accepts (R114). -/
def vType (t : Nat) : Bool := decide (t ≤ 7) || decide (t = 9)

/-- Whether types are of one family, float or integer. -/
def sameFamily (ts : List Nat) : Bool := ts.all isFloat || ts.all isInt

/-- The element count over the types that an instruction reads (R114). -/
def countOf (ts : List Nat) : Nat := 256 / (ts.map typeSize).foldl max 1

/-- Elements of `size` bytes from byte `o` of a vector. -/
def elems (x : Vec) (o size n : Nat) : List Nat :=
  let v := x.toNat
  (List.range n).map (fun i => v / 2 ^ (8 * (o + i * size)) % 2 ^ (8 * size))

/-- Elements laid from byte `o`. -/
def layout (o size : Nat) (es : List Nat) : Nat :=
  ((List.range es.length).zip es).foldl (fun a e => a + e.2 % 2 ^ (8 * size) * 2 ^ (8 * (o + e.1 * size))) 0

/-- The lane of element i of n (R114). -/
def laneOf (i n : Nat) : Nat := i * 64 / n

/-- What an instruction writes: 256 bytes, the bytes that a port keeps (R116), and a new vm. -/
structure VOut where
  data : Nat
  keep : Nat := 0
  vm : Option Word := none

/-- Elements under the lane mask: masked-off ones are zero, and a port keeps their bytes (R116). -/
def masked (vm : Word) (o size : Nat) (es : List Nat) : VOut :=
  let n := es.length
  let on := fun i => vm.getLsbD (laneOf i n)
  { data := layout o size (((List.range n).zip es).map (fun e => if on e.1 then e.2 else 0)),
    keep := layout' o size ((List.range n).map (fun i => !on i)) }
where
  /-- One bit per byte. -/
  layout' (o size : Nat) (bs : List Bool) : Nat :=
    ((List.range bs.length).zip bs).foldl (fun a e => if e.2 then a + (2 ^ size - 1) * 2 ^ (o + e.1 * size) else a) 0

/-! ## Operands (R54, R115–R117) -/

/-- A vector source: its operand code and whether it peeks. -/
abbrev VSource := B5 × Bool

/-- Whether the executing party's task holds the vertical FIFOs (R261). -/
def holdsVq (s : State) : Bool := taskFlag s 3

def sourceOk (s : State) (f : B5) : Bool :=
  match voperand f with
  | .v n => decide (n < vregs s)
  | .vq => holdsVq s
  | .vz => true
  | .reserved => false
  | .port n => (match seek s.me.ports n with | some p => decide (p.mode = 0) | none => false)

def destOk (s : State) (f : B5) : Bool :=
  match voperand f with
  | .v n => decide (n < vregs s)
  | .vq => holdsVq s
  | .vz => true
  | .reserved => false
  | .port n => (match seek s.me.ports n with | some p => decide (p.mode = 1) | none => false)

def isV (f : B5) : Bool := decide (f.toNat < 20)
def isVq (f : B5) : Bool := decide (f.toNat = 20)

/-- How many vectors a port walks (R140). -/
def portTotal (p : Port) : Nat := p.counts.foldl (· * ·) 1

/-- Σ i_l × stride_l of vector n. -/
def portWalk (n : Nat) : List Nat → List Int → Int
  | c :: cs, t :: ts => (n % c : Nat) * t + portWalk (n / c) cs ts
  | _, _ => 0

/-- The scratchpad offset of a port's vector n. -/
def portAddr (p : Port) (n : Nat) : Nat := ((p.base : Int) + portWalk n p.counts p.strides).toNat

/-- The registers, the incoming FIFO and the ports as an instruction's reads leave them. -/
structure VFiles where
  v : Sparse (List VEntry)
  vin : List VEntry
  ports : Sparse Port

/-- What a source gives: an entry, 256 bytes at an offset, or a stall at an empty vq. -/
inductive VGot where
  | vec (x : VEntry)
  | scratch (o : Nat)
  | stall

/-- One read of a source (R115): none for an underflow. -/
def readSource (x : VFiles) (src : VSource) : Option (VFiles × VGot) :=
  match voperand src.1 with
  | .v n =>
    match look [] x.v n with
    | e :: es => some (if src.2 then x else { x with v := put x.v n es }, .vec e)
    | [] => none
  | .vq =>
    match x.vin with
    | e :: es => some (if src.2 then x else { x with vin := es }, .vec e)
    | [] => some (x, .stall)
  | .port n =>
    match seek x.ports n with
    | some p =>
      if p.pos < portTotal p then
        some (if src.2 then x else { x with ports := put x.ports n { p with pos := p.pos + 1 } }, .scratch (portAddr p p.pos))
      else none
    | none => none
  | _ => some (x, .vec ⟨0, false⟩)

/-- Every read of an instruction in order: the operand code at which one underflows. -/
def readSources (x : VFiles) : List VSource → Except B5 (VFiles × List VGot)
  | [] => .ok (x, [])
  | src :: rest =>
    match readSource x src with
    | none => .error src.1
    | some (y, g) =>
      match readSources y rest with
      | .ok (z, gs) => .ok (z, g :: gs)
      | .error c => .error c

/-- Whether a write would overflow (R116, R117). -/
def overflows (x : VFiles) (d : B5) : Bool :=
  match voperand d with
  | .v n => decide (4 ≤ (look [] x.v n).length)
  | .port n => (match seek x.ports n with | some p => decide (portTotal p ≤ p.pos) | none => true)
  | _ => false

/-- The vectors that reads gave, port vectors fetched from the scratchpad; none for an uncorrectable error in an entry or in the
scratchpad (R346). -/
def fetchAll (s : State) : List VGot → Option (State × List Vec)
  | [] => some (s, [])
  | .vec x :: rest => if x.bad then none else (fetchAll s rest).map (fun r => (r.1, x.data :: r.2))
  | .scratch o :: rest =>
    match readScratch s s.cur.core s.cur.slot o 256 with
    | some (t, bs) => (fetchAll t rest).map (fun r => (r.1, BitVec.ofNat 2048 (natOfBytes bs) :: r.2))
    | none => none
  | .stall :: rest => fetchAll s rest

/-- A task that reads or writes vq is bound to its column (R286). -/
def bindColumn (s : State) : State := s.modMyCtx (fun c => { c with task := c.task.map (fun t => { t with bound := true }) })

/-- Scattered bytes written to the executing party's window, each aligned span of `size` bytes at one point (R116, R193). -/
def writeSome (s : State) (size : Nat) (ps : List (Nat × Byte)) : Option State :=
  putCells s s.cur.core size (ps.map (fun p => (scratchPhys s s.cur.core s.cur.slot p.1, p.2)))

/-- The destination's write (R116); `whole` for VMOV.A, which writes 16 bytes at one point (R193). -/
def writeDest (s : State) (d : B5) (whole : Bool) (o : VOut) : Option State :=
  let x : Vec := BitVec.ofNat 2048 o.data
  match voperand d with
  | .v n => some (s.modMe (fun p => { p with v := put p.v n (look [] p.v n ++ [⟨x, false⟩]) }))
  | .vq => some (bindColumn (s.modCore (partnerOf s.cur.core) (fun c => { c with vfly := c.vfly ++ [⟨x, false⟩] })))
  | .port n =>
    match seek s.me.ports n with
    | some p =>
      let a := portAddr p p.pos
      let ps := (List.range 256).filterMap (fun i =>
        if o.keep.testBit i then none else some (a + i, BitVec.ofNat 8 (o.data / 2 ^ (8 * i))))
      (writeSome s (if whole then 16 else 8) ps).map (fun t => t.modMe (fun y => { y with ports := put y.ports n { p with pos := p.pos + 1 } }))
    | none => none
  | _ => some s

def filesOf (s : State) : VFiles := ⟨s.me.v, (s.core s.cur.core).vin, s.me.ports⟩

/-- The state once an instruction's reads have been taken. -/
def takeFiles (s : State) (x : VFiles) (vq : Bool) : State :=
  let t := s.modMe (fun p => { p with v := x.v, ports := x.ports })
  if vq then bindColumn (t.modCore s.cur.core (fun c => { c with vin := x.vin })) else t

/-- A vector instruction (R115–R117): the checks of R117 in their order, the stalls at vq, the reads, the result and the
write. `aligned` asks for a port address that is a multiple of 16 (R220). -/
def vop (s : State) (srcs : List VSource) (d : B5) (ok aligned : Bool) (f : List Vec → VOut) : Act :=
  let dport := match voperand d with | .port n => seek s.me.ports n | _ => none
  if !(ok && srcs.all (fun x => sourceOk s x.1) && destOk s d) then badOperand s
  else if aligned && (match dport with | some p => decide (p.pos < portTotal p) && decide (portAddr p p.pos % 16 ≠ 0) | none => false) then
    .trap causeAlignment (word (match dport with | some p => portAddr p p.pos | none => 0))
  else
    match readSources (filesOf s) srcs with
    | .error c => .trap causeUnderflow (c.setWidth 64)
    | .ok (x, gs) =>
      if overflows x d then .trap causeOverflow (d.setWidth 64)
      else if gs.any (fun g => match g with | .stall => true | _ => false) then .wait s
      else if isVq d && decide (vqFree s s.cur.core = 0) then .wait s
      else
        match fetchAll s gs with
        | none => .lost s
        | some (t, vs) =>
          let o := f vs
          match writeDest (takeFiles t x (srcs.any (fun x => isVq x.1))) d aligned o with
          | none => .lost s
          | some u => .done (match o.vm with | some m => u.modMe (fun p => { p with vm := m }) | none => u) 1

/-- The first, second and third vectors that an instruction has read. -/
def src0 (vs : List Vec) : Vec := vs.getD 0 0
def src1 (vs : List Vec) : Vec := vs.getD 1 0
def src2 (vs : List Vec) : Vec := vs.getD 2 0

/-! ## Lane-wise arithmetic (R121–R127) -/

/-- The format of a type code. -/
def fmt (t : Nat) : Fmt := (fmtOf t).getD fp32

/-- One element of a two-source operation under a control word, rounded once (R121). -/
def lane2 (cw : BitVec 32) (fo : FV → FV → FV) (io : Int → Int → Int) (x y : Nat) : Nat :=
  if isFloat (cwTa cw) then
    FV.encode (fmt (cwTd cw)) (cwRm cw) (cwSat cw) (fo (FV.read (fmt (cwTa cw)) x) (FV.read (fmt (cwTb cw)) y))
  else
    encodeInt (8 * typeSize (cwTd cw)) (intSigned (cwTd cw) (cwSd cw)) (cwSat cw)
      (io (readInt (cwTa cw) (cwSa cw) x) (readInt (cwTb cw) (cwSb cw) y))

/-- A masked operation on two sources whose types are of one family. -/
def varith (s : State) (d a b : B5) (c : B2) (p q : BitVec 1) (fo : Nat → FV → FV → FV) (io : Int → Int → Int) : Act :=
  let cw := cwOf s c
  let ts := [cwTa cw, cwTb cw, cwTd cw]
  let n := countOf ts
  vop s [(a, p = 1), (b, q = 1)] d (sameFamily ts) false (fun vs =>
    masked s.me.vm 0 (typeSize (cwTd cw))
      (List.zipWith (lane2 cw (fo (cwRm cw)) io) (elems (src0 vs) 0 (typeSize (cwTa cw)) n) (elems (src1 vs) 0 (typeSize (cwTb cw)) n)))

def execVadd (w g : B2) (d a b : B5) (c : B2) (p q : BitVec 1) (s : State) : Host.Outcome State Fault Refusal :=
  tokened s .vector w g (fun s => varith s d a b c p q FV.add (· + ·))
def execVsub (w g : B2) (d a b : B5) (c : B2) (p q : BitVec 1) (s : State) : Host.Outcome State Fault Refusal :=
  tokened s .vector w g (fun s => varith s d a b c p q (fun rm x y => FV.add rm x y.negate) (· - ·))
def execVmul (w g : B2) (d a b : B5) (c : B2) (p q : BitVec 1) (s : State) : Host.Outcome State Fault Refusal :=
  tokened s .vector w g (fun s => varith s d a b c p q (fun _ => FV.mul) (· * ·))
def execVmin (w g : B2) (d a b : B5) (c : B2) (p q : BitVec 1) (s : State) : Host.Outcome State Fault Refusal :=
  tokened s .vector w g (fun s => varith s d a b c p q (fun _ => FV.minimum) min)
def execVmax (w g : B2) (d a b : B5) (c : B2) (p q : BitVec 1) (s : State) : Host.Outcome State Fault Refusal :=
  tokened s .vector w g (fun s => varith s d a b c p q (fun _ => FV.maximum) max)

/-- One element of VFMA (R122): the exact x × y + c, rounded once. -/
def laneFma (cw : BitVec 32) (x y z : Nat) : Nat :=
  if isFloat (cwTa cw) then
    FV.encode (fmt (cwTd cw)) (cwRm cw) (cwSat cw)
      (FV.add (cwRm cw) (FV.mul (FV.read (fmt (cwTa cw)) x) (FV.read (fmt (cwTb cw)) y)) (FV.read (fmt (cwTd cw)) z))
  else
    encodeInt (8 * typeSize (cwTd cw)) (intSigned (cwTd cw) (cwSd cw)) (cwSat cw)
      (readInt (cwTa cw) (cwSa cw) x * readInt (cwTb cw) (cwSb cw) y + readInt (cwTd cw) (cwSd cw) z)

/-- Three lists of elements combined. -/
def zip3 (f : Nat → Nat → Nat → Nat) : List Nat → List Nat → List Nat → List Nat
  | x :: xs, y :: ys, z :: zs => f x y z :: zip3 f xs ys zs
  | _, _, _ => []

def execVfma (w g : B2) (d a b : B5) (c : B2) (p q : BitVec 1) (s : State) : Host.Outcome State Fault Refusal :=
  tokened s .vector w g (fun s =>
    let cw := cwOf s c
    let ts := [cwTa cw, cwTb cw, cwTd cw]
    let n := countOf ts
    vop s [(a, p = 1), (b, q = 1), (d, false)] d (sameFamily ts && isV d) false (fun vs =>
      masked s.me.vm 0 (typeSize (cwTd cw))
        (zip3 (laneFma cw) (elems (src0 vs) 0 (typeSize (cwTa cw)) n) (elems (src1 vs) 0 (typeSize (cwTb cw)) n)
          (elems (src2 vs) 0 (typeSize (cwTd cw)) n))))

/-- A masked operation on one source, with its slices' offsets. -/
def vunary (s : State) (d a : B5) (p : BitVec 1) (ok : Bool) (ta td n so dof : Nat) (f : Nat → Nat) : Act :=
  vop s [(a, p = 1)] d ok false (fun vs =>
    masked s.me.vm dof (typeSize td) ((elems (src0 vs) so (typeSize ta) n).map f))

def laneAbs (cw : BitVec 32) (x : Nat) : Nat :=
  if isFloat (cwTa cw) then FV.encode (fmt (cwTd cw)) (cwRm cw) (cwSat cw) (FV.read (fmt (cwTa cw)) x).abs
  else
    encodeInt (8 * typeSize (cwTd cw)) (intSigned (cwTd cw) (cwSd cw)) (cwSat cw) (readInt (cwTa cw) (cwSa cw) x).natAbs

def execVabs (w g : B2) (d a : B5) (c : B2) (p : BitVec 1) (s : State) : Host.Outcome State Fault Refusal :=
  tokened s .vector w g (fun s =>
    let cw := cwOf s c
    let ts := [cwTa cw, cwTd cw]
    vunary s d a p (sameFamily ts) (cwTa cw) (cwTd cw) (countOf ts) 0 0 (laneAbs cw))

/-- One comparison (R124): 0 EQ, 1 NE, 2 LT, 3 LE. -/
def laneCmp (cw : BitVec 32) (u : B2) (x y : Nat) : Bool :=
  let (eq, lt, un) :=
    if isFloat (cwTa cw) then
      let a := FV.read (fmt (cwTa cw)) x
      let b := FV.read (fmt (cwTb cw)) y
      (FV.same a b, FV.below a b, a.isNan || b.isNan)
    else
      let a := readInt (cwTa cw) (cwSa cw) x
      let b := readInt (cwTb cw) (cwSb cw) y
      (decide (a = b), decide (a < b), false)
  match u.toNat with
  | 0 => eq && !un
  | 1 => !eq || un
  | 2 => lt && !un
  | _ => (eq || lt) && !un

/-- vm after a comparison: bit j is the AND of the comparisons of lane j. -/
def vmOf (bs : List Bool) : Word :=
  ((List.range bs.length).zip bs).foldl (fun m e => if e.2 then m else setBit m (laneOf e.1 bs.length) false) (BitVec.allOnes 64)

def execVcmp (w g : B2) (d a b : B5) (c : B2) (p q : BitVec 1) (u : B2) (s : State) : Host.Outcome State Fault Refusal :=
  tokened s .vector w g (fun s =>
    let cw := cwOf s c
    let ts := [cwTa cw, cwTb cw]
    let n := countOf ts
    let size := max (typeSize (cwTa cw)) (typeSize (cwTb cw))
    vop s [(a, p = 1), (b, q = 1)] d (sameFamily ts) false (fun vs =>
      let bs := List.zipWith (laneCmp cw u) (elems (src0 vs) 0 (typeSize (cwTa cw)) n) (elems (src1 vs) 0 (typeSize (cwTb cw)) n)
      { data := layout 0 size (bs.map (fun b => if b then 2 ^ (8 * size) - 1 else 0)), vm := some (vmOf bs) }))

/-- An element of type `t` as a move reads or leaves it: an unpacked code has bits [7:4] ignored on input and zero on
output (R114, log 47 DEDUCED). -/
def codeBits (t x : Nat) : Nat := if t = 9 then x % 16 else x

def execVsel (w g : B2) (d a b : B5) (c : B2) (p q : BitVec 1) (s : State) : Host.Outcome State Fault Refusal :=
  tokened s .vector w g (fun s =>
    let cw := cwOf s c
    let ts := [cwTa cw, cwTb cw, cwTd cw]
    let n := countOf ts
    let z := typeSize (cwTd cw)
    vop s [(a, p = 1), (b, q = 1)] d (ts.all vType && ts.all (fun t => typeSize t == z)) false (fun vs =>
      let on := fun i => s.me.vm.getLsbD (laneOf i n)
      { data := layout 0 z (((List.range n).zip (List.zip (elems (src0 vs) 0 z n) (elems (src1 vs) 0 z n))).map (fun e =>
          codeBits (cwTd cw) (if on e.1 then codeBits (cwTa cw) e.2.1 else codeBits (cwTb cw) e.2.2))) }))

/-- A bitwise operation on 256 bytes, masked by lane (R126). -/
def vbits (s : State) (d a b : B5) (p q : BitVec 1) (f : Nat → Nat → Nat) : Act :=
  vop s [(a, p = 1), (b, q = 1)] d true false (fun vs =>
    masked s.me.vm 0 4 (List.zipWith f (elems (src0 vs) 0 4 64) (elems (src1 vs) 0 4 64)))

def execVand (w g : B2) (d a b : B5) (_c : B2) (p q : BitVec 1) (s : State) : Host.Outcome State Fault Refusal :=
  tokened s .vector w g (fun s => vbits s d a b p q (· &&& ·))
def execVor (w g : B2) (d a b : B5) (_c : B2) (p q : BitVec 1) (s : State) : Host.Outcome State Fault Refusal :=
  tokened s .vector w g (fun s => vbits s d a b p q (· ||| ·))
def execVxor (w g : B2) (d a b : B5) (_c : B2) (p q : BitVec 1) (s : State) : Host.Outcome State Fault Refusal :=
  tokened s .vector w g (fun s => vbits s d a b p q (· ^^^ ·))

/-- A shift (R127): `f` on the width, the signedness of A, the element and the amount. -/
def vshift (s : State) (d a b : B5) (c : B2) (p q : BitVec 1) (f : Nat → Bool → Nat → Nat → Nat) : Act :=
  let cw := cwOf s c
  let ta := cwTa cw
  let n := countOf [ta, cwTb cw]
  vop s [(a, p = 1), (b, q = 1)] d (isInt ta && isInt (cwTb cw) && decide (cwTd cw = ta)) false (fun vs =>
    masked s.me.vm 0 (typeSize ta)
      (List.zipWith (f (8 * typeSize ta) (intSigned ta (cwSa cw))) (elems (src0 vs) 0 (typeSize ta) n)
        (elems (src1 vs) 0 (typeSize (cwTb cw)) n)))

def shiftLeft (n : Nat) (_ : Bool) (x k : Nat) : Nat := if n ≤ k then 0 else x * 2 ^ k % 2 ^ n

def shiftRight (n : Nat) (arith : Bool) (x k : Nat) : Nat :=
  let j := if n ≤ k then n else k
  if arith && decide (2 ^ (n - 1) ≤ x) then 2 ^ n - 2 ^ (n - j) + x / 2 ^ j else x / 2 ^ j

def execVshl (w g : B2) (d a b : B5) (c : B2) (p q : BitVec 1) (s : State) : Host.Outcome State Fault Refusal :=
  tokened s .vector w g (fun s => vshift s d a b c p q shiftLeft)
def execVshr (w g : B2) (d a b : B5) (c : B2) (p q : BitVec 1) (s : State) : Host.Outcome State Fault Refusal :=
  tokened s .vector w g (fun s => vshift s d a b c p q shiftRight)

/-! ## Conversion and quantisation (R128–R134) -/

/-- The offsets of source and destination that slice k gives (R128): none for a k out of range. -/
def sliceOf (ta td n k : Nat) : Option (Nat × Nat) :=
  let a := typeSize ta
  let d := typeSize td
  if d < a then (if k < a / d then some (0, k * n * d) else none)
  else if a < d then (if k < d / a then some (k * n * a, 0) else none)
  else if k = 0 then some (0, 0) else none

/-- One conversion (R129). -/
def laneCvt (cw : BitVec 32) (x : Nat) : Nat :=
  let td := cwTd cw
  let v := if isFloat (cwTa cw) then FV.read (fmt (cwTa cw)) x else FV.ofInt (readInt (cwTa cw) (cwSa cw) x)
  if isFloat td then FV.encode (fmt td) (cwRm cw) (cwSat cw) v
  else FV.toInteger (8 * typeSize td) (intSigned td (cwSd cw)) (cwSat cw) (cwRm cw) v

def execVcvt (w g : B2) (d a : B5) (c : B2) (p : BitVec 1) (k : B2) (s : State) : Host.Outcome State Fault Refusal :=
  tokened s .vector w g (fun s =>
    let cw := cwOf s c
    let n := countOf [cwTa cw, cwTd cw]
    let num := fun t => isFloat t || isInt t
    let sl := sliceOf (cwTa cw) (cwTd cw) n k.toNat
    let (so, dof) := sl.getD (0, 0)
    vunary s d a p (num (cwTa cw) && num (cwTd cw) && sl.isSome) (cwTa cw) (cwTd cw) n so dof (laneCvt cw))

/-- The value of a source element of VDQ (R132). -/
def dqValue (cw : BitVec 32) (k : B2) (x : Nat) : FV :=
  let ta := cwTa cw
  if ta = 9 then codeValue k.toNat (x % 16)
  else if isFloat ta then FV.read (fmt ta) x
  else FV.ofInt (readInt ta (cwSa cw) x)

/-- A value into the destination of VQNT (R131). -/
def quantise (cw : BitVec 32) (k : B2) (v : FV) : Nat :=
  let td := cwTd cw
  if td = 9 then encodeCode k.toNat (cwRm cw) v
  else if isFloat td then FV.encode (fmt td) (cwRm cw) (cwSat cw) v
  else FV.toInteger (8 * typeSize td) (intSigned td (cwSd cw)) (cwSat cw) (cwRm cw) v

/-- The product of a source and an FP32 factor, one rounding (R131, R132): 64 elements. -/
def vscale (s : State) (d a b : B5) (p q : BitVec 1) (ta td : Nat) (ok : Bool) (sl : Option (Nat × Nat)) (f : Nat → Nat → Nat) : Act :=
  let (so, dof) := sl.getD (0, 0)
  vop s [(a, p = 1), (b, q = 1)] d (ok && sl.isSome) false (fun vs =>
    masked s.me.vm dof (typeSize td) (List.zipWith f (elems (src0 vs) so (typeSize ta) 64) (elems (src1 vs) 0 4 64)))

def execVqnt (w g : B2) (d a b : B5) (c : B2) (p q : BitVec 1) (k : B2) (s : State) : Host.Outcome State Fault Refusal :=
  tokened s .vector w g (fun s =>
    let cw := cwOf s c
    let td := cwTd cw
    let ok := [0, 1, 2].contains (cwTa cw) && decide (cwTb cw = 0) && [1, 2, 3, 4, 5, 6, 9].contains td
    vscale s d a b p q (cwTa cw) td ok (if td = 9 then some (0, 0) else sliceOf (cwTa cw) td 64 k.toNat) (fun x y =>
      quantise cw k (FV.mul (FV.read (fmt (cwTa cw)) x) (FV.read fp32 y))))

def execVdq (w g : B2) (d a b : B5) (c : B2) (p q : BitVec 1) (k : B2) (s : State) : Host.Outcome State Fault Refusal :=
  tokened s .vector w g (fun s =>
    let cw := cwOf s c
    let ta := cwTa cw
    let ok := [1, 2, 3, 4, 5, 6, 9].contains ta && decide (cwTb cw = 0) && [0, 1, 2].contains (cwTd cw)
    vscale s d a b p q ta (cwTd cw) ok (if ta = 9 then some (0, 0) else sliceOf ta (cwTd cw) 64 k.toNat) (fun x y =>
      FV.encode (fmt (cwTd cw)) (cwRm cw) (cwSat cw) (FV.mul (dqValue cw k x) (FV.read fp32 y))))

/-- The fields of s[b] in VBPK and VBUN (R133): plane, word, block. -/
def planeFields (v : Word) : Option (Nat × Nat × Nat) :=
  if 512 ≤ v.toNat then none else some (bits v.toNat 1 0, bits v.toNat 6 2, bits v.toNat 8 7)

/-- The plane word of 64 codes (R99). -/
def planeWord (p : Nat) (codes : List Nat) : Nat :=
  ((List.range codes.length).zip codes).foldl (fun a e => if e.2.testBit p then a + 2 ^ e.1 else a) 0

def execVbpk (w g : B2) (d a b : B5) (_c : B2) (p : BitVec 1) (s : State) : Host.Outcome State Fault Refusal :=
  tokened s .vector w g (fun s =>
    let r := planeFields (s.reg b.toNat)
    let (pl, k, j) := r.getD (0, 0, 0)
    vop s [(a, p = 1)] d (r.isSome) false (fun vs => { data := planeWord pl (elems (src0 vs) (64 * j) 1 64) * 2 ^ (64 * k) }))

def execVbun (w g : B2) (d a b : B5) (_c : B2) (p : BitVec 1) (s : State) : Host.Outcome State Fault Refusal :=
  tokened s .vector w g (fun s =>
    let r := planeFields (s.reg b.toNat)
    let (pl, k, j) := r.getD (0, 0, 0)
    vop s [(a, p = 1)] d (r.isSome) false (fun vs =>
      let x := (src0 vs).toNat / 2 ^ (64 * k)
      { data := layout (64 * j) 1 ((List.range 64).map (fun m => if x.testBit m then 2 ^ pl else 0)) }))

/-! ## Functions (R130, R135) -/

def execVrcp (w g : B2) (d a : B5) (c : B2) (p : BitVec 1) (s : State) : Host.Outcome State Fault Refusal :=
  tokened s .vector w g (fun s =>
    let cw := cwOf s c
    vunary s d a p (isFloat (cwTa cw) && decide (cwTd cw = 0)) (cwTa cw) 0 64 0 0 (fun x => recip (FV.read (fmt (cwTa cw)) x)))

/-- A function of float elements, rounded once into td. -/
def vfunction (s : State) (d a : B5) (c : B2) (p : BitVec 1) (f : Fmt → Nat → Bool → FV → Nat) : Act :=
  let cw := cwOf s c
  vunary s d a p (isFloat (cwTa cw) && isFloat (cwTd cw)) (cwTa cw) (cwTd cw) (countOf [cwTa cw, cwTd cw]) 0 0 (fun x =>
    f (fmt (cwTd cw)) (cwRm cw) (cwSat cw) (FV.read (fmt (cwTa cw)) x))

def execVrsq (w g : B2) (d a : B5) (c : B2) (p : BitVec 1) (s : State) : Host.Outcome State Fault Refusal :=
  tokened s .vector w g (fun s => vfunction s d a c p rsqrt)
def execVexp2 (w g : B2) (d a : B5) (c : B2) (p : BitVec 1) (s : State) : Host.Outcome State Fault Refusal :=
  tokened s .vector w g (fun s => vfunction s d a c p exp2)
def execVlog2 (w g : B2) (d a : B5) (c : B2) (p : BitVec 1) (s : State) : Host.Outcome State Fault Refusal :=
  tokened s .vector w g (fun s => vfunction s d a c p log2)

/-! ## Reductions and scans (R136, R137) -/

/-- The exact sum of a set (R86, R88, R136). -/
def sumSet (rm : Nat) (l : List FV) : FV :=
  if l.any FV.isNan then .nan
  else
    let inf := fun n => l.any (fun x => decide (x = .inf n))
    if inf true && inf false then .nan
    else if inf true then .inf true
    else if inf false then .inf false
    else
      let t := l.foldl (fun a x => match x with | .fin v _ => a + v | _ => a) 0
      if t ≠ 0 then .of t else if l = [] then .fin 0 false else .fin 0 (zeroSign rm (l.map FV.neg))

/-- The greatest or least of a set; zero of the empty one. -/
def pickSet (f : FV → FV → FV) : List FV → FV
  | [] => .fin 0 false
  | x :: xs => xs.foldl f x

def pickInts (f : Int → Int → Int) : List Int → Int
  | [] => 0
  | x :: xs => xs.foldl f x

/-- The reduction of a set of elements into td: kind 0 sum, 1 max, 2 min. -/
def reduceSet (cw : BitVec 32) (kind : Nat) (es : List Nat) : Nat :=
  let td := cwTd cw
  if isFloat td then
    let l := es.map (FV.read (fmt (cwTa cw)))
    FV.encode (fmt td) (cwRm cw) (cwSat cw)
      (match kind with | 0 => sumSet (cwRm cw) l | 1 => pickSet FV.maximum l | _ => pickSet FV.minimum l)
  else
    let l := es.map (readInt (cwTa cw) (cwSa cw))
    encodeInt (8 * typeSize td) (intSigned td (cwSd cw)) (cwSat cw)
      (match kind with | 0 => l.foldl (· + ·) 0 | 1 => pickInts max l | _ => pickInts min l)

/-- The elements whose lane is set. -/
def unmasked (vm : Word) (n : Nat) (es : List Nat) : List Nat :=
  ((List.range n).zip es).filterMap (fun e => if vm.getLsbD (laneOf e.1 n) then some e.2 else none)

def execVred (w g : B2) (d a : B5) (c : B2) (p : BitVec 1) (n : B2) (s : State) : Host.Outcome State Fault Refusal :=
  tokened s .vector w g (fun s =>
    let cw := cwOf s c
    let ts := [cwTa cw, cwTd cw]
    let m := countOf ts
    vop s [(a, p = 1)] d (sameFamily ts) false (fun vs =>
      let r := reduceSet cw n.toNat (unmasked s.me.vm m (elems (src0 vs) 0 (typeSize (cwTa cw)) m))
      { data := layout 0 (typeSize (cwTd cw)) (List.replicate m r) }))

def execVscan (w g : B2) (d a : B5) (c : B2) (p : BitVec 1) (n : B2) (s : State) : Host.Outcome State Fault Refusal :=
  tokened s .vector w g (fun s =>
    let cw := cwOf s c
    let ts := [cwTa cw, cwTd cw]
    let m := countOf ts
    let kind := match n.toNat with | 0 => 0 | 1 => 0 | 2 => 1 | _ => 2
    vop s [(a, p = 1)] d (sameFamily ts) false (fun vs =>
      let es := elems (src0 vs) 0 (typeSize (cwTa cw)) m
      let upTo := fun i => ((List.range m).zip es).filterMap (fun e =>
        if (decide (e.1 < i) || (decide (e.1 = i) && decide (n ≠ 1))) && s.me.vm.getLsbD (laneOf e.1 m) then some e.2 else none)
      masked s.me.vm 0 (typeSize (cwTd cw)) ((List.range m).map (fun i => reduceSet cw kind (upTo i)))))

/-! ## Moves (R123, R126, R138, R139) -/

def execVperm (w g : B2) (d a b : B5) (c : B2) (p q : BitVec 1) (s : State) : Host.Outcome State Fault Refusal :=
  tokened s .vector w g (fun s =>
    let cw := cwOf s c
    let z := typeSize (cwTd cw)
    let n := countOf [cwTa cw, cwTb cw, cwTd cw]
    vop s [(a, p = 1), (b, q = 1)] d (vType (cwTa cw) && vType (cwTd cw) && isInt (cwTb cw) && decide (typeSize (cwTa cw) = z)) false (fun vs =>
      let es := elems (src0 vs) 0 z n
      masked s.me.vm 0 z ((elems (src1 vs) 0 (typeSize (cwTb cw)) n).map (fun i => codeBits (cwTd cw) (codeBits (cwTa cw) (es.getD (i % n) 0))))))

def execVbcsElement (w g : B2) (d a b : B5) (c : B2) (p : BitVec 1) (s : State) : Host.Outcome State Fault Refusal :=
  tokened s .vector w g (fun s =>
    let cw := cwOf s c
    let z := typeSize (cwTd cw)
    let n := countOf [cwTa cw, cwTd cw]
    vop s [(a, p = 1)] d (vType (cwTa cw) && vType (cwTd cw) && decide (typeSize (cwTa cw) = z)) false (fun vs =>
      let x := (elems (src0 vs) 0 z n).getD ((s.reg b.toNat).toNat % n) 0
      masked s.me.vm 0 z (List.replicate n (codeBits (cwTd cw) (codeBits (cwTa cw) x)))))

def execVbcsScalar (w g : B2) (d b : B5) (c : B2) (s : State) : Host.Outcome State Fault Refusal :=
  tokened s .vector w g (fun s =>
    let cw := cwOf s c
    let z := typeSize (cwTd cw)
    vop s [] d (vType (cwTd cw)) false (fun _ =>
      masked s.me.vm 0 z (List.replicate (256 / z) (codeBits (cwTd cw) ((s.reg b.toNat).toNat % 2 ^ (8 * z))))))

/-- The lane value of an immediate in the type of CW0's tb (R55); none where the type has none. An immediate that is a NaN keeps
its bits except where BF16 is widened to FP32 (R86; log 74 DEDUCED). -/
def immLane (cw : BitVec 32) (i : BitVec 16) : Option Nat :=
  let n := i.toNat
  match cwTb cw with
  | 0 => some (FV.encode fp32 0 false (FV.read bf16 n))
  | 1 | 2 => some (n + n * 2 ^ 16)
  | 3 | 4 | 5 | 6 => some (n + n * 2 ^ 16)
  | 7 => some (if cwSb cw then (i.signExtend 32).toNat else n)
  | _ => none

/-- The broadcast vector of an immediate. -/
def immVec (lane : Nat) : Vec := BitVec.ofNat 2048 (layout 0 4 (List.replicate 64 lane))

def execVimm (w g : B2) (d : B5) (i : BitVec 16) (s : State) : Host.Outcome State Fault Refusal :=
  tokened s .vector w g (fun s =>
    let cw := cwOf s 0
    let z := typeSize (cwTb cw)
    let l := immLane cw i
    vop s [] d l.isSome false (fun _ => masked s.me.vm 0 z (elems (immVec (l.getD 0)) 0 z (256 / z))))

/-- One element of VADDI (R123): the addend typed td, the immediate typed tb. -/
def laneAddi (cw : BitVec 32) (x y : Nat) : Nat :=
  let td := cwTd cw
  if isFloat td then
    FV.encode (fmt td) (cwRm cw) (cwSat cw) (FV.add (cwRm cw) (FV.read (fmt td) x) (FV.read (fmt (cwTb cw)) y))
  else
    encodeInt (8 * typeSize td) (intSigned td (cwSd cw)) (cwSat cw)
      (readInt td (cwSd cw) x + readInt (cwTb cw) (cwSb cw) y)

def execVaddi (w g : B2) (d : B5) (i : BitVec 16) (s : State) : Host.Outcome State Fault Refusal :=
  tokened s .vector w g (fun s =>
    let cw := cwOf s 0
    let ts := [cwTb cw, cwTd cw]
    let n := countOf ts
    let l := immLane cw i
    vop s [(d, false)] d (isV d && l.isSome && sameFamily ts) false (fun vs =>
      masked s.me.vm 0 (typeSize (cwTd cw))
        (List.zipWith (laneAddi cw) (elems (src0 vs) 0 (typeSize (cwTd cw)) n) (elems (immVec (l.getD 0)) 0 (typeSize (cwTb cw)) n))))

def execVmov (w g : B2) (d a : B5) (_c : B2) (p : BitVec 1) (s : State) : Host.Outcome State Fault Refusal :=
  tokened s .vector w g (fun s => vop s [(a, p = 1)] d true false (fun vs => masked s.me.vm 0 4 (elems (src0 vs) 0 4 64)))

/-- VMOV.A (R126, R220): a port destination at a multiple of 16. -/
def execVmovA (w g : B2) (d a : B5) (_c : B2) (p : BitVec 1) (s : State) : Host.Outcome State Fault Refusal :=
  tokened s .vector w g (fun s =>
    vop s [(a, p = 1)] d (decide (24 ≤ d.toNat)) true (fun vs => masked s.me.vm 0 4 (elems (src0 vs) 0 4 64)))

/-! ## Record streams (R280–R282) -/

/-- The generations of a stream of the executing task's partition on its die, oldest first, the last one open. -/
def streamOf (s : State) (n : Nat) : List (List (BitVec 32)) := look [[]] s.streams (streamKey (myDie s) s.myPart n)

def setStream (s : State) (n : Nat) (g : List (List (BitVec 32))) : State :=
  { s with streams := put s.streams (streamKey (myDie s) s.myPart n) g }

/-- Records appended to the open generation. -/
def appendOpen (g : List (List (BitVec 32))) (rs : List (BitVec 32)) : List (List (BitVec 32)) :=
  g.dropLast ++ [g.getLastD [] ++ rs]

def execVspsh (w g : B2) (n a : B5) (p : BitVec 1) (s : State) : Host.Outcome State Fault Refusal :=
  tokened s .vector w g (fun s =>
    if !sourceOk s a then badOperand s
    else
      match readSources (filesOf s) [(a, p = 1)] with
      | .error c => .trap causeUnderflow (c.setWidth 64)
      | .ok (x, gs) =>
        let st := streamOf s n.toNat
        if 262144 < (st.map List.length).foldl (· + ·) 0 + popCount 64 s.me.vm.toNat then .trap causeOverflow (n.setWidth 64)
        else if gs.any (fun g => match g with | .stall => true | _ => false) then .wait s
        else
          match fetchAll s gs with
          | none => .lost s
          | some (t, vs) =>
            let rs := (unmasked s.me.vm 64 (elems (src0 vs) 0 4 64)).map (BitVec.ofNat 32)
            .done (setStream (takeFiles t x (isVq a)) n.toNat (appendOpen st rs)) 1)

/-- What a pop takes (R281): up to 64 records of the oldest generation, and the generations left. A generation sealed while it is
empty takes one pop, which delivers no record. (Log 70 DESIGN CHOICE.) -/
def popStream (g : List (List (BitVec 32))) : List (BitVec 32) × List (List (BitVec 32)) :=
  match g with
  | [] => ([], [[]])
  | [o] => if 64 ≤ o.length then (o.take 64, [o.drop 64]) else ([], [o])
  | o :: rest => (o.take 64, if o.length ≤ 64 then rest else o.drop 64 :: rest)

/-- VSPOP (R281). What it takes orders the party after the pushes and the seal (R282). -/
def execVspop (w g : B2) (d n : B5) (s : State) : Host.Outcome State Fault Refusal :=
  tokened s .vector w g (fun s =>
    let (rs, left) := popStream (streamOf s n.toNat)
    let vm := BitVec.ofNat 64 (2 ^ rs.length - 1)
    match vop s [] d true false (fun _ => { data := layout 0 4 (rs.map (fun r => r.toNat)), vm := some vm }) with
    | .done t k =>
      let u := setStream t n.toNat left
      .done (if rs = [] then u else orderPoint u u.cur) k
    | a => a)

def execVsbal (w g : B2) (n : B5) (s : State) : Host.Outcome State Fault Refusal :=
  tokened s .vector w g (fun s => .done (setStream s n.toNat (streamOf s n.toNat ++ [[]])) 1)

/-! ## Ports (R140, R141) -/

/-- The least and greatest of the offsets that a walk adds to its base. -/
def walkRange : List Nat → List Int → Int × Int
  | c :: cs, t :: ts =>
    let (lo, hi) := walkRange cs ts
    let e := ((c - 1 : Nat) : Int) * t
    (lo + min 0 e, hi + max 0 e)
  | _, _ => (0, 0)

/-- The port that a GCFG record gives, if the record is legal for a scratchpad of `z` bytes. (Log 49 DEDUCED.) -/
def portOf (z : Nat) (r : List Byte) : Option Port :=
  let levels := recField r 4 1
  let counts := (List.range levels).map (fun i => recField r (8 + 4 * i) 4)
  let strides := (List.range 4).map (fun i => recInt r (0x18 + 4 * i))
  let base := recField r 0 4
  let (lo, hi) := walkRange counts strides
  if base % 4 ≠ 0 ∨ levels = 0 ∨ 4 < levels ∨ 1 < recField r 5 1 ∨ recField r 6 2 ≠ 0 ∨ recField r 0x28 8 ≠ 0 ∨
      !counts.all (fun c => decide (1 ≤ c) && decide (c ≤ 2 ^ 24)) ∨ !strides.all (fun t => decide (t % 4 = 0)) ∨
      (base : Int) + lo < 0 ∨ (z : Int) < base + hi + 256 then none
  else some ⟨base, recField r 5 1, counts, strides.take levels, 0⟩

def execGcfg (w g : B2) (d a : B5) (s : State) : Host.Outcome State Fault Refusal :=
  tokened s .vector w g (fun s =>
    let o := (s.reg a.toNat).toNat
    if d.toNat < 24 then badOperand s
    else if o % 16 ≠ 0 then .trap causeAlignment (word o)
    else if !inScratch s.cur.core o 48 then badOperand s
    else
      withScratch s o 48 (fun t r =>
        match portOf (scratchSize s.cur.core) r with
        | none => badOperand s
        | some p => .done (t.modMe (fun x => { x with ports := put x.ports (d.toNat - 24) p })) 1))

def execGrst (w g : B2) (d : B5) (s : State) : Host.Outcome State Fault Refusal :=
  tokened s .vector w g (fun s =>
    if d.toNat < 24 then badOperand s
    else
      match seek s.me.ports (d.toNat - 24) with
      | none => badOperand s
      | some p => .done (s.modMe (fun x => { x with ports := put x.ports (d.toNat - 24) { p with pos := 0 } })) 1)

/-! ## Noise (R142) -/

/-- One element of noise for an index under a key pair. -/
def noise (k0 k1 : Word) (gumbels : Bool) (x : Nat) : Nat :=
  let h := mix64 (k0 ^^^ mix64 (k1 ^^^ mix64 (word x)))
  let u := 2 * bits h.toNat 63 41 + 1
  if gumbels then gumbel u else encodeRat fp32 0 false false u (2 ^ 24)

def execVnoise (w g : B2) (d a b : B5) (c : B2) (p : BitVec 1) (n : B2) (s : State) : Host.Outcome State Fault Refusal :=
  tokened s .vector w g (fun s =>
    let cw := cwOf s c
    let ok := decide (b.toNat % 2 = 0) && decide (b.toNat ≤ 30) && decide (cwTa cw = 7) && decide (cwTd cw = 0)
    let k0 := s.reg b.toNat
    let k1 := s.reg (b.toNat + 1)
    vunary s d a p ok 7 0 64 0 0 (noise k0 k1 (decide (n ≠ 0))))

/-- VQ_ENTRY_ARRIVAL (R221): the oldest entry under way into a core's incoming FIFO becomes poppable. -/
def execVqEntryArrival (core : Nat) (s : State) : Host.Outcome State Fault Refusal :=
  match (s.core core).vfly with
  | x :: rest => .next (s.modCore core (fun c => { c with vin := c.vin ++ [x], vfly := rest }))
  | [] => .next s

end Sys2Proof.Machine
end

