-- ==== Sys2Proof/Machine/Matrix.lean ====
section
/-! DEFINITION. The matrix engine: accumulator tiles and the loop nest (R143–R146), runs and the accumulation window
(R102–R106, R147), MLDC and MDRAIN (R151, R152), signatures (R153, R154), and the operand FIFOs that feed it (R148, R149). -/

namespace Sys2Proof.Machine

/-! ## Accumulator tiles (R143) -/

/-- The physical address of a tile. -/
def tileAddr (core t : Nat) : Nat := phys (tagAcc core) (65536 * t)

/-- Little-endian 32-bit values. -/
def quads : List Byte → List Nat
  | a :: b :: c :: d :: rest => natOfBytes [a, b, c, d] :: quads rest
  | _ => []

/-- The bytes of a tile, row-major, read with their check bits; none for an uncorrectable error. -/
def readTile (s : State) (core t : Nat) : Option (State × List Byte) :=
  match checkWords s (dieOf core) (regionFlips s (tileAddr core t) 65536) with
  | some u => some (u, readBytes s.mem (tileAddr core t) 65536)
  | none => none

/-- A tile written whole. -/
def writeTile (s : State) (core t : Nat) (bs : List Byte) : State :=
  let gone := regionFlips s (tileAddr core t) 65536
  { s with mem := writeBytes (clearRange s.mem (tileAddr core t) 65536) (tileAddr core t) bs,
           flips := s.flips.filter (fun e => !gone.contains e.1) }

/-! ## Values and groups (R102–R106) -/

/-- Element `i` of an entry as a real; a B4 code under the scale of its block (R143). -/
def entryReal (e : FEntry) (i : Nat) : FV :=
  if e.type = 9 then blockValue (e.scales.getD (i / 64) 0) (e.elems.getD i 0) else FV.read (fmt e.type) (e.elems.getD i 0)

def entryInt (e : FEntry) (i : Nat) : Int := readInt e.type true (e.elems.getD i 0)

/-- The operand of row or column `i` along K: f(k, i) for k = 0, 1, … (R147). -/
def alongK {α : Type} (f : FEntry → Nat → α) (es : List FEntry) (trans : Bool) (i : Nat) : List α :=
  if trans then
    (List.range ((es.length + 127) / 128)).flatMap (fun b =>
      match es[128 * b + i]? with
      | some e => (List.range 128).map (f e)
      | none => [])
  else es.map (fun e => f e i)

/-- The pieces of `n` of a list, the last taking what is left. -/
def pieces {α : Type} (n : Nat) : Nat → List α → List (List α)
  | 0, _ => []
  | fuel + 1, xs => if xs.isEmpty then [] else xs.take n :: pieces n fuel (xs.drop n)

/-- |t| cut to a multiple of q, with t's sign (R103). -/
def cutTo (q : Nat) (v : Int) : Int := if v < 0 then -((v.natAbs / q * q : Nat) : Int) else (v.natAbs / q * q : Nat)

/-- The integer of a finite value in units; 0 for others. -/
def finPart : FV → Int
  | .fin v _ => v
  | _ => 0

def isInf (neg : Bool) : FV → Bool
  | .inf n => n == neg
  | _ => false

/-- A floating-point group (R103, R104): the FP32 code of its result. -/
def group (terms : List FV) : Nat :=
  if terms.any (fun t => t.isNan) || (terms.any (isInf true) && terms.any (isInf false)) then fp32.nan
  else if terms.any (isInf true) then infCode fp32 true false
  else if terms.any (isInf false) then infCode fp32 false false
  else
    let nz := (terms.map finPart).filter (fun v => decide (v ≠ 0))
    if nz.isEmpty then signed fp32 (zeroSign 0 (terms.map FV.neg)) 0
    else
      let e := (nz.map (fun v => v.natAbs.log2)).foldl max 0
      let q := 2 ^ (e - 80)
      let sum : Int := (nz.map (cutTo q)).foldl (· + ·) 0
      let sticky := nz.any (fun v => decide (cutTo q v ≠ v))
      if sum = 0 then 0
      else
        let c := roundCode fp32 0 (decide (sum < 0)) sticky sum.natAbs unit
        if c ≤ fp32.top then signed fp32 (decide (sum < 0)) c else overflowCode fp32 0 (decide (sum < 0)) false

/-- The value of one output element after a pass: its groups in order. -/
def passReal (c : Nat) (a b : List FV) : Nat :=
  (pieces 32 a.length (List.zipWith FV.mul a b)).foldl (fun c ps => group (ps ++ [FV.read fp32 c])) c

/-- The same for integers (R106). -/
def passInt (sat : Bool) (c : Nat) (a b : List Int) : Nat :=
  (pieces 32 a.length (List.zipWith (· * ·) a b)).foldl
    (fun c ps => encodeInt 32 true sat (ps.foldl (· + ·) 0 + readInt 7 true c)) c

/-- One pass over a tile (R147). -/
def pass (cw : BitVec 32) (ta tb : Bool) (tile : List Nat) (ea eb : List FEntry) : List Nat :=
  if isInt (cwTa cw) then
    let as := (List.range 128).map (alongK entryInt ea ta)
    let bs := (List.range 128).map (alongK entryInt eb tb)
    List.zipWith (fun c (x : List Int × List Int) => passInt (cwSat cw) c x.1 x.2) tile (as.flatMap (fun a => bs.map (fun b => (a, b))))
  else
    let as := (List.range 128).map (alongK entryReal ea ta)
    let bs := (List.range 128).map (alongK entryReal eb tb)
    List.zipWith (fun c (x : List FV × List FV) => passReal c x.1 x.2) tile (as.flatMap (fun a => bs.map (fun b => (a, b))))

/-! ## The nest (R144, R147) -/

/-- Level l of the table: count and tstep. -/
def nestLevel (v : Word) : Nat × Int := (bits v.toNat 23 0, (BitVec.ofNat 8 (bits v.toNat 39 32)).toInt)

/-- The tile steps that a walk of levels (highest first) leaves behind. -/
def walkShift : List (Nat × Int) → Int
  | [] => 0
  | (n, step) :: rest => n * (walkShift rest + step)

/-- The tiles of the passes of a walk, in order, from tile `t`. -/
def walkTiles : List (Nat × Int) → Int → List Int
  | [], t => [t]
  | (n, step) :: rest, t => (List.range n).flatMap (fun (j : Nat) => walkTiles rest (t + j * (walkShift rest + step)))

/-- The tiles that the walk reaches, or enough of them to show that it leaves 0–7. -/
def reachTiles : List (Nat × Int) → Int → List Int
  | [], t => [t]
  | (n, step) :: rest, t =>
    let d := walkShift rest + step
    (List.range (min n (if d = 0 then 1 else 9))).flatMap (fun (j : Nat) => reachTiles rest (t + j * d))

/-- The pairs of types that a run accepts (R147). -/
def runTypes (ta tb td : Nat) : Bool :=
  (decide (ta = 1) && decide (tb = 1) || decide (ta = 2) && decide (tb = 2) ||
    (decide (ta = 3) || decide (ta = 4)) && (decide (tb = 3) || decide (tb = 4)) || decide (ta = 9) && decide (tb = 9)) && decide (td = 0) ||
  (decide (ta = 5) || decide (ta = 6)) && (decide (tb = 5) || decide (tb = 6)) && decide (td = 7)

/-! ## Operations in flight (R148) -/

/-- Whether an operation uses tile `t`. -/
def usesTile (t : Nat) (o : MatOp) : Bool := if o.kind = 0 then o.tiles.contains t else decide (o.tile = t)

/-- Takes entries for one operation from a FIFO. (Log 52 DEDUCED.) -/
def takeEntries (need : Nat) (got fifo : List FEntry) : List FEntry × List FEntry :=
  (got ++ fifo.take (need - got.length), fifo.drop (need - got.length))

/-- Operations take entries in FIFO order, the earliest issued first: what one of them still needs from a FIFO no later one takes.
A run takes from both FIFOs at one rate, so that an empty one stalls it at the other too (R147). -/
def collectOps : List MatOp → List FEntry → List FEntry → List MatOp × List FEntry × List FEntry
  | [], a, b => ([], a, b)
  | o :: os, a, b =>
    let n := if o.kind = 0 then min a.length b.length else a.length
    let (ga, a1) := takeEntries (min o.needA (o.gotA.length + n)) o.gotA a
    let (gb, b1) := takeEntries (min o.needB (o.gotB.length + n)) o.gotB b
    let keepA := decide (ga.length < o.needA)
    let keepB := decide (gb.length < o.needB)
    let (os1, a2, b2) := collectOps os (if keepA then [] else a1) (if keepB then [] else b1)
    ({ o with gotA := ga, gotB := gb } :: os1, if keepA then a1 else a2, if keepB then b1 else b2)

/-- Whether an operation has taken an entry of another type (R149). -/
def mismatched (o : MatOp) : Bool :=
  o.gotA.any (fun e => decide (e.type ≠ cwTa o.cw)) || (decide (o.kind = 0) && o.gotB.any (fun e => decide (e.type ≠ cwTb o.cw)))

/-- The operations of a core take what its FIFOs hold; a type that differs ends the task (R149). -/
def collect (s : State) (core : Nat) : State :=
  let c := s.core core
  let (ops, a, b) := collectOps c.ops c.fifoA c.fifoB
  let t := s.setCore core { c with ops := ops, fifoA := a, fifoB := b }
  (ops.filter mismatched).foldl (fun u o => markDying u core o.slot errType 0) t

/-- Starts an operation. -/
def startOp (s : State) (o : MatOp) : State := collect (s.modCore s.cur.core (fun c => { c with ops := c.ops ++ [o] })) s.cur.core

/-- An instruction of the matrix engine whose signal token its completion pushes (R148, R152). -/
def tokenLater (s : State) (w g : B2) (body : State → Act) : Host.Outcome State Fault Refusal :=
  if s.cur.party.map ≠ .matrix then conclude s w g (.trap causeIllegal s.curWord)
  else if !(bound s w && bound s g) then conclude s w g (.trap causeOperand s.curWord)
  else if !hasToken s.me w then conclude s w g (.wait s)
  else conclude s w 0 (body s)

/-- The operations in flight on the executing party's core. -/
def flying (s : State) : List MatOp := (s.core s.cur.core).ops

/-! ## The instructions -/

def execMnest (w g : B2) (a b : B5) (s : State) : Host.Outcome State Fault Refusal :=
  tokened s .matrix w g (fun s =>
    let l := (s.reg b.toNat).toNat
    if !taskFlag s 1 || decide (5 < l) then badOperand s
    else .done (s.modSh (fun h => { h with ns := put h.ns l (s.reg a.toNat &&& word 0xFF00FFFFFF) })) 1)

/-- MRUN (R147). -/
def mrun (s : State) (a : B5) (c t g : B2) : Act :=
  if !taskFlag s 1 then badOperand s
  else if (flying s).any (fun o => decide (o.kind < 2)) then .wait s
  else
    let cw := cwOf s c
    let v := (s.reg a.toNat).toNat
    let ls := (List.range 6).map (fun l => nestLevel (look 0 s.myCtx.sh.ns l))
    let k := (ls.getD 0 (0, 0)).1
    let upper := ls.drop 1
    let used := upper.takeWhile (fun l => decide (l.1 ≠ 0))
    let nest := used.reverse
    let reached := reachTiles nest (v % 8 : Nat)
    let tiles := (reached.map Int.toNat).eraseDups
    let trans := t ≠ 0
    if (flying s).any (fun o => decide (o.kind = 2) && tiles.contains o.tile) then .wait s
    else if !runTypes (cwTa cw) (cwTb cw) (cwTd cw) || decide (8 ≤ v) || decide (k = 0) || decide ((ls.getD 0 (0, 0)).2 ≠ 0) ||
        (upper.drop used.length).any (fun l => decide (l.1 ≠ 0)) || reached.any (fun x => decide (x < 0) || decide (7 < x)) ||
        (decide trans && decide (k % 128 ≠ 0)) then badOperand s
    else
      let n := k * (used.map (fun l => l.1)).foldl (· * ·) 1
      .done (startOp s ⟨0, s.cur.slot, cw, v, (k, 0) :: used, t.getLsbD 0, t.getLsbD 1, tiles, n, n, [], [], 0, false, g⟩) 1

def execMrun (w g : B2) (a : B5) (c t : B2) (s : State) : Host.Outcome State Fault Refusal :=
  tokenLater s w g (fun s => mrun s a c t g)

def execMzero (w g : B2) (a : B5) (s : State) : Host.Outcome State Fault Refusal :=
  tokened s .matrix w g (fun s =>
    let v := (s.reg a.toNat).toNat
    let ts := (List.range 8).filter (fun t => v.testBit t)
    if !taskFlag s 1 || decide (2 ^ 8 ≤ v) then badOperand s
    else if (flying s).any (fun o => ts.any (fun t => usesTile t o)) then .wait s
    else .done (ts.foldl (fun u t => writeTile u s.cur.core t []) s) 1)

/-- The types from which a tile may be loaded (R151). -/
def loadTypes (t : Nat) : Bool := decide (t ≤ 2) || decide (t = 5) || decide (t = 6) || decide (t = 7)

def execMldc (w g : B2) (a : B5) (c : B2) (s : State) : Host.Outcome State Fault Refusal :=
  tokenLater s w g (fun s =>
    let v := (s.reg a.toNat).toNat
    let cw := cwOf s c
    if !taskFlag s 1 || decide (7 < v) || !loadTypes (cwTa cw) then badOperand s
    else if (flying s).any (usesTile v) then .wait s
    else .done (startOp s ⟨1, s.cur.slot, cw, v, [], false, false, [v], 128, 0, [], [], 0, false, g⟩) 1)

/-- Whether MDRAIN converts from ta to td (R152). -/
def drainTypes (ta td : Nat) : Bool :=
  (decide (ta = 0) && decide (td ≤ 4)) || (decide (ta = 7) && (decide (td = 7) || decide (td = 5) || decide (td = 6)))

def execMdrain (w g : B2) (a b : B5) (c : B2) (s : State) : Host.Outcome State Fault Refusal :=
  tokenLater s w g (fun s =>
    let v := (s.reg a.toNat).toNat
    let o := (s.reg b.toNat).toNat
    let cw := cwOf s c
    let t := v % 8
    if !taskFlag s 1 then badOperand s
    else if o % 4 ≠ 0 then .trap causeAlignment (word o)
    else if !inScratch s.cur.core o (16384 * typeSize (cwTd cw)) || decide (16 ≤ v) || !drainTypes (cwTa cw) (cwTd cw) then badOperand s
    else if (flying s).any (fun x => (decide (x.kind < 2) && usesTile t x) || (decide (x.kind = 2) && x.zero && decide (x.tile = t))) then .wait s
    else .done (startOp s ⟨2, s.cur.slot, cw, t, [], false, false, [t], 0, 0, [], [], o, decide (8 ≤ v), g⟩) 1)

/-- The signature of a tile (R153), once nothing in flight changes it (R148). -/
def signature (s : State) (a : B5) (k : State → Word → Act) : Act :=
  let v := (s.reg a.toNat).toNat
  if !taskFlag s 1 || decide (7 < v) then badOperand s
  else if (flying s).any (fun x => (decide (x.kind < 2) && usesTile v x) || (decide (x.kind = 2) && x.zero && decide (x.tile = v))) then .wait s
  else
    match readTile s s.cur.core v with
    | some (t, bs) => k t (crc64 bs)
    | none => .lost s

def execMsig (w g : B2) (d a : B5) (s : State) : Host.Outcome State Fault Refusal :=
  tokened s .matrix w g (fun s => signature s a (fun t sig => .done (t.setReg d.toNat sig false) 1))

/-- MKAT (R154): three words, the two constants read under their check bits (R345, R346). -/
def execMkat (w g : B2) (a : B5) (s : State) : Host.Outcome State Fault Refusal :=
  tokened s .matrix w g (fun s =>
    let pc := s.me.pc.toNat
    if decide (imemSize s.cur < pc + 12) || endsLoop s.me pc || endsLoop s.me (pc + 4) then badOperand s
    else
      signature s a (fun t sig =>
        match checkWords t (dieOf t.cur.core) (wordsOf (imemPhys t t.cur (pc + 4)) 4 ++ wordsOf (imemPhys t t.cur (pc + 8)) 4) with
        | none => .lost t
        | some t =>
          let want := (wordAt t t.cur (pc + 4)).toNat + 2 ^ 32 * (wordAt t t.cur (pc + 8)).toNat
          if sig = word want then .done (t.modCore t.cur.core (fun c => { c with katb := 0 })) 3 else .trap causeKat sig))

def execMwt (w g : B2) (s : State) : Host.Outcome State Fault Refusal :=
  tokened s .matrix w g (fun s => if !taskFlag s 1 then badOperand s else if flying s ≠ [] then .wait s else .done s 1)

/-! ## Completion -/

/-- The earliest operation of a kind, with those before and after it. -/
def firstOp (k : Nat) : List MatOp → Option (MatOp × List MatOp)
  | [] => none
  | o :: os => if o.kind = k then some (o, os) else (firstOp k os).map (fun r => (r.1, o :: r.2))

/-- Whether a signal token must wait for a drain that was issued before the first operation of its kind (R196). -/
def afterDrain (s : State) (core : Nat) (o : MatOp) : Bool :=
  decide (o.sig ≠ 0) &&
  ((s.core core).ops.takeWhile (fun x => decide (x.kind ≠ o.kind))).any (fun x => decide (x.kind = 2) && decide (x.slot = o.slot))

/-- Whether an operation may complete: its task goes on, there is room for its signal token (R273), and what precedes the token
is performed (R196). One that finds the counter at 15 stays in flight until the peer pops (log 111 DESIGN CHOICE). -/
def opMayEnd (s : State) (core : Nat) (o : MatOp) : Bool :=
  let x := s.ctx core o.slot
  !afterDrain s core o &&
  x.dying.isNone && !x.cancel && !(s.core core).gated && decide (o.needA ≤ o.gotA.length) && decide (o.needB ≤ o.gotB.length) &&
  !pushFull (s.setCur ⟨core, o.slot, .m⟩) o.sig

/-- The operation has ended: its signal token is pushed. -/
def opEnded (s : State) (core : Nat) (o : MatOp) (rest : List MatOp) : State :=
  let t := s.modCore core (fun c => { c with ops := rest })
  (pushToken (t.setCur ⟨core, o.slot, .m⟩) o.sig).setCur s.cur

/-- The tiles of a run read; none for an uncorrectable error. -/
def readTiles (core : Nat) : List Nat → State → Option (State × Sparse (List Nat))
  | [], s => some (s, [])
  | t :: ts, s =>
    match readTile s core t with
    | some (u, bs) => (readTiles core ts u).map (fun r => (r.1, put r.2 t (quads bs)))
    | none => none

/-- The passes of a run, each taking the next K entries of both FIFOs. -/
def runPasses (o : MatOp) (k : Nat) : List Int → List FEntry → List FEntry → Sparse (List Nat) → Sparse (List Nat)
  | [], _, _, m => m
  | t :: ts, a, b, m =>
    runPasses o k ts (a.drop k) (b.drop k) (put m t.toNat (pass o.cw o.ta o.tb (look [] m t.toNat) (a.take k) (b.take k)))

/-- Whether an operand entry of an operation holds an uncorrectable error, which the operation consumes (R346). -/
def spoiltOp (o : MatOp) : Bool := (o.gotA ++ o.gotB).any (fun e => e.bad)

/-- RUN_COMPLETE (R147, R148). -/
def execRunComplete (core : Nat) (s : State) : Host.Outcome State Fault Refusal :=
  match firstOp 0 (s.core core).ops with
  | some (o, rest) =>
    let k := (o.nest.getD 0 (1, 0)).1
    let s1 := if spoiltOp o then consume s core o.slot else match readTiles core o.tiles s with
      | some (t, m) =>
        let m' := runPasses o k (walkTiles (o.nest.drop 1).reverse (o.tile : Int)) o.gotA o.gotB m
        opEnded (m'.foldl (fun u e => writeTile u core e.1 (e.2.flatMap (bytesOfNat 4))) t) core o rest
      | none => consume s core o.slot
    occurs s (opMayEnd s core o) s1
  | none => .next s

/-- One value of a row of MLDC (R151), as its 32-bit code. -/
def loadValue (t v : Nat) : Nat :=
  if isFloat t then FV.encode fp32 0 false (FV.read (fmt t) v) else encodeInt 32 true false (readInt t true v)

/-- MLDC_COMPLETE (R151). -/
def execMldcComplete (core : Nat) (s : State) : Host.Outcome State Fault Refusal :=
  match firstOp 1 (s.core core).ops with
  | some (o, rest) =>
    let bs := o.gotA.flatMap (fun e => e.elems.flatMap (fun v => bytesOfNat 4 (loadValue (cwTa o.cw) v)))
    occurs s (opMayEnd s core o)
      (if spoiltOp o then consume s core o.slot else opEnded (writeTile s core o.tile bs) core o rest)
  | none => .next s

/-- One value of a drain (R152). -/
def drainValue (cw : BitVec 32) (v : Nat) : Nat :=
  let td := cwTd cw
  if isFloat (cwTa cw) then FV.encode (fmt td) (cwRm cw) (cwSat cw) (FV.read fp32 v)
  else encodeInt (8 * typeSize td) (intSigned td (cwSd cw)) (cwSat cw) (readInt 7 (cwSa cw) v)

/-- DRAIN_COMPLETE (R152). -/
def execDrainComplete (core : Nat) (s : State) : Host.Outcome State Fault Refusal :=
  match firstOp 2 (s.core core).ops with
  | some (o, rest) =>
    let s1 := match readTile s core o.tile with
      | none => consume s core o.slot
      | some (t, bs) =>
        match writeScratch (t.setCur ⟨core, o.slot, .m⟩) core o.slot o.offset
            ((quads bs).flatMap (fun v => bytesOfNat (typeSize (cwTd o.cw)) (drainValue o.cw v))) with
        | none => consume s core o.slot
        | some u => opEnded ((if o.zero then writeTile u core o.tile [] else u).setCur s.cur) core o rest
    occurs s (opMayEnd s core o) s1
  | none => .next s

end Sys2Proof.Machine
end

