-- ==== Sys2Proof/Machine/Tensors.lean ====
section
/-! DEFINITION. Tensors as the engines name them (R224–R228): descriptors, tile tables, elements and plane groups, and the
writes of engine accesses under their key slots (R319, R320). -/

namespace Sys2Proof.Machine

/-- Why an engine access does not go on: an uncorrectable error, a translation error (R226), a bank in refresh (R239), an
illegal operand. -/
inductive Miss where
  | lost
  | nowhere
  | held
  | bad
  | privilege
  deriving DecidableEq, Repr

/-- What a miss makes of the instruction: a translation error of an engine has TVAL 0 (R348), and so has its privilege trap (log 80
DESIGN CHOICE). -/
def missAct (s : State) : Miss → Act
  | .privilege => .trap causePrivilege 0
  | .lost => .lost s
  | .nowhere => .ends s errTranslation 0
  | .held => .wait s
  | .bad => badOperand s

/-- What a miss makes of a command in progress: a write at the other side's window takes the command back, nothing of it having been
done (R330, R347); one that has written `part` of its bytes before waits (log 80 DESIGN CHOICE). -/
def endMiss (s : State) (part : Bool) : Miss → Act
  | .privilege =>
    if part then .wait s else .raw (takeTrap (s.modMe (fun x => { giveBack x with busy := none })) s.cur causePrivilege 0)
  | e => missAct s e

/-- A descriptor (R224). -/
structure Tensor where
  type : Nat
  dims : Nat
  key : Nat
  kind : Nat
  scales : Nat
  tiles : Nat
  handle : Word
  /-- The 56-bit shape value. -/
  shape : Nat
  extents : List Nat
  deriving DecidableEq, Repr

/-- The fields of a descriptor's bytes. -/
def describe (bs : List Byte) : Tensor :=
  { type := recField bs 0 1, dims := recField bs 1 1, key := recField bs 2 2, kind := recField bs 4 1,
    scales := recField bs 5 1, tiles := recField bs 8 8, handle := word (recField bs 0x10 8), shape := recField bs 0x18 7,
    extents := (List.range 10).map (fun i => recField bs (0x20 + 4 * i) 4) }

/-- log2 of the tile's extent in dimension i. -/
def Tensor.log (t : Tensor) (i : Nat) : Nat := bits t.shape (5 * i + 4) (5 * i)

/-- The extent in dimension i: 1 at or beyond dims (R227). -/
def Tensor.extent (t : Tensor) (i : Nat) : Nat := if i < t.dims then t.extents.getD i 0 else 1

/-- How many elements a tile holds. -/
def Tensor.tileElems (t : Tensor) : Nat := 2 ^ ((List.range t.dims).map t.log).foldl (· + ·) 0

/-- How many elements the tensor has. -/
def Tensor.elements (t : Tensor) : Nat := ((List.range t.dims).map t.extent).foldl (· * ·) 1

/-- The shape and extent rules of R225. -/
def Tensor.shaped (t : Tensor) : Bool :=
  let half := if t.type = 9 then 1 else 2 * typeSize t.type
  decide (1 ≤ t.dims) && decide (t.dims ≤ 10) && decide (t.type ≤ 9) && decide (t.shape < 2 ^ 50) &&
  (List.range 10).all (fun i => if i < t.dims then decide (t.log i ≤ 17) else decide (t.log i = 0)) &&
  decide (t.tileElems * half = 131072) &&
  (List.range 10).all (fun i => if i < t.dims then decide (1 ≤ t.extents.getD i 0) else decide (t.extents.getD i 0 = 0)) &&
  decide (t.elements ≤ 2 ^ 40)

/-- The checks of a descriptor that a command names (R224, R225, R228); `weak` where the command takes a weak source. (Log 56 DEDUCED.) -/
def Tensor.ok (s : State) (t : Tensor) (weak : Bool) : Bool :=
  t.shaped && mayName s s.myPart t.key && decide (t.tiles % 8 = 0) &&
  (if t.type = 9 then decide (t.scales < 64) else decide (t.scales = 0xFF)) &&
  (match t.kind with
   | 0 => decide (t.handle = 0)
   | 1 => !handleWeak t.handle && (liveObj s t.handle).isSome
   | 2 => weak && handleWeak t.handle
   | _ => false)

/-- Reads the descriptor of a slot of the task's tensor table. -/
def readTensor (s : State) (slot : Nat) : Except Miss (State × List Byte) :=
  match s.myCtx.task with
  | none => .error .bad
  | some t =>
    if t.tcount ≤ slot then .error .bad
    else
      match partRead s t.part (t.tensors.toNat + 128 * slot) 128 with
      | .ok r => .ok r
      | .error true => .error .lost
      | .error false => .error .nowhere

/-- A slot's descriptor with its checks; a B4 tensor's scale array is named with it (R224). -/
def nameTensor (s : State) (slot : Nat) (weak : Bool) : Except Miss (State × List Byte) :=
  match readTensor s slot with
  | .error e => .error e
  | .ok (s1, bs) =>
    let t := describe bs
    if !t.ok s1 weak then .error .bad
    else if t.type ≠ 9 then .ok (s1, bs)
    else
      match readTensor s1 t.scales with
      | .error e => .error e
      | .ok (s2, cs) =>
        let u := describe cs
        if u.ok s2 false && decide (u.type = 6) && decide (u.dims = 1) then .ok (s2, bs) else .error .bad

/-! ## Tiles -/

/-- Where coordinates lie: tile and element in the tile, or none when out of range (R225, R227). -/
def locate (t : Tensor) : Nat → List Int → Nat → Nat → Option (Nat × Nat)
  | _, [], _, _ => some (0, 0)
  | i, c :: cs, grid, el =>
    if c < 0 ∨ (t.extent i : Int) ≤ c then none
    else
      let z := 2 ^ t.log i
      let n := if i < t.dims then (t.extent i + z - 1) / z else 1
      (locate t (i + 1) cs (grid * n) (el * z)).map (fun r => (c.toNat / z * grid + r.1, c.toNat % z * el + r.2))

def Tensor.find (t : Tensor) (c : List Int) : Option (Nat × Nat) := locate t 0 c 1 1

/-- The entry of a tile's table (R226). -/
def tileEntry (s : State) (t : Tensor) (tile : Nat) : Except Miss (State × Nat) :=
  match partRead s s.myPart (t.tiles + 8 * tile) 8 with
  | .ok (u, bs) => .ok (u, natOfBytes bs)
  | .error true => .error .lost
  | .error false => .error .nowhere

/-- Whether a frame of a partition lies in a window that it does not write (R330): an engine reaches a window from the
exporter's side alone, whose frames they are (R226). -/
def foreignFrame (s : State) (part space f : Nat) : Bool :=
  s.windows.any (fun e => e.2.live && e.2.importerWrites && decide (e.2.exporter = part) &&
    (regionFrames s part e.2.base e.2.length).contains (space, f))

/-- The place of byte `o` of a tile (R226, R385), under the descriptor's key slot (R319). -/
def tilePlace (s : State) (t : Tensor) (tile o : Nat) : Except Miss (State × Place) :=
  match tileEntry s t tile with
  | .error e => .error e
  | .ok (u, e) =>
    let f := bits e 39 0
    let space := bits e 42 40
    let part := s.myPart
    if e / 2 ^ 63 = 0 ∨ bits e 62 43 ≠ 0 then .error .nowhere
    else
      match space with
      | 0 | 1 =>
        if ownerOf u (frameCode 0 space f) = part then
          .ok (u, ⟨framePhys 0 0 space f o, frameHome 0 space f, some t.key, some (frameCode 0 space f), false,
            foreignFrame u part space f⟩)
        else .error .nowhere
      | 2 => .ok (u, ⟨framePhys 0 part 2 f o, frameHome 0 2 f, none, none, false, false⟩)
      | 3 =>
        if f < 6144 ∧ ownerOf u (frameCode (myDie s) 3 f) = part then
          .ok (u, ⟨framePhys (myDie s) 0 3 f o, myDie s, none, none, false, true⟩)
        else .error .nowhere
      | _ => .error .nowhere

/-- `n` bytes at byte `o` of a tile. -/
def readTileBytes (s : State) (t : Tensor) (tile o n : Nat) : Except Miss (State × List Byte) :=
  match tilePlace s t tile o with
  | .error e => .error e
  | .ok (u, p) =>
    if held u p || mateLate u p.phys n then .error .held
    else
      match readPlace u u.cur u.myPart false p n with
      | (v, some bs) => .ok (v, bs)
      | (_, none) => .error .lost

/-! ## Elements and plane groups -/

/-- One element that is no block code; zero bits out of range (R227). -/
def readElement (s : State) (t : Tensor) (c : List Int) : Except Miss (State × List Byte) :=
  let z := typeSize t.type
  match t.find c with
  | none => .ok (s, List.replicate z 0)
  | some (tile, e) => readTileBytes s t tile (e * z) z

/-- The mask of byte k of a plane whose first `m` elements are in range. -/
def planeMask (k m : Nat) : Byte := BitVec.ofNat 8 (2 ^ min 8 (m - 8 * k) - 1)

/-- How many elements of the group that begins at these coordinates are in range. -/
def groupRange (t : Tensor) (c : List Int) : Nat := ((t.extent 0 : Int) - c.headD 0).toNat

/-- A plane group of a B4 tensor (R99, R100): 2,048 bytes, the planes not asked for and the elements out of range zero. -/
def readGroup (s : State) (t : Tensor) (c : List Int) (planes : Nat) : Except Miss (State × List Byte) :=
  match t.find c with
  | none => .ok (s, List.replicate 2048 0)
  | some (tile, e) =>
    match readTileBytes s t tile (e / 4096 * 2048) (512 * planes) with
    | .error m => .error m
    | .ok (u, bs) =>
      let m := groupRange t c
      .ok (u, ((List.range 2048).zip (bs ++ List.replicate (2048 - bs.length) 0)).map
        (fun b => b.2 &&& planeMask (b.1 % 512) m))

/-- Where a unit lies: the byte of its tile at which it begins. -/
def Tensor.unitStart (t : Tensor) (e : Nat) : Nat := if t.type = 9 then e / 4096 * 2048 else e * typeSize t.type

/-- The bytes that a unit's write stores, by physical address: none out of range; bytes of a plane that holds elements out
of range keep those elements' bits (R227). -/
def unitCells (s : State) (t : Tensor) (c : List Int) (bs : List Byte) : Except Miss (State × List (Nat × Byte)) :=
  match t.find c with
  | none => .ok (s, [])
  | some (tile, e) =>
    match tilePlace s t tile (t.unitStart e) with
    | .error m => .error m
    | .ok (u, p) =>
      if p.readOnly then .error (if p.slot.isSome then .privilege else .nowhere)
      else
        let cells := ((List.range bs.length).map (fun i => p.phys + i)).zip bs
        if t.type ≠ 9 ∨ 4096 ≤ groupRange t c then .ok (u, cells)
        else
          let m := groupRange t c
          let old := readBytes u.mem p.phys 2048
          .ok (u, (((List.range 2048).zip (cells.zip old)).filter (fun x => decide (planeMask (x.1 % 512) m ≠ 0))).map
            (fun x => let k := planeMask (x.1 % 512) m; (x.2.1.1, (x.2.1.2 &&& k) ||| (x.2.2 &&& ~~~k))))

/-- The bytes of a unit of which its write keeps some bits: in each plane the one that the range ends in (R227, R320). -/
def keptBytes (s : State) (t : Tensor) (c : List Int) : List Nat :=
  let m := groupRange t c
  if t.type ≠ 9 ∨ 4096 ≤ m ∨ m % 8 = 0 then []
  else
    match t.find c with
    | none => []
    | some (tile, e) =>
      match tilePlace s t tile (t.unitStart e) with
      | .ok (_, p) => [0, 1, 2, 3].map (fun i => p.phys + 512 * i + m / 8)
      | .error _ => []

/-! ## Writing -/

/-- Runs of bytes within a line. -/
def lineRuns : List (Nat × Byte) → List (Nat × List Byte)
  | [] => []
  | (a, b) :: rest =>
    match lineRuns rest with
    | (a', bs) :: more => if a' = a + 1 ∧ a' % 64 ≠ 0 then (a, b :: bs) :: more else (a, [b]) :: (a', bs) :: more
    | [] => [(a, [b])]

/-- The bytes of an engine's write merged line by line; true where the merge of some line fails its check: that line's write is
dropped (R320, R346). `kept` are the bytes of which it keeps some bits. -/
def mergeLines (s : State) (key : Nat) (clock : Sparse Nat) (kept : List Nat) : List (Nat × List Byte) → State × Bool
  | [] => (s, false)
  | (a, bs) :: rest =>
    let p := placeOf a (dieOfPhys a) (if a / 2 ^ 60 < 2 then some key else none)
    let u := countAccess s s.myPart a bs.length
    match mergeBytes u u.cur u.myPart clock p kept bs with
    | some t => mergeLines t key clock kept rest
    | none => ((mergeLines u key clock kept rest).1, true)

/-- An engine's write: its die numbers it (R204), it follows what the party has sent (R246), and its granules come one by one
(R193). -/
def writeLines (s : State) (key : Nat) (kept : List Nat) (runs : List (Nat × List Byte)) : State × Bool :=
  if runs = [] then (s, false)
  else
    let t := tickClock s (myDie s)
    let clock := mergeClock (clockOf t (myDie s)) t.me.view.known
    let gs := (runs.flatMap (fun r => granulesOf r.1 r.2.length)).eraseDups
    mergeLines (remember t t.cur (sightOf t t.myPart (some key)) (look 0 clock (myDie s)) (gs.map (fun g => [g]))) key clock
      kept runs

/-- The cells of a list of units, the later winning. -/
def gather (t : Tensor) : List (List Int × List Byte) → State → Sparse Byte → Except Miss (State × Sparse Byte)
  | [], s, m => .ok (s, m)
  | (c, bs) :: rest, s, m =>
    match unitCells s t c bs with
    | .error e => .error e
    | .ok (u, cells) => gather t rest u (cells.foldl (fun x e => put x e.1 e.2) m)

/-- Units written to a tensor. -/
def writeUnits (s : State) (t : Tensor) (us : List (List Int × List Byte)) : Except Miss (State × Bool) :=
  match gather t us s [] with
  | .error e => .error e
  | .ok (u, m) => .ok (writeLines u t.key (us.flatMap (fun e => keptBytes u t e.1)) (lineRuns m))

/-- Element numbers of a one-dimensional tensor read as bytes: `n` from `i`. -/
def readRow (t : Tensor) : Nat → Nat → State → Except Miss (State × List Byte)
  | 0, _, s => .ok (s, [])
  | n + 1, i, s =>
    match readElement s t [(i : Int)] with
    | .error e => .error e
    | .ok (u, bs) =>
      match readRow t n (i + 1) u with
      | .ok (v, cs) => .ok (v, bs ++ cs)
      | .error e => .error e

/-- Whether a valid entry of the weight store is among tiles of a tensor (R231, R166). -/
def namesWeights (s : State) (t : Tensor) (tiles : List Nat) : Bool :=
  tiles.any (fun n =>
    match tileEntry s t n with
    | .ok (_, e) => decide (e / 2 ^ 63 = 1) && decide (bits e 42 40 = 3)
    | .error _ => false)

/-- Whether a tile among these lies in a window that the other side writes (R330). -/
def foreignTiles (s : State) (t : Tensor) (tiles : List Nat) : Bool :=
  tiles.any (fun n =>
    match tileEntry s t n with
    | .ok (_, e) => decide (e / 2 ^ 63 = 1) && foreignFrame s s.myPart (bits e 42 40) (bits e 39 0)
    | .error _ => false)

/-- What keeps an instruction from writing these tiles of a tensor, found at issue: a tile in a window that the other side
writes (R330), or one in the weight store (R231, R166). -/
def destFault (s : State) (t : Tensor) (tiles : List Nat) : Option Miss :=
  if foreignTiles s t tiles then some .privilege else if namesWeights s t tiles then some .bad else none

/-- Whether the executing partition has opened a window that the other side writes. -/
def foreignWindows (s : State) : Bool :=
  s.windows.any (fun e => e.2.live && e.2.importerWrites && decide (e.2.exporter = s.myPart))

/-- Whether the descriptor of a slot, where it can be read and is well shaped, has a tile among `tiles` that the other side writes:
the privilege check of a destination, which comes before every other check of its instruction (R49, R330). -/
def foreignSlot (s : State) (slot : Nat) (tiles : Tensor → List Byte → List Nat) : Bool :=
  foreignWindows s && decide (slot < 64) &&
  (match readTensor s slot with
   | .ok (_, d) => (describe d).shaped && foreignTiles s (describe d) (tiles (describe d) d)
   | .error _ => false)

/-- An instruction's checks, that of a destination at another side's window first. -/
def afterPrivilege (foreign : Bool) (rest : Act) : Act := if foreign then .trap causePrivilege 0 else rest

/-- The tiles that hold elements 0 … n − 1 of a one-dimensional tensor. -/
def rowTiles (t : Tensor) (n : Nat) : List Nat := List.range ((min n (t.extent 0) + t.tileElems - 1) / t.tileElems)

/-! ## Suffix images (R309, R310) -/

/-- The canonical image of an index (R309). -/
def suffixImage (x : Suffix) : List Byte :=
  bytesOfNat 4 0x53584D31 ++ bytesOfNat 2 0x0100 ++ bytesOfNat 2 0 ++ bytesOfNat 4 x.q ++ bytesOfNat 4 0 ++ bytesOfNat 8 x.e ++
  bytesOfNat 8 x.n ++ bytesOfNat 8 x.queries.toNat ++ bytesOfNat 8 x.appends.toNat ++ bytesOfNat 8 x.evicted.toNat ++
  bytesOfNat 8 0 ++ x.toks.flatMap (fun t => bytesOfNat 4 t.toNat)

/-- A tensor that a suffix image lies in: UINT8, one dimension. -/
def imageTensor (s : State) (b : B6) : Except Miss (State × Tensor) :=
  let n := (s.reg b.toNat).toNat
  if 63 < n then .error .bad
  else
    match nameTensor s n false with
    | .error e => .error e
    | .ok (u, bs) =>
      let t := describe bs
      if t.type = 6 ∧ t.dims = 1 then .ok (u, t) else .error .bad

/-- Whether an index's image would be written at the other side's window. -/
def sxsavForeign (s : State) (a b : B6) : Bool :=
  match ownIndex s a with
  | some id => foreignSlot s (s.reg b.toNat).toNat (fun t _ => rowTiles t (64 + 4 * (suffix s id).toks.length))
  | none => false

/-- SXSAV (R309). (Log 55 DEDUCED.) -/
def execSxsav (w g : B2) (d a b : B6) (s : State) : Host.Outcome State Fault Refusal :=
  tokened s .wing w g (fun s =>
    afterPrivilege (sxsavForeign s a b) <|
    match ownIndex s a, imageTensor s b with
    | none, _ => badOperand s
    | _, .error e => missAct s e
    | some id, .ok (u, t) =>
      let im := suffixImage (suffix s id)
      if t.extent 0 < im.length then badOperand s
      else
      match destFault u t (rowTiles t im.length) with
      | some e => missAct s e
      | none =>
      if mustWait s (suffixHome id) false true then .wait s
      else if (suffix s id).bad then .lost s
      else
        match writeUnits u t (((List.range im.length).zip im).map (fun e => ([(e.1 : Int)], [e.2]))) with
        | .error e => missAct s e
        | .ok (v, true) => .lost v
        | .ok (v, false) => .done (v.setReg d.toNat (word im.length) false) 1)

/-- Rebuilding an index from its image's header and tokens (R310); none where a check fails. An image whose E exceeds its N, of
which R310 says nothing, is refused with them (log 90 DESIGN CHOICE). -/
def suffixFrom (s : State) (id : Nat) (h : List Byte) (extent : Nat) : Option Suffix :=
  let q := recField h 8 4
  let e := recField h 0x10 8
  let n := recField h 0x18 8
  if recField h 0 4 = 0x53584D31 ∧ recField h 5 1 = 1 ∧ recField h 6 2 = 0 ∧ recField h 0x0C 4 = 0 ∧ recField h 0x38 8 = 0 ∧
      quotaOk s id q = true ∧ e % 256 = 0 ∧ e ≤ n ∧ n - e ≤ q ∧ 64 + 4 * (n - e) ≤ extent then
    some { owner := some s.myPart, q := q, e := e, n := n, queries := word (recField h 0x20 8), appends := word (recField h 0x28 8),
           evicted := word (recField h 0x30 8) }
  else none

/-- SXLD (R310). -/
def execSxld (w g : B2) (d a b : B6) (s : State) : Host.Outcome State Fault Refusal :=
  tokened s .wing w g (fun s =>
    let id := (s.reg a.toNat).toNat
    if decide (2 ^ 16 ≤ id) || (suffix s id).owner.isSome || s.supervisor then badOperand s
    else
      match imageTensor s b with
      | .error e => missAct s e
      | .ok (u, t) =>
        if mustWait s (suffixHome id) false true then .wait s
        else
          match readRow t 64 0 u with
          | .error e => missAct s e
          | .ok (v, h) =>
            match suffixFrom s id h (t.extent 0) with
            | none => badOperand s
            | some x =>
              match readRow t (4 * (x.n - x.e)) 64 v with
              | .error e => missAct s e
              | .ok (z, bs) =>
                let y := { x with toks := (quads bs).map (BitVec.ofNat 32) }
                .done (orderAll ((setSuffix z id y).setReg d.toNat (word x.n) false) s.cur) 1)

end Sys2Proof.Machine
end

