-- ==== Sys2Proof/Machine/Copy.lean ====
section
/-! DEFINITION. The copy engines: XCOPY, XFILL, XGATH, XSCAT with their chunks and logs (R229–R237, R356), XFEED (R233,
R311), XCRC (R238), XREF (R241). A command keeps its record with the descriptors that it named at issue (log 18 DEDUCED). -/

namespace Sys2Proof.Machine

/-! ## Copy records (R230) -/

/-- A copy as its command gives it: origins with the multiplier applied, tensors as they were named. -/
structure Copy where
  op : Nat
  n : Nat
  box : List Nat
  srcOrg : List Int
  dstOrg : List Int
  src : Option Tensor
  dst : Option Tensor
  type : Nat
  planes : Nat
  value : Nat
  /-- The indices of XGATH and XSCAT. -/
  list : Nat
  deriving DecidableEq, Repr

/-- Ten signed coordinates of a record. -/
def recInts (r : List Byte) (o : Nat) : List Int := (List.range 10).map (fun i => recInt r (o + 4 * i))

/-- Origin + multiplier × step, per dimension. -/
def shifted (m : Int) (org step : List Int) : List Int := List.zipWith (fun o t => o + m * t) org step

/-- Whether a command's source is the scratchpad. XFILL has no source. -/
def srcScratch (op : Nat) (r : List Byte) : Bool := decide (op ≠ 2) && decide (recField r 1 1 = 0xFF)

/-- Whether a command's destination is the scratchpad. XFEED's is a FIFO. -/
def dstScratch (op : Nat) (r : List Byte) : Bool := decide (op ≠ 5) && decide (recField r 2 1 = 0xFF)

/-- The tensor of a descriptor that a command keeps at offset `o` of its record. -/
def kept (r : List Byte) (o : Nat) : Option Tensor := if r.length < o + 128 ∨ recField r o 128 = 0 then none else some (describe (r.drop o))

/-- The copy of a command whose record is followed by the descriptors of source and destination. -/
def copyOf (c : CopyCmd) : Copy :=
  let r := c.record
  let m := if c.op = 2 then 0 else c.b.toInt
  let src := kept r 208
  let dst := kept r 336
  let n := recField r 0 1
  { op := c.op, n := n, box := (List.range n).map (fun i => recField r (8 + 4 * i) 4),
    srcOrg := shifted m (recInts r 0x30) (recInts r 0x80), dstOrg := shifted m (recInts r 0x58) (recInts r 0xA8),
    src := src, dst := dst,
    type := match src, dst with | some t, _ => t.type | none, some t => t.type | none, none => recField r 4 1,
    planes := recField r 3 1, value := c.b.toNat, list := c.b.toNat }

/-- The bytes of a unit, an element or a plane group of a B4 copy, in a tensor and in the scratchpad (R231). -/
def Copy.unit (c : Copy) : Nat := if c.type = 9 then 2048 else typeSize c.type
def Copy.image (c : Copy) : Nat := if c.type = 9 then 512 * c.planes else typeSize c.type

/-- The box in units. -/
def Copy.units (c : Copy) : List Nat :=
  if c.type = 9 ∧ c.op ≠ 5 then (match c.box with | b :: bs => b / 4096 :: bs | [] => []) else c.box

def Copy.count (c : Copy) : Nat := c.units.foldl (· * ·) 1

/-- The coordinates of unit `i` in the box. -/
def pointOf : List Nat → Nat → List Nat
  | [], _ => []
  | b :: bs, i => i % b :: pointOf bs (i / b)

/-- The number of a point in a dense box. -/
def denseOf : List Nat → List Nat → Nat
  | b :: bs, x :: xs => x + b * denseOf bs xs
  | _, _ => 0

/-- A list with its element `i` replaced. -/
def setAt {α : Type} (xs : List α) (i : Nat) (v : α) : List α := xs.set i v

/-- The coordinates of a tensor side at a point; `idx` replaces that of dimension n − 1. In dimensions of the tensor at or beyond the
box's n a coordinate is that of the origin, moved by the record's step (log 127 DESIGN CHOICE). -/
def Copy.coords (c : Copy) (org : List Int) (x : List Nat) (idx : Option Int) : List Int :=
  let k : Int := if c.type = 9 ∧ c.op ≠ 5 then 4096 else 1
  let xs := (List.range 10).map (fun i => ((x.getD i 0 : Nat) : Int) * (if i = 0 then k else 1))
  let at_ := List.zipWith (· + ·) org xs
  match idx with
  | some v => setAt at_ (c.n - 1) v
  | none => at_

/-- The dense number of a scratchpad side at a point; an index out of the box names nothing (R227). -/
def Copy.dense (c : Copy) (x : List Nat) (idx : Option Int) : Option Nat :=
  match idx with
  | some v =>
    if v < 0 ∨ (c.units.getD (c.n - 1) 0 : Int) ≤ v then none else some (denseOf c.units (setAt x (c.n - 1) v.toNat))
  | none => some (denseOf c.units x)

/-- The index of a point of XGATH or XSCAT, from the bytes of the list (R232). -/
def Copy.index (c : Copy) (op : Nat) (list : List Byte) (x : List Nat) : Option Int :=
  if c.op = op then some (recInt list (4 * x.getD (c.n - 1) 0)) else none

/-- The list of XGATH or XSCAT; no bytes for another command. -/
def Copy.listSize (c : Copy) : Nat := if c.op = 3 ∨ c.op = 4 then 4 * c.box.getD (c.n - 1) 0 else 0

/-! ## Checks at issue (R230–R233) -/

/-- Whether a scratchpad side's fields are legal: reserved fields zero, its first byte a multiple of 4, the box inside. -/
def sideOk (s : State) (org step : List Int) (skip : Nat) (start : Int) (bytes : Nat) : Bool :=
  (List.range 10).all (fun i => decide (i = 0) || decide (i = skip) || (decide (org.getD i 0 = 0) && decide (step.getD i 0 = 0))) &&
  decide (0 ≤ start) && decide (start % 4 = 0) && inScratch s.cur.core start.toNat bytes

/-- Whether a side of a B4 copy is legal (R231). -/
def groupsOk (t : Option Tensor) (org : List Int) (box : List Nat) : Bool :=
  match t with
  | some t => decide (12 ≤ t.log 0) && decide (org.headD 0 % 4096 = 0) && decide (box.headD 0 % 4096 = 0)
  | none => decide (box.headD 0 % 4096 = 0)

/-- The tiles that a destination box reaches, by dimension, the tiles of lower dimensions being `tiles` so far. -/
def boxTiles (t : Tensor) (spans : List (List Int)) : List Nat :=
  let step := fun (acc : List Nat × Nat) (e : Nat × List Int) =>
    let z := 2 ^ t.log e.1
    let inside := e.2.filter (fun v => decide (0 ≤ v) && decide (v < (t.extent e.1 : Int)))
    let ts := (inside.map (fun v => v.toNat / z)).eraseDups
    (ts.flatMap (fun n => acc.1.map (fun m => m + n * acc.2)), acc.2 * ((t.extent e.1 + z - 1) / z))
  (((List.range 10).zip spans).foldl step ([0], 1)).1

/-- One coordinate for each tile that a run of `n` coordinates from `o` reaches. -/
def spanOf (z : Nat) (o : Int) (n extent : Nat) : List Int :=
  let lo := if o < 0 then 0 else o
  let hi := min (o + n - 1) ((extent : Int) - 1)
  if hi < lo then []
  else (List.range ((hi.toNat / z) + 1 - lo.toNat / z)).map (fun i => if i = 0 then lo else ((lo.toNat / z + i) * z : Nat))

/-- The coordinates of a destination that its box reaches, by dimension. -/
def Copy.spans (c : Copy) (t : Tensor) (list : List Byte) : List (List Int) :=
  (List.range 10).map (fun i =>
    if c.op = 4 ∧ i = c.n - 1 then (List.range (c.box.getD i 0)).map (fun k => recInt list (4 * k))
    else spanOf (2 ^ t.log i) (c.dstOrg.getD i 0) (if i < c.n then c.box.getD i 0 else 1) (t.extent i))

/-- The types that XFEED accepts (R233). -/
def feedType (t : Nat) : Bool := decide (t ≤ 9) && decide (t ≠ 8)

/-- The fields of the record itself (R230, R232, R233). That a task without the matrix engine may not issue XFEED (R261) counts as one
of the command's own conditions of R231, behind the alignment trap (log 125 DESIGN CHOICE). -/
def recordOk (s : State) (op : Nat) (r : List Byte) : Bool :=
  let n := recField r 0 1
  let src := recField r 1 1
  let dst := recField r 2 1
  decide (1 ≤ n) && decide (n ≤ 10) && decide (recField r 5 3 = 0) &&
  (List.range 10).all (fun i => if i < n then decide (recField r (8 + 4 * i) 4 ≠ 0) else decide (recField r (8 + 4 * i) 4 = 0)) &&
  (if op = 2 then decide (src = 0) && (recInts r 0x30 ++ recInts r 0x80 ++ recInts r 0xA8).all (fun v => decide (v = 0))
   else decide (src < 64) || decide (src = 0xFF)) &&
  (if op = 5 then decide (dst = 0) && !s.supervisor && taskFlag s 1 && decide (recField r 8 4 = 128)
   else decide (dst < 64) || decide (dst = 0xFF)) &&
  (if op = 3 ∨ op = 4 then decide (2 ≤ n) else true)

/-- The element type of a command, with the conditions on etype and planes (R230, R231, R311). -/
def typesOk (op : Nat) (r : List Byte) (c : Copy) : Bool :=
  let etype := recField r 4 1
  let free := (srcScratch op r || decide (op = 2)) && (dstScratch op r || decide (op = 5))
  (if free then decide (etype ≤ 8) else decide (etype = 0)) &&
  (match c.src, c.dst with | some a, some b => decide (a.type = b.type) | _, _ => true) &&
  (if c.type = 9 ∧ op ≠ 2 then decide (1 ≤ c.planes) && decide (c.planes ≤ 4) else decide (c.planes = 0)) &&
  (if op = 5 then feedType c.type else true)

/-- The conditions on both sides' places (R230–R233; log 53 DEDUCED, log 54 DEDUCED). The destination fields of an XFEED record are
not tested (log 91 DESIGN CHOICE). -/
def placesOk (s : State) (op : Nat) (r : List Byte) (c : Copy) : Bool :=
  let bytes := c.count * (if op = 5 then typeSize c.type else c.image)
  let skip := fun (side : Nat) => if op = side then c.n - 1 else 10
  (!srcScratch op r || sideOk s (recInts r 0x30) (recInts r 0x80) (skip 3) (c.srcOrg.headD 0) bytes) &&
  (!dstScratch op r || sideOk s (recInts r 0x58) (recInts r 0xA8) (skip 4) (c.dstOrg.headD 0) bytes) &&
  (if c.type = 9 then
    (if op = 5 then (match c.src with | some t => decide (12 ≤ t.log 0) && decide (c.srcOrg.headD 0 % 128 = 0) | none => false)
     else (decide (op = 2) || groupsOk c.src c.srcOrg c.box) && groupsOk c.dst c.dstOrg c.box)
   else true) &&
  (if op = 3 ∨ op = 4 then decide (c.list % 4 = 0) && inScratch s.cur.core c.list c.listSize else true)

/-- Names the tensor of a slot, unless the side is the scratchpad or absent: 128 bytes. -/
def sideTensor (s : State) (absent : Bool) (slot : Nat) (weak : Bool) : Except Miss (State × List Byte) :=
  if absent then .ok (s, List.replicate 128 0) else nameTensor s slot weak

/-- Whether a copy command would write at the other side's window, as its record and the descriptor of its destination stand. -/
def copyForeign (s : State) (op : Nat) (a b : B5) : Bool :=
  let o := (s.reg a.toNat).toNat
  foreignWindows s && decide (op ≠ 5) && decide (o % 16 = 0) && inScratch s.cur.core o 208 &&
  (let r := peekScratch s s.cur.core s.cur.slot o 208
   decide (recField r 0 1 ≤ 10) &&
   foreignSlot s (recField r 2 1) (fun t d =>
     let c := copyOf ⟨op, r ++ List.replicate 128 0 ++ d, s.reg b.toNat⟩
     if inScratch s.cur.core c.list c.listSize then
       boxTiles t (c.spans t (peekScratch s s.cur.core s.cur.slot c.list c.listSize))
     else []))

/-- The checks of a copy command at issue, in their order (R231): the command with the descriptors that it named. It reads them
once every write that its die knows of is applied (R196). -/
def checkCopy (s : State) (op : Nat) (a b : B5) (k : State → CopyCmd → Act) : Act :=
  let o := (s.reg a.toNat).toNat
  afterPrivilege (copyForeign s op a b) <|
  if o % 16 ≠ 0 then .trap causeAlignment (word o)
  else if !inScratch s.cur.core o 208 then badOperand s
  else if !settled s (myDie s) then .wait s
  else
    withScratch s o 208 (fun s r =>
      if !recordOk s op r then badOperand s
      else
        match sideTensor s (srcScratch op r || decide (op = 2)) (recField r 1 1) (decide (op = 1)) with
        | .error e => missAct s e
        | .ok (s1, src) =>
          match sideTensor s1 (dstScratch op r || decide (op = 5)) (recField r 2 1) false with
          | .error e => missAct s e
          | .ok (s2, dst) =>
            let cmd : CopyCmd := ⟨op, r ++ src ++ dst, s.reg b.toNat⟩
            let c := copyOf cmd
            if !(typesOk op r c && placesOk s op r c) then badOperand s
            else
              withScratch s2 c.list c.listSize (fun s3 list =>
                match c.dst with
                | some t =>
                  (match destFault s3 t (boxTiles t (c.spans t list)) with
                   | some e => missAct s e
                   | none => k s3 cmd)
                | none => k s3 cmd))

/-! ## Logs (R356) -/

/-- Whether two byte ranges meet. -/
def rangesMeet (a n b m : Nat) : Bool := decide (a < b + m) && decide (b < a + n)

/-- Logs a command in the back log of every valid pair whose back half its destination meets. -/
def logCopy (s : State) (c : CopyCmd) (o n : Nat) : State :=
  (List.range 8).foldl (fun t i =>
    let p := look 0 t.myCtx.sh.phb i
    if phbValid p && rangesMeet o n (phbBase p (!phbFront p)) (phbSize p) then
      t.modSh (fun h =>
        if (look [] h.back i).length < 16 then { h with back := put h.back i (look [] h.back i ++ [c]) }
        else { h with phst := setBit h.phst (8 + i) true })
    else t) s

/-! ## Moving (R231–R235) -/

/-- The image of a unit as a destination tensor takes it. -/
def Copy.widen (c : Copy) (bs : List Byte) : List Byte := bs ++ List.replicate (c.unit - bs.length) 0

/-- The plane group or element that XFILL writes (R232). -/
def Copy.fill (c : Copy) : List Byte :=
  if c.type = 9 then
    [3, 2, 1, 0].flatMap (fun i => List.replicate 512 (if c.value.testBit i then (0xFF : Byte) else 0))
  else bytesOfNat (typeSize c.type) c.value

/-- One unit of the source, in the form of a tensor. -/
def readUnit (s : State) (core slot : Nat) (c : Copy) (list : List Byte) (x : List Nat) : Except Miss (State × List Byte) :=
  if c.op = 2 then .ok (s, c.fill)
  else
    let idx := c.index 3 list x
    match c.src with
    | some t =>
      let at_ := c.coords c.srcOrg x idx
      if c.type = 9 then readGroup s t at_ c.planes else readElement s t at_
    | none =>
      match c.dense x idx with
      | none => .ok (s, List.replicate c.unit 0)
      | some i =>
        match readScratch s core slot ((c.srcOrg.headD 0).toNat + i * c.image) c.image with
        | some (t, bs) => .ok (t, c.widen bs)
        | none => .error .lost

/-- Units of the source, each with its point. -/
def readUnits (core slot : Nat) (c : Copy) (list : List Byte) : List Nat → State → Except Miss (State × List (List Nat × List Byte))
  | [], s => .ok (s, [])
  | i :: is, s =>
    let x := pointOf c.units i
    match readUnit s core slot c list x with
    | .error e => .error e
    | .ok (t, bs) =>
      match readUnits core slot c list is t with
      | .ok (u, rest) => .ok (u, (x, bs) :: rest)
      | .error e => .error e

/-- The scratchpad bytes that units leave at a dense destination, cut to the bytes of one chunk: those that come `lo` to `hi`
in the command's order (R234). -/
def Copy.scratchCells (c : Copy) (list : List Byte) (lo hi : Nat) (us : List (List Nat × List Byte)) : List (Nat × Byte) :=
  ((List.range us.length).zip us).flatMap (fun u =>
    match c.dense u.2.1 (c.index 4 list u.2.1) with
    | some i =>
      let from_ := (lo / c.image + u.1) * c.image
      (((List.range c.image).zip u.2.2).filter (fun e => decide (lo ≤ from_ + e.1) && decide (from_ + e.1 < hi))).map
        (fun e => ((c.dstOrg.headD 0).toNat + i * c.image + e.1, e.2))
    | none => [])

/-- Bytes written to a window at scattered offsets, the later winning. -/
def writeCellsAt (s : State) (ps : List (Nat × Byte)) : Option State := writeSome s 8 (ps.foldl (fun (m : Sparse Byte) e => put m e.1 e.2) [])

/-- How many bytes a destination unit takes. -/
def Copy.dstUnit (c : Copy) : Nat := match c.dst with | some _ => c.unit | none => c.image

/-- How many chunks a copy has (R234). -/
def Copy.chunks (c : Copy) : Nat := (c.count * c.dstUnit + 65535) / 65536

/-- Chunk `k`: its source is read whole before its destination is written. True where a write was dropped (R320). -/
def moveChunk (s : State) (c : Copy) (k : Nat) : Except Miss (State × Bool) :=
  let z := c.dstUnit
  let lo := 65536 * k
  let hi := min (65536 * (k + 1)) (c.count * z)
  let us := (List.range ((hi + z - 1) / z - lo / z)).map (fun i => lo / z + i)
  match readScratch s s.cur.core s.cur.slot c.list c.listSize with
  | none => .error .lost
  | some (s1, list) =>
    match readUnits s.cur.core s.cur.slot c list us s1 with
    | .error e => .error e
    | .ok (s2, vs) =>
      match c.dst with
      | some t => writeUnits s2 t (vs.map (fun v => (c.coords c.dstOrg v.1 (c.index 4 list v.1), v.2)))
      | none =>
        match writeCellsAt s2 (c.scratchCells list lo hi vs) with
        | some s3 => .ok (s3, false)
        | none => .error .lost

/-- Whether the weak source of a command has been destroyed (R228). -/
def sourceGone (s : State) (c : Copy) : Bool :=
  match c.src with
  | some t => decide (t.kind = 2) && (liveObj s t.handle).isNone
  | none => false

/-- The die reads the life word of a command's weak source, as HLDW does (R228, R323). -/
def readWeak (s : State) (c : Copy) : State :=
  match c.src with
  | some t => if t.kind = 2 then readLife s t.handle else s
  | none => s

/-- Issues a copy that runs in chunks (R231, R237). -/
def issueCopy (s : State) (op : Nat) (a b : B5) : Act :=
  checkCopy s op a b (fun s cmd =>
    let c := copyOf cmd
    let t := s.modMe (fun x => { x with xstat := 0, xprog := 0 })
    .issued (match c.dst with | none => logCopy t cmd (c.dstOrg.headD 0).toNat (c.count * c.image) | some _ => t) (.copy cmd))

def execXcopy (w g : B2) (a b : B5) (s : State) : Host.Outcome State Fault Refusal :=
  tokened s .copy w g (fun s => issueCopy s 1 a b)
def execXfill (w g : B2) (a b : B5) (s : State) : Host.Outcome State Fault Refusal :=
  tokened s .copy w g (fun s => issueCopy s 2 a b)
def execXgath (w g : B2) (a b : B5) (s : State) : Host.Outcome State Fault Refusal :=
  tokened s .copy w g (fun s => issueCopy s 3 a b)
def execXscat (w g : B2) (a b : B5) (s : State) : Host.Outcome State Fault Refusal :=
  tokened s .copy w g (fun s => issueCopy s 4 a b)

/-- The next chunk of the executing party's copy; after the last, and at a destroyed weak source, the command retires. -/
def chunkStep (s0 : State) (cmd : CopyCmd) : Act :=
  let c := copyOf cmd
  let s := readWeak s0 c
  if sourceGone s c then .done (s.modMe (fun x => { x with xstat := 1 })) 1
  else
    match moveChunk s c s.me.xprog.toNat with
    | .error e => endMiss s (decide (s.me.xprog ≠ 0)) e
    | .ok (t, true) => .lost t
    | .ok (t, false) =>
      let u := t.modMe (fun x => { x with xprog := x.xprog + 1 })
      if c.chunks ≤ u.me.xprog.toNat then .done u 1 else .wait u

/-- Whether a command of a party goes on: its task meets no error, and no gate holds its core. -/
def goesOn (s : State) (p : PartyId) : Bool :=
  let x := s.ctx p.core p.slot
  x.dying.isNone && !x.cancel && !(s.core p.core).gated && decide ((s.party p).run = .running)

/-- COPY_CHUNK_COMPLETE (R234): not while a pre-emption stops the copy between two chunks (R235). -/
def execCopyChunkComplete (p : PartyId) (s : State) : Host.Outcome State Fault Refusal :=
  match (s.party p).busy with
  | some (.copy cmd, w, g) =>
    if goesOn s p && !(s.ctx p.core p.slot).halting && settled s (dieOf p.core) then
      asParty s p (fun s => conclude s w g (chunkStep s cmd))
    else .next s
  | _ => .next s

/-! ## XFEED (R233) -/

def execXfeed (w g : B2) (a b : B5) (f : BitVec 1) (s : State) : Host.Outcome State Fault Refusal :=
  tokened s .copy w g (fun s => checkCopy s 5 a b (fun s cmd => .issued s (.feed cmd (decide (f = 1)) 0)))

/-- The code of block element `q` of a group from the bytes of its planes, top plane first (R99, R100). -/
def codeAt (planes : List (List Byte)) (q : Nat) : Nat :=
  ((List.range planes.length).zip planes).foldl (fun (n : Nat) (e : Nat × List Byte) =>
    n + (((e.2.getD (q / 8) 0).toNat / 2 ^ (q % 8)) % 2) * 2 ^ (3 - e.1)) 0

/-- The `n` bytes of each plane that the codes from element `e` of a tile on take. -/
def readPlanes (s : State) (t : Tensor) (tile e n : Nat) : List Nat → Except Miss (State × List (List Byte))
  | [] => .ok (s, [])
  | i :: is =>
    match readTileBytes s t tile (e / 4096 * 2048 + 512 * i + e % 4096 / 8) n with
    | .error m => .error m
    | .ok (u, bs) =>
      match readPlanes u t tile e n is with
      | .ok (v, rest) => .ok (v, bs :: rest)
      | .error m => .error m

/-- Codes and scales of 128 elements of a B4 tensor. -/
def feedCodes (s : State) (t : Tensor) (c : List Int) (planes : Nat) : Except Miss (State × FEntry) :=
  match t.find c with
  | none => .ok (s, ⟨9, List.replicate 128 0, [0, 0], false⟩)
  | some (tile, e) =>
    match readPlanes s t tile e 16 (List.range planes) with
    | .error m => .error m
    | .ok (u, ps) =>
      let n := groupRange t c
      let codes := (List.range 128).map (fun j => if j < n then codeAt ps j else 0)
      match readTensor u t.scales with
      | .error m => .error m
      | .ok (v, ds) =>
        match readRow (describe ds) 2 ((tile * t.tileElems + e) / 64) v with
        | .error m => .error m
        | .ok (x, sc) => .ok (x, ⟨9, codes, sc.map (fun b => b.toNat), false⟩)

/-- The elements of run `r` of 128. -/
def readRun (core slot : Nat) (c : Copy) (r : Nat) : List Nat → State → Except Miss (State × List Nat)
  | [], s => .ok (s, [])
  | j :: js, s =>
    match readUnit s core slot c [] (pointOf c.box (128 * r + j)) with
    | .error e => .error e
    | .ok (t, bs) =>
      match readRun core slot c r js t with
      | .ok (u, rest) => .ok (u, natOfBytes bs :: rest)
      | .error e => .error e

/-- One entry of a feed. -/
def feedEntry (s : State) (c : Copy) (r : Nat) : Except Miss (State × FEntry) :=
  match c.type, c.src with
  | 9, some t => feedCodes s t (c.coords c.srcOrg (pointOf c.box (128 * r)) none) c.planes
  | _, _ =>
    match readRun s.cur.core s.cur.slot c r (List.range 128) s with
    | .ok (t, es) => .ok (t, ⟨c.type, es, [], false⟩)
    | .error e => .error e

/-- Whether an operand FIFO is full (R14). -/
def fifoFull (s : State) (core : Nat) (second : Bool) : Bool :=
  let c := s.core core
  decide (64 ≤ (if second then c.fifoB else c.fifoA).length)

/-- Pushes an entry, which a matrix operation in flight may take. -/
def pushEntry (s : State) (second : Bool) (e : FEntry) : State :=
  collect (s.modCore s.cur.core (fun c =>
    if second then { c with fifoB := c.fifoB ++ [e] } else { c with fifoA := c.fifoA ++ [e] })) s.cur.core

/-- The next entry of a feed (R233): it stalls at a full FIFO and at writes that its die knows of but that are not yet
applied. -/
def feedStep (s : State) (cmd : CopyCmd) (second : Bool) (next : Nat) : Act :=
  let c := copyOf cmd
  if fifoFull s s.cur.core second || !settled s (myDie s) then .wait s
  else
    match feedEntry s c next with
    | .error e => missAct s e
    | .ok (t, e) =>
      let u := pushEntry t second e
      if c.count ≤ 128 * (next + 1) then .done u 1
      else .wait (u.modMe (fun x => { x with busy := x.busy.map (fun k => (.feed cmd second (next + 1), k.2)) }))

/-! ## XCRC and XREF -/

/-- XCRC (R238). A range of length 0 that begins beyond the scratchpad traps as any other beyond it (log 88 DESIGN CHOICE). -/
def execXcrc (w g : B2) (d a b : B5) (s : State) : Host.Outcome State Fault Refusal :=
  tokened s .copy w g (fun s =>
    let o := (s.reg a.toNat).toNat
    let n := (s.reg b.toNat).toNat
    if !inScratch s.cur.core o n then badOperand s
    else withScratch s o n (fun t bs => .done (t.setReg d.toNat (crc64 bs) false) 1))

/-- XREF (R241). -/
def execXref (w g : B2) (d a b : B5) (s : State) : Host.Outcome State Fault Refusal :=
  tokened s .copy w g (fun s =>
    let o := (s.reg a.toNat).toNat
    let h := (s.reg b.toNat).toNat
    if 384 * 2 ^ 20 ≤ o ∨ 3939 < h then badOperand s
    else
      let next := (40 * (o / 4096 % 96) + 4000 - s.time % 4000) % 4000
      if inRefresh s o || decide (next < h) then .wait s else .done (s.setReg d.toNat (word next) false) 1)

end Sys2Proof.Machine
end

