-- ==== Sys2Proof/Machine/Trellis.lean ====
section
/-! DEFINITION. Trellis-coded tensors: definitions and slots (R157–R164, R178), command records and their checks (R165, R166),
the search of XTRW and XTRU (R167–R173), XTBLD (R174), XTRD (R175, R176), the search unit (R179, R181), and XWS (R182, R183). -/

namespace Sys2Proof.Machine

/-! ## The code (R157–R161) -/

/-- idx(W) (R159). -/
def Trellis.idx (t : Trellis) (w : Nat) : Nat := w * t.h % 2 ^ (t.m + t.b) / 2 ^ (t.m + t.b - t.c)

/-- Value `e` of the entry of window `w`. -/
def Trellis.code (t : Trellis) (w e : Nat) : Nat := (t.book.getD (t.v * t.idx w + e) 0).toNat

/-- The steps of a tensor of n elements. -/
def Trellis.steps (t : Trellis) (n : Nat) : Nat := (n + t.v - 1) / t.v

/-- The bytes of its stream. -/
def Trellis.size (t : Trellis) (n : Nat) : Nat := (t.m + t.steps n * t.b + 7) / 8

/-- Bit k of bytes, each from its most significant bit down (R158). -/
def streamBit (bs : List Byte) (k : Nat) : Bool := (bs.getD (k / 8) 0).getLsbD (7 - k % 8)

/-- `n` bits from bit `k`, the earliest most significant. -/
def streamBits (bs : List Byte) (k n : Nat) : Nat := (List.range n).foldl (fun v i => 2 * v + (streamBit bs (k + i)).toNat) 0

/-- The bits of a number, most significant first. -/
def bitsOf (n v : Nat) : List Bool := (List.range n).map (fun i => v.testBit (n - 1 - i))

/-- Bytes of bits, the last filled up with zeros. -/
def packBits (bs : List Bool) : List Byte :=
  (List.range ((bs.length + 7) / 8)).map (fun i =>
    BitVec.ofNat 8 ((List.range 8).foldl (fun v j => 2 * v + (bs.getD (8 * i + j) false).toNat) 0))

/-! ## Definitions (R162) -/

/-- Whether the fields of a definition record are legal, its codebook apart. -/
def definitionOk (r : List Byte) : Bool :=
  let m := recField r 0 1
  let b := recField r 1 1
  let v := recField r 2 1
  let c := recField r 3 1
  let h := recField r 4 4
  decide (2 ≤ m) && decide (m ≤ 16) && decide (1 ≤ b) && decide (b ≤ 4) && decide (1 ≤ v) && decide (v ≤ 2) &&
  decide (1 ≤ c) && decide (c ≤ 12) && decide (c ≤ m + b) && decide (h % 2 = 1) && decide (h < 2 ^ (m + b)) && decide (recField r 8 8 = 0)

/-- The bytes of a record with its codebook. -/
def definitionSize (r : List Byte) : Nat := 16 + 2 * recField r 2 1 * 2 ^ recField r 3 1

/-- The definition of a whole record; none where a codebook entry is NaN or infinite. -/
def definitionOf (r : List Byte) : Option Trellis :=
  let n := recField r 2 1 * 2 ^ recField r 3 1
  let book := (List.range n).map (fun k => BitVec.ofNat 16 (recField r (16 + 2 * k) 2))
  if book.any (fun x => decide (0x7C00 ≤ x.toNat % 0x8000)) then none
  else some ⟨recField r 0 1, recField r 1 1, recField r 2 1, recField r 3 1, recField r 4 4, book⟩

/-! ## Commands (R165) -/

/-- What a trellis command has named: stream, values, work, and the fields of XTBLD's definition record. -/
def streamOfCmd (r : List Byte) : Option Tensor := kept r 32
def valuesOf (r : List Byte) : Option Tensor := kept r 160
def workOf (r : List Byte) : Option Tensor := kept r 288
def definitionIn (r : List Byte) : List Byte := r.drop 416

def cmdSlot (r : List Byte) : Nat := recField r 0 1
def cmdDest (r : List Byte) : Nat := recField r 4 1
def cmdN (r : List Byte) : Nat := recField r 8 8
def cmdJ (r : List Byte) : Nat := recField r 16 8
def cmdFirst (r : List Byte) : Nat := recField r 24 8

/-- The slot of the executing party's core. -/
def trellisSlot (s : State) (n : Nat) : Option Trellis := seek (s.core s.cur.core).trellis n

/-- Whether the executing party's task holds the trellis slots (R261); a system core's serve its own engines. -/
def holdsTrellis (s : State) : Bool := s.supervisor || taskFlag s 2

/-- The window of steps that XTRU searches again (R171): first and last step. -/
def updateSpan (t : Trellis) (n j : Nat) : Nat × Nat :=
  let w := (t.m + t.b - 1) / t.b
  (j / t.v - w, min (t.steps n - 1) (j / t.v + w))

/-- The fields of a command record for op 6 XTRW, 7 XTRU, 8 XTRD, 9 XTBLD (R165, R173, R175). (Log 61 DEDUCED.) -/
def commandOk (s : State) (op : Nat) (r : List Byte) (t : Trellis) (b : Word) : Bool :=
  let n := cmdN r
  let j := cmdJ r
  let dest := cmdDest r
  decide (recField r 5 3 = 0) && decide (1 ≤ n) && decide (n ≤ 2 ^ 40) &&
  (match op with
   | 7 => decide (dest = 0) && decide (j < n) && decide (b.toNat < 2 ^ 32) && decide (b.toNat % 2 ^ 31 < 0x7F800000)
   | 8 =>
     decide (dest ≤ 2) && decide (b.toNat ≤ 2 ^ 40) && decide (j + b.toNat ≤ n) && !(decide (t.v = 2) && decide (j % 2 = 1)) &&
     (decide (dest = 0) || (decide (b.toNat % 128 = 0) && !s.supervisor && taskFlag s 1))
   | _ => decide (dest = 0) && decide (j = 0))

/-- How many elements of the value tensor a command uses; none where it reads and writes no value tensor. -/
def valuesUsed (op : Nat) (r : List Byte) (b : Word) : Option Nat :=
  match op with
  | 7 => none
  | 8 => if cmdDest r = 0 then some b.toNat else none
  | _ => some (cmdN r)

/-- Whether a value tensor's type and extent serve (R165, R167, R174, R175). -/
def valuesOk (op : Nat) (r : List Byte) (v : Tensor) (used : Nat) : Bool :=
  decide (v.dims = 1) && decide (cmdFirst r + used ≤ v.extent 0) &&
  (if op = 8 then decide (v.type = 0) || decide (v.type = 2) else decide (v.type ≤ 2))

/-- The bits of the survivor table of a command (R170, R171). -/
def survivorBits (op : Nat) (r : List Byte) (t : Trellis) : Nat :=
  let steps := if op = 7 then (updateSpan t (cmdN r) (cmdJ r)).2 + 1 - (updateSpan t (cmdN r) (cmdJ r)).1 else t.steps (cmdN r)
  steps * 2 ^ t.m * t.b

/-- The tiles of a one-dimensional tensor. -/
def allTiles (t : Tensor) : List Nat := rowTiles t (t.extent 0)

/-- The frames that the valid entries of a tensor's tile table name. -/
def framesNamed (s : State) (t : Tensor) : List Nat :=
  (allTiles t).filterMap (fun n =>
    match tileEntry s t n with
    | .ok (_, e) => if e / 2 ^ 63 = 1 then some (bits e 42 0) else none
    | .error _ => none)

/-- The slot's count check alone (R173, R175). -/
def slotCounted (s : State) (n : Nat) : Bool := match s.myCtx.task with | some t => decide (n < t.tcount) | none => false

/-- Names the value tensor of a command where it uses one. -/
def nameValues (s : State) (r : List Byte) (used : Option Nat) : Except Miss (State × List Byte) :=
  match used with
  | some _ => nameTensor s (recField r 2 1) false
  | none => if slotCounted s (recField r 2 1) then .ok (s, List.replicate 128 0) else .error .bad

/-- Names the survivor tensor of XTRW and XTRU. -/
def nameWork (s : State) (op : Nat) (r : List Byte) : Except Miss (State × List Byte) :=
  if op ≤ 7 then nameTensor s (recField r 3 1) false else .ok (s, List.replicate 128 0)

/-- Checks 3 and 4 of R166 on the tensors named. For XTBLD, check 4 takes m, b and v of the slot's present definition, not of
the record at s[b]: the spec does not say which (log 75 DESIGN CHOICE). -/
def tensorsOk (op : Nat) (r : List Byte) (t : Trellis) (b : Word) (st : Tensor) (v w : Option Tensor) : Bool :=
  let plain := fun (x : Tensor) => decide (x.type = 6) && decide (x.dims = 1)
  plain st &&
  (match v, valuesUsed op r b with | some x, some n => valuesOk op r x n | _, _ => true) &&
  (match w with | some x => plain x && decide ((survivorBits op r t + 7) / 8 ≤ x.extent 0) | none => true) &&
  decide (t.size (cmdN r) ≤ st.extent 0)

/-- The tiles that hold `n` elements from `i` of a one-dimensional tensor; none for no elements. -/
def tilesFrom (t : Tensor) (i n : Nat) : List Nat :=
  if n = 0 then [] else (rowTiles t (i + n)).filter (fun k => decide (i < (k + 1) * t.tileElems))

/-- The elements of the stream that XTRW and XTRU write: first and how many (R171, R172). -/
def streamWritten (op : Nat) (r : List Byte) (t : Trellis) : Nat × Nat :=
  if op = 6 then (0, t.size (cmdN r))
  else
    let (a, z) := updateSpan t (cmdN r) (cmdJ r)
    let lo := (a * t.b + t.m) / 8
    (lo, ((z + 1) * t.b + t.m - 1) / 8 + 1 - lo)

/-- The tensors that a command writes, each with its elements written: first and how many (R166). -/
def tensorsWritten (op : Nat) (r : List Byte) (t : Trellis) (b : Word) (st : Tensor) (v w : Option Tensor) :
    List (Tensor × Nat × Nat) :=
  (if op ≤ 7 then [(st, streamWritten op r t)] else []) ++
  (match w with | some x => [(x, 0, (survivorBits op r t + 7) / 8)] | none => []) ++
  (match v with | some x => if op = 8 then [(x, cmdFirst r, b.toNat)] else [] | none => [])

/-- What keeps a command from writing its tensors: elements in a window that the other side writes (R330), a frame of one of
them in the weight store, a frame that the work tensor shares (checks 5 and 6 of R166). -/
def writtenFault (s : State) (op : Nat) (r : List Byte) (t : Trellis) (b : Word) (st : Tensor) (v w : Option Tensor) : Option Miss :=
  let ts := tensorsWritten op r t b st v w
  if ts.any (fun e => decide (destFault s e.1 (tilesFrom e.1 e.2.1 e.2.2) = some .privilege)) then some .privilege
  else if ts.any (fun e => namesWeights s e.1 (allTiles e.1)) then some .bad
  else
    match w with
    | some x =>
      let fs := framesNamed s st ++ (match v with | some y => framesNamed s y | none => [])
      if (framesNamed s x).any (fun f => fs.contains f) then some .bad else none
    | none => none

/-- The definition record of XTBLD at s[b], its fields legal, v = 1 and the whole of it in the scratchpad, for `k` (R166,
R174). Its old codebook, which the fit replaces, is not tested (log 76 DESIGN CHOICE). No bytes for another command. -/
def withDefinition (s : State) (op : Nat) (b : Word) (k : State → List Byte → Act) : Act :=
  let o := b.toNat
  if op ≠ 9 then k s []
  else if o % 16 ≠ 0 ∨ inScratch s.cur.core o 16 = false then badOperand s
  else
    withScratch s o 16 (fun s d =>
      if definitionOk d && decide (recField d 2 1 = 1) && inScratch s.cur.core o (definitionSize d) then k s d else badOperand s)

/-- Whether a trellis command would write at the other side's window, as its record, its slot and its descriptors stand. -/
def trellisForeign (s : State) (op : Nat) (a : B5) (b : Word) : Bool :=
  let o := (s.reg a.toNat).toNat
  foreignWindows s && decide (o % 16 = 0) && inScratch s.cur.core o 32 &&
  (let r := peekScratch s s.cur.core s.cur.slot o 32
   match (if cmdSlot r < 16 then trellisSlot s (cmdSlot r) else none) with
   | none => false
   | some t =>
     (decide (op ≤ 7) && foreignSlot s (recField r 1 1) (fun x _ => tilesFrom x (streamWritten op r t).1 (streamWritten op r t).2)) ||
     (decide (op ≤ 7) && foreignSlot s (recField r 3 1) (fun x _ => tilesFrom x 0 ((survivorBits op r t + 7) / 8))) ||
     (decide (op = 8) && decide (cmdDest r = 0) && foreignSlot s (recField r 2 1) (fun x _ => tilesFrom x (cmdFirst r) b.toNat)))

/-- The checks of R166 at issue: the record with the descriptors of stream, values and work and, for XTBLD, the fields of its
definition record; and its slot. It reads them once every write that its die knows of is applied (R196). -/
def checkTrellis (s : State) (op : Nat) (a : B5) (b : Word) (k : State → List Byte → Trellis → Act) : Act :=
  let o := (s.reg a.toNat).toNat
  afterPrivilege (trellisForeign s op a b) <|
  if !holdsTrellis s then badOperand s
  else if o % 16 ≠ 0 then .trap causeAlignment (word o)
  else if !inScratch s.cur.core o 32 then badOperand s
  else if !settled s (myDie s) then .wait s
  else
    withScratch s o 32 (fun s r =>
      match (if cmdSlot r < 16 then trellisSlot s (cmdSlot r) else none) with
      | none => badOperand s
      | some t =>
        if !commandOk s op r t b then badOperand s
        else
          withDefinition s op b (fun s d =>
            match nameTensor s (recField r 1 1) false with
            | .error e => missAct s e
            | .ok (s1, st) =>
              match nameValues s1 r (valuesUsed op r b) with
              | .error e => missAct s e
              | .ok (s2, v) =>
                match nameWork s2 op r with
                | .error e => missAct s e
                | .ok (s3, w) =>
                  let full := r ++ st ++ v ++ w ++ d
                  if !tensorsOk op r t b (describe st) (valuesOf full) (workOf full) then badOperand s
                  else
                    match writtenFault s3 op r t b (describe st) (valuesOf full) (workOf full) with
                    | some e => missAct s e
                    | none => k s3 full t))

/-- Whether the core's search unit is free (R179). -/
def searchFree (s : State) : Bool := (s.core s.cur.core).search.isNone

def takeSearch (s : State) : State := s.modCore s.cur.core (fun c => { c with search := some (s.cur.slot, s.cur.party) })

def freeSearch (s : State) : State :=
  s.modCore s.cur.core (fun c => { c with search := if c.search = some (s.cur.slot, s.cur.party) then none else c.search })

/-- XTRW, XTRU, XTBLD: they hold the search unit from issue to end (R179). -/
def issueSearch (s : State) (op : Nat) (a : B5) (b : Word) : Act :=
  checkTrellis s op a b (fun t r _ => if searchFree t then .issued (takeSearch t) (.trellis op r b) else .wait s)

def execXtrw (w g : B2) (a : B5) (s : State) : Host.Outcome State Fault Refusal :=
  tokened s .copy w g (fun s => issueSearch s 6 a 0)

def execXtru (w g : B2) (a b : B5) (s : State) : Host.Outcome State Fault Refusal :=
  tokened s .copy w g (fun s => issueSearch s 7 a (s.reg b.toNat))

/-- XTRD (R175): a count of 0 accesses nothing. -/
def execXtrd (w g : B2) (a b : B5) (s : State) : Host.Outcome State Fault Refusal :=
  tokened s .copy w g (fun s =>
    let n := s.reg b.toNat
    checkTrellis s 8 a n (fun t r _ =>
      if n = 0 then .done t 1 else .issued t (if cmdDest r = 0 then .trellis 8 r n else .trellisFeed r n 0)))

/-- XTBLD (R174). -/
def execXtbld (w g : B2) (a b : B5) (s : State) : Host.Outcome State Fault Refusal :=
  tokened s .copy w g (fun s => issueSearch s 9 a (s.reg b.toNat))

/-- Whether a command in flight on an engine of a core names a slot (R179), one party's own left out. -/
def slotInUse (s : State) (core n : Nat) (but : Option PartyId) : Bool :=
  [0, 1].any (fun k => [Party.x, .y].any (fun p =>
    let id : PartyId := ⟨core, k, p⟩
    decide (some id ≠ but) &&
    (match (s.party id).busy with
     | some (.trellis _ r _, _, _) => decide (cmdSlot r = n)
     | some (.trellisFeed r _ _, _, _) => decide (cmdSlot r = n)
     | _ => false)))

/-- XTDEF (R178). -/
def execXtdef (w g : B2) (a b : B5) (s : State) : Host.Outcome State Fault Refusal :=
  tokened s .copy w g (fun s =>
    let o := (s.reg a.toNat).toNat
    let n := (s.reg b.toNat).toNat
    if !holdsTrellis s then badOperand s
    else if o % 16 ≠ 0 then .trap causeAlignment (word o)
    else if decide (15 < n) || !inScratch s.cur.core o 16 then badOperand s
    else
      withScratch s o 16 (fun s h =>
        if !(definitionOk h && inScratch s.cur.core o (definitionSize h)) then badOperand s
        else
          withScratch s o (definitionSize h) (fun s r =>
            match definitionOf r with
            | none => badOperand s
            | some t =>
              if slotInUse s s.cur.core n none then .wait s
              else .done (s.modCore s.cur.core (fun c => { c with trellis := put c.trellis n t })) 1)))

/-! ## The search (R167, R168, R171) -/

/-- A rounded FP32 result as its code. -/
def cost32 (x : FV) : Nat := FV.encode fp32 0 false x

/-- less(x, y) of two costs (R168). -/
def costLess (x y : Nat) : Bool :=
  let a := FV.read fp32 x
  let b := FV.read fp32 y
  !a.isNan && (b.isNan || FV.below a b)

/-- stepcost (R167), for the targets of the step's elements. -/
def stepCost (t : Trellis) (w : Nat) (c : Nat) (targets : List FV) : Nat :=
  ((List.range targets.length).zip targets).foldl (fun c e =>
    let d := FV.read fp32 (cost32 (FV.add 0 (FV.read fp16 (t.code w e.1)) e.2.negate))
    cost32 (FV.add 0 (FV.read fp32 c) (FV.read fp32 (cost32 (FV.mul d d))))) c

/-- The best predecessor of a state: its cost and p, among predecessors that take part. -/
def bestOf (t : Trellis) (cost : Array (Option Nat)) (targets : List FV) (to_ : Nat) : Option (Nat × Nat) :=
  (List.range (2 ^ t.b)).foldl (fun (best : Option (Nat × Nat)) p =>
    let w := p * 2 ^ t.m + to_
    match cost.getD (w / 2 ^ t.b) none with
    | none => best
    | some c =>
      let d := stepCost t w c targets
      match best with
      | none => some (d, p)
      | some (e, _) => if costLess d e then some (d, p) else best) none

/-- The forward pass: costs after the last step, and each step's survivors, earliest step first. -/
def forward (t : Trellis) : List (List FV) → Array (Option Nat) → Array (Option Nat) × List (List (Option Nat))
  | [], cost => (cost, [])
  | ts :: rest, cost =>
    let row := (List.range (2 ^ t.m)).map (bestOf t cost ts)
    let (last, survs) := forward t rest (row.map (fun r => r.map (fun x => x.1))).toArray
    (last, row.map (fun r => r.map (fun x => x.2)) :: survs)

/-- The trace back from a state: the inputs of the steps, earliest first, and the state before the first. -/
def traceBack (t : Trellis) (state : Nat) : List (List (Option Nat)) → Nat × List Nat
  | [] => (state, [])
  | row :: rest =>
    let (after, us) := traceBack t state rest
    let w := ((row.getD after none).getD 0) * 2 ^ t.m + after
    (w / 2 ^ t.b, w % 2 ^ t.b :: us)

/-- The smallest state of least cost. -/
def leastState (cost : Array (Option Nat)) : Nat :=
  (((List.range cost.size).zip cost.toList).foldl (fun (best : Option (Nat × Nat)) e =>
    match e.2, best with
    | some c, none => some (e.1, c)
    | some c, some (_, d) => if costLess c d then some (e.1, c) else best
    | none, _ => best) none).map (fun x => x.1) |>.getD 0

/-- The targets by step: those of elements below n. -/
def byStep (v : Nat) (xs : List FV) : List (List FV) := pieces v xs.length xs

/-- The bits of a survivor table (R170). The field of an excluded state holds 0 (R184). -/
def tableBits (t : Trellis) (rows : List (List (Option Nat))) : List Bool :=
  (rows.flatMap id).flatMap (fun e => bitsOf t.b (e.getD 0))

/-- Bytes written to elements `i`, `i` + 1, … of a one-dimensional byte tensor. -/
def writeRow (s : State) (t : Tensor) (i : Nat) (bs : List Byte) : Except Miss (State × Bool) :=
  writeUnits s t (((List.range bs.length).zip bs).map (fun e => ([((i + e.1 : Nat) : Int)], [e.2])))

/-- Writes bits from bit 0 on, bits beyond the last keeping their values. -/
def writeTable (s : State) (t : Tensor) (bs : List Bool) : Except Miss (State × Bool) :=
  if bs.length % 8 = 0 then writeRow s t 0 (packBits bs)
  else
    match readRow t 1 (bs.length / 8) s with
    | .error e => .error e
    | .ok (u, old) =>
      let keep := bitsOf (8 - bs.length % 8) ((old.headD 0).toNat % 2 ^ (8 - bs.length % 8))
      writeRow u t 0 (packBits (bs ++ keep))

/-- `n` elements of a one-dimensional value tensor from `i`, each as a real. -/
def readReals (t : Tensor) : Nat → Nat → State → Except Miss (State × List FV)
  | 0, _, s => .ok (s, [])
  | n + 1, i, s =>
    match readElement s t [(i : Int)] with
    | .error e => .error e
    | .ok (u, bs) =>
      match readReals t n (i + 1) u with
      | .ok (v, xs) => .ok (v, FV.read (fmt t.type) (natOfBytes bs) :: xs)
      | .error e => .error e

/-- Two writes in turn; true where one was dropped. -/
def thenRow (r : Except Miss (State × Bool)) (f : State → Except Miss (State × Bool)) : Except Miss (State × Bool) :=
  match r with
  | .error e => .error e
  | .ok (s, a) =>
    match f s with
    | .error e => .error e
    | .ok (t, b) => .ok (t, a || b)

/-- XTRW at its end (R167–R170). -/
def endXtrw (s : State) (t : Trellis) (n first : Nat) (st v w : Tensor) : Except Miss (State × Bool) :=
  match readReals v n first s with
  | .error e => .error e
  | .ok (s1, targets) =>
    let (cost, rows) := forward t (byStep t.v targets) ((List.replicate (2 ^ t.m) (some 0)).toArray)
    let (pre, us) := traceBack t (leastState cost) rows
    let stream := packBits (bitsOf t.m pre ++ us.flatMap (bitsOf t.b))
    thenRow (writeTable s1 w (tableBits t rows)) (fun s2 => writeRow s2 st 0 stream)

/-- The decoded codes of steps i … z whose elements lie below n, from stream bytes that begin at byte `o`. -/
def decodeSteps (t : Trellis) (bs : List Byte) (o n i z : Nat) : List Nat :=
  (List.range (z + 1 - i)).flatMap (fun k =>
    let w := streamBits bs ((i + k) * t.b - 8 * o) (t.m + t.b)
    ((List.range t.v).filter (fun e => decide (t.v * (i + k) + e < n))).map (t.code w))

/-- The bytes of a stream that steps i … z read: first byte and how many. -/
def stepBytes (t : Trellis) (i z : Nat) : Nat × Nat := (i * t.b / 8, (z * t.b + t.m + t.b - 1) / 8 + 1 - i * t.b / 8)

/-- XTRU at its end (R171, R172). -/
def endXtru (s : State) (t : Trellis) (n j : Nat) (new : Word) (st w : Tensor) : Except Miss (State × Bool) :=
  let (a, z) := updateSpan t n j
  let (o, len) := stepBytes t a z
  match readRow st len o s with
  | .error e => .error e
  | .ok (s1, bs) =>
    let codes := decodeSteps t bs o n a z
    let targets := ((List.range codes.length).zip codes).map (fun e =>
      if t.v * a + e.1 = j then FV.read fp32 new.toNat else FV.read fp16 e.2)
    let enter := streamBits bs (a * t.b - 8 * o) t.m
    let exit_ := streamBits bs ((z + 1) * t.b - 8 * o) t.m
    let (_, rows) := forward t (byStep t.v targets)
      (((List.range (2 ^ t.m)).map (fun k => if k = enter then some 0 else none)).toArray)
    let (_, us) := traceBack t exit_ rows
    let lo := a * t.b + t.m
    let hi := (z + 1) * t.b + t.m
    let new := us.flatMap (bitsOf t.b)
    let first := lo / 8
    let last := (hi - 1) / 8
    let out := packBits ((List.range (8 * (last + 1 - first))).map (fun k =>
      let p := 8 * first + k
      if lo ≤ p ∧ p < hi then new.getD (p - lo) false else streamBit bs (p - 8 * o)))
    thenRow (writeTable s1 w (tableBits t rows)) (fun s3 => writeRow s3 st first out)

/-- XTRD's decoded codes of `count` elements from element j. -/
def decodeFrom (s : State) (t : Trellis) (n j count : Nat) (st : Tensor) : Except Miss (State × List Nat) :=
  let i := j / t.v
  let z := (j + count - 1) / t.v
  let (o, len) := stepBytes t i z
  match readRow st len o s with
  | .error e => .error e
  | .ok (u, bs) => .ok (u, (decodeSteps t bs o n i z).take count)

/-- XTRD to a value tensor at its end (R175). -/
def endXtrd (s : State) (t : Trellis) (n j count first : Nat) (st v : Tensor) : Except Miss (State × Bool) :=
  match decodeFrom s t n j count st with
  | .error e => .error e
  | .ok (u, cs) =>
    let bytes := fun (c : Nat) => if v.type = 0 then bytesOfNat 4 (FV.encode fp32 0 false (FV.read fp16 c)) else bytesOfNat 2 c
    writeUnits u v (((List.range cs.length).zip cs).map (fun e => ([((first + e.1 : Nat) : Int)], bytes e.2)))

/-! ## XTBLD (R174) -/

/-- rsat of num / (den × unit). Zero is +0, also where every counted element is −0 (log 126 DESIGN CHOICE). -/
def rsat (num : Int) (den : Nat) : Nat := if num = 0 then 0 else encodeRat fp16 0 true (decide (num < 0)) num.natAbs (den * unit)

/-- The smallest bin whose running count reaches r = (2k + 1) N / 2^(c+1): the bin, the count before it, its own count. -/
def quantileBin (want scale : Nat) : List Nat → Nat → Nat → Nat × Nat × Nat
  | [], i, before => (i, before, 1)
  | h :: hs, i, before => if want ≤ (before + h) * scale then (i, before, h) else quantileBin want scale hs (i + 1) (before + h)

/-- The codebook of finite values (in units). -/
def fitBook (c : Nat) (xs : List Int) : List Nat :=
  match xs with
  | [] => List.replicate (2 ^ c) 0
  | x :: rest =>
    let lo := rest.foldl min x
    let hi := rest.foldl max x
    let d := (hi - lo).toNat
    if d = 0 then List.replicate (2 ^ c) (rsat lo 1)
    else
      let bins := xs.map (fun y => min 4095 ((y - lo).toNat * 4096 / d))
      let hist := (bins.foldl (fun (h : Array Nat) b => h.modify b (· + 1)) ((List.replicate 4096 0).toArray)).toList
      let n := xs.length
      (List.range (2 ^ c)).map (fun k =>
        let want := (2 * k + 1) * n
        let (b, before, h) := quantileBin want (2 ^ (c + 1)) hist 0 0
        let den := 4096 * 2 ^ (c + 1) * h
        rsat (lo * den + (d : Int) * ((b * 2 ^ (c + 1) * h + want : Nat) - (before * 2 ^ (c + 1) : Nat) : Int)) den)

/-- XTBLD at its end: the codebook is written into the record at `o`, then the slot loaded with it and the fields that the
record held at issue. -/
def endXtbld (s : State) (r : List Byte) (o : Nat) (v : Tensor) : Except Miss (State × Bool) :=
  match readReals v (cmdN r) (cmdFirst r) s with
  | .error e => .error e
  | .ok (s1, xs) =>
    let h := definitionIn r
    let finite := xs.filter (fun x => match x with | .fin _ _ => true | _ => false)
    let book := fitBook (recField h 3 1) (finite.map finPart)
    match writeScratch s1 s1.cur.core s1.cur.slot (o + 16) (book.flatMap (bytesOfNat 2)) with
    | none => .error .lost
    | some s2 =>
      let t : Trellis := ⟨recField h 0 1, recField h 1 1, recField h 2 1, recField h 3 1, recField h 4 4, book.map (BitVec.ofNat 16)⟩
      .ok (s2.modCore s2.cur.core (fun c => { c with trellis := put c.trellis (cmdSlot r) t }), false)

/-! ## The end of trellis instructions (R179–R181) -/

/-- What a trellis command does at its end. -/
def trellisResult (s : State) (op : Nat) (r : List Byte) (b : Word) : Except Miss (State × Bool) :=
  match trellisSlot s (cmdSlot r), streamOfCmd r with
  | some t, some st =>
    match op, valuesOf r, workOf r with
    | 6, some v, some w => endXtrw s t (cmdN r) (cmdFirst r) st v w
    | 7, _, some w => endXtru s t (cmdN r) (cmdJ r) b st w
    | 8, some v, _ => endXtrd s t (cmdN r) (cmdJ r) b.toNat (cmdFirst r) st v
    | 9, some v, _ => endXtbld s r b.toNat v
    | _, _, _ => .error .bad
  | _, _ => .error .bad

/-- The end of the executing party's trellis command. One that traps gives the search unit back (R179). -/
def trellisStep (s : State) (op : Nat) (r : List Byte) (b : Word) : Act :=
  match trellisResult s op r b with
  | .error .privilege => endMiss (freeSearch s) false .privilege
  | .error e => missAct s e
  | .ok (t, true) => .lost t
  | .ok (t, false) => .done (freeSearch t) 1

/-- TRELLIS_INSTRUCTION_END (R181): XTBLD ends when no other command in flight names its slot. -/
def execTrellisInstructionEnd (p : PartyId) (s : State) : Host.Outcome State Fault Refusal :=
  match (s.party p).busy with
  | some (.trellis op r b, w, g) =>
    if goesOn s p && settled s (dieOf p.core) && !(decide (op = 9) && slotInUse s p.core (cmdSlot r) (some p)) then
      asParty s p (fun s => conclude s w g (trellisStep s op r b))
    else .next s
  | _ => .next s

/-- The next entry of an XTRD that feeds an operand FIFO (R176). -/
def trellisFeedStep (s : State) (r : List Byte) (b : Word) (next : Nat) : Act :=
  let second := decide (cmdDest r = 2)
  if fifoFull s s.cur.core second || !settled s (myDie s) then .wait s
  else
    match trellisSlot s (cmdSlot r), streamOfCmd r with
    | some t, some st =>
      match decodeFrom s t (cmdN r) (cmdJ r + 128 * next) 128 st with
      | .error e => missAct s e
      | .ok (u, cs) =>
        let v := pushEntry u second ⟨2, cs, [], false⟩
        if b.toNat ≤ 128 * (next + 1) then .done v 1
        else .wait (v.modMe (fun x => { x with busy := x.busy.map (fun k => (.trellisFeed r b (next + 1), k.2)) }))
    | _, _ => badOperand s

/-! ## XWS (R182, R183) -/

/-- Whether a record of XWS is legal on the executing die. -/
def weightsOk (s : State) (r : List Byte) : Bool :=
  let src := recField r 0 4
  let len := recField r 4 4
  let dst := recField r 8 4
  let part := recField r 12 1
  decide (src % 256 = 0) && decide (len % 256 = 0) && decide (256 ≤ len) && decide (len ≤ 2 ^ 20) && inScratch s.cur.core src len &&
  decide (dst % 256 = 0) && decide (dst + len ≤ 384 * 2 ^ 20) && decide (part < 64) && decide (recField r 13 3 = 0) &&
  (List.range ((dst + len - 1) / 65536 + 1 - dst / 65536)).all (fun i =>
    decide (ownerOf s (frameCode (myDie s) 3 (dst / 65536 + i)) = part))

/-- XWS (R182). Its privilege trap has TVAL 0, there being no address and no register number to give (log 87 DESIGN CHOICE). -/
def execXws (w g : B2) (a : B5) (s : State) : Host.Outcome State Fault Refusal :=
  if s.cur.party.map ≠ .copy then conclude s w g (.trap causeIllegal s.curWord)
  else if !s.supervisor then conclude s w g (.trap causePrivilege 0)
  else
    tokened s .copy w g (fun s =>
      let o := (s.reg a.toNat).toNat
      if o % 16 ≠ 0 then .trap causeAlignment (word o)
      else if !inScratch s.cur.core o 16 then badOperand s
      else
        withScratch s o 16 (fun s r =>
          if weightsOk s r then .issued s (.weights (recField r 0 4) (recField r 4 4) (recField r 8 4) (recField r 12 1) s.tick)
          else badOperand s))

/-- Whether a task of a partition is resident on a die: an XWS waits until none is left (R183). -/
def tasksOn (s : State) (die part : Nat) : Bool :=
  (residents s).any (fun e => decide (dieOf e.1 = die) && decide (e.2.2.part = part))

/-- A task of a partition that began before turn `since` sees of a die's weight store the old bytes alone: it does not come to the die
any more (R183; log 77 DEDUCED). -/
def Task.outdate (t : Task) (die part since : Nat) : Task :=
  if t.part = part ∧ t.begun < since then { t with stale := die :: t.stale } else t

/-- An XWS of turn `since` writes a die's weight store: the tasks of the partition that began before it, resident elsewhere or saved,
keep away from the die. -/
def markStale (s : State) (die part since : Nat) : State :=
  { s with ctxs := s.ctxs.map (fun e => (e.1, { e.2 with task := e.2.task.map (fun t => t.outdate die part since) })),
           cocoons := s.cocoons.map (fun c => { c with task := c.task.outdate die part since }) }

/-- The bytes of an XWS in the weight store: its source is read as it stands when the write is made (log 112 DESIGN CHOICE). -/
def storeWeights (s : State) (source length target part since : Nat) : Act :=
  withScratch s source length (fun t bs =>
    match performWrite t t.cur (placeOf (phys (tagWeights (myDie t)) target) (myDie t) none) bs with
    | some u => .done (markStale u (myDie u) part since) 1
    | none => .lost t)

/-- WEIGHT_STORE_WRITE_COMPLETE (R183): once no task of the partition is resident on the die. The owners of the frames were tested at
issue: one that has changed meanwhile is written all the same (log 113 DESIGN CHOICE). -/
def execWeightStoreWriteComplete (p : PartyId) (s : State) : Host.Outcome State Fault Refusal :=
  match (s.party p).busy with
  | some (.weights src len dst part since, w, g) =>
    if goesOn s p && settled s (dieOf p.core) && !tasksOn s (dieOf p.core) part then
      asParty s p (fun s => conclude s w g (storeWeights s src len dst part since))
    else .next s
  | _ => .next s

end Sys2Proof.Machine
end

