-- ==== Sys2Proof/Machine/Replay.lean ====
section
/-! DEFINITION. Phase cancellation (R358): a task that holds a checkpoint replays its front logs and runs its phase again. -/

namespace Sys2Proof.Machine

/-- The chunks of a logged copy, one after the other (R356). A destroyed weak source writes nothing more. -/
def replayChunks (c : Copy) : List Nat → State → Except Miss State
  | [], s => .ok s
  | k :: ks, s =>
    if sourceGone s c then .ok (readWeak s c)
    else
      match moveChunk (readWeak s c) c k with
      | .ok (t, false) => replayChunks c ks t
      | .ok (_, true) => .error .lost
      | .error e => .error e

/-- The logged copies in log order. -/
def replayLog : List CopyCmd → State → Except Miss State
  | [], s => .ok s
  | cmd :: rest, s =>
    match replayChunks (copyOf cmd) (List.range (copyOf cmd).chunks) s with
    | .ok t => replayLog rest t
    | .error e => .error e

/-- The valid pairs of a slot, ascending. -/
def validPairs (h : Shared) : List Nat := (List.range 8).filter (fun n => phbValid (look 0 h.phb n))

/-- Records of a task's parties no longer concern it, on whichever die its parties have trapped: those pending are withdrawn (log 24
DEDUCED). -/
def withdraw (s : State) (serial : Nat) : State :=
  let ours := fun (r : Record) => r.party.isSome && decide (recSerial r = serial)
  { s with dies := s.dies.map (fun e => (e.1, { e.2 with
      pend := e.2.pend.filter (fun r => !ours r), held := e.2.held.map (fun r => if ours r then { r with party := none } else r) })) }

/-- The retried bits of pairs set (R355, R358). -/
def setRetried (phst : BitVec 16) (pairs : List Nat) : BitVec 16 := pairs.foldl (fun x n => setBit x n true) phst

/-- Restores a checkpoint on its slot (R358 step 4); barriers that the memberships which it takes away kept waiting complete (R278). -/
def restorePhase (s : State) (core slot : Nat) (t : Task) (k : Checkpoint) : State :=
  let s1 := layParties (clearParties (vacate (dropSends s core slot) core slot) core slot) core slot k.parties
  let s2 := s1.modCtx core slot (fun c =>
    { c with sh := { k.shared with phst := setRetried k.shared.phst (validPairs k.shared) }, cancel := false, disturbed := true })
  let s3 := s2.modCore core (fun c =>
    { c with trellis := if t.hdr.flags.getLsbD 2 then k.trellis else c.trellis,
             fifoA := if t.hdr.flags.getLsbD 1 then k.fifoA else c.fifoA,
             fifoB := if t.hdr.flags.getLsbD 1 then k.fifoB else c.fifoB,
             vin := if t.bound then k.vin else c.vin, vfly := if t.bound then [] else c.vfly })
  let left := (s.parties.filter (fun e => decide (e.1 / 10 = core * 2 + slot))).flatMap (fun e => e.2.groups)
  let s4 := (left.eraseDups.filter (fun g => !k.parties.any (fun e => e.2.groups.contains g))).foldl
    (fun u g => checkBarrier u t.part g) s3
  withdraw (allParties.foldl (fun t p => orderAll t ⟨core, slot, p⟩) s4) t.serial.toNat

/-- PHASE_CANCEL (R358). Nothing of a partition under reset runs again (R369, R370). A checkpoint that cannot be read back from its
frames ends the task as a replay read would (R346; log 122 DESIGN CHOICE). -/
def execPhaseCancel (core slot : Nat) (s : State) : Host.Outcome State Fault Refusal :=
  let x := s.ctx core slot
  match x.task, x.checkpoint with
  | some t, some k =>
    let ready := x.cancel && x.dying.isNone && !underReset s t.part && storesDone s core slot t && settled s (dieOf core)
    let give := fun (u : State) (cause : Nat) => markDying (u.modCtx core slot (fun c => { c with cancel := false })) core slot cause 0
    if !ready then .next s
    else if x.sh.phst.toNat % 256 ≠ 0 then .next (give s errRetry)
    else if (validPairs x.sh).any (fun n => x.sh.short.getLsbD n) || inCollective s core slot then .next (give s errUncorrectable)
    else
      match replayLog ((validPairs x.sh).flatMap (fun n => look [] x.sh.front n)) (s.setCur ⟨core, slot, .x⟩) with
      | .ok u =>
        (match framesChecked (u.setCur s.cur) ((cocoonParts t).take 1) with
         | some v => .next (restorePhase v core slot t k)
         | none => .next (give (u.setCur s.cur) errRetry))
      | .error .held => .next s
      | .error .nowhere => .next (give s errTranslation)
      | .error _ => .next (give s errRetry)
  | _, _ => .next s

end Sys2Proof.Machine
end

