-- ==== Sys2Proof/Machine/Collective.lean ====
section
/-! DEFINITION. The collective engine (R242–R249, R299): records and their checks, messages between dies and devices, their
delivery, reductions, and flags (R247, R248). A message carries the causal context of its die with what its queue has sent: by die
the number of that die's clock entry, by queue and by endpoint of another device the number of its last message (R206). -/

namespace Sys2Proof.Machine

/-! ## Records (R243) -/

def recTagOf (r : List Byte) : Nat := recField r 4 2
def recType (r : List Byte) : Nat := recField r 2 1
def recCount (r : List Byte) : Nat := recField r 0x10 8
def recSfirst (r : List Byte) : Nat := recField r 0x18 8
def recDfirst (r : List Byte) : Nat := recField r 0x20 8

/-- The kinds of collective instructions, by op: 1 CSEND, 2 CRECV, 3 CRED, 4 CBCAST, 5 CA2A, 6 CGATH, 7 CSAMP, 8 CFLAG. -/
def pointToPoint (kind : Nat) : Bool := decide (kind = 1) || decide (kind = 2)

/-- Whether a kind reads a source, and whether it writes a destination here. -/
def sendsData (kind : Nat) : Bool := decide (kind ≠ 2) && decide (kind ≠ 8)
def takesData (kind : Nat) : Bool := decide (kind ≠ 1) && decide (kind ≠ 8)

/-- The fields of a record that need no list and no tensor. -/
def collFields (s : State) (kind : Nat) (r : List Byte) : Bool :=
  let peers := recField r 6 2
  let type := recType r
  let slotOk := fun (n : Nat) => decide (n = 0xFF) || slotCounted s n
  slotOk (recField r 0 1) && (if kind = 8 then decide (recField r 1 1 = 0xFE) else slotOk (recField r 1 1)) &&
  (match kind with
   | 3 => decide (type ≤ 2) || decide (type = 7)
   | 7 | 8 => decide (type = 8)
   | _ => decide (type ≤ 9)) &&
  (if kind = 3 then decide (recField r 3 1 ≤ 2) else decide (recField r 3 1 = 0)) &&
  (if pointToPoint kind then decide (peers = 1) else decide (1 ≤ peers) && decide (peers ≤ 4096)) &&
  inScratch s.cur.core (recField r 8 4) (2 * peers) && decide (recField r 0x0C 4 = 0) && decide (1 ≤ recCount r) &&
  (if kind = 4 then decide (recField r 0x28 2 < peers) else decide (recField r 0x28 2 = 0)) && decide (recField r 0x2A 6 = 0) &&
  (if kind = 8 then decide (recCount r = 1) && decide (recDfirst r ≤ 8191) else true)

/-- The endpoint of the executing party's die. -/
def ownEndpoint (s : State) : Nat := s.mgmt.fdev.toNat * 16 + myDie s

/-- Whether a list of endpoints is legal (R243): inside the fabric set, and holding the issuer's own once where it names
every participant. A system core belongs to no partition, and its fabric set is empty: every list of its queue is illegal (log 129
DESIGN CHOICE). -/
def listOk (s : State) (kind : Nat) (es : List Nat) : Bool :=
  es.all (fun e => (s.part s.myPart).endpoints.contains e) &&
  (pointToPoint kind || decide (kind = 8) || decide (es.count (ownEndpoint s) = 1))

/-- How many elements are read or written in all. -/
def sourceSpan (kind : Nat) (r : List Byte) : Nat := if kind = 5 then recCount r * recField r 6 2 else recCount r
def destSpan (kind : Nat) (r : List Byte) : Nat := if kind = 5 ∨ kind = 6 then recCount r * recField r 6 2 else recCount r

/-! ## Elements of either side -/

/-- The coordinates of element `n` in the layout unit's linear order (R225); none beyond the tile grid. -/
def linearCoords (t : Tensor) (n : Nat) : Option (List Int) :=
  let step := fun (acc : List Int × Nat × Nat) (i : Nat) =>
    let z := 2 ^ t.log i
    let grid := (t.extent i + z - 1) / z
    (acc.1 ++ [((acc.2.1 % grid * z + acc.2.2 % z : Nat) : Int)], acc.2.1 / grid, acc.2.2 / z)
  let (cs, left, _) := (List.range t.dims).foldl step ([], n / t.tileElems, n % t.tileElems)
  if left = 0 then some cs else none

/-- The bytes of `n` elements in a message or in the scratchpad: four-bit codes lie two to a byte (log 78 DESIGN CHOICE). -/
def elemBytes (type n : Nat) : Nat := if type = 9 then (n + 1) / 2 else n * typeSize type

/-- Elements as bytes: a code of an even place in the low half of its byte. -/
def packElems (type : Nat) (es : List Nat) : List Byte :=
  if type = 9 then (pieces 2 es.length es).map (fun p => BitVec.ofNat 8 (p.getD 0 0 % 16 + 16 * p.getD 1 0))
  else es.flatMap (bytesOfNat (typeSize type))

/-- `n` elements from bytes. -/
def splitElems (type n : Nat) (bs : List Byte) : List Nat :=
  (List.range n).map (fun i =>
    if type = 9 then (bs.getD (i / 2) 0).toNat / 16 ^ (i % 2) % 16 else recField bs (typeSize type * i) (typeSize type))

/-- One element of a tensor, B4 codes from their planes (R99). -/
def readCode (s : State) (t : Tensor) (c : List Int) : Except Miss (State × Nat) :=
  if t.type = 9 then
    match t.find c with
    | none => .ok (s, 0)
    | some (tile, e) => (readPlanes s t tile e 1 [0, 1, 2, 3]).map (fun r => (r.1, codeAt r.2 (e % 8)))
  else (readElement s t c).map (fun r => (r.1, natOfBytes r.2))

/-- `n` elements from element `i` of a tensor, in linear order; zero bits beyond it (R227). -/
def readLinear (t : Tensor) : Nat → Nat → State → Except Miss (State × List Nat)
  | 0, _, s => .ok (s, [])
  | n + 1, i, s =>
    match (match linearCoords t i with | some c => readCode s t c | none => .ok (s, 0)) with
    | .error e => .error e
    | .ok (u, x) =>
      match readLinear t n (i + 1) u with
      | .ok (v, xs) => .ok (v, x :: xs)
      | .error e => .error e

/-- The bits of a code in the bytes of its planes, `m` being the bytes that are written so far (R99). -/
def planeCells (s : State) (t : Tensor) (tile e v : Nat) : List Nat → Sparse Byte → Except Miss (State × Sparse Byte)
  | [], m => .ok (s, m)
  | i :: is, m =>
    match tilePlace s t tile (e / 4096 * 2048 + 512 * i + e % 4096 / 8) with
    | .error x => .error x
    | .ok (u, p) =>
      if p.readOnly then .error (if p.slot.isSome then .privilege else .nowhere)
      else
        let old := (seek m p.phys).getD (readByte u.mem p.phys)
        planeCells u t tile e v is (put m p.phys (setBit old (e % 8) (v.testBit (3 - i))))

/-- The cells of codes written from element `i` of a B4 tensor on. -/
def gatherCodes (t : Tensor) : List Nat → Nat → State → Sparse Byte → Except Miss (State × Sparse Byte)
  | [], _, s, m => .ok (s, m)
  | v :: vs, i, s, m =>
    match (linearCoords t i).bind t.find with
    | none => gatherCodes t vs (i + 1) s m
    | some (tile, e) =>
      match planeCells s t tile e v [0, 1, 2, 3] m with
      | .error x => .error x
      | .ok (u, m') => gatherCodes t vs (i + 1) u m'

/-- The bytes of which codes written at these places keep some bits: those whose eight elements are not all written (R320). -/
def keptCodes (s : State) (t : Tensor) (es : List (Nat × Nat)) : List Nat :=
  es.flatMap (fun e =>
    if (List.range 8).all (fun k => es.contains (e.1, e.2 / 8 * 8 + k)) then []
    else
      [0, 1, 2, 3].filterMap (fun i =>
        match tilePlace s t e.1 (e.2 / 4096 * 2048 + 512 * i + e.2 % 4096 / 8) with
        | .ok (_, p) => some p.phys
        | .error _ => none))

/-- Elements written from element `i` of a tensor on. -/
def writeLinear (s : State) (t : Tensor) (i : Nat) (es : List Nat) : Except Miss (State × Bool) :=
  if t.type = 9 then
    let at_ := (List.range es.length).filterMap (fun k => (linearCoords t (i + k)).bind t.find)
    (gatherCodes t es i s []).map (fun r => writeLines r.1 t.key (keptCodes r.1 t at_) (lineRuns r.2))
  else
    writeUnits s t (((List.range es.length).zip es).filterMap (fun e =>
      (linearCoords t (i + e.1)).map (fun c => (c, bytesOfNat (typeSize t.type) e.2))))

/-- The tensors that a collective instruction keeps behind its record: source, destination. -/
def collSource (r : List Byte) : Option Tensor := kept r 48
def collDest (r : List Byte) : Option Tensor := kept r 176

/-- The source's elements (R244). -/
def readSide (s : State) (kind : Nat) (r : List Byte) : Except Miss (State × List Nat) :=
  let n := sourceSpan kind r
  match collSource r with
  | some t => readLinear t n (recSfirst r) s
  | none =>
    match readScratch s s.cur.core s.cur.slot (recSfirst r) (elemBytes (recType r) n) with
    | some x => .ok (x.1, splitElems (recType r) n x.2)
    | none => .error .lost

/-- What has been received, written at the destination: the half of a byte beyond the last code keeps its bits. -/
def writeSide (s : State) (r : List Byte) (es : List Nat) : Except Miss (State × Bool) :=
  match collDest r with
  | some t => writeLinear s t (recDfirst r) es
  | none =>
    let o := recDfirst r
    let half := if recType r = 9 then es.length % 2 else 0
    match readScratch s s.cur.core s.cur.slot (o + es.length / 2) half with
    | none => .error .lost
    | some (u, last) =>
      match writeScratch u u.cur.core u.cur.slot o (packElems (recType r) (es ++ last.map (fun b => b.toNat / 16))) with
      | some t => .ok (t, false)
      | none => .error .lost

/-- Names a side's tensor, whose type is the record's and which holds the first element; a scratchpad side lies inside (R243).
(Log 57 DEDUCED.) -/
def nameSide (s : State) (r : List Byte) (used : Bool) (slot first span : Nat) : Except Miss (State × List Byte) :=
  if !used then .ok (s, List.replicate 128 0)
  else if slot = 0xFF then
    if inScratch s.cur.core first (elemBytes (recType r) span) then .ok (s, List.replicate 128 0) else .error .bad
  else
    match nameTensor s slot false with
    | .error e => .error e
    | .ok (u, bs) =>
      if (describe bs).type = recType r ∧ (linearCoords (describe bs) first).isSome = true then .ok (u, bs) else .error .bad

/-- How many tiles a tensor's grid has (R225). -/
def Tensor.tileCount (t : Tensor) : Nat :=
  ((List.range t.dims).map (fun i => (t.extent i + 2 ^ t.log i - 1) / 2 ^ t.log i)).foldl (· * ·) 1

/-- The tiles that elements `i` … `i + n − 1` of a tensor lie in. -/
def linearTiles (t : Tensor) (i n : Nat) : List Nat :=
  (List.range t.tileCount).filter (fun k => decide (i / t.tileElems ≤ k) && decide (k ≤ (i + n - 1) / t.tileElems))

/-- Whether a collective instruction would write at the other side's window, as its record and its descriptor stand. -/
def collForeign (s : State) (kind : Nat) (a : B5) : Bool :=
  let o := (s.reg a.toNat).toNat
  foreignWindows s && takesData kind && decide (o % 16 = 0) && inScratch s.cur.core o 48 &&
  (let r := peekScratch s s.cur.core s.cur.slot o 48
   foreignSlot s (recField r 1 1) (fun t _ => linearTiles t (recDfirst r) (destSpan kind r)))

/-- The checks of a collective instruction at issue: the record with its tensors, and its list. It reads them once every write
that its die knows of is applied (R196). A destination in the weight store is an illegal operand, as for a copy command (log 128
DESIGN CHOICE). -/
def checkColl (s : State) (kind : Nat) (a : B5) (k : State → List Byte → List Nat → Act) : Act :=
  let o := (s.reg a.toNat).toNat
  afterPrivilege (collForeign s kind a) <|
  if o % 16 ≠ 0 then .trap causeAlignment (word o)
  else if !inScratch s.cur.core o 48 then badOperand s
  else if !settled s (myDie s) then .wait s
  else
    withScratch s o 48 (fun s r =>
      if !collFields s kind r then badOperand s
      else
        withScratch s (recField r 8 4) (2 * recField r 6 2) (fun s bytes =>
          let es := (List.range (recField r 6 2)).map (fun i => recField bytes (2 * i) 2)
          if !listOk s kind es then badOperand s
          else
            match nameSide s r (sendsData kind) (recField r 0 1) (recSfirst r) (sourceSpan kind r) with
            | .error e => missAct s e
            | .ok (s1, src) =>
              match nameSide s1 r (takesData kind) (recField r 1 1) (recDfirst r) (destSpan kind r) with
              | .error e => missAct s e
              | .ok (s2, dst) =>
                let full := r ++ src ++ dst
                match (collDest full).bind (fun t => destFault s2 t (linearTiles t (recDfirst r) (destSpan kind r))) with
                | some e => missAct s e
                | none => k s2 full es))

/-! ## Sending (R246) -/

/-- The partition that a partition's messages reach on a device (R248). -/
def peerOn (s : State) (part device : Nat) : Nat := look part (s.part part).peers device

/-- The bytes that a message moves on the fabric: a block of CA2A at least 64 (R244). -/
def fabricBytes (m : Msg) : Nat := if m.kind = 5 then max 64 m.bytes.length else m.bytes.length

/-- Sends a message: numbered in the die's clock entry, with the causal context of the die and of its queue (R206), to a die of
this module or out to another device, whose bytes are counted (R335). -/
def sendMsg (s : State) (m : Msg) : State :=
  let die := m.src % 16
  let s1 := tickClock s die
  let m1 := { m with num := look 0 (clockOf s1 die) die, clock := mergeClock (clockOf s die) s.me.view.known }
  if m.dst / 16 = s.mgmt.fdev.toNat then { s1 with msgs := s1.msgs ++ [m1] }
  else { countMoved s1 s.myPart 10 (fabricBytes m) with out := s1.out ++ [.message m1] }

/-- The key under which a clock counts the messages of a queue of this module. -/
def queueKey (p : PartyId) : Nat := 32 + partyKey p

/-- The messages of the executing queue's instruction are sent: the causal context of its die names them from here on (R206). -/
def noteSends (s : State) : State :=
  learn s (myDie s) [(queueKey s.cur, look 0 (clockOf s (myDie s)) (myDie s))]

/-- The message of an instruction to rank `k` of its list. -/
def messageTo (s : State) (kind : Nat) (r : List Byte) (es : List Nat) (rank k : Nat) (flag : Bool) (bs : List Byte) : Msg :=
  let dst := es.getD k 0
  { src := ownEndpoint s, dst := dst, part := peerOn s s.myPart (dst / 16), flag := flag, tag := recTagOf r, kind := kind,
    type := recType r, count := recCount r, list := if kind = 1 then [] else es, fromRank := rank, dfirst := recDfirst r,
    bytes := bs, clock := [], num := 0, agent := some s.cur, serial := s.mySerial.toNat, since := s.tick }

/-! ## Reductions (R245, R299) -/

/-- One combination of two elements of CRED (R245). (Log 58 DEDUCED.) -/
def combine (type op x y : Nat) : Nat :=
  if type = 7 then
    let a := readInt 7 true x
    let b := readInt 7 true y
    encodeInt 32 true false (match op with | 0 => a + b | 1 => max a b | _ => min a b)
  else
    let a := FV.read (fmt type) x
    let b := FV.read (fmt type) y
    FV.encode (fmt type) 0 false (match op with | 0 => FV.add 0 a b | 1 => FV.maximum a b | _ => FV.minimum a b)

/-- A value of CRED or CSAMP as it is written: the canonical NaN for any NaN (R86). -/
def canonical (kind type x : Nat) : Nat :=
  if kind = 7 then x / 2 ^ 32 * 2 ^ 32 + FV.encode fp32 0 false (FV.read fp32 (x % 2 ^ 32))
  else if type ≤ 2 then FV.encode (fmt type) 0 false (FV.read (fmt type) x)
  else x

/-- The order of pairs of CSAMP (R299): whether pair x beats pair y. -/
def beats (x y : Nat) : Bool :=
  let a := FV.read fp32 (x % 2 ^ 32)
  let b := FV.read fp32 (y % 2 ^ 32)
  let i := x / 2 ^ 32
  let j := y / 2 ^ 32
  if a.isNan ≠ b.isNan then b.isNan
  else if FV.below b a then true
  else if FV.below a b then false
  else if i ≠ j then decide (i < j)
  else !a.isNan && b.neg && !a.neg

/-- Combines vectors two at a time until one is left, in an order that is not fixed (R83, R245): `n` numbers the choices. -/
def reduceAll (f : Nat → Nat → Nat) : Nat → Nat → List (List Nat) → List Nat
  | 0, _, vs => vs.headD []
  | fuel + 1, n, vs =>
    if vs.length ≤ 1 then vs.headD []
    else
      let i := Sys2Proof.Config.pairing n % vs.length
      let rest := vs.eraseIdx i
      let j := Sys2Proof.Config.pairing (n + 1) % rest.length
      reduceAll f fuel (n + 2) (rest.eraseIdx j ++ [List.zipWith f (vs.getD i []) (rest.getD j [])])

/-- What a collective instruction writes once everything is received, in rank order. (Log 11 DESIGN CHOICE.) -/
def received (fresh : Nat) (kind : Nat) (r : List Byte) (got : Sparse (List Byte)) : List Nat :=
  let type := recType r
  let es := got.map (fun e => splitElems type (recCount r) e.2)
  match kind with
  | 3 => (reduceAll (combine type (recField r 3 1)) es.length fresh es).map (canonical 3 type)
  | 7 => (reduceAll (fun x y => if beats x y then x else y) es.length fresh es).map (canonical 7 type)
  | _ => es.flatMap id

/-- How many contributions an instruction waits for. -/
def wanted (c : Coll) : Nat := if c.kind = 2 ∨ c.kind = 4 then 1 else c.list.length

/-! ## Causal contexts (R206, R246, R247) -/

/-- From this key on a clock counts by die what another device knows of the messages of this module, and by endpoint what is known
of the messages of another device. -/
def foreignKey : Nat := 2 ^ 18
def endpointKey (src : Nat) : Nat := 2 ^ 16 + src

/-- The key under which a clock counts a message: its queue's, or the endpoint's of another device. -/
def msgKey (m : Msg) : Nat := match m.agent with | some a => queueKey a | none => endpointKey m.src

/-- Whether a clock names the message of number `num` that it counts under `key`: one of this module also by what another device
knows of its die. -/
def namesNum (clock : Sparse Nat) (key num : Nat) : Bool :=
  decide (num ≤ look 0 clock key) || (decide (key < 2 ^ 16) && decide (num ≤ look 0 clock (foreignKey + dieOf ((key - 32) / 20))))

/-- Where the module keeps what a die knew once a message was delivered there. -/
def deliveredKey (m : Msg) : Nat := msgKey m * 2 ^ 64 + m.num

/-- What a message brings with it: its context, what the dies knew that have applied the messages named there, and its own number. -/
def carried (s : State) (m : Msg) : Sparse Nat :=
  s.delivered.foldl (fun c e => if namesNum m.clock (e.1 / 2 ^ 64) (e.1 % 2 ^ 64) then mergeClock c e.2 else c)
    (mergeClock m.clock [(msgKey m, m.num)])

/-- A message has been applied: its die knows what it brings (R206), and those of other devices are remembered. -/
def heardMsg (s : State) (m : Msg) : State :=
  let t := learn s (m.dst % 16) (carried s m)
  if m.agent.isSome then t else { t with heard := put t.heard m.src (m.num :: look [] t.heard m.src) }

/-- Messages have been delivered: whoever learns of one of them knows what its die knew then (R247). -/
def noteDelivered (s : State) (ms : List Msg) : State :=
  { s with delivered := ms.foldl (fun d m => put d (deliveredKey m) (clockOf s (m.dst % 16))) s.delivered }

/-- Whether everything that a message names has been applied on this device: writes, messages under way or received by an
instruction that has not retired, of whichever partition, and the messages of other devices that have not come yet, whichever devices it
learnt them through (R206). Those that `with_` has received are applied with it. (Log 59 DEDUCED.) -/
def contextDone (s : State) (m : Msg) (with_ : Option PartyId) : Bool :=
  let along := fun (h : Msg) => with_.isSome && decide (h.holder = with_)
  applied s m.clock &&
  !s.msgs.any (fun h => decide (h ≠ m) && !along h && namesNum m.clock (msgKey h) h.num) &&
  m.clock.all (fun e => decide (e.1 < 2 ^ 16) || decide (2 ^ 17 ≤ e.1) ||
    (List.range e.2).all (fun n => (look [] s.heard (e.1 - 2 ^ 16)).contains (n + 1) ||
      s.msgs.any (fun h => (decide (h = m) || along h) && decide (msgKey h = e.1) && decide (h.num = n + 1))))

/-- Whether an instruction has sent nothing: CRECV, and CBCAST at any rank but the root. -/
def sendsNothing (c : Coll) : Bool := decide (c.kind = 2) || (decide (c.kind = 4) && decide (c.rank ≠ recField c.record 0x28 2))

/-- The messages that the executing queue's instruction has received. -/
def heldMsgs (s : State) : List Msg := s.msgs.filter (fun m => decide (m.holder = some s.cur))

/-- The messages that a queue's instruction has received are no longer held by it. -/
def releaseMsgs (s : State) (p : PartyId) : State :=
  { s with msgs := s.msgs.map (fun m => if m.holder = some p then { m with holder := none } else m) }

/-- The instructions of this module whose messages an instruction has retired with: their participants have agreed on the list, so that
they trap no more, and no share of an instruction that traps stays behind (R7, R243; log 98 DEDUCED). -/
def keepSenders (s : State) (ms : List Msg) : State :=
  ms.foldl (fun t m =>
    match m.agent with
    | some a =>
      (match (t.party a).busy with
       | some (.coll d, w, g) =>
         if d.since = m.since then t.modParty a (fun x => { x with busy := some (.coll { d with kept := true }, w, g) }) else t
       | _ => t)
    | none => t) s

/-- The end of an instruction that has received everything (R246): its messages are delivered, and what it writes comes after what
they carry. Otherwise it goes on waiting. At a window that the other side writes meanwhile one that has sent nothing traps with no
effect, and one that has sent waits (R330; log 80 DESIGN CHOICE). -/
def collStep (s : State) (c : Coll) : Act :=
  let s0 := s.modMe (fun x => { x with busy := x.busy.map (fun k => (.coll c, k.2)) })
  if c.got.length < wanted c then .wait s0
  else
    let ms := heldMsgs s
    let s1 := ms.foldl heardMsg { s with msgs := s.msgs.filter (fun m => !ms.contains m), fresh := s.fresh + 2 * c.list.length }
    match writeSide s1 c.record (received s.fresh c.kind c.record c.got) with
    | .error .privilege => if sendsNothing c then endMiss (releaseMsgs s s.cur) false .privilege else .wait s0
    | .error e => missAct s0 e
    | .ok (t, true) => .lost t
    | .ok (t, false) => .done (orderPoint (keepSenders (noteDelivered t ms) ms) t.cur) 1

/-! ## The instructions (R244) -/

/-- Begins an instruction: its own contribution is there already where it receives one. -/
def beginColl (s : State) (kind : Nat) (r : List Byte) (es : List Nat) (rank : Nat) (value : Word) (got : Sparse (List Byte)) : Act :=
  let c : Coll := ⟨kind, r, es, rank, value, got, 0, false, s.tick, false⟩
  if kind ≠ 8 ∧ wanted c ≤ got.length then collStep s c else .issued s (.coll c)

/-- Sends to every other rank what `f` gives it. -/
def sendShares (s : State) (kind : Nat) (r : List Byte) (es : List Nat) (rank : Nat) (f : Nat → List Byte) : State :=
  noteSends (((List.range es.length).filter (fun k => decide (k ≠ rank))).foldl (fun t k =>
    sendMsg t (messageTo s kind r es rank k false (f k))) s)

/-- CSEND: it retires when its message is sent. -/
def execCsend (w g : B2) (a : B5) (s : State) : Host.Outcome State Fault Refusal :=
  tokened s .collective w g (fun s =>
    checkColl s 1 a (fun s r es =>
      match readSide s 1 r with
      | .error e => missAct s e
      | .ok (t, xs) => let u := noteSends (sendMsg t (messageTo t 1 r es 0 0 false (packElems (recType r) xs))); .done (orderPoint u u.cur) 1))

def execCrecv (w g : B2) (a : B5) (s : State) : Host.Outcome State Fault Refusal :=
  tokened s .collective w g (fun s => checkColl s 2 a (fun s r es => beginColl s 2 r es 0 0 []))

/-- CRED, CGATH and CSAMP: every rank's elements go to every rank. -/
def shareAll (s : State) (kind : Nat) (a : B5) : Act :=
  checkColl s kind a (fun s r es =>
    match readSide s kind r with
    | .error e => missAct s e
    | .ok (t, xs) =>
      let rank := es.findIdx (fun e => decide (e = ownEndpoint s))
      let bs := packElems (recType r) xs
      beginColl (sendShares t kind r es rank (fun _ => bs)) kind r es rank 0 [(rank, bs)])

def execCred (w g : B2) (a : B5) (s : State) : Host.Outcome State Fault Refusal :=
  tokened s .collective w g (fun s => shareAll s 3 a)
def execCgath (w g : B2) (a : B5) (s : State) : Host.Outcome State Fault Refusal :=
  tokened s .collective w g (fun s => shareAll s 6 a)
def execCsamp (w g : B2) (a : B5) (s : State) : Host.Outcome State Fault Refusal :=
  tokened s .collective w g (fun s => shareAll s 7 a)

/-- CBCAST: the root's elements go to every participant, the root among them. -/
def execCbcast (w g : B2) (a : B5) (s : State) : Host.Outcome State Fault Refusal :=
  tokened s .collective w g (fun s =>
    checkColl s 4 a (fun s r es =>
      let rank := es.findIdx (fun e => decide (e = ownEndpoint s))
      if rank = recField r 0x28 2 then
        match readSide s 4 r with
        | .error e => missAct s e
        | .ok (t, xs) =>
          let bs := packElems (recType r) xs
          beginColl (sendShares t 4 r es rank (fun _ => bs)) 4 r es rank 0 [(rank, bs)]
      else beginColl s 4 r es rank 0 []))

/-- CA2A: block k goes to rank k. -/
def execCa2a (w g : B2) (a : B5) (s : State) : Host.Outcome State Fault Refusal :=
  tokened s .collective w g (fun s =>
    checkColl s 5 a (fun s r es =>
      match readSide s 5 r with
      | .error e => missAct s e
      | .ok (t, xs) =>
        let rank := es.findIdx (fun e => decide (e = ownEndpoint s))
        let block := fun k => packElems (recType r) ((xs.drop (recCount r * k)).take (recCount r))
        beginColl (sendShares t 5 r es rank block) 5 r es rank 0 [(rank, block rank)]))

/-- CFLAG (R247, R248): it retires when every peer has applied or refused the flag. -/
def execCflag (w g : B2) (a b : B5) (s : State) : Host.Outcome State Fault Refusal :=
  tokened s .collective w g (fun s =>
    checkColl s 8 a (fun s r es =>
      let v := s.reg b.toNat
      let t := (List.range es.length).foldl (fun t k => sendMsg t (messageTo s 8 r es 0 k true (bytesOfNat 8 v.toNat))) s
      beginColl (noteSends t) 8 r es 0 v []))

/-! ## Delivery (R206, R246) -/

/-- Two messages of one queue to one endpoint stay in the order in which they were sent (R246), and sends of one tag are
matched in their order (R244): none before `m` is still under way, but those that go to the same instruction. -/
def inOrder (s : State) (m : Msg) (with_ : Option PartyId) : Bool :=
  !s.msgs.any (fun h => decide (h.src = m.src) && decide (h.dst = m.dst) && decide (h.num < m.num) &&
    !(with_.isSome && decide (h.holder = with_)) &&
    ((m.agent.isSome && decide (h.agent = m.agent)) ||
     (decide (h.part = m.part) && decide (h.flag = m.flag) && decide (h.tag = m.tag) && decide (h.kind = m.kind) &&
      decide (h.fromRank = m.fromRank))))

/-- The matching instruction at the receiver: the earliest issued (R244). (Log 59 DEDUCED.) -/
def receiverOf (s : State) (m : Msg) : Option (PartyId × Coll × B2 × B2) :=
  let all := s.parties.filterMap (fun e =>
    if e.1 % 10 ≠ 8 ∨ dieOf (e.1 / 20) ≠ m.dst % 16 then none
    else
      let p : PartyId := ⟨e.1 / 20, e.1 / 10 % 2, .c⟩
      match e.2.busy with
      | some (.coll c, w, g) =>
        let here := match (s.ctx p.core p.slot).task with | some t => decide (t.part = m.part) | none => false
        let fits :=
          if m.kind = 1 then decide (c.kind = 2) && decide (c.list = [m.src])
          else decide (c.kind = m.kind) && (seek c.got m.fromRank).isNone && !(decide (c.kind = 4) && c.got ≠ [])
        if here && decide (recTagOf c.record = m.tag) && fits then some (p, c, w, g) else none
      | _ => none)
  all.foldl (fun (best : Option (PartyId × Coll × B2 × B2)) x =>
    match best with
    | none => some x
    | some y => if x.2.1.since < y.2.1.since then some x else best) none

/-- The sender's task ends with a mismatch if it has not ended, wherever it is now; a sender of another device is told (R244). -/
def failSender (s : State) (m : Msg) : State :=
  match m.agent with
  | some a => endSerial s (dieOf a.core) a.core m.serial errCollective
  | none => { s with out := s.out ++ [.mismatch m.src m.tag] }

/-- An instruction in progress has the contribution of a rank no longer. -/
def loseShare (rank : Nat) : Cmd → Cmd
  | .coll c => .coll { c with got := drop c.got rank }
  | k => k

/-- The messages that a queue's collective instruction has sent are taken back, from those too that have received them and have not
retired. -/
def takeBack (s : State) (p : PartyId) (c : Coll) : State :=
  let ours := fun (m : Msg) => decide (m.agent = some p) && decide (m.since = c.since)
  let t := (s.msgs.filter ours).foldl (fun t m =>
    match m.holder with
    | some q => t.modParty q (fun x => { x with busy := x.busy.map (fun k => (loseShare m.fromRank k.1, k.2)) })
    | none => t) s
  { t with msgs := t.msgs.filter (fun m => !ours m) }

/-- A collective instruction whose list differs traps as an illegal operand (R243) without effect (R7, R347): what it has received is
there to be received again, and what it has sent, none of it retired with, is taken back (log 98 DEDUCED). -/
def listTrap (s : State) (p : PartyId) (c : Coll) : State :=
  let t := (takeBack (releaseMsgs s p) p c).modParty p (fun x => { giveBack x with busy := none })
  takeTrap t p causeOperand ((wordAt t p (t.party p).pc.toNat).setWidth 64)

/-- The sender of a message whose list differs traps as well, if its instruction is in progress here and its participants have not
agreed. -/
def senderListTrap (s : State) (m : Msg) : State :=
  match m.agent with
  | some a =>
    match (s.party a).busy with
    | some (.coll d, _, _) => if d.since = m.since ∧ d.kept = false ∧ goesOn s a = true then listTrap s a d else s
    | _ => s
  | none => s

/-- The receiver of a message whose list differs traps, unless its participants have agreed: then the message stays for another
instruction. -/
def receiverListTrap (s : State) (p : PartyId) (c : Coll) : State := if c.kept then s else listTrap s p c

/-- A message delivered to its instruction: counts and types must agree (R244), and the lists (R243). R244 gives the fate of a
differing count or type for a matched CSEND and CRECV; the model takes it for every instruction (log 89 DESIGN CHOICE). A message that
the instruction receives stays until it retires (R246). -/
def deliver (s : State) (m : Msg) (p : PartyId) (c : Coll) (w g : B2) : Host.Outcome State Fault Refusal :=
  let gone := heardMsg { s with msgs := s.msgs.filter (fun h => decide (h ≠ m)) } m
  if m.count ≠ recCount c.record ∨ m.type ≠ recType c.record then
    .next (failSender (markDying gone p.core p.slot errCollective 0) m)
  else if m.kind ≠ 1 ∧ m.list ≠ c.list then .next (senderListTrap (receiverListTrap s p c) m)
  else
    let c1 := { c with got := put c.got (if m.kind = 1 then 0 else m.fromRank) m.bytes }
    asParty { s with msgs := s.msgs.map (fun h => if h = m then { h with holder := some p } else h) } p
      (fun s => conclude s w g (collStep s c1))

/-- COLLECTIVE_MESSAGE_ARRIVAL (R246). -/
def execCollectiveMessageArrival (k : Nat) (s : State) : Host.Outcome State Fault Refusal :=
  match s.msgs[k]? with
  | some m =>
    if m.flag || m.holder.isSome then .next s
    else
      match receiverOf s m with
      | some (p, c, w, g) =>
        if goesOn s p && inOrder s m (some p) && contextDone s m (some p) && settled s (m.dst % 16) then deliver s m p c w g
        else .next s
      | none => .next s
  | none => .next s

/-- A flag stored at its peer with what its message brings (R247, R248), its bytes charged to the partition that has sent it, if it is
one of this module (R335); none where the peer partition holds no flag page on the die. -/
def storeFlag (s : State) (m : Msg) : Option State :=
  let die := m.dst % 16
  let v := look 0 (s.part m.part).flpg die
  if v.getLsbD 63 = false then none
  else
    let f := bits v.toNat 39 0
    let p : Place := ⟨framePhys 0 0 0 f (8 * m.dfirst), frameHome 0 0 f, some (homeKey s m.part), some (frameCode 0 0 f), false, false⟩
    let payer := match m.agent with | some a => partOf s a | none => 64
    match writePlace (countAccess s payer p.phys m.bytes.length) thePart m.part (carried s m) p m.bytes with
    | some t => some (quietly s t)
    | none => some s

/-- An answer to a flag of a queue: after the last, CFLAG retires, or its task ends with a mismatch (R248). -/
def answerFlag (s : State) (p : PartyId) (since : Option Nat) (refused : Bool) : Host.Outcome State Fault Refusal :=
  match (s.party p).busy with
  | some (.coll c, w, g) =>
    if decide (c.kind ≠ 8) || (match since with | some n => decide (n ≠ c.since) | none => false) then .next s
    else
      let d := { c with answered := c.answered + 1, refused := c.refused || refused }
      if d.answered < c.list.length then .next (s.modParty p (fun x => { x with busy := some (.coll d, w, g) }))
      else if d.refused then .next (markDying (s.modParty p (fun x => { x with busy := some (.coll d, w, g) })) p.core p.slot errCollective 0)
      else asParty s p (fun s => conclude s w g (.done s 1))
  | _ => .next s

/-- FLAG_MESSAGE_ARRIVAL (R247). -/
def execFlagMessageArrival (k : Nat) (s : State) : Host.Outcome State Fault Refusal :=
  match s.msgs[k]? with
  | some m =>
    if !(m.flag && inOrder s m none && contextDone s m none) then .next s
    else
      let s1 := heardMsg { s with msgs := s.msgs.eraseIdx k } m
      let (s2, refused) := match storeFlag s1 m with | some t => (t, false) | none => (s1, true)
      match m.agent with
      | some a => answerFlag s2 a (some m.since) refused
      | none => .next { s2 with out := s2.out ++ [.message { m with dst := m.src, src := m.dst, bytes := [if refused then 1 else 0] }] }
  | none => .next s

/-- A message of another device reaches this module; one that comes again after a link failure is dropped (R205, R247). (Log 65
DESIGN CHOICE.) -/
def receiveMsg (s : State) (i : Inbound) : State :=
  if i.dst / 16 ≠ s.mgmt.fdev.toNat ∨ i.src / 16 = s.mgmt.fdev.toNat ∨ (look [] s.heard i.src).contains i.num = true ∨
      s.msgs.any (fun h => decide (h.src = i.src) && decide (h.num = i.num)) = true then s
  else
    let clock := i.clock.foldl (fun (c : Sparse Nat) e =>
      mergeClock c (if e.1 / 16 = s.mgmt.fdev.toNat then [(e.1 % 16, e.2), (foreignKey + e.1 % 16, e.2)] else [(endpointKey e.1, e.2)])) []
    let m : Msg := { src := i.src, dst := i.dst, part := i.part, flag := i.flag, tag := i.tag, kind := i.kind, type := i.type,
                     count := i.count, list := i.list, fromRank := i.fromRank, dfirst := i.dfirst, bytes := i.bytes, clock := clock,
                     num := i.num, agent := none, serial := 0, since := 0 }
    { s with msgs := s.msgs ++ [m] }

end Sys2Proof.Machine
end

