-- ==== Sys2Proof/Machine/Swallowtail.lean ====
section
/-! DEFINITION. Swallowtail (R301–R303): automaton slots of stop strings, and the feeding of rows. -/

namespace Sys2Proof.Machine

/-- Who owns the slots that the executing party loads: its partition, or 65 for the system cores, which belong to none and share what
they load; no reset frees it (log 115 DESIGN CHOICE). 64 is no owner. -/
def stopOwner (s : State) : Nat := if s.supervisor then 65 else s.myPart

/-- An automaton slot of the executing party's Hamper: free until it is loaded. -/
def stopSlot (s : State) (n : Nat) : StopSet := look ⟨64, 0, []⟩ (s.hamper (hamperOf s.cur.core)).stops n

/-- `n` length-prefixed strings from the bytes; none where a length is not 1–28 or the bytes run out (R302). -/
def parseStops : Nat → List Byte → Option (List (List Byte))
  | 0, _ => some []
  | n + 1, bs =>
    let z := (bs.headD 0).toNat
    if z = 0 ∨ 28 < z ∨ bs.length < z + 1 then none
    else (parseStops n (bs.drop (z + 1))).map (fun rest => (bs.drop 1).take z :: rest)

def hasDuplicate : List (List Byte) → Bool
  | [] => false
  | x :: xs => xs.contains x || hasDuplicate xs

/-- SSCFG (R302): a feed is one step, so none is in flight on the slot. Its description orders nothing, so every illegal operand
comes before the alignment trap (R49). (Log 60 DEDUCED.) An image offset is a record offset of R301 (log 132 DESIGN CHOICE). -/
def execSscfg (w g : B2) (a b : B5) (s : State) : Host.Outcome State Fault Refusal :=
  tokened s .swallowtail w g (fun s =>
    let o := (s.reg a.toNat).toNat
    let n := (s.reg b.toNat).toNat
    if decide (15 < n) || !inScratch s.cur.core o 16 then badOperand s
    else
      withScratch s o 16 (fun s h =>
        let count := recField h 0 2
        let total := recField h 2 2
        let x := stopSlot s n
        if decide (256 < count) || decide (4096 < total) || decide (recField h 4 12 ≠ 0) ||
            !(decide (x.owner = 64) || decide (x.owner = stopOwner s)) || !inScratch s.cur.core o (16 + count + total) then badOperand s
        else
          withScratch s (o + 16) (count + total) (fun s bs =>
            match parseStops count bs with
            | none => badOperand s
            | some strings =>
              if decide ((strings.map (fun x => x.length)).foldl (· + ·) 0 ≠ total) || hasDuplicate strings then badOperand s
              else if o % 16 ≠ 0 then .trap causeAlignment (word o)
              else
                let y : StopSet := ⟨if count = 0 then 64 else stopOwner s, x.gen + 1, strings⟩
                .done (s.modHamper (hamperOf s.cur.core) (fun k => { k with stops := put k.stops n y })) 1)))

/-! ## Feeding (R303) -/

/-- The length of the longest suffix of `r` (reversed bytes so far) that is a stop string, 0 for none. -/
def stopEnding (strings : List (List Byte)) (r : List Byte) : Nat :=
  strings.foldl (fun n x => if x.reverse.isPrefixOf r then max n x.length else n) 0

/-- The length of the longest suffix of `r` (reversed) that is a proper prefix of a stop string. -/
def heldLength (strings : List (List Byte)) (r : List Byte) : Nat :=
  strings.foldl (fun n x =>
    ((List.range x.length).filter (fun k => (x.take k).reverse.isPrefixOf r)).foldl max n) 0

/-- The walk over the stream: bytes read (reversed), bytes released so far, and the output. The result: output, held
bytes, and whether a string has completed. -/
def feedStream (strings : List (List Byte)) : List Byte → List Byte → Nat → List Byte → List Byte × List Byte × Bool
  | [], r, released, out => (out, (r.take (r.length - released)).reverse, false)
  | b :: bs, r, released, out =>
    let r1 := b :: r
    let m := stopEnding strings r1
    if m ≠ 0 then (out ++ (r1.reverse.take (r1.length - m)).drop released, [], true)
    else
      let k := r1.length - heldLength strings r1
      feedStream strings bs r1 k (out ++ (r1.reverse.take k).drop released)

/-- The held bytes of a row (R290). -/
def rowHeld (s : State) (r : Nat) : List Byte := readBytes s.mem (rowPhys r 0x64) (min 28 (rowGet s r 0x63 1))

/-- A row's automaton fields (R290): slot and generation, valid, held bytes. -/
def setHeldBytes (s : State) (r slot : Nat) (gen : BitVec 12) (h : List Byte) : State :=
  let bs := bytesOfNat 2 (slot + 16 * gen.toNat) ++ [1, BitVec.ofNat 8 h.length] ++ h ++ List.replicate (28 - h.length) 0
  { s with mem := writeBytes s.mem (rowPhys r 0x60) bs }

/-- Three writes of the executing party's window in turn; none for an uncorrectable error. -/
def writeThree (s : State) (a b c : Nat × List Byte) : Option State :=
  match writeScratch s s.cur.core s.cur.slot a.1 a.2 with
  | none => none
  | some t =>
    match writeScratch t t.cur.core t.cur.slot b.1 b.2 with
    | none => none
    | some u => writeScratch u u.cur.core u.cur.slot c.1 c.2

/-- SSFEED's effect on a row (R303), once its record is checked: its writes of the row's bytes keep their clock (R204), a release at
.MOD where a string completes. -/
def feedRow (s : State) (o row slot ooff : Nat) (input : List Byte) : Act :=
  let x := stopSlot s slot
  let valid := decide (rowGet s row 0x62 1 % 2 = 1)
  let same := valid && decide (rowGet s row 0x60 2 = slot + 16 * x.gen.toNat)
  let out0 := if !same && valid then rowHeld s row else []
  let res0 := if !same && valid then 2 else 0
  let h := if same then rowHeld s row else []
  let (out, held, stopped) := feedStream x.strings (h ++ input) [] 0 out0
  let res := res0 + (if stopped then 1 else 0)
  match writeThree s (o + 3, bytesOfNat 1 res) (o + 6, bytesOfNat 2 out.length) (ooff, out) with
  | none => .lost s
  | some t =>
    let u := if stopped then endClaim t row 0xFF else t
    .done (signRow (setHeldBytes u row slot x.gen held) row (if stopped then [(8, 8), (0x60, 32)] else [(0x60, 32)])) 1

/-- SSFEED (R303), its illegal operands before the alignment trap (R49). -/
def execSsfeed (w g : B2) (a : B5) (s : State) : Host.Outcome State Fault Refusal :=
  tokened s .swallowtail w g (fun s =>
    let o := (s.reg a.toNat).toNat
    if !inScratch s.cur.core o 32 then badOperand s
    else
      withScratch s o 32 (fun s r =>
        let row := recField r 0 2
        let slot := recField r 2 1
        let n := recField r 4 2
        let ioff := recField r 8 4
        let ooff := recField r 12 4
        let x := stopSlot s slot
        if decide (16383 < row) || !rowClaimed s row || decide (rowSerial s row ≠ s.mySerial.toNat) || decide (s.mySerial = 0) ||
            decide (15 < slot) || decide (x.owner ≠ stopOwner s) || decide (4096 < n) || !inScratch s.cur.core ioff n ||
            !inScratch s.cur.core ooff (n + 27) || decide (recField r 16 16 ≠ 0) then badOperand s
        else if o % 16 ≠ 0 then .trap causeAlignment (word o)
        else if mustWait s (rowHome row) false true then .wait s
        else
          match (rowChecked s row 8 8).bind (fun s => rowChecked s row 0x60 32) with
          | none => .lost s
          | some s => withScratch s ioff n (fun s input => feedRow s o row slot ooff input)))

end Sys2Proof.Machine
end

