-- ==== Sys2Proof/Machine/Dispatch.lean ====
section
/-! DEFINITION. The dispatch: one arm per constructor of `Instr`, each one call of its meaning. -/

namespace Sys2Proof.Machine

/-- What an instruction or event does to the machine. -/
def exec (i : Instr) (s : State) : Host.Outcome State Fault Refusal :=
  match i with
  | .add d a b => Sys2Proof.Machine.execAdd d a b s
  | .sub d a b => Sys2Proof.Machine.execSub d a b s
  | .and d a b => Sys2Proof.Machine.execAnd d a b s
  | .or d a b => Sys2Proof.Machine.execOr d a b s
  | .xor d a b => Sys2Proof.Machine.execXor d a b s
  | .shl d a b => Sys2Proof.Machine.execShl d a b s
  | .shr d a b => Sys2Proof.Machine.execShr d a b s
  | .sar d a b => Sys2Proof.Machine.execSar d a b s
  | .mul d a b => Sys2Proof.Machine.execMul d a b s
  | .mulh d a b => Sys2Proof.Machine.execMulh d a b s
  | .mulhu d a b => Sys2Proof.Machine.execMulhu d a b s
  | .div d a b => Sys2Proof.Machine.execDiv d a b s
  | .divu d a b => Sys2Proof.Machine.execDivu d a b s
  | .rem d a b => Sys2Proof.Machine.execRem d a b s
  | .remu d a b => Sys2Proof.Machine.execRemu d a b s
  | .min d a b => Sys2Proof.Machine.execMin d a b s
  | .max d a b => Sys2Proof.Machine.execMax d a b s
  | .minu d a b => Sys2Proof.Machine.execMinu d a b s
  | .maxu d a b => Sys2Proof.Machine.execMaxu d a b s
  | .slt d a b => Sys2Proof.Machine.execSlt d a b s
  | .sltu d a b => Sys2Proof.Machine.execSltu d a b s
  | .clz d a => Sys2Proof.Machine.execClz d a s
  | .popc d a => Sys2Proof.Machine.execPopc d a s
  | .addi d a imm => Sys2Proof.Machine.execAddi d a imm s
  | .andi d a imm => Sys2Proof.Machine.execAndi d a imm s
  | .ori d a imm => Sys2Proof.Machine.execOri d a imm s
  | .xori d a imm => Sys2Proof.Machine.execXori d a imm s
  | .slti d a imm => Sys2Proof.Machine.execSlti d a imm s
  | .sltiu d a imm => Sys2Proof.Machine.execSltiu d a imm s
  | .shli d a n => Sys2Proof.Machine.execShli d a n s
  | .shri d a n => Sys2Proof.Machine.execShri d a n s
  | .sari d a n => Sys2Proof.Machine.execSari d a n s
  | .lui d imm => Sys2Proof.Machine.execLui d imm s
  | .addpc d imm => Sys2Proof.Machine.execAddpc d imm s
  | .agen d a b h => Sys2Proof.Machine.execAgen d a b h s
  | .beq a b o => Sys2Proof.Machine.execBeq a b o s
  | .bne a b o => Sys2Proof.Machine.execBne a b o s
  | .blt a b o => Sys2Proof.Machine.execBlt a b o s
  | .bge a b o => Sys2Proof.Machine.execBge a b o s
  | .bltu a b o => Sys2Proof.Machine.execBltu a b o s
  | .bgeu a b o => Sys2Proof.Machine.execBgeu a b o s
  | .jmp o => Sys2Proof.Machine.execJmp o s
  | .jal o => Sys2Proof.Machine.execJal o s
  | .jr a imm => Sys2Proof.Machine.execJr a imm s
  | .loop l c n => Sys2Proof.Machine.execLoop l c n s
  | .loopi l imm n => Sys2Proof.Machine.execLoopi l imm n s
  | .rep imm => Sys2Proof.Machine.execRep imm s
  | .lexit l => Sys2Proof.Machine.execLexit l s
  | .mfs d r => Sys2Proof.Machine.execMfs d r s
  | .mts a r => Sys2Proof.Machine.execMts a r s
  | .tokw k => Sys2Proof.Machine.execTokw k s
  | .toks k => Sys2Proof.Machine.execToks k s
  | .nop => Sys2Proof.Machine.execNop s
  | .endOp => Sys2Proof.Machine.execEndOp s
  | .trap imm => Sys2Proof.Machine.execTrap imm s
  | .waitev d a m => Sys2Proof.Machine.execWaitev d a m s
  | .ldb w g d a f => Sys2Proof.Machine.execLdb w g d a f s
  | .ldh w g d a f => Sys2Proof.Machine.execLdh w g d a f s
  | .ldw w g d a f => Sys2Proof.Machine.execLdw w g d a f s
  | .ldd w g d a f => Sys2Proof.Machine.execLdd w g d a f s
  | .ldbu w g d a f => Sys2Proof.Machine.execLdbu w g d a f s
  | .ldhu w g d a f => Sys2Proof.Machine.execLdhu w g d a f s
  | .ldwu w g d a f => Sys2Proof.Machine.execLdwu w g d a f s
  | .lda w g d a f => Sys2Proof.Machine.execLda w g d a f s
  | .ldc w g d a f => Sys2Proof.Machine.execLdc w g d a f s
  | .stb w g d a f => Sys2Proof.Machine.execStb w g d a f s
  | .sth w g d a f => Sys2Proof.Machine.execSth w g d a f s
  | .stw w g d a f => Sys2Proof.Machine.execStw w g d a f s
  | .std w g d a f => Sys2Proof.Machine.execStd w g d a f s
  | .stl w g d a f => Sys2Proof.Machine.execStl w g d a f s
  | .amoAdd w g o d a b => Sys2Proof.Machine.execAmoAdd w g o d a b s
  | .amoAnd w g o d a b => Sys2Proof.Machine.execAmoAnd w g o d a b s
  | .amoOr w g o d a b => Sys2Proof.Machine.execAmoOr w g o d a b s
  | .amoXor w g o d a b => Sys2Proof.Machine.execAmoXor w g o d a b s
  | .amoMin w g o d a b => Sys2Proof.Machine.execAmoMin w g o d a b s
  | .amoMax w g o d a b => Sys2Proof.Machine.execAmoMax w g o d a b s
  | .amoSwap w g o d a b => Sys2Proof.Machine.execAmoSwap w g o d a b s
  | .cas w g d a b o => Sys2Proof.Machine.execCas w g d a b o s
  | .fence w g p c => Sys2Proof.Machine.execFence w g p c s
  | .qfence w g m => Sys2Proof.Machine.execQfence w g m s
  | .mwait w g d a b => Sys2Proof.Machine.execMwait w g d a b s
  | .mwaitWake p => Sys2Proof.Machine.execMwaitWake p s
  | .enq w g f n e q => Sys2Proof.Machine.execEnq w g f n e q s
  | .mark w g n m => Sys2Proof.Machine.execMark w g n m s
  | .rdv w g n => Sys2Proof.Machine.execRdv w g n s
  | .notify w g m => Sys2Proof.Machine.execNotify w g m s
  | .join w g a => Sys2Proof.Machine.execJoin w g a s
  | .leave w g a => Sys2Proof.Machine.execLeave w g a s
  | .bar w g a => Sys2Proof.Machine.execBar w g a s
  | .wlock w g => Sys2Proof.Machine.execWlock w g s
  | .wfree w g => Sys2Proof.Machine.execWfree w g s
  | .sstep w g d => Sys2Proof.Machine.execSstep w g d s
  | .superstepAdvance part queue => Sys2Proof.Machine.execSuperstepAdvance part queue s
  | .probe w g a b => Sys2Proof.Machine.execProbe w g a b s
  | .unpin w g a b => Sys2Proof.Machine.execUnpin w g a b s
  | .phswap w g n => Sys2Proof.Machine.execPhswap w g n s
  | .eret w g d a => Sys2Proof.Machine.execEret w g d a s
  | .ctxsv w g d a => Sys2Proof.Machine.execCtxsv w g d a s
  | .ctxld w g d a b => Sys2Proof.Machine.execCtxld w g d a b s
  | .pgate w g a => Sys2Proof.Machine.execPgate w g a s
  | .clkdiv w g d a b => Sys2Proof.Machine.execClkdiv w g d a b s
  | .swpt k v => Sys2Proof.Machine.execSwpt k v s
  | .boost w g d a => Sys2Proof.Machine.execBoost w g d a s
  | .seqclm w g d a b => Sys2Proof.Machine.execSeqclm w g d a b s
  | .seqadv w g d a b => Sys2Proof.Machine.execSeqadv w g d a b s
  | .sxqry w g d a b => Sys2Proof.Machine.execSxqry w g d a b s
  | .hnew w g d a b => Sys2Proof.Machine.execHnew w g d a b s
  | .hfree w g d a => Sys2Proof.Machine.execHfree w g d a s
  | .hldw w g d a b => Sys2Proof.Machine.execHldw w g d a b s
  | .bgone w g o => Sys2Proof.Machine.execBgone w g o s
  | .hupg w g d a => Sys2Proof.Machine.execHupg w g d a s
  | .hdng w g d a => Sys2Proof.Machine.execHdng w g d a s
  | .hpri w g d a b => Sys2Proof.Machine.execHpri w g d a b s
  | .winopen w g d a => Sys2Proof.Machine.execWinopen w g d a s
  | .winpub w g d a b => Sys2Proof.Machine.execWinpub w g d a b s
  | .winacq w g d a => Sys2Proof.Machine.execWinacq w g d a s
  | .winclose w g a => Sys2Proof.Machine.execWinclose w g a s
  | .sxapp w g d a b => Sys2Proof.Machine.execSxapp w g d a b s
  | .sxsav w g d a b => Sys2Proof.Machine.execSxsav w g d a b s
  | .sxld w g d a b => Sys2Proof.Machine.execSxld w g d a b s
  | .sxrst w g d a b => Sys2Proof.Machine.execSxrst w g d a b s
  | .vadd w g d a b c p q => Sys2Proof.Machine.execVadd w g d a b c p q s
  | .vsub w g d a b c p q => Sys2Proof.Machine.execVsub w g d a b c p q s
  | .vmul w g d a b c p q => Sys2Proof.Machine.execVmul w g d a b c p q s
  | .vfma w g d a b c p q => Sys2Proof.Machine.execVfma w g d a b c p q s
  | .vmin w g d a b c p q => Sys2Proof.Machine.execVmin w g d a b c p q s
  | .vmax w g d a b c p q => Sys2Proof.Machine.execVmax w g d a b c p q s
  | .vabs w g d a c p => Sys2Proof.Machine.execVabs w g d a c p s
  | .vcmp w g d a b c p q u => Sys2Proof.Machine.execVcmp w g d a b c p q u s
  | .vsel w g d a b c p q => Sys2Proof.Machine.execVsel w g d a b c p q s
  | .vand w g d a b c p q => Sys2Proof.Machine.execVand w g d a b c p q s
  | .vor w g d a b c p q => Sys2Proof.Machine.execVor w g d a b c p q s
  | .vxor w g d a b c p q => Sys2Proof.Machine.execVxor w g d a b c p q s
  | .vshl w g d a b c p q => Sys2Proof.Machine.execVshl w g d a b c p q s
  | .vshr w g d a b c p q => Sys2Proof.Machine.execVshr w g d a b c p q s
  | .vcvt w g d a c p k => Sys2Proof.Machine.execVcvt w g d a c p k s
  | .vqnt w g d a b c p q k => Sys2Proof.Machine.execVqnt w g d a b c p q k s
  | .vdq w g d a b c p q k => Sys2Proof.Machine.execVdq w g d a b c p q k s
  | .vbpk w g d a b c p => Sys2Proof.Machine.execVbpk w g d a b c p s
  | .vbun w g d a b c p => Sys2Proof.Machine.execVbun w g d a b c p s
  | .vrcp w g d a c p => Sys2Proof.Machine.execVrcp w g d a c p s
  | .vrsq w g d a c p => Sys2Proof.Machine.execVrsq w g d a c p s
  | .vexp2 w g d a c p => Sys2Proof.Machine.execVexp2 w g d a c p s
  | .vlog2 w g d a c p => Sys2Proof.Machine.execVlog2 w g d a c p s
  | .vred w g d a c p n => Sys2Proof.Machine.execVred w g d a c p n s
  | .vscan w g d a c p n => Sys2Proof.Machine.execVscan w g d a c p n s
  | .vperm w g d a b c p q => Sys2Proof.Machine.execVperm w g d a b c p q s
  | .vbcsElement w g d a b c p => Sys2Proof.Machine.execVbcsElement w g d a b c p s
  | .vbcsScalar w g d b c => Sys2Proof.Machine.execVbcsScalar w g d b c s
  | .vimm w g d imm => Sys2Proof.Machine.execVimm w g d imm s
  | .vmov w g d a c p => Sys2Proof.Machine.execVmov w g d a c p s
  | .vmovA w g d a c p => Sys2Proof.Machine.execVmovA w g d a c p s
  | .vaddi w g d imm => Sys2Proof.Machine.execVaddi w g d imm s
  | .vspsh w g n a p => Sys2Proof.Machine.execVspsh w g n a p s
  | .vspop w g d n => Sys2Proof.Machine.execVspop w g d n s
  | .vsbal w g n => Sys2Proof.Machine.execVsbal w g n s
  | .gcfg w g d a => Sys2Proof.Machine.execGcfg w g d a s
  | .grst w g d => Sys2Proof.Machine.execGrst w g d s
  | .vnoise w g d a b c p n => Sys2Proof.Machine.execVnoise w g d a b c p n s
  | .vqEntryArrival core => Sys2Proof.Machine.execVqEntryArrival core s
  | .mnest w g a b => Sys2Proof.Machine.execMnest w g a b s
  | .mrun w g a c t => Sys2Proof.Machine.execMrun w g a c t s
  | .runComplete core => Sys2Proof.Machine.execRunComplete core s
  | .mzero w g a => Sys2Proof.Machine.execMzero w g a s
  | .mldc w g a c => Sys2Proof.Machine.execMldc w g a c s
  | .mldcComplete core => Sys2Proof.Machine.execMldcComplete core s
  | .mdrain w g a b c => Sys2Proof.Machine.execMdrain w g a b c s
  | .drainComplete core => Sys2Proof.Machine.execDrainComplete core s
  | .mkat w g a => Sys2Proof.Machine.execMkat w g a s
  | .msig w g d a => Sys2Proof.Machine.execMsig w g d a s
  | .mwt w g => Sys2Proof.Machine.execMwt w g s
  | .xcopy w g a b => Sys2Proof.Machine.execXcopy w g a b s
  | .xfill w g a b => Sys2Proof.Machine.execXfill w g a b s
  | .xgath w g a b => Sys2Proof.Machine.execXgath w g a b s
  | .xscat w g a b => Sys2Proof.Machine.execXscat w g a b s
  | .xfeed w g a b f => Sys2Proof.Machine.execXfeed w g a b f s
  | .copyChunkComplete p => Sys2Proof.Machine.execCopyChunkComplete p s
  | .xtrw w g a => Sys2Proof.Machine.execXtrw w g a s
  | .xtru w g a b => Sys2Proof.Machine.execXtru w g a b s
  | .xtrd w g a b => Sys2Proof.Machine.execXtrd w g a b s
  | .xtbld w g a b => Sys2Proof.Machine.execXtbld w g a b s
  | .xtdef w g a b => Sys2Proof.Machine.execXtdef w g a b s
  | .xcrc w g d a b => Sys2Proof.Machine.execXcrc w g d a b s
  | .xws w g a => Sys2Proof.Machine.execXws w g a s
  | .xref w g d a b => Sys2Proof.Machine.execXref w g d a b s
  | .csend w g a => Sys2Proof.Machine.execCsend w g a s
  | .crecv w g a => Sys2Proof.Machine.execCrecv w g a s
  | .cred w g a => Sys2Proof.Machine.execCred w g a s
  | .cbcast w g a => Sys2Proof.Machine.execCbcast w g a s
  | .ca2a w g a => Sys2Proof.Machine.execCa2a w g a s
  | .cgath w g a => Sys2Proof.Machine.execCgath w g a s
  | .csamp w g a => Sys2Proof.Machine.execCsamp w g a s
  | .cflag w g a b => Sys2Proof.Machine.execCflag w g a b s
  | .collectiveMessageArrival k => Sys2Proof.Machine.execCollectiveMessageArrival k s
  | .flagMessageArrival k => Sys2Proof.Machine.execFlagMessageArrival k s
  | .sscfg w g a b => Sys2Proof.Machine.execSscfg w g a b s
  | .ssfeed w g a => Sys2Proof.Machine.execSsfeed w g a s
  | .entryBegin p => Sys2Proof.Machine.execEntryBegin p s
  | .markRetire p => Sys2Proof.Machine.execMarkRetire p s
  | .notifyRetire p => Sys2Proof.Machine.execNotifyRetire p s
  | .qfenceJoinRelease core slot => Sys2Proof.Machine.execQfenceJoinRelease core slot s
  | .waitevTimeout p => Sys2Proof.Machine.execWaitevTimeout p s
  | .powerGood b => Sys2Proof.Machine.execPowerGood b s
  | .flitCrcError => Sys2Proof.Machine.execFlitCrcError s
  | .remoteWriteArrival k => Sys2Proof.Machine.execRemoteWriteArrival k s
  | .remoteLoadArrival k => Sys2Proof.Machine.execRemoteLoadArrival k s
  | .hostAccess fn op => Sys2Proof.Machine.execHostAccess fn op s
  | .fabricMemoryRequest device r => Sys2Proof.Machine.execFabricMemoryRequest device r s
  | .fabricLaunchPacket k => Sys2Proof.Machine.execFabricLaunchPacket k s
  | .qwp fn queue v => Sys2Proof.Machine.execQwp fn queue v s
  | .qcfg fn queue v => Sys2Proof.Machine.execQcfg fn queue v s
  | .qbase fn queue v => Sys2Proof.Machine.execQbase fn queue v s
  | .qcpl fn queue v => Sys2Proof.Machine.execQcpl fn queue v s
  | .qstat fn queue v => Sys2Proof.Machine.execQstat fn queue v s
  | .atgo v => Sys2Proof.Machine.execAtgo v s
  | .residencyReport => Sys2Proof.Machine.execResidencyReport s
  | .launchHead part queue => Sys2Proof.Machine.execLaunchHead part queue s
  | .taskStart core => Sys2Proof.Machine.execTaskStart core s
  | .taskResume core => Sys2Proof.Machine.execTaskResume core s
  | .taskCompletion core slot => Sys2Proof.Machine.execTaskCompletion core slot s
  | .interruptCoalesceExpiry part queue => Sys2Proof.Machine.execInterruptCoalesceExpiry part queue s
  | .preemptWaitExpiry part => Sys2Proof.Machine.execPreemptWaitExpiry part s
  | .preemption core slot => Sys2Proof.Machine.execPreemption core slot s
  | .energyTick used => Sys2Proof.Machine.execEnergyTick used s
  | .energyRefill => Sys2Proof.Machine.execEnergyRefill s
  | .levelGrant rest => Sys2Proof.Machine.execLevelGrant rest s
  | .boostInterval => Sys2Proof.Machine.execBoostInterval s
  | .boostRefill => Sys2Proof.Machine.execBoostRefill s
  | .lookoutTick => Sys2Proof.Machine.execLookoutTick s
  | .lookoutExpiry part queue => Sys2Proof.Machine.execLookoutExpiry part queue s
  | .katbThreshold core => Sys2Proof.Machine.execKatbThreshold core s
  | .katCheck core pass => Sys2Proof.Machine.execKatCheck core pass s
  | .counterPublish => Sys2Proof.Machine.execCounterPublish s
  | .patrolRead addr => Sys2Proof.Machine.execPatrolRead addr s
  | .phaseCancel core slot => Sys2Proof.Machine.execPhaseCancel core slot s
  | .contextError core slot => Sys2Proof.Machine.execContextError core slot s
  | .takeRecord die => Sys2Proof.Machine.execTakeRecord die s
  | .supervisorRestart die => Sys2Proof.Machine.execSupervisorRestart die s
  | .prst v => Sys2Proof.Machine.execPrst v s
  | .resetDrainExpiry => Sys2Proof.Machine.execResetDrainExpiry s
  | .partitionResetComplete => Sys2Proof.Machine.execPartitionResetComplete s
  | .cpart v => Sys2Proof.Machine.execCpart v s
  | .scrubComplete core => Sys2Proof.Machine.execScrubComplete core s
  | .frown v => Sys2Proof.Machine.execFrown v s
  | .frameReassignComplete k => Sys2Proof.Machine.execFrameReassignComplete k s
  | .frg v => Sys2Proof.Machine.execFrg v s
  | .keyb v => Sys2Proof.Machine.execKeyb v s
  | .keyn v => Sys2Proof.Machine.execKeyn v s
  | .rslot v => Sys2Proof.Machine.execRslot v s
  | .flpg v => Sys2Proof.Machine.execFlpg v s
  | .ecap v => Sys2Proof.Machine.execEcap v s
  | .plmaps v => Sys2Proof.Machine.execPlmaps v s
  | .pwsh v => Sys2Proof.Machine.execPwsh v s
  | .eadj v => Sys2Proof.Machine.execEadj v s
  | .cstat v => Sys2Proof.Machine.execCstat v s
  | .dlbase v => Sys2Proof.Machine.execDlbase v s
  | .dltail v => Sys2Proof.Machine.execDltail v s
  | .registerWrite target v => Sys2Proof.Machine.execRegisterWrite target v s
  | .gateGrant core => Sys2Proof.Machine.execGateGrant core s
  | .coreWake core => Sys2Proof.Machine.execCoreWake core s
  | .objectDestruction part id => Sys2Proof.Machine.execObjectDestruction part id s
  | .linkFailure k => Sys2Proof.Machine.execLinkFailure k s
  | .trellisInstructionEnd p => Sys2Proof.Machine.execTrellisInstructionEnd p s
  | .weightStoreWriteComplete p => Sys2Proof.Machine.execWeightStoreWriteComplete p s
  | .keyManifestLoad k => Sys2Proof.Machine.execKeyManifestLoad k s
  | .firmwareImageLoad imm => Sys2Proof.Machine.execFirmwareImageLoad imm s

end Sys2Proof.Machine
end

