-- ==== Sys2Proof/Machine/Turns.lean ====
section
/-! DEFINITION. Turns: what a step does once it is known who moves next. A party issues its word, in lock-step its bundle
(R264); an event of the table occurs; time passes (R65); the environment acts. -/

namespace Sys2Proof.Machine

/-! ## A party issues -/

/-- A party of the machine (R12, R15, R258). -/
def isParty (p : PartyId) : Bool := decide (p.core < 272) && decide (p.slot < 2) && (decide (p.slot = 0) || !isSystem p.core)

/-- The check bits of the word that a party fetches (R345); none for an uncorrectable error, which the fetch consumes
(R346). -/
def fetchCheck (s : State) (p : PartyId) : Option State :=
  let o := (s.party p).pc.toNat
  if imemSize p < o + 4 then some s else checkWords s (dieOf p.core) (wordsOf (imemPhys s p o) 4)

/-- The word at a party's pc runs as that party's: an unassigned one traps (R47). -/
def runWord (s : State) (p : PartyId) : Host.Outcome State Fault Refusal :=
  asParty s p (fun s =>
    match instrAt s p s.me.pc.toNat with
    | some i => exec i s
    | none => conclude s 0 0 (.trap causeIllegal s.curWord))

/-- Whether a party waits for an event that is not its own turn. -/
def parked (x : PartyState) : Bool :=
  match x.wait with
  | .load | .asleep _ _ => true
  | _ => false

/-- A party alone: a push that waits, a feed that goes on, or the next word, an engine's once every access of the last one is
performed (R209). A command in progress ends by its event; a collective instruction that has received everything tries to end. -/
def issueAlone (s : State) (p : PartyId) : Host.Outcome State Fault Refusal :=
  let x := s.party p
  if x.push.isSome then asParty s p (fun s => .next (finishPush s))
  else if !p.party.isWing && decide (x.view.late ≠ []) then .next s
  else
    match x.busy with
    | some (.feed c second n, w, g) => asParty s p (fun s => conclude s w g (feedStep s c second n))
    | some (.trellisFeed r b n, w, g) => asParty s p (fun s => conclude s w g (trellisFeedStep s r b n))
    | some (.coll c, w, g) =>
      if c.kind ≠ 8 ∧ wanted c ≤ c.got.length then asParty s p (fun s => conclude s w g (collStep s c)) else .next s
    | some _ => .next s
    | none =>
      match fetchCheck s p with
      | some t => runWord t p
      | none => .next (consume s p.core p.slot)

/-! ## Lock-step (R264) -/

/-- How far a bundle has come: the state after its words so far, the first wing whose word traps with the state that it leaves,
whether a word waits, and the objects that its waiting words have reclaimed (R327). -/
structure Bundle where
  state : State
  trap : Option (PartyId × State) := none
  waits : Bool := false
  victims : List (Nat × Obj) := []

/-- The objects that a word has destroyed, as they were before it. -/
def destroyed (s t : State) : List (Nat × Obj) :=
  s.objects.filter (fun e => e.2.live && (match seek t.objects e.1 with | some o => o.draining | none => false))

/-- Whether a word is a WFREE in word 0, behind which its bundle is not executed in lock-step (R265). -/
def endsBundle (s : State) (p : PartyId) : Bool :=
  decide (p.party = .w0) && (match instrAt s p (s.party p).pc.toNat with | some (.wfree _ _) => true | _ => false)

/-- The words of a bundle in turn (R264). (Log 35 DEDUCED.) -/
def runBundle (core slot : Nat) : List Party → Bundle → Except Fault Bundle
  | [], b => .ok b
  | w :: ws, b =>
    let p : PartyId := ⟨core, slot, w⟩
    match runWord b.state p with
    | .next t =>
      if t.last = .trapped then .ok { b with state := t, trap := some (p, t) }
      else
        let waits := decide (t.last = .waiting)
        let next : Bundle :=
          { b with state := t, waits := b.waits || waits, victims := if waits then b.victims ++ destroyed b.state t else b.victims }
        if endsBundle b.state p then .ok next else runBundle core slot ws next
    | .fault f => .error f
    | .refused _ => .ok { b with waits := true }

/-- The mark of waiting that a word of a bundle leaves when the bundle does not retire. -/
def waitMark (old new : Wait) : Wait :=
  match old with
  | .bar g true => .bar g true
  | .step true => .step true
  | .phase n true => .phase n true
  | _ =>
    match new with
    | .bar g _ => .bar g false
    | .step _ => .step false
    | .phase n _ => .phase n false
    | _ => .no

/-- An object that a waiting word of a bundle has reclaimed is destroyed, though the bundle has not retired (R327). -/
def reclaimWaiting (s : State) (e : Nat × Obj) : State :=
  if (s.objects.contains e) && decide (e.2.count = 0) && !objPinned s e.2 then
    destroyVictim s (e.1 / 2 ^ 24, e.1 % 2 ^ 24, e.2)
  else s

/-- A bundle that does not retire leaves its marks of waiting, and the error that a word of it has met. -/
def keepMarks (s t : State) (core slot : Nat) : State :=
  let s1 := wings.foldl (fun u w =>
    u.modParty ⟨core, slot, w⟩ (fun x => { x with wait := waitMark x.wait (t.party ⟨core, slot, w⟩).wait })) s
  let x := t.ctx core slot
  (s1.modCtx core slot (fun c => { c with dying := x.dying, cancel := x.cancel, disturbed := x.disturbed })).setLast .waiting

/-- A bundle: it retires whole; a word that traps leaves no word an effect; a word that waits makes the bundle wait
(R264). -/
def issueBundle (s : State) (core slot : Nat) : Host.Outcome State Fault Refusal :=
  let ids := wings.map (fun w => (⟨core, slot, w⟩ : PartyId))
  if !ids.all (fun p => alive s p) then .next s
  else
    let ok := ids.foldl (fun (r : Option State) p => match r with | some t => fetchCheck t p | none => none) (some s)
    match ok with
    | none => .next (consume s core slot)
    | some s0 =>
      match runBundle core slot wings ⟨s0, none, false, []⟩ with
      | .error f => .fault f
      | .ok b =>
        match b.trap with
        | some (p, u) => let x := u.party p; .next (takeTrap { s0 with fresh := u.fresh } p x.tcause.toNat x.tval)
        | none =>
          if b.waits then .next (keepMarks (b.victims.foldl reclaimWaiting s0) b.state core slot)
          else .next (if (b.state.ctx core slot).sh.lock then syncWings b.state core slot else b.state)

/-- Whether a party's turn would run w0's next word of a system core while a record is there for it to take (R351). -/
def recordFirst (s : State) (p : PartyId) : Bool :=
  let w := w0Of (dieOf p.core)
  decide (p.core = w.core) && decide (p.slot = 0) &&
  (decide (p.party = .w0) || ((s.ctx w.core 0).sh.lock && p.party.isWing)) && takesRecord s (dieOf p.core)

/-- A party's turn (R251): nothing where it cannot go on by itself. A pending record comes before w0's next word (R351). -/
def issue (s : State) (p : PartyId) : Host.Outcome State Fault Refusal :=
  if isParty p && recordFirst s p then .next (takeRecord s (dieOf p.core))
  else if !(isParty p && alive s p) || parked (s.party p) then .next s
  else if (s.ctx p.core p.slot).sh.lock && p.party.isWing then issueBundle s p.core p.slot
  else issueAlone s p

/-- Whether the next accesses of a party may go behind the present, or be performed later (R190, R193): a wing's plain loads and
stores and its LDA and LDC, and what an engine does; not behind a token that the word pops. -/
def mayGoBehind (s : State) (p : PartyId) : Bool :=
  let x := s.party p
  let word := wordAt s p x.pc.toNat
  if p.party.isWing then
    (match instrAt s p x.pc.toNat with
     | some (.ldb w _ _ _ _) | some (.ldh w _ _ _ _) | some (.ldw w _ _ _ _) | some (.ldd w _ _ _ _) | some (.ldbu w _ _ _ _)
     | some (.ldhu w _ _ _ _) | some (.ldwu w _ _ _ _) | some (.lda w _ _ _ _) | some (.ldc w _ _ _ _) | some (.stb w _ _ _ _)
     | some (.sth w _ _ _ _) | some (.stw w _ _ _ _) | some (.std w _ _ _ _) => decide (w = 0)
     | _ => false)
  else x.busy.isSome || !word.getLsbD 31 || decide (bits word.toNat 30 29 = 0)

/-- The parties whose words a party's turn runs: in lock-step all wings (R264). -/
def movesWith (s : State) (p : PartyId) : List PartyId :=
  if (s.ctx p.core p.slot).sh.lock && p.party.isWing then wings.map (fun w => ⟨p.core, p.slot, w⟩) else [p]

/-- A party's turn, its accesses up to `n` writes behind the present or left for later (log 2 DESIGN CHOICE): it issues, or its
copy or trellis command goes on. -/
def early (s : State) (p : PartyId) (n : Nat) : Host.Outcome State Fault Refusal :=
  if !isParty p then .next s
  else
    let t := ((movesWith s p).filter (mayGoBehind s)).foldl (fun t q => withLag t q n) s
    let r := match (s.party p).busy with
      | some (.copy _, _, _) => execCopyChunkComplete p t
      | some (.trellis _ _ _, _, _) => execTrellisInstructionEnd p t
      | _ => issue t p
    match r with
    | .next u => .next ((movesWith s p).foldl (fun t q => withLag t q 0) u)
    | o => o

/-! ## Events -/

/-- Whether an event of the table can occur by itself, its numbers being those of parts of the machine. Words are issued by
parties, and the writes of supervisor registers are MTS words (R62). -/
def occursAlone : Instr → Bool
  | .mwaitWake p | .copyChunkComplete p | .entryBegin p | .markRetire p | .notifyRetire p | .waitevTimeout p
  | .trellisInstructionEnd p | .weightStoreWriteComplete p => isParty p
  | .superstepAdvance part queue | .launchHead part queue | .interruptCoalesceExpiry part queue | .lookoutExpiry part queue =>
    decide (part < 64) && decide (queue < 32)
  | .qfenceJoinRelease core slot | .taskCompletion core slot | .preemption core slot | .phaseCancel core slot
  | .contextError core slot => decide (core < 272) && decide (slot < 2)
  | .vqEntryArrival core | .runComplete core | .mldcComplete core | .drainComplete core | .taskStart core | .taskResume core
  | .katbThreshold core | .katCheck core _ | .scrubComplete core | .gateGrant core | .coreWake core => decide (core < 272)
  | .hostAccess fn _ | .qwp fn _ _ | .qcfg fn _ _ | .qbase fn _ _ | .qcpl fn _ _ | .qstat fn _ _ => decide (fn ≤ 64)
  | .takeRecord die | .supervisorRestart die => decide (die < 16)
  | .preemptWaitExpiry part | .objectDestruction part _ => decide (part < 64)
  | .registerWrite (.sysreg _) _ => false
  | .registerWrite _ _ => true
  | .collectiveMessageArrival _ | .flagMessageArrival _ | .powerGood _ | .flitCrcError | .remoteWriteArrival _
  | .remoteLoadArrival _ | .fabricMemoryRequest _ _ | .fabricLaunchPacket _ | .atgo _ | .residencyReport | .energyTick _
  | .energyRefill | .levelGrant _ | .boostInterval | .boostRefill | .lookoutTick | .counterPublish | .patrolRead _
  | .resetDrainExpiry | .partitionResetComplete | .frameReassignComplete _ | .linkFailure _ | .keyManifestLoad _
  | .firmwareImageLoad _ => true
  | _ => false

/-! ## Time -/

/-- The next moment at which a periodic event is due (log 8 DESIGN CHOICE). -/
def nextDue (d : Due) : Nat :=
  [d.refill, d.grant, d.interval, d.pool, d.lookout, d.publish, d.report].foldl min d.energy

/-- Busy time of a core (R361): whole microseconds in which a task is resident and not pre-empted. (Log 62 DEDUCED.) -/
def countBusy (s : State) (us : Nat) : State :=
  if us = 0 then s
  else
    ((residents s).map (fun e => (e.1, e.2.1))).foldl (fun t e =>
      if (s.ctx e.1 e.2).halting || isSystem e.1 || (decide (e.2 = 1) && (s.ctx e.1 0).task.isSome && !(s.ctx e.1 0).halting) then t
      else t.modCore e.1 (fun c => { c with katb := BitVec.ofNat 32 (min (c.katb.toNat + us) (2 ^ 32 - 1)) })) s

/-- How long a launch has waited at effective priority 0 in a span of time, from its last hand-out on (R255, R283): the count
pauses while no core of its partition holds a task of another launch. -/
def waitedIn (s : State) (part : Nat) (l : Launch) (ns : Nat) : Nat :=
  if (slotsOf s part).any (fun e => decide (e.2.2.launch ≠ l.id)) then
    s.time + ns - max s.time (l.headAt + l.prio * 250000)
  else 0

/-- Time passes by at most `ns`, not beyond the next moment at which a periodic event is due. -/
def passTime (s : State) (ns : Nat) : State :=
  let d := min ns (nextDue s.due - s.time)
  let qs := s.queues.map (fun e =>
    (e.1, { e.2 with head := e.2.head.map (fun l => { l with waited := l.waited + waitedIn s (e.1 / 32) l d }) }))
  { countBusy { s with queues := qs } ((s.time + d) / 1000 - s.time / 1000) with time := s.time + d }

/-! ## The environment -/

/-- Bits of a protected word of the module flip (R345); memory of a host is none of it. -/
def flipWord (s : State) (addr flipped : Nat) : State :=
  if inHost addr then s else
  let z := protectedSize addr
  let a := addr / z * z
  let v := (look 0 s.flips a) ^^^ (flipped % 2 ^ (8 * z))
  { s with flips := if v = 0 then drop s.flips a else put s.flips a v }

/-- A scalar register of a party takes an error of two bits (R345). -/
def spoilScalar (s : State) (p : PartyId) (n : Nat) : State :=
  if n < 64 then s.modParty p (fun x => { x with spoilt := setBit x.spoilt n true }) else s

/-- An entry of a vector register of a party takes an error of two bits (R345). -/
def spoilVector (s : State) (p : PartyId) (n k : Nat) : State :=
  match seek (s.party p).v n with
  | some es => s.modParty p (fun x => { x with v := put x.v n (es.modify k (fun e => { e with bad := true })) })
  | none => s

/-- An entry of a core's vertical FIFO takes an error of two bits (R345). -/
def spoilVertical (s : State) (core k : Nat) : State :=
  if core < 272 then s.modCore core (fun c => { c with vin := c.vin.modify k (fun e => { e with bad := true }) }) else s

/-- An entry of a core's operand FIFO A, or of FIFO B, takes an error of two bits (R345). -/
def spoilOperand (s : State) (core : Nat) (second : Bool) (k : Nat) : State :=
  let spoil := fun (es : List FEntry) => es.modify k (fun e => { e with bad := true })
  if core < 272 then
    s.modCore core (fun c => if second then { c with fifoB := spoil c.fifoB } else { c with fifoA := spoil c.fifoA })
  else s

/-- A suffix memory takes an error of two bits (R345). -/
def spoilSuffix (s : State) (n : Nat) : State :=
  match seek s.suffixes n with
  | some x => setSuffix s n { x with bad := true }
  | none => s

/-- Bytes that no access of the model moves are counted on a shared resource (R332): a Hamper's stacked DRAM, a die's ring, the
fabric ports. (Log 30 DESIGN CHOICE.) -/
def countBytes (s : State) (unit index n : Nat) : State :=
  match unit with
  | 0 => if index < 8 then s.modHamper index (fun h => { h with dram := { h.dram with exact := h.dram.exact + word n } }) else s
  | 1 => if index < 16 then s.modDie index (fun d => { d with ring := { d.ring with exact := d.ring.exact + word n } }) else s
  | 2 => { s with fabric := { s.fabric with exact := s.fabric.exact + word n } }
  | _ => s

/-- A task's Lookout count does not advance in this microsecond (R366). -/
def disturb (s : State) (core slot : Nat) : State :=
  if core < 272 ∧ slot < 2 then s.modCtx core slot (fun c => { c with disturbed := true }) else s

/-- The report that a message of a task, matched on another device, was matched wrongly (R244): the task ends, wherever it is now. -/
def matchedWrongly (s : State) (p : PartyId) (serial : Nat) : State :=
  endSerial s (dieOf p.core) p.core serial errCollective

/-- The supervisor assigns a row page to a partition, at a page of its paged space (R289); a page that is assigned stays where it is
(log 116 DESIGN CHOICE). What the page of the paged space led to before, it no longer leads to (log 133 DESIGN CHOICE). -/
def assignPage (s : State) (part page va : Nat) : State :=
  if part < 64 ∧ page < 32 ∧ va < weightBase ∧ (s.pages.all (fun e => decide (e.2 ≠ .rowPage page))) = true then
    { s with pages := put s.pages (part * 2 ^ 44 + va / 65536) (.rowPage page) }
  else s

/-- Whoever moves next, moves. -/
def play (t : Turn) (s : State) : Host.Outcome State Fault Refusal :=
  match t with
  | .issue p => issue s p
  | .occur i => if occursAlone i then exec i s else .next s
  | .pass ns => .next (passTime s ns)
  | .flip a b => .next (flipWord s a b)
  | .early p n => early s p n
  | .perform p k => .next (if isParty p then performLate s p k else s)
  | .corrected d => .next (if d < 16 then s.modDie d (fun x => { x with cecnt := x.cecnt + 1 }) else s)
  | .spoilScalar p n => .next (if isParty p then spoilScalar s p n else s)
  | .spoilVector p n k => .next (if isParty p then spoilVector s p n k else s)
  | .spoilVertical core k => .next (spoilVertical s core k)
  | .spoilOperand core second k => .next (spoilOperand s core second k)
  | .spoilSuffix n => .next (spoilSuffix s n)
  | .traffic u i n => .next (countBytes s u i n)
  | .bringUp => .next (bringUp s)
  | .withhold core slot => .next (if throttled s core slot then disturb s core slot else s)
  | .holdBack core slot => .next (disturb s core slot)
  | .assignRows p g va => .next (assignPage s p g va)
  | .setTenant r v => .next (if r < 16384 then rowPut s r 8 1 (v % 256) else s)
  | .receive m => .next (receiveMsg s m)
  | .answer p refused => if isParty p then answerFlag s p none refused else .next s
  | .mismatched p serial => .next (matchedWrongly s p serial)
  | .setAside f true => .next (if s.aside.contains f then s else { s with aside := f :: s.aside })
  | .setAside f false => .next { s with aside := s.aside.filter (fun g => g != f) }

/-- Who moves next: the head of the plan, or where there is none whom `Config.turn` names (log 1 DESIGN CHOICE). Gates that can
be granted are granted before anything else happens (R250). -/
def nextTurn (s : State) : Turn × State :=
  let g := grantGates s
  match s.plan with
  | t :: rest => (t, { g with plan := rest, tick := s.tick + 1 })
  | [] => (Sys2Proof.Config.turn s.tick, { g with tick := s.tick + 1 })

/-! ## Placing a word -/

/-- The party that runs a word of a map, when the word is placed for it: w0 of die 0's system core for a wing's word, the
party of that kind of core 0 for another's. -/
def partyFor : Kind → PartyId
  | .wing => ⟨16, 0, .w0⟩
  | .matrix => ⟨0, 0, .m⟩
  | .vector => ⟨0, 0, .v⟩
  | .copy => ⟨0, 0, .x⟩
  | .collective => ⟨0, 0, .c⟩
  | .swallowtail => ⟨0, 0, .s⟩

/-- The party for which a word is placed: that of the first map that reads it. -/
def placedFor (x : IWord) : PartyId :=
  match firstKind x kindOrder with
  | some (k, _) => partyFor k
  | none => partyFor .wing

/-- A word stored where its party fetches, the party running, and its turn next (log 6 DESIGN CHOICE). -/
def placeWord (s : State) (x : IWord) : State :=
  let p := placedFor x
  let y := s.party p
  let a := imemPhys s p y.pc.toNat
  { s.setParty p { y with run := .running } with mem := writeBytes s.mem a (bytesOfWord x), plan := [.issue p] }

end Sys2Proof.Machine
end

