-- ==== Sys2Proof/Machine/Step.lean ====
section
/-! DEFINITION. The step: whoever is next moves (R251, R387). -/

namespace Sys2Proof.Machine

/-- One step of the machine. -/
def step (s : State) : Host.Outcome State Fault Refusal :=
  let (t, s1) := nextTurn s
  play t s1

/-- The machine with an instruction stored where the next step fetches it, and that party's turn next (log 6 DESIGN CHOICE). -/
def State.withFetchWord (s : State) (nbits w : Nat) : State := placeWord s (BitVec.ofNat 32 (w % 2 ^ nbits))

end Sys2Proof.Machine
end

