-- ==== Sys2Proof/Safety.lean ====
section
/-! DEFINITION. What claims mean by a good state and a safe run: the memory's canonical form, and steps that neither fault
nor refuse. -/

namespace Sys2Proof.Machine

/-- The invariant of every step: the memory keeps its canonical form. -/
def State.Inv (s : State) : Prop := Memory.wf s.mem = true

/-- A step that goes on. -/
def goes (s t : State) : Prop := step s = .next t

/-- The states that steps reach. -/
inductive Reaches : State → State → Prop where
  | refl (s : State) : Reaches s s
  | tail (s t u : State) : Reaches s t → goes t u → Reaches s u

/-- A state from which no run faults or refuses. -/
def Safe (s : State) : Prop := ∀ t, Reaches s t → ∃ u, step t = .next u

/-! ## The terms of the statements -/

/-- The executing party may run a private-half word of map `k` with tokens `w` and `g` now: its map is `k`, both queues are
bound, the wait token is there, there is room for the signal token, and nothing is under way that the token must follow. -/
def Ready (s : State) (k : Kind) (w g : B2) : Prop :=
  s.cur.party.map = k ∧ bound s w = true ∧ bound s g = true ∧ hasToken s.me w = true ∧ pushFull s g = false ∧
  (g ≠ 0 → scratchLate s s.cur = false ∧ drainsOut s = false)

/-- The accesses of the executing party go to the present, and nothing that it or another party of its core has stored is still
to be performed (log 2 DESIGN CHOICE). -/
def Present (s : State) : Prop := s.me.view.lag = 0 ∧ s.me.view.late = [] ∧ lateParties s s.cur.core = []

/-- The registers that an instruction names exist in the executing party (R48, R107). -/
def namesRegs (s : State) (rs : List B6) : Prop := s.cur.party.isWing = true ∨ ∀ r ∈ rs, r.toNat < 32

/-- The executing party's word retires with `v` in register `d`, tainted or not, and the party moves on past it. -/
def writes (s : State) (d : B6) (v : Word) (taint : Bool) : Host.Outcome State Fault Refusal :=
  .next (retire (s.setReg d.toNat v taint) 0 1)

/-- Every byte of memory reads in `t` as in `s`. -/
def sameMemory (s t : State) : Prop := ∀ a, readByte t.mem a = readByte s.mem a

end Sys2Proof.Machine
end

