-- ==== Sys2Proof/Certificates/Slice0/Obligations.lean ====
section
/-! DEFINITION. The statements for the provers, in the terms of `Safety`: what each instruction and event of the machine
does, what it leaves unchanged, and what holds of every step. A statement of several parts is the conjunction of the named
claims above it. -/

open Sys2Proof Sys2Proof.Machine

/-! ## Arithmetic (R107–R113) -/

/-- The instruction issues and retires, leaving `r` before its signal token and its pc. -/
def Sys2Proof.Machine.completes (i : Instr) (s : State) (w g : B2) (r : State) : Prop :=
  exec i s = .next (retire (popToken r w) g 1)

/-- R108: each register-register and one-source instruction completes, with the result that the table gives, tainted if a
source is. -/
def Sys2Proof.Claims.RegisterArithmeticResults : Prop :=
  ∀ (s : State) (d a b : B6), namesRegs s [d, a, b] →
    let x := s.reg a.toNat
    let y := s.reg b.toNat
    let n := y.toNat % 64
    let t := s.tainted a.toNat || s.tainted b.toNat
    exec (.add d a b) s = writes s d (BitVec.ofNat 64 (x.toNat + y.toNat)) t ∧
    exec (.sub d a b) s = writes s d (BitVec.ofInt 64 (x.toNat - y.toNat)) t ∧
    exec (.and d a b) s = writes s d (x &&& y) t ∧
    exec (.or d a b) s = writes s d (x ||| y) t ∧
    exec (.xor d a b) s = writes s d (x ^^^ y) t ∧
    exec (.shl d a b) s = writes s d (BitVec.ofNat 64 (x.toNat * 2 ^ n)) t ∧
    exec (.shr d a b) s = writes s d (BitVec.ofNat 64 (x.toNat / 2 ^ n)) t ∧
    exec (.sar d a b) s = writes s d (BitVec.ofInt 64 (x.toInt / 2 ^ n)) t ∧
    exec (.mul d a b) s = writes s d (BitVec.ofInt 64 (x.toInt * y.toInt)) t ∧
    exec (.mulh d a b) s = writes s d ((BitVec.ofInt 128 (x.toInt * y.toInt)).extractLsb' 64 64) t ∧
    exec (.mulhu d a b) s = writes s d ((BitVec.ofNat 128 (x.toNat * y.toNat)).extractLsb' 64 64) t ∧
    exec (.min d a b) s = writes s d (if x.toInt ≤ y.toInt then x else y) t ∧
    exec (.max d a b) s = writes s d (if x.toInt ≤ y.toInt then y else x) t ∧
    exec (.minu d a b) s = writes s d (if x.toNat ≤ y.toNat then x else y) t ∧
    exec (.maxu d a b) s = writes s d (if x.toNat ≤ y.toNat then y else x) t ∧
    exec (.slt d a b) s = writes s d (if x.toInt < y.toInt then 1 else 0) t ∧
    exec (.sltu d a b) s = writes s d (if x.toNat < y.toNat then 1 else 0) t

/-- R108 and R109: division and remainder complete on every operand; a divisor of 0 gives all ones and the dividend. -/
def Obligations.DivisionNeverTraps : Prop :=
  ∀ (s : State) (d a b : B6), namesRegs s [d, a, b] →
    let x := s.reg a.toNat
    let y := s.reg b.toNat
    let t := s.tainted a.toNat || s.tainted b.toNat
    exec (.div d a b) s = writes s d (if y = 0 then BitVec.allOnes 64 else BitVec.ofInt 64 (x.toInt.tdiv y.toInt)) t ∧
    exec (.divu d a b) s = writes s d (if y = 0 then BitVec.allOnes 64 else BitVec.ofNat 64 (x.toNat / y.toNat)) t ∧
    exec (.rem d a b) s = writes s d (if y = 0 then x else BitVec.ofInt 64 (x.toInt - y.toInt * x.toInt.tdiv y.toInt)) t ∧
    exec (.remu d a b) s = writes s d (if y = 0 then x else BitVec.ofNat 64 (x.toNat % y.toNat)) t ∧
    (x.toInt = -2 ^ 63 → y.toInt = -1 →
      exec (.div d a b) s = writes s d x t ∧ exec (.rem d a b) s = writes s d 0 t)

/-- R108: CLZ counts the zero bits above the highest one bit (64 for 0), POPC the one bits. -/
def Sys2Proof.Claims.BitCounts : Prop :=
  ∀ (s : State) (d a : B6), namesRegs s [d, a] →
    let x := s.reg a.toNat
    exec (.clz d a) s = writes s d (if x = 0 then 64 else BitVec.ofNat 64 (63 - Nat.log2 x.toNat)) (s.tainted a.toNat) ∧
    exec (.popc d a) s =
      writes s d (BitVec.ofNat 64 ((List.range 64).filter (fun i => x.getLsbD i)).length) (s.tainted a.toNat)

/-- R110–R113: the immediate forms, LUI, ADDPC and AGEN complete with their results; what reads no register clears the
taint. -/
def Obligations.ImmediateArithmeticResults : Prop :=
  ∀ (s : State) (d a b : B6) (i : BitVec 13) (n : BitVec 6) (u : BitVec 19) (h : BitVec 4), namesRegs s [d, a, b] →
    let x := s.reg a.toNat
    let y := s.reg b.toNat
    let j : Word := i.signExtend 64
    let t := s.tainted a.toNat
    exec (.addi d a i) s = writes s d (x + j) t ∧
    exec (.andi d a i) s = writes s d (x &&& j) t ∧
    exec (.ori d a i) s = writes s d (x ||| j) t ∧
    exec (.xori d a i) s = writes s d (x ^^^ j) t ∧
    exec (.slti d a i) s = writes s d (if x.toInt < i.toInt then 1 else 0) t ∧
    exec (.sltiu d a i) s = writes s d (if x.toNat < j.toNat then 1 else 0) t ∧
    exec (.shli d a n) s = writes s d (BitVec.ofNat 64 (x.toNat * 2 ^ n.toNat)) t ∧
    exec (.shri d a n) s = writes s d (BitVec.ofNat 64 (x.toNat / 2 ^ n.toNat)) t ∧
    exec (.sari d a n) s = writes s d (BitVec.ofInt 64 (x.toInt / 2 ^ n.toNat)) t ∧
    exec (.lui d u) s = writes s d ((BitVec.ofNat 32 (u.toNat * 2 ^ 13)).signExtend 64) false ∧
    exec (.addpc d u) s = writes s d (BitVec.ofInt 64 (s.me.pc.toNat + 4 * u.toInt)) false ∧
    exec (.agen d a b h) s =
      writes s d (BitVec.ofNat 64 (x.toNat + y.toNat * 2 ^ h.toNat)) (s.tainted a.toNat || s.tainted b.toNat)

/-- The destination of a scalar instruction of R107–R113. -/
def Sys2Proof.Machine.scalarDest : Instr → Option B6
  | .add d _ _ | .sub d _ _ | .and d _ _ | .or d _ _ | .xor d _ _ | .shl d _ _ | .shr d _ _ | .sar d _ _ | .mul d _ _
  | .mulh d _ _ | .mulhu d _ _ | .div d _ _ | .divu d _ _ | .rem d _ _ | .remu d _ _ | .min d _ _ | .max d _ _
  | .minu d _ _ | .maxu d _ _ | .slt d _ _ | .sltu d _ _ | .clz d _ | .popc d _ | .addi d _ _ | .andi d _ _ | .ori d _ _
  | .xori d _ _ | .slti d _ _ | .sltiu d _ _ | .shli d _ _ | .shri d _ _ | .sari d _ _ | .lui d _ | .addpc d _
  | .agen d _ _ _ => some d
  | _ => none

/-- What a trap may change of a party: the exception registers, held, the mark of waiting (R347). -/
def Sys2Proof.Machine.trapFrame (x y : PartyState) : Prop :=
  y = { x with tcause := y.tcause, tpc := y.tpc, tval := y.tval, tstat := y.tstat, held := y.held, wait := y.wait }

/-- The frame of the scalar instructions. Every byte of memory, every register but the destination, and every other party
are as before, whether the instruction retires or traps, apart from the order of the party's accesses; a trap changes no register
at all. -/
def Obligations.ScalarFrame : Prop :=
  ∀ (i : Instr) (d : B6) (s t : State), scalarDest i = some d → exec i s = .next t →
    sameMemory s t ∧
    (t.last = .retired ∧
        t = { s with parties := t.parties, last := .retired } ∧
        (∀ q, partyKey q ≠ partyKey s.cur → t.party q = s.party q) ∧
        (∀ e, e ≠ d.toNat → t.reg e = s.reg e ∧ (e < 64 → t.tainted e = s.tainted e ∧
          t.me.spoilt.getLsbD e = s.me.spoilt.getLsbD e)) ∧
        t.me = { s.me with regs := t.me.regs, taint := t.me.taint, spoilt := t.me.spoilt, pc := t.me.pc, ls := t.me.ls, order := t.me.order,
                           repc := t.me.repc, wait := .no, busy := none, view := t.me.view }
      ∨ t.last = .trapped ∧
        t = { s with parties := t.parties, ctxs := t.ctxs, dies := t.dies, last := .trapped } ∧
        (∀ q, trapFrame (s.party q) (t.party q)))

/-! ## Moving past a word (R45, R266–R270) -/

/-- R268, R269: a word that retires without a transfer, outside lock-step: with repetitions left the party stays at the
word; otherwise, where no active loop ends there, it goes on four bytes further; an active loop that ends there and has
iterations left, being the innermost, sends it round, and without iterations left it stops. -/
def Sys2Proof.Claims.RetiringMovesThePc : Prop :=
  ∀ (s : State), s.inLock = false → s.me.pc.toNat + 4 < 2 ^ 64 →
    let x := s.me
    let t := retire s 0 1
    t.last = .retired ∧ t.me.regs = x.regs ∧ t.mem = s.mem ∧
    (2 ≤ x.repc.toNat → t.me.pc = x.pc ∧ t.me.repc = x.repc - 1 ∧ t.me.ls = x.ls ∧ t.me.order = x.order) ∧
    (x.repc.toNat < 2 → (∀ l ∈ x.order, lsEnd (look 0 x.ls l) ≠ x.pc.toNat / 4) →
      t.me.pc = x.pc + 4 ∧ t.me.repc = 0 ∧ t.me.ls = x.ls ∧ t.me.order = x.order) ∧
    (∀ l rest, x.repc.toNat < 2 → x.order = l :: rest → lsEnd (look 0 x.ls l) = x.pc.toNat / 4 →
      2 ≤ lsLeft (look 0 x.ls l) →
      t.me.pc = BitVec.ofNat 64 (4 * lsStart (look 0 x.ls l)) ∧ t.me.order = x.order ∧
      lsLeft (look 0 t.me.ls l) = lsLeft (look 0 x.ls l) - 1) ∧
    (∀ l, x.repc.toNat < 2 → x.order = [l] → lsEnd (look 0 x.ls l) = x.pc.toNat / 4 →
      lsLeft (look 0 x.ls l) = 1 →
      t.me.pc = x.pc + 4 ∧ t.me.order = [] ∧ lsActive (look 0 t.me.ls l) = false)

/-- The executing party is at byte offset `p` after a transfer, its registers and all memory as before. -/
def Sys2Proof.Machine.arrives (i : Instr) (s : State) (p : Int) : Prop :=
  ∃ t, exec i s = .next t ∧ t.last = .transferred ∧ t.me.pc = BitVec.ofInt 64 p ∧ t.me.regs = s.me.regs ∧ t.mem = s.mem

/-- R266: a branch whose comparison holds transfers to its target; one whose comparison fails retires like any word. -/
def Sys2Proof.Claims.BranchesCompareAndTransfer : Prop :=
  ∀ (s : State) (a b : B6) (o : BitVec 13), namesRegs s [a, b] → (s.inLock = true → s.cur.party = .w0) →
    let x := s.reg a.toNat
    let y := s.reg b.toNat
    let p := (s.me.pc.toNat : Int) + 4 * o.toInt
    let takes := fun (i : Instr) (c : Prop) =>
      (c → 0 ≤ p → p < imemSize s.cur → (s.inLock = true → p % 16 = 0) → arrives i s p) ∧
      (¬c → exec i s = .next (retire s 0 1))
    takes (.beq a b o) (x = y) ∧ takes (.bne a b o) (x ≠ y) ∧
    takes (.blt a b o) (x.toInt < y.toInt) ∧ takes (.bge a b o) (y.toInt ≤ x.toInt) ∧
    takes (.bltu a b o) (x.toNat < y.toNat) ∧ takes (.bgeu a b o) (y.toNat ≤ x.toNat)

/-- R267: JMP, JAL and JR transfer; JAL leaves the link in s63 of a wing and s31 of another party. -/
def Sys2Proof.Claims.JumpsTransfer : Prop :=
  ∀ (s : State) (a : B6) (o : BitVec 25) (i : BitVec 13), namesRegs s [a] → (s.inLock = true → s.cur.party = .w0) →
    let legal := fun (p : Int) => 0 ≤ p ∧ p < imemSize s.cur ∧ (s.inLock = true → p % 16 = 0)
    let p := (s.me.pc.toNat : Int) + 4 * o.toInt
    let q : Word := s.reg a.toNat + i.signExtend 64
    let link := if s.cur.party.isWing then 63 else 31
    (legal p → arrives (.jmp o) s p) ∧
    (legal p → ∃ t, exec (.jal o) s = .next t ∧ t.last = .transferred ∧ t.me.pc = BitVec.ofInt 64 p ∧
      t.reg link = s.me.pc + (if s.inLock then 16 else 4) ∧ (∀ e, e ≠ link → t.reg e = s.reg e) ∧ t.mem = s.mem) ∧
    (q.toNat % 4 = 0 → legal q.toNat → arrives (.jr a i) s q.toNat)

/-- The instructions that transfer (R51): branches, JMP, JAL, JR, BGONE and SWPT. -/
def Sys2Proof.Machine.mayTransfer : Instr → Bool
  | .beq .. | .bne .. | .blt .. | .bge .. | .bltu .. | .bgeu .. | .jmp .. | .jal .. | .jr .. | .bgone .. | .swpt .. => true
  | _ => false

/-- R266: a transfer, by whichever instruction, turns off exactly the active loops whose body does not contain the target. One of
these words that retires without a transfer turns no loop on: a loop that is active behind it was active before, with the same
first and last word. That SWPT transfers so (R338) is the model's reading (log 103 DEDUCED). -/
def Sys2Proof.Claims.TransferLeavesLoops : Prop :=
  ∀ (i : Instr) (s t : State), mayTransfer i = true → exec i s = .next t → ∀ l,
    let r := look 0 s.me.ls l
    (t.last = .transferred →
      (l ∈ t.me.order ↔ l ∈ s.me.order ∧ 4 * lsStart r ≤ t.me.pc.toNat ∧ t.me.pc.toNat ≤ 4 * lsEnd r) ∧
      (l ∈ s.me.order → l ∉ t.me.order → lsActive (look 0 t.me.ls l) = false) ∧
      (l ∈ t.me.order → look 0 t.me.ls l = r)) ∧
    (t.last = .retired → l ∈ t.me.order → l ∈ s.me.order ∧
      lsStart (look 0 t.me.ls l) = lsStart r ∧ lsEnd (look 0 t.me.ls l) = lsEnd r)

/-- Loop register `k` holds a loop that was started after the one that register `l` last held, ended or not (R268). -/
def Sys2Proof.Machine.startedLater (x : PartyState) (l k : Nat) : Prop :=
  ∃ after before, x.began = after ++ l :: before ∧ l ∉ after ∧ k ∈ after

/-- R268, R264: LOOP and LOOPI set their loop register, start the loop and turn off every loop started after the one that the
register last held, whether or not that one has ended; with a count of 0 they pass over the body. In lock-step word 0 does so, by
bundles. That an ended loop counts is the model's reading (log 15 DEDUCED). -/
def Sys2Proof.Claims.LoopsStart : Prop :=
  ∀ (s : State) (l : B2) (c : B6) (i : BitVec 10) (n : BitVec 13), namesRegs s [c] →
    (s.inLock = true → s.cur.party = .w0 ∧ n.toNat % 4 = 0) → s.me.pc.toNat + 4 * n.toNat < imemSize s.cur → n ≠ 0 →
    let x := s.me
    let pc := x.pc.toNat
    let first := if s.inLock then pc / 4 + 4 else pc / 4 + 1
    let started := fun (j : Instr) (count : Nat) =>
      if count = 0 then exec j s = .next (retire s 0 (n.toNat + 1))
      else ∃ t, exec j s = .next (retire t 0 1) ∧ t.mem = s.mem ∧ t.me.regs = x.regs ∧ t.me.pc = x.pc ∧
        look 0 t.me.ls l.toNat = lsMake first (pc / 4 + n.toNat) count ∧ t.me.order.head? = some l.toNat ∧
        t.me.began.head? = some l.toNat ∧
        (∀ k, k ≠ l.toNat → (k ∈ t.me.order ↔ k ∈ x.order ∧ ¬startedLater x l.toNat k) ∧
          (k ∈ x.order → startedLater x l.toNat k → lsActive (look 0 t.me.ls k) = false) ∧
          (k ∉ x.order ∨ ¬startedLater x l.toNat k → look 0 t.me.ls k = look 0 x.ls k))
    ((s.reg c.toNat).toNat < 2 ^ 32 → started (.loop l c n) (s.reg c.toNat).toNat) ∧
    started (.loopi l i n) i.toNat

/-- R269: REP with a count sets REPC and moves to the repeated word, and with a count of 0 passes over it. LEXIT turns off its loop
and every loop started after the one that its register last held, and keeps those started before; that an ended loop counts is the
model's reading (log 15 DEDUCED). In lock-step word 0 does so. -/
def Sys2Proof.Claims.RepeatAndLeave : Prop :=
  (∀ (s : State) (i : BitVec 10), s.inLock = false →
    (∀ k ∈ s.me.order, 4 * lsEnd (look 0 s.me.ls k) ≠ s.me.pc.toNat) →
    (∀ j, decode s.cur.party.map (wordAt s s.cur (s.me.pc.toNat + 4)) = .ok j → notRepeatable j = false) →
    (i = 0 → exec (.rep i) s = .next (retire s 0 2)) ∧
    (i ≠ 0 → ∃ t, exec (.rep i) s = .next t ∧ t.me.repc = i ∧ t.me.pc = BitVec.ofNat 64 (s.me.pc.toNat + 4) ∧
      t.me.regs = s.me.regs ∧ t.mem = s.mem)) ∧
  ∀ (s : State) (l : B2), (s.inLock = true → s.cur.party = .w0) →
    let stops := fun (k : Nat) => k = l.toNat ∨ startedLater s.me l.toNat k
    ∃ t, exec (.lexit l) s = .next (retire t 0 1) ∧ t.me.regs = s.me.regs ∧ t.me.pc = s.me.pc ∧ t.mem = s.mem ∧
      ∀ k, (k ∈ t.me.order ↔ k ∈ s.me.order ∧ ¬stops k) ∧
        (k ∈ s.me.order → stops k → lsActive (look 0 t.me.ls k) = false) ∧
        (k ∉ s.me.order ∨ ¬stops k → look 0 t.me.ls k = look 0 s.me.ls k)

/-! ## Tokens, NOP, END, TRAP, WAITEV (R63, R272–R276, R347, R353) -/

/-- R273: TOKW pops a token of a bound queue that holds one and waits where it holds none; TOKS pushes one to the peer, whose
count rises and whose EVP.tok is set, where the peer holds fewer than 15, and waits where it holds 15: it has then no effect.
NOP only moves on (R63). -/
def Sys2Proof.Claims.TokensMove : Prop :=
  ∀ (s : State) (k : B2) (p : Party), k ≠ 0 → peerOf s.me k = some p →
    let peer : PartyId := ⟨s.cur.core, s.cur.slot, p⟩
    (tokens s.me k ≠ 0 → ∃ t, exec (.tokw k) s = .next t ∧ t = retire (popToken s k) 0 1 ∧ t.last = .retired ∧
      t.mem = s.mem ∧ t.me.regs = s.me.regs ∧ (s.me.popped ≠ k → tokens t.me k = tokens s.me k - 1) ∧
      (∀ j, j ≠ 0 → j ≠ k → tokens t.me j = tokens s.me j)) ∧
    (tokens s.me k = 0 → exec (.tokw k) s = .next (s.setLast .waiting)) ∧
    (tokens (s.party peer) k < 15 → partyKey peer ≠ partyKey s.cur → scratchLate s s.cur = false → drainsOut s = false →
      ∃ t, exec (.toks k) s = .next t ∧ t.last = .retired ∧ t.mem = s.mem ∧
        tokens (t.party peer) k = tokens (s.party peer) k + 1 ∧ (t.party peer).evp.getLsbD 1 = true) ∧
    (15 ≤ tokens (s.party peer) k → s.me.busy = none → exec (.toks k) s = .next (s.setLast .waiting)) ∧
    exec .nop s = .next (retire s 0 1)

/-- R272: END of a wing stops it and takes it out of every group; END of an engine whose matrix operations are done ends
the entry. -/
def Sys2Proof.Claims.EndStopsTheParty : Prop :=
  ∀ (s : State), s.inLock = false →
    (s.cur.party.isWing = true →
      ∃ t, exec .endOp s = .next t ∧ t.me.run = .ended ∧ t.me.groups = [] ∧ t.me.regs = s.me.regs ∧ t.mem = s.mem) ∧
    (s.cur.party.isWing = false → (∀ o ∈ (s.core s.cur.core).ops, o.slot ≠ s.cur.slot) →
      ∃ t, exec .endOp s = .next t ∧ t.me.run = .idle ∧ t.me.regs = s.me.regs ∧ t.mem = s.mem)

/-- R347, R353: TRAP raises cause 9 with the immediate as TVAL: TCAUSE, TPC, TVAL and TSTAT of the party are set, the party
is held, no register of it and no byte of memory changes; outside a double trap a record goes to its die's system core. -/
def Obligations.TrapWordTraps : Prop :=
  ∀ (s : State) (i : BitVec 19), s.cur.slot < 2 →
    ∃ t, exec (.trap i) s = .next t ∧ t.last = .trapped ∧
      t.me.tcause = 9 ∧ t.me.tpc = s.me.pc ∧ t.me.tval = i.setWidth 64 ∧ t.me.tstat = tstatOf s s.cur ∧
      t.me.held = true ∧ t.me.pc = s.me.pc ∧ t.me.regs = s.me.regs ∧ t.mem = s.mem ∧
      (¬(isSystem s.cur.core = true ∧ s.cur.party = .w0 ∧ (s.die (dieOf s.cur.core)).inh = true) →
        ∃ r, (t.die (dieOf s.cur.core)).pend = (s.die (dieOf s.cur.core)).pend ++ [r] ∧ r.cause = 9 ∧
          r.tpc = s.me.pc ∧ r.tval = i.setWidth 64 ∧ r.tstat = tstatOf s s.cur ∧ r.party = some s.cur)

/-- R276: WAITEV with an event of its mask pending, or past its deadline, returns the events, with bit 5 for the deadline,
and clears them. -/
def Sys2Proof.Claims.WaitevReturnsEvents : Prop :=
  ∀ (s : State) (d a : B6) (m : BitVec 5), namesRegs s [d, a] →
    let x := s.reg a.toNat
    let hit := s.me.evp &&& m
    let late := x ≠ 0 ∧ x.toNat ≤ s.time
    (hit ≠ 0 → m ≠ 0 → exec (.waitev d a m) s =
      writes (s.modMe (fun p => { p with evp := p.evp &&& ~~~hit })) d
        (hit.setWidth 64 + (if late then 32 else 0)) false) ∧
    (hit = 0 → late → exec (.waitev d a m) s =
      writes (s.modMe (fun p => { p with evp := p.evp &&& ~~~hit })) d 32 false)

/-! ## System registers (R61, R62, R288) -/

/-- R61: MFS of a register that no trap of its order forbids gives its value and clears the taint; reading changes nothing
else. R62: MTS of such a register has a write of the register's own, and applies it and retires; a write of REPC governs from
the next word on. No write but that of PRST, which discards the tasks that a partition has parked (R369), changes a byte of memory.
CPART is not written while a task is resident in its column: an illegal operand. -/
def Sys2Proof.Claims.SystemRegisterMoves : Prop :=
  ∀ (s : State) (d a : B6) (r : BitVec 13), namesRegs s [d, a] → regTrap s r.toNat = none →
    let v := s.reg a.toNat
    let c := s.me.csel.toNat
    let resident := ∃ k < 2, (s.ctx c k).task ≠ none ∨ (s.ctx (partnerOf c) k).task ≠ none
    exec (.mfs d r) s = writes s d (readReg s r.toNat) false ∧
    (r ≠ 0x1C4 → (r = 0x209 → ¬resident) →
      ∃ t, writeReg s r.toNat v = some t ∧ (r ≠ 0x218 → t.mem = s.mem) ∧ t.me.regs = s.me.regs ∧ t.me.pc = s.me.pc ∧
        exec (.mts a r) s = .next (retire t 0 1)) ∧
    (r = 0x1C4 → ∃ t, exec (.mts a r) s = .next t ∧ t.me.repc = v.setWidth 10 ∧ t.me.regs = s.me.regs ∧ t.mem = s.mem) ∧
    (r = 0x209 → resident → exec (.mts a r) s = .next (takeTrap s s.cur 3 s.curWord))

/-- The registers outside the isolation range that the tables mark SV, as a whole or in a field (R61): the Lookout registers,
the loop state, the budget registers but EADJ, the trap registers, CECNT and the dirty-log registers. -/
def Sys2Proof.Machine.markedSv (n : Nat) : Prop :=
  (0x1A0 ≤ n ∧ n ≤ 0x1A3) ∨ (0x1C0 ≤ n ∧ n ≤ 0x1C4) ∨ (0x290 ≤ n ∧ n ≤ 0x294) ∨ (0x300 ≤ n ∧ n ≤ 0x307) ∨ n = 0x321 ∨
  (0x330 ≤ n ∧ n ≤ 0x333)

/-- R61, R62, R64: every register of the isolation range, assigned or not, and every one that the tables mark SV traps as a
privilege violation for a party outside supervisor context, whatever its operands; EADJ (0x295, WO), which such a party does
not hold, and every number above 0x3FF trap as an illegal operand. -/
def Sys2Proof.Claims.SupervisorRegistersAreGuarded : Prop :=
  ∀ (s : State) (d a : B6) (r : BitVec 13), s.supervisor = false →
    ((0x200 ≤ r.toNat ∧ r.toNat ≤ 0x27F) ∨ markedSv r.toNat →
      exec (.mfs d r) s = .next (takeTrap s s.cur 2 (r.setWidth 64)) ∧
      exec (.mts a r) s = .next (takeTrap s s.cur 2 (r.setWidth 64))) ∧
    (r = 0x295 ∨ 0x3FF < r.toNat →
      exec (.mfs d r) s = .next (takeTrap s s.cur 3 s.curWord) ∧ exec (.mts a r) s = .next (takeTrap s s.cur 3 s.curWord))

/-- The value written is the value read, for registers that keep what is written to them. -/
def Sys2Proof.Claims.WrittenRegistersReadBack : Prop :=
  ∀ (s t : State) (n : Nat) (v : Word),
    n ∈ [0x84, 0x1A0, 0x200, 0x208, 0x20A, 0x20E, 0x300, 0x301, 0x302] → writeReg s n v = some t →
    readReg t n =
      (if n = 0x1A0 then (v.setWidth 11).setWidth 64 else if n = 0x200 then (v.setWidth 6).setWidth 64
       else if n = 0x208 ∨ n = 0x20A then (v.setWidth 9).setWidth 64 else if n = 0x20E then (v.setWidth 12).setWidth 64
       else if n = 0x300 then (v.setWidth 16).setWidth 64 else v) ∧
    t.mem = s.mem

/-- R317, R248, R334, R371, R386: what a write of a system wing does to the registers that PSEL and RSEL select, and which
writes are refused with a bit of IREF. An FLPG with bit 63 set names a frame that is homed at the die and owned by the
partition (else IREF[1]); that one with bit 63 clear is taken without a check of its frame, and that a KEYN of 0 is no range, is the
model's choice (log 26 DESIGN CHOICE). So is it that a ceiling written below the balance leaves the balance (log 106 DESIGN
CHOICE). -/
def Obligations.SupervisorWritesTakeEffect : Prop :=
  ∀ (s : State) (v : Word), s.supervisor = true → s.cur.party.isWing = true →
    let p := s.me.psel.toNat
    let q := s.part p
    let refused := fun (bit : Nat) => Host.Outcome.next (s.modMe (fun x => { x with iref := setBit x.iref bit true }))
    let sum := fun (f : Partition → Nat) => ((s.parts.filter (fun e => decide (e.1 ≠ p))).map (fun e => f e.2)).sum
    (exec (.frg v) s = if framesOf 0 + framesOf 1 < sum (fun x => x.frg.toNat) + v.toNat % 2 ^ 32 then refused 0
      else .next (s.setPart p { q with frg := v.setWidth 32 })) ∧
    (exec (.keyb v) s = if keysClash s p (v.toNat % 512) q.keyn.toNat then refused 2
      else .next (s.setPart p { q with keyb := v.setWidth 9 })) ∧
    (exec (.keyn v) s = if keysClash s p q.keyb.toNat (v.toNat % 1024) then refused 2
      else .next (s.setPart p { q with keyn := v.setWidth 10 })) ∧
    (exec (.ecap v) s = if v = 0 then refused 7 else .next (s.setPart p { q with ecap := v })) ∧
    (exec (.plmaps v) s = if (∃ i < 8, v.toNat / 4 ^ i % 4 = 3) then refused 7
      else .next (s.setPart p { q with plmaps := v.setWidth 16 })) ∧
    (exec (.pwsh v) s = if 3000 < sum (fun x => x.pwsh.toNat) + v.toNat % 2 ^ 16 then refused 7
      else .next (s.setPart p { q with pwsh := v.setWidth 16 })) ∧
    (let new : Word := BitVec.ofInt 64 (min (q.eacc.toInt + v.toInt) q.ecap.toNat)
     let after := s.setPart p { q with eacc := new, spent := q.spent || decide (new.toInt ≤ 0) }
     exec (.eadj v) s = .next (if q.spent = false ∧ new.toInt ≤ 0 then haltPart after p else after)) ∧
    exec (.dlbase v) s = .next (s.setPart p { q with dlbase := v.setWidth 43 }) ∧
    (∃ t, exec (.dltail v) s = .next t ∧ (t.part p).dltail = v.setWidth 13 ∧ (t.part p).dirty ⊆ q.dirty) ∧
    (v.getLsbD 63 = false → exec (.flpg v) s =
      .next (s.setPart p { q with flpg := put q.flpg (dieOf s.cur.core) (BitVec.ofNat 64 (v.toNat % 2 ^ 40)) })) ∧
    (let f := v.toNat % 2 ^ 40
     let legal := f < framesOf 0 ∧ frameHome 0 0 f = dieOf s.cur.core ∧ ownerOf s (frameCode 0 0 f) = p
     v.getLsbD 63 = true →
      (legal → exec (.flpg v) s =
        .next (s.setPart p { q with flpg := put q.flpg (dieOf s.cur.core) (BitVec.ofNat 64 (2 ^ 63 + f)) })) ∧
      (¬legal → exec (.flpg v) s = refused 1)) ∧
    (64 < v.toNat % 128 → exec (.rslot v) s = refused 3) ∧
    (v.toNat % 128 ≤ 64 → look 64 (s.die (s.me.rsel.toNat / 256)).rslots (s.me.rsel.toNat % 256) = 64 →
      exec (.rslot v) s = .next (s.modDie (s.me.rsel.toNat / 256)
        (fun x => { x with rslots := put x.rslots (s.me.rsel.toNat % 256) (v.setWidth 7) })))

/-- R318, R331, R361, R369, R385: writes that begin what an event ends. A new CPART value starts the scrub of the selected
column; CSTAT takes the column out of service; PRST begins a partition's reset; FROWN begins the change of an owner. -/
def Obligations.SupervisorWritesBeginWork : Prop :=
  ∀ (s : State) (v : Word), s.supervisor = true → s.cur.party.isWing = true →
    let a := s.me.csel.toNat
    let b := partnerOf a
    (a < 272 → a % 17 ≠ 16 → (∀ k < 2, (s.ctx a k).task = none ∧ (s.ctx b k).task = none) → v.toNat % 128 ≤ 64 →
      (s.core a).part ≠ v.setWidth 7 →
      ∃ t, exec (.cpart v) s = .next t ∧ (t.core a).part = v.setWidth 7 ∧ (t.core b).part = v.setWidth 7 ∧
        (t.core a).scrub = true ∧ (t.core b).scrub = true ∧ t.mem = s.mem) ∧
    (a < 272 → a % 17 ≠ 16 → v.getLsbD 0 = true →
      ∃ t, exec (.cstat v) s = .next t ∧ (t.core a).failed = true ∧ (t.core b).failed = true ∧
        (∀ c k, (c = a ∨ c = b) → k < 2 → (s.ctx c k).task ≠ none → (t.ctx c k).dying ≠ none) ∧ t.mem = s.mem) ∧
    (v.toNat % 128 < 64 → s.prstat.getLsbD 7 = false →
      ∃ t, exec (.prst v) s = .next t ∧ t.prstat = BitVec.ofNat 8 (128 + v.toNat % 128) ∧
        t.resetting = some ⟨v.toNat % 128, 2, s.time⟩) ∧
    (64 ≤ v.toNat % 128 ∨ s.prstat.getLsbD 7 = true →
      exec (.prst v) s = .next (s.modMe (fun x => { x with iref := setBit x.iref 5 true }))) ∧
    (∀ code, frselFrame s = some code → v.toNat % 128 ≤ 64 → frownOf s code ≠ v.toNat % 128 → frameBusy s code = false →
      ∃ c, exec (.frown v) s = .next { s with reassigns := s.reassigns ++ [c] } ∧ c.owner = v.toNat % 128 ∧
        c.space = s.me.frsel.toNat / 2 ^ 40 % 8 ∧ c.frame = s.me.frsel.toNat % 2 ^ 40)

/-- R374, R382, R383: the registers of the host's windows that only keep their value; a queue block takes no write before
phase 7. R62: a write of a system register as an event of its own is the register's write, where no trap forbids it. -/
def Sys2Proof.Claims.WindowRegistersKeepValues : Prop :=
  (∀ (s : State) (n v : Nat), regTrap s n = none → n ≠ 0x209 →
    ∃ t, writeReg s n (BitVec.ofNat 64 v) = some t ∧ exec (.registerWrite (.sysreg n) v) s = .next t) ∧
  (∀ (s : State) (p q v : Nat), s.mgmt.mstat.toNat % 16 ≠ 7 → exec (.registerWrite (.qiv p q) v) s = .next s) ∧
  ∀ (s : State) (p q v : Nat), p < 64 → q < 32 → s.mgmt.mstat.toNat % 16 = 7 →
    exec (.registerWrite (.qiv p q) v) s = .next (s.setQueue p q { s.queue p q with qiv := BitVec.ofNat 32 v }) ∧
    exec (.registerWrite .atnonce v) s = .next { s with mgmt := { s.mgmt with atnonce := BitVec.ofNat 256 v } } ∧
    exec (.registerWrite .ataddr v) s = .next { s with mgmt := { s.mgmt with ataddr := BitVec.ofNat 64 v } }

/-! ## Wing memory (R191, R204, R213–R218) -/

/-- R213: a load of an aligned address that leads to a place of the wing's own die, to which no write is owed, completes
with the bytes read there, sign- or zero-extended; LDC alone taints. That a load of a party with nothing set aside is
performed at once, with the bytes that memory then holds, is the model's reading (log 2 DESIGN CHOICE). -/
def Sys2Proof.Claims.LoadsReadMemory : Prop :=
  ∀ (s u : State) (w g : B2) (d a : B6) (f : BitVec 9) (p : Place) (bs : List Byte) (k : Nat),
    Ready s .wing w g → Present s → k ≤ 3 →
    let va := s.reg a.toNat + BitVec.ofInt 64 (f.toInt * 2 ^ k)
    reach s va.toNat false = .place p → va.toNat % 2 ^ k = 0 → p.home = dieOf s.cur.core →
    owed s p.home (clockOf s p.home) = false → held s p = false →
    readPlace s s.cur s.myPart false p (2 ^ k) = (u, some bs) →
    let n := BitVec.ofNat (8 * 2 ^ k) (natOfBytes bs)
    let ends := fun (i : Instr) (t : State) (v : Word) (taint : Bool) =>
      exec i s = .next (retire (popToken (t.setReg d.toNat v taint) w) g 1)
    let loads := fun (i : Instr) (v : Word) (taint : Bool) => ends i u v taint
    (k = 0 → loads (.ldb w g d a f) (n.signExtend 64) false ∧ loads (.ldbu w g d a f) (n.setWidth 64) false) ∧
    (k = 1 → loads (.ldh w g d a f) (n.signExtend 64) false ∧ loads (.ldhu w g d a f) (n.setWidth 64) false) ∧
    (k = 2 → loads (.ldw w g d a f) (n.signExtend 64) false ∧ loads (.ldwu w g d a f) (n.setWidth 64) false) ∧
    (k = 3 → loads (.ldd w g d a f) (n.setWidth 64) false ∧ loads (.ldc w g d a f) (n.setWidth 64) true ∧
      (releaseOut s s.cur = false → ends (.lda w g d a f) (acquire u s.seq) (n.setWidth 64) false)) ∧
    (revokedPlace s p = false → bs = readBytes s.mem p.phys (2 ^ k)) ∧
    (revokedPlace s p = true → bs = List.replicate (2 ^ k) 0)

/-- R213, R191: a store to a place of the wing's own die completes with its register's low bytes written there. That they
stand in memory as soon as the store retires, where the party's turn sets nothing aside, is the model's reading (log 2
DESIGN CHOICE). -/
def Obligations.StoresWriteMemory : Prop :=
  ∀ (s u : State) (w g : B2) (d a : B6) (f : BitVec 9) (p : Place) (k : Nat), Ready s .wing w g → Present s → k ≤ 3 →
    let va := s.reg a.toNat + BitVec.ofInt 64 (f.toInt * 2 ^ k)
    reach s va.toNat true = .place p → va.toNat % 2 ^ k = 0 → p.readOnly = false → hitsControl p (2 ^ k) = false →
    p.home = dieOf s.cur.core → owed s p.home (clockOf s p.home) = false →
    performWrite s s.cur p (bytesOfNat (2 ^ k) (s.reg d.toNat).toNat) = some u →
    let stores := fun (i : Instr) => exec i s = .next (retire (popToken u w) g 1)
    (k = 0 → stores (.stb w g d a f)) ∧ (k = 1 → stores (.sth w g d a f)) ∧ (k = 2 → stores (.stw w g d a f)) ∧
    (k = 3 → stores (.std w g d a f) ∧ exec (.stl w g d a f) s = .next (retire (popToken (released u s.cur) w) g 1)) ∧
    (revokedPlace s p = false → s.Inv → readBytes u.mem p.phys (2 ^ k) = bytesOfNat (2 ^ k) (s.reg d.toNat).toNat)

/-- What passing a word, waiting at it or trapping at it changes of a party: the pc, the loops, the marks of waiting, tokens
and events, the order of its accesses, and the exception registers. All else of the party is as before. -/
def Sys2Proof.Machine.flowOnly (x y : PartyState) : Prop :=
  y = { x with pc := y.pc, ls := y.ls, order := y.order, repc := y.repc, tcause := y.tcause, tpc := y.tpc, tval := y.tval,
               tstat := y.tstat, held := y.held, evp := y.evp, wait := y.wait, push := y.push, busy := y.busy, tkc := y.tkc,
               popped := y.popped, view := y.view }

/-- The same of a party whose register `d` is the instruction's destination. -/
def Sys2Proof.Machine.flowAnd (d : B6) (x y : PartyState) : Prop :=
  flowOnly { x with regs := y.regs, taint := y.taint, spoilt := y.spoilt } y ∧
  ∀ e, e ≠ d.toNat → look 0 y.regs e = look 0 x.regs e ∧
    (e < 64 → y.taint.getLsbD e = x.taint.getLsbD e ∧ y.spoilt.getLsbD e = x.spoilt.getLsbD e)

/-- What an access to memory may change of the machine besides its parties and the bytes it writes: marks of its task (a
revoked slot, an end to come), its die's clock and counters and trap records, the accesses under way, the bookkeeping of keys,
check bits, bytes moved and the order of writes, and the dirty log of the written frame's owner. -/
def Sys2Proof.Machine.accessFrame (s t : State) : Prop :=
  t = { s with parties := t.parties, ctxs := t.ctxs, dies := t.dies, parts := t.parts, mem := t.mem, tags := t.tags,
               flips := t.flips, stamps := t.stamps, seq := t.seq, past := t.past, flights := t.flights, loads := t.loads,
               moved := t.moved, last := t.last } ∧
  (∀ c k, (t.ctx c k).task = (s.ctx c k).task ∧ (t.ctx c k).checkpoint = (s.ctx c k).checkpoint ∧
    (t.ctx c k).sh = { (s.ctx c k).sh with istat := (t.ctx c k).sh.istat }) ∧
  (∀ p, t.part p = { s.part p with dirty := (t.part p).dirty, dlhead := (t.part p).dlhead, dlctl := (t.part p).dlctl })

/-- The size of a wing store, its address register and its offset. -/
def Sys2Proof.Machine.storeForm : Instr → Option (Nat × B6 × BitVec 9)
  | .stb _ _ _ a f => some (1, a, f)
  | .sth _ _ _ a f => some (2, a, f)
  | .stw _ _ _ a f => some (4, a, f)
  | .std _ _ _ a f | .stl _ _ _ a f => some (8, a, f)
  | _ => none

/-- The place to which a store of the wing stores now: that of its address, where it is one of the wing's own die. -/
def Sys2Proof.Machine.storedAt (s : State) (va : Nat) : Option Place :=
  match reach s va true with
  | .place p => if p.home = dieOf s.cur.core then some p else none
  | _ => none

/-- The entry of the dirty log of a frame's owner that a first write to the frame fills (R371). -/
def Sys2Proof.Machine.logEntryAt (s : State) (code : Nat) : Nat :=
  let x := s.part (ownerOf s code)
  framePhys 0 64 (bits x.dlbase.toNat 42 40) (bits x.dlbase.toNat 39 0) (8 * x.dlhead.toNat)

/-- Every byte outside the `size` bytes at a place, and outside the dirty-log entry that a write there makes, reads as
before. -/
def Sys2Proof.Machine.onlyWrites (s t : State) (o : Option Place) (size : Nat) : Prop :=
  ∀ x, (∀ p, o = some p → ¬(p.phys ≤ x ∧ x < p.phys + size)) →
    (∀ p code, o = some p → p.frame = some code → ¬(logEntryAt s code ≤ x ∧ x < logEntryAt s code + 8)) →
    readByte t.mem x = readByte s.mem x

/-- The frame of the wing stores: every byte outside the bytes stored to, and outside the dirty-log entry that the store
makes, reads as before; no register, vector register, control word or group of any party changes, nor anything of the machine
but what `accessFrame` names. A store to another die stores nothing by itself (R204). -/
def Sys2Proof.Claims.StoreFrame : Prop :=
  ∀ (i : Instr) (s t : State) (size : Nat) (a : B6) (f : BitVec 9),
    storeForm i = some (size, a, f) → s.Inv → exec i s = .next t →
    onlyWrites s t (storedAt s (memAddr s a f size).toNat) size ∧ accessFrame s t ∧ ∀ q, flowOnly (s.party q) (t.party q)

/-- A load's destination. -/
def Sys2Proof.Machine.loadDest : Instr → Option B6
  | .ldb _ _ d _ _ | .ldh _ _ d _ _ | .ldw _ _ d _ _ | .ldd _ _ d _ _ | .ldbu _ _ d _ _ | .ldhu _ _ d _ _
  | .ldwu _ _ d _ _ | .lda _ _ d _ _ | .ldc _ _ d _ _ => some d
  | _ => none

/-- The frame of the wing loads: no byte of memory changes, no register but the destination, and nothing of the machine but
what `accessFrame` names. -/
def Sys2Proof.Claims.LoadFrame : Prop :=
  ∀ (i : Instr) (s t : State) (d : B6), loadDest i = some d → exec i s = .next t →
    sameMemory s t ∧ accessFrame s t ∧ flowAnd d s.me (t.party s.cur) ∧
    ∀ q, partyKey q ≠ partyKey s.cur → flowOnly (s.party q) (t.party q)

/-- The destination and the address register of an atomic. -/
def Sys2Proof.Machine.atomicForm : Instr → Option (B6 × B6)
  | .amoAdd _ _ _ d a _ | .amoAnd _ _ _ d a _ | .amoOr _ _ _ d a _ | .amoXor _ _ _ d a _ | .amoMin _ _ _ d a _
  | .amoMax _ _ _ d a _ | .amoSwap _ _ _ d a _ | .cas _ _ d a _ _ => some (d, a)
  | _ => none

/-- The place of an atomic's word: that of its address, at whichever home (R215). -/
def Sys2Proof.Machine.atomicAt (s : State) (a : B6) : Option Place :=
  match reach s (s.reg a.toNat).toNat true with
  | .place p => some p
  | _ => none

/-- The frame of the atomics: every byte outside the eight of the word and the dirty-log entry reads as before, no register
changes but the destination, and nothing of the machine but what `accessFrame` names. -/
def Sys2Proof.Claims.AtomicFrame : Prop :=
  ∀ (i : Instr) (s t : State) (d a : B6), atomicForm i = some (d, a) → s.Inv → exec i s = .next t →
    onlyWrites s t (atomicAt s a) 8 ∧ accessFrame s t ∧ flowAnd d s.me (t.party s.cur) ∧
    ∀ q, partyKey q ≠ partyKey s.cur → flowOnly (s.party q) (t.party q)

/-- R213, R347: a misaligned address of a wing load is an alignment trap, with no other effect. -/
def Sys2Proof.Claims.MisalignedLoadsTrap : Prop :=
  ∀ (s : State) (w g : B2) (d a : B6) (f : BitVec 9) (k : Nat), Ready s .wing w g → 1 ≤ k → k ≤ 3 →
    let va := s.reg a.toNat + BitVec.ofInt 64 (f.toInt * 2 ^ k)
    va.toNat % 2 ^ k ≠ 0 → reach s va.toNat false ≠ .privilege →
    let traps := fun (i : Instr) => exec i s = .next (takeTrap s s.cur causeAlignment va)
    (k = 1 → traps (.ldh w g d a f) ∧ traps (.ldhu w g d a f)) ∧
    (k = 2 → traps (.ldw w g d a f) ∧ traps (.ldwu w g d a f)) ∧
    (k = 3 → traps (.ldd w g d a f) ∧ traps (.lda w g d a f) ∧ traps (.ldc w g d a f))

/-- R215: an atomic on an aligned word that no write is owed to returns the old value and leaves the new one, in the
register and in memory; a CAS that fails writes nothing. -/
def Obligations.AtomicsReadAndWrite : Prop :=
  ∀ (s u : State) (w g o : B2) (d a b : B6) (p : Place) (bs : List Byte), Ready s .wing w g → Present s →
    let va := (s.reg a.toNat).toNat
    ¬(weightBase ≤ va ∧ va < weightEnd) → reach s va true = .place p → p.readOnly = false → hitsControl p 8 = false →
    va % 8 = 0 → mustWait s p.home (o.getLsbD 0) (o.getLsbD 1) = false →
    readPlace s s.cur s.myPart false p 8 = (u, some bs) →
    let old := BitVec.ofNat 64 (natOfBytes bs)
    let x := s.reg b.toNat
    let ends := fun (i : Instr) (t : State) => exec i s =
      .next (retire (popToken ((ordered t (o.getLsbD 0) (o.getLsbD 1)).setReg d.toNat old false) w) g 1)
    let does := fun (i : Instr) (new : Word) =>
      ∀ t, performWrite u u.cur p (bytesOfNat 8 new.toNat) = some t → ends i t ∧
        (revokedPlace s p = false → s.Inv → readBytes t.mem p.phys 8 = bytesOfNat 8 new.toNat)
    (revokedPlace s p = false → bs = readBytes s.mem p.phys 8) ∧
    does (.amoAdd w g o d a b) (old + x) ∧ does (.amoAnd w g o d a b) (old &&& x) ∧ does (.amoOr w g o d a b) (old ||| x) ∧
    does (.amoXor w g o d a b) (old ^^^ x) ∧ does (.amoMin w g o d a b) (if old.toInt ≤ x.toInt then old else x) ∧
    does (.amoMax w g o d a b) (if old.toInt ≤ x.toInt then x else old) ∧ does (.amoSwap w g o d a b) x ∧
    (old = s.reg d.toNat → does (.cas w g d a b o) x) ∧
    (old ≠ s.reg d.toNat → ends (.cas w g d a b o) u ∧ u.mem = s.mem)

/-- R199, R216: FENCE of a party with no store outstanding in its core retires at .CORE and .DIE at once, and at .MOD and .SYS
once every write that its die knows is applied; where its sets take in loads, what follows it follows what has been performed
so far, and at .MOD and .SYS, where they take in stores before loads, the party's own stores wherever they lead. R218: MWAIT whose
word differs returns it, and one whose word is still the same sleeps. -/
def Sys2Proof.Claims.FencesAndWaits : Prop :=
  ∀ (s u : State) (w g : B2) (d a b : B6) (sets : BitVec 4) (c : B2) (p : Place) (bs : List Byte), Ready s .wing w g →
    Present s →
    ((sets = 0 ∨ (sets.toNat % 4 ≠ 0 ∧ 4 ≤ sets.toNat)) → (2 ≤ c.toNat → settled s (dieOf s.cur.core) = true) →
      let r := if sets = 0 ∨ sets.getLsbD 2 = true then orderPoint s s.cur else s
      completes (.fence w g sets c) s w g
        (if (sets = 0 ∨ sets.getLsbD 1 = true ∧ sets.getLsbD 2 = true) ∧ 2 ≤ c.toNat then firmUp r s.cur else r)) ∧
    (let va := (s.reg a.toNat).toNat
     va % 8 = 0 → ¬(weightBase ≤ va ∧ va < weightEnd) → reach s va false = .place p → mustWait s p.home true false = false →
     readPlace s s.cur s.myPart false p 8 = (u, some bs) →
     let y := BitVec.ofNat 64 (natOfBytes bs)
     (y ≠ s.reg b.toNat → completes (.mwait w g d a b) s w g ((acquire u u.seq).setReg d.toNat y false)) ∧
     (y = s.reg b.toNat → s.inLock = false →
       ∃ t, exec (.mwait w g d a b) s = .next t ∧ t.me.wait = .asleep (p.phys / 64) (u.time + 1000) ∧
         t.me.regs = s.me.regs ∧ t.mem = s.mem))

/-- R218: a sleeping MWAIT reads its word again. Where it differs the MWAIT returns it and goes on; where it is still the same
the wing sleeps on, and once its microsecond has passed sleeps for another. -/
def Sys2Proof.Claims.SleepersWake : Prop :=
  ∀ (s u : State) (p : PartyId) (line wake : Nat) (w g : B2) (d a b : B6) (at_ : Place) (bs : List Byte),
    (s.party p).wait = .asleep line wake → instrAt s p (s.party p).pc.toNat = some (.mwait w g d a b) → alive s p = true →
    let s1 := (s.modParty p (fun x => { x with wait := .no })).setCur p
    let va := (s1.reg a.toNat).toNat
    Ready s1 .wing w g → Present s1 → va % 8 = 0 → ¬(weightBase ≤ va ∧ va < weightEnd) → reach s1 va false = .place at_ →
    mustWait s1 at_.home true false = false → readPlace s1 p s1.myPart false at_ 8 = (u, some bs) →
    let y := BitVec.ofNat 64 (natOfBytes bs)
    (y ≠ s1.reg b.toNat → exec (.mwaitWake p) s =
      .next ((retire (popToken ((acquire u u.seq).setReg d.toNat y false) w) g 1).setCur s.cur)) ∧
    (y = s1.reg b.toNat → s.time < wake → exec (.mwaitWake p) s = .next s) ∧
    (y = s1.reg b.toNat → wake ≤ s.time → s1.inLock = false → ∃ t, exec (.mwaitWake p) s = .next t ∧
      (t.party p).wait = .asleep (at_.phys / 64) (s.time + 1000) ∧ t.mem = s.mem)

/-- R204, R205: a write under way that no other write must precede is applied at its home and is then no longer under way;
a second copy changes nothing but that; a lost acknowledgement leaves the copy under way. R346: a write whose merge fails is
dropped alone. -/
def Sys2Proof.Claims.FlightsArrive : Prop :=
  ∀ (s : State) (k : Nat) (f : Flight), s.flights[k]? = some f →
    let rest := { s with flights := s.flights.eraseIdx k }
    let again := { s with flights := s.flights.set k { f with copy := true } }
    let written := fun (t : State) => writePlace t f.agent f.part f.clock (placeOf f.phys f.home f.slot) f.bytes
    let after := fun (u : State) => if f.release then released u f.agent else u
    (f.copy = true → exec (.remoteWriteArrival k) s = .next rest) ∧
    (∀ u, f.copy = false → mayApply s f = true → written rest = some u →
      exec (.remoteWriteArrival k) s = .next (after u)) ∧
    (∀ u, f.copy = false → mayApply s f = true → written again = some u →
      exec (.linkFailure k) s = .next (after u)) ∧
    (f.copy = false → mayApply s f = true → written rest = none →
      ∃ u, exec (.remoteWriteArrival k) s = .next u ∧ u.mem = s.mem ∧ u.parties = s.parties ∧ u.flights = rest.flights)

/-- R204: a load under way is answered by its home once no write that its clock names is owed there: its wing's register
takes the value and the wing goes on. How far behind the present it reads is its turn's (log 2 DESIGN CHOICE). -/
def Sys2Proof.Claims.RemoteLoadsReturn : Prop :=
  ∀ (s u : State) (k : Nat) (q : LoadReq) (bs : List Byte), s.loads[k]? = some q →
    let p := placeOf q.phys q.home q.slot
    let s1 := (withLag { s with loads := s.loads.eraseIdx k } q.agent q.lag).setCur q.agent
    let own := decide (q.home = dieOf q.agent.core)
    let point := if own then moment s1 q.agent (sightOf s1 s1.myPart p.slot) (firmPoint s1.me.view own true) (q.phys / 8) else s.seq
    (s.party q.agent).wait = .load → alive s q.agent = true → owed s q.home q.clock = false → held s p = false →
    signalWaits (s.setCur q.agent) q.g = false → readPlace s1 q.agent s1.myPart q.acquires p q.size = (u, some bs) →
    let read := (if q.acquires then acquire u point else u).setReg q.d.toNat (loaded q.signed bs) q.consume
    exec (.remoteLoadArrival k) s =
      .next (withLag ((retire (popToken read q.w) q.g 1).setCur s.cur) q.agent 0)

/-! ## Queues, groups, lock-step, supersteps (R210, R263–R279) -/

/-- The items of an engine's queue of the executing party's slot. -/
def Sys2Proof.Machine.myQueue (s : State) (q : Nat) : List Item := queueAt s s.cur.core s.cur.slot q

/-- R271: ENQ with room in the queue appends the entry, with the registers it names as arguments, and waits while a store of
its wing to the scratchpad, which the entry must see, is not yet performed (R196). -/
def Sys2Proof.Claims.EnqAppendsAnEntry : Prop :=
  ∀ (s : State) (w g : B2) (f : B6) (n : BitVec 3) (e : BitVec 9) (q : BitVec 3), Ready s .wing w g → q.toNat ≤ 5 →
    n.toNat ≤ 4 → (n = 0 → f = 0) → (s.supervisor = true → 2 ≤ q.toNat) → s.myCtx.sh.notified.getLsbD q.toNat = false →
    64 * e.toNat < sectionSize s (q.toNat + 1) → (n ≠ 0 → f.toNat + n.toNat ≤ 64) → (myQueue s q.toNat).length < 16 →
    (scratchLate s s.cur = true → exec (.enq w g f n e q) s = .next (s.setLast .waiting)) ∧
    (scratchLate s s.cur = false → ∃ r, completes (.enq w g f n e q) s w g r ∧ r.mem = s.mem ∧
      myQueue r q.toNat = myQueue s q.toNat ++
        [.entry (BitVec.ofNat 64 (64 * e.toNat)) ((List.range n.toNat).map (fun i => s.reg (f.toNat + i)))] ∧
      (∀ k, k ≠ q.toNat → myQueue r k = myQueue s k))

/-- R210, R274: MARK, NOTIFY and QFENCE append their item to every queue named, and to no other; RDV retires when no mark
of its rendezvous is outstanding. -/
def Sys2Proof.Claims.MarksJoinsNotifiesAppend : Prop :=
  ∀ (s : State) (w g : B2) (n : BitVec 4) (m : BitVec 6) (j : BitVec 4), Ready s .wing w g →
    let free := fun (x : Nat) => ∀ q < 6, x.testBit q = true →
      (s.supervisor = true → 2 ≤ q) ∧ s.myCtx.sh.notified.getLsbD q = false ∧ (myQueue s q).length < 16
    let appends := fun (i : Instr) (x : Nat) (item : Item) => ∃ r, completes i s w g r ∧ r.mem = s.mem ∧
      ∀ q < 6, myQueue r q = if x.testBit q then myQueue s q ++ [item] else myQueue s q
    (m ≠ 0 → free m.toNat → look 0 s.myCtx.sh.rv n.toNat = 0 → appends (.mark w g n m) m.toNat (.mark n.toNat)) ∧
    (m ≠ 0 → free m.toNat → appends (.notify w g m) m.toNat .notify) ∧
    (2 ≤ (maskQueues j.toNat).length → free j.toNat → appends (.qfence w g j) j.toNat (.join (j.setWidth 6))) ∧
    (look 0 s.myCtx.sh.rv n.toNat = 0 → completes (.rdv w g n) s w g (orderPoint s s.cur))

/-- R271, R274, R210: an item that has come to the head of its queue and may go on leaves the queue: an entry starts the
engine at its offset with its arguments, a mark clears its bit, a notify is retired, a join releases its queues. -/
def Sys2Proof.Claims.QueueHeadsMove : Prop :=
  ∀ (s : State) (p : PartyId) (rest : List Item),
    let q := queueOf p.party
    let here := fun (t : State) => queueAt t p.core p.slot q
    p.party.isWing = false →
    (∀ o args, here s = .entry o args :: rest → args.length ≤ 4 → mayBegin s p = true →
      ∃ t, exec (.entryBegin p) s = .next t ∧ here t = rest ∧ (t.party p).run = .running ∧ (t.party p).pc = o ∧
        (t.party p).order = [] ∧ (t.party p).began = [] ∧ (∀ i < args.length, look 0 (t.party p).regs i = args.getD i 0) ∧ t.mem = s.mem) ∧
    (∀ n, here s = .mark n :: rest → slotAlive s p.core p.slot = true → engineIdle s p.core p.slot p.party = true →
      ∃ t, exec (.markRetire p) s = .next t ∧ here t = rest ∧
        look 0 (t.ctx p.core p.slot).sh.rv n = setBit (look 0 (s.ctx p.core p.slot).sh.rv n) q false ∧ t.mem = s.mem) ∧
    (here s = .notify :: rest → slotAlive s p.core p.slot = true → engineIdle s p.core p.slot p.party = true →
      ∃ t, exec (.notifyRetire p) s = .next t ∧ here t = rest ∧
        (t.ctx p.core p.slot).sh.retired = setBit (s.ctx p.core p.slot).sh.retired q true ∧ t.mem = s.mem)

/-- R210: a join at the head of every queue that it names, with their engines idle, leaves them all at once. -/
def Sys2Proof.Claims.JoinsRelease : Prop :=
  ∀ (s : State) (core slot : Nat) (m : BitVec 6) (j : Nat), j < 4 → m.toNat.testBit j = true → m.toNat < 16 →
    (∀ q < 6, m.toNat.testBit q = true →
      (queueAt s core slot q).head? = some (.join m) ∧ engineIdle s core slot (engineOf q) = true) →
    (∀ i < 4, m.toNat.testBit i = false → ∀ k, (queueAt s core slot i).head? ≠ some (.join k)) →
    slotAlive s core slot = true →
    ∃ t, exec (.qfenceJoinRelease core slot) s = .next t ∧ t.mem = s.mem ∧
      ∀ q < 6, queueAt t core slot q = if m.toNat.testBit q then (queueAt s core slot q).drop 1 else queueAt s core slot q

/-- R277, R278: JOIN adds the group (at most eight), LEAVE removes it; BAR passes once its barrier has completed. -/
def Sys2Proof.Claims.GroupsAndBarriers : Prop :=
  ∀ (s : State) (w g : B2) (a : B6), Ready s .wing w g →
    let n := (s.reg a.toNat).toNat
    n ≤ 4095 →
    (n ∉ s.me.groups → s.me.groups.length < 8 →
      completes (.join w g a) s w g (s.setMe { s.me with groups := s.me.groups ++ [n] })) ∧
    (n ∈ s.me.groups → completes (.join w g a) s w g s ∧
      ∃ r, completes (.leave w g a) s w g r ∧ r.me.groups = s.me.groups.filter (fun h => h != n) ∧ r.mem = s.mem) ∧
    (n ∉ s.me.groups → completes (.leave w g a) s w g s) ∧
    (n ∈ s.me.groups → s.me.wait = .bar n true → completes (.bar w g a) s w g s)

/-- R278: a BAR whose wing is the only member of its group, with every access performed, completes at once, and sets its
EVP.bar; in lock-step it does so once it has come to wait. -/
def Sys2Proof.Claims.LoneBarrierPasses : Prop :=
  ∀ (s : State) (w g : B2) (a : B6), Ready s .wing w g →
    let n := (s.reg a.toNat).toNat
    n ≤ 4095 → n ∈ s.me.groups → s.cur.slot < 2 → settled s (dieOf s.cur.core) = true → s.me.view.late = [] →
    s.me.wait ≠ .bar n true → (s.inLock = true → s.me.wait = .bar n false) →
    (members (s.modMe (fun x => { x with wait := .bar n false })) (groupSpace s s.cur) n).map (·.1) = [s.cur] →
    memberAway s (groupSpace s s.cur) n = false →
    ∃ r, completes (.bar w g a) s w g r ∧ r.me.evp.getLsbD 2 = true ∧ r.me.regs = s.me.regs ∧ r.mem = s.mem

/-- R263, R265: when the last of four wings of a slot arrives at the same WLOCK, all four enter lock-step, each at its word
of the next bundle; WFREE outside lock-step only retires, and in word 0 of a bundle it ends lock-step, all four wings at the
word after it (both here without a signal token). That neither visits the end of a loop is the model's choice (log 99 DESIGN
CHOICE). -/
def Sys2Proof.Claims.LockStepStartsAndEnds : Prop :=
  ∀ (s : State) (w g : B2), Ready s .wing w g →
    (s.inLock = false → g = 0 →
      (∀ p ∈ wings, p ≠ s.cur.party → lockAddr (s.party ⟨s.cur.core, s.cur.slot, p⟩) = some s.me.pc) →
      ∃ t, exec (.wlock w g) s = .next t ∧ t.last = .transferred ∧ (t.ctx s.cur.core s.cur.slot).sh.lock = true ∧
        (∀ p ∈ wings, (t.party ⟨s.cur.core, s.cur.slot, p⟩).pc =
          BitVec.ofNat 64 (s.me.pc.toNat / 16 * 16 + 16 + 4 * p.num)) ∧ t.mem = s.mem) ∧
    (s.inLock = false → completes (.wfree w g) s w g s) ∧
    (s.inLock = true → s.cur.party = .w0 → g = 0 →
      ∃ t, exec (.wfree w g) s = .next t ∧ (t.ctx s.cur.core s.cur.slot).sh.lock = false ∧
        (∀ p ∈ wings, (t.party ⟨s.cur.core, s.cur.slot, p⟩).pc = s.me.pc + 4) ∧ t.mem = s.mem)

/-- R279: SSTEP that its superstep has passed returns the new number; the superstep of a launch that may advance raises SSN
of every slot of the launch and lets its waiting wings go on, all in one step. -/
def Sys2Proof.Claims.SuperstepsAdvance : Prop :=
  (∀ (s : State) (w g : B2) (d : B6) (t : Task), Ready s .wing w g → s.myCtx.task = some t → t.superstep = true →
    (s.me.wait = .step true → completes (.sstep w g d) s w g (s.setReg d.toNat (s.myCtx.sh.ssn.setWidth 64) false)) ∧
    (s.me.wait ≠ .step true → ∃ u, exec (.sstep w g d) s = .next u ∧ u.me.wait = .step false ∧ u.me.regs = s.me.regs)) ∧
  (∀ (s : State) (part queue : Nat), mayAdvance s part queue = true → (launchSlots s part queue).Nodup →
    ∃ t, exec (.superstepAdvance part queue) s = .next t ∧ t.mem = s.mem ∧
      ∀ e ∈ launchSlots s part queue, (t.ctx e.1 e.2).sh.ssn = (s.ctx e.1 e.2).sh.ssn + 1 ∧
        (∀ p ∈ wings, (s.party ⟨e.1, e.2, p⟩).wait = .step false → (t.party ⟨e.1, e.2, p⟩).wait = .step true))

/-- R276: the deadline of a waiting WAITEV outside lock-step lets it go on: it returns the events of its mask with bit 5, and clears them. -/
def Sys2Proof.Claims.WaitevDeadlinePasses : Prop :=
  ∀ (s : State) (p : PartyId) (d a : B6) (m : BitVec 5), instrAt s p (s.party p).pc.toNat = some (.waitev d a m) →
    alive s p = true →
    let s1 := s.setCur p
    let hit := s1.me.evp &&& m
    s1.inLock = false → namesRegs s1 [d, a] → s1.reg a.toNat ≠ 0 → (s1.reg a.toNat).toNat ≤ s.time →
    exec (.waitevTimeout p) s = .next ((retire ((s1.modMe (fun x => { x with evp := x.evp &&& ~~~hit })).setReg d.toNat
      (hit.setWidth 64 + 32) false) 0 1).setCur s.cur)

/-! ## Rows and the suffix memory (R289–R308) -/

/-- R293, R294: SEQCLM claims the rows that the walk from the partition's cursor finds, writes their numbers to the
scratchpad, moves the cursor, and returns the count of rows claimed with the count made LATE above it. The claim is an acquire
of what other dies wrote before it (log 2 DESIGN CHOICE). On a system wing it walks the rows of number 64, of which there are none
(log 100 DESIGN CHOICE). -/
def Sys2Proof.Claims.SeqclmClaimsRows : Prop :=
  ∀ (s u t : State) (w g : B2) (d a b : B6) (got : List Nat) (late cur : Nat), Ready s .wing w g → s.flips = [] →
    let o := (s.reg a.toNat).toNat
    let v := (s.reg b.toNat).toNat
    let f := v % 256
    let n := v / 256 % 128
    let p := s.myPart
    v < 2 ^ 16 → f ≠ 0 → n ≠ 0 → n ≤ 64 → o % 2 = 0 → inScratch s.cur.core o (2 * n) = true →
    settled s (dieOf s.cur.core) = true → s.me.view.late = [] →
    claimRows (decide (v / 2 ^ 15 = 1)) f n p (fromCursor (rowsOf s p) (look 0 (s.part p).cursor f))
      (learn s (dieOf s.cur.core) (allKnown s)) [] 0 (look 0 (s.part p).cursor f) = (u, got, late, cur) →
    writeScratch (u.modPart p (fun q => { q with cursor := put q.cursor f cur })) s.cur.core s.cur.slot o
      (got.flatMap (bytesOfNat 2)) = some t →
    completes (.seqclm w g d a b) s w g ((orderAll t s.cur).setReg d.toNat (BitVec.ofNat 64 (late % 2 ^ 16 * 2 ^ 16 + got.length)) false)

/-- R293, R294: the walk of a SEQCLM claims at most `n` rows, each of them a row that it examined, unclaimed and in phase
`f` before, and behind the gate with a ready mask. A row of that kind behind the gate without a ready mask becomes LATE where its
deadline has passed and the walk examines it, is counted, and stays unclaimed. Every other row keeps its phase and its claim. -/
def Sys2Proof.Claims.ClaimedRowsWereFree : Prop :=
  ∀ (s u : State) (gated : Bool) (f n part late late' cur cur' : Nat) (rows got : List Nat), s.Inv → n ≠ 0 → rows.Nodup →
    (∀ r ∈ rows, r < 16384) →
    claimRows gated f n part rows s [] late cur = (u, got, late', cur') →
    let free := fun (r : Nat) => rowPhase s r = f ∧ rowClaimed s r = false
    let ready := fun (r : Nat) => rowGet s r 0x30 8 = rowGet s r 0x10 4
    let timed := fun (r : Nat) => gated = true ∧ free r ∧ ¬ready r ∧ rowGet s r 0x38 8 ≠ 0 ∧ rowGet s r 0x38 8 ≤ s.time
    let overdue := fun (r : Nat) => r ∈ examined rows got n ∧ timed r
    got.length ≤ n ∧ got.Nodup ∧
    (∀ r ∈ got, r ∈ rows ∧ free r ∧ (gated = true → ready r) ∧ rowClaimed u r = true ∧ rowPhase u r = f) ∧
    (∀ r < 16384, overdue r → rowPhase u r = 0xFE ∧ rowClaimed u r = false) ∧
    (∀ r < 16384, ¬overdue r → rowPhase u r = rowPhase s r) ∧
    (∀ r < 16384, r ∉ got → rowClaimed u r = rowClaimed s r) ∧
    late' = late + (rows.filter (fun r => (examined rows got n).contains r && gated && decide (rowPhase s r = f) && !rowClaimed s r &&
      decide (rowGet s r 0x30 8 ≠ rowGet s r 0x10 4) && decide (rowGet s r 0x38 8 ≠ 0) &&
      decide (rowGet s r 0x38 8 ≤ s.time))).length

/-- R296: SEQADV of a VOID row without a claim, and of a row that the task itself has claimed, sets its phase, or VOID where
the row is voiding, and returns the phase; of a row claimed otherwise it traps as an illegal operand. An admission tests no key
(log 114 DESIGN CHOICE). As a release it leaves with the row's phase what its die knows, itself among it, for those who read
the phase (R200, R204). -/
def Sys2Proof.Claims.SeqadvSetsThePhase : Prop :=
  ∀ (s : State) (w g : B2) (d a b : B6), Ready s .wing w g → s.Inv → s.flips = [] →
    let x := (s.reg a.toNat).toNat
    let v := (s.reg b.toNat).toNat
    v < 256 → x < 16384 → rowOwner s x = some s.myPart → mustWait s (rowHome x) false true = false →
    let sets := fun (ph : Nat) => ∃ r, completes (.seqadv w g d a b) s w g r ∧ rowPhase r x = ph ∧
      r.reg d.toNat = BitVec.ofNat 64 ph ∧ (∀ y, y ≠ x → rowPhase r y = rowPhase s y) ∧
      ∀ k, look 0 (clockOf s (dieOf s.cur.core)) k + (if k = dieOf s.cur.core then 1 else 0) ≤
        look 0 (look [] r.stamps (rowPhys x 8 / 8)) k
    (rowPhase s x = 0 → rowClaimed s x = false → sets v) ∧
    (rowClaimed s x = true → rowSerial s x = s.mySerial.toNat → rowVoiding s x = false → sets v) ∧
    (rowClaimed s x = true → rowSerial s x = s.mySerial.toNat → rowVoiding s x = true → sets 0) ∧
    (¬(rowPhase s x = 0 ∧ rowClaimed s x = false) → ¬(rowClaimed s x = true ∧ rowSerial s x = s.mySerial.toNat) →
      exec (.seqadv w g d a b) s = .next (takeTrap s s.cur causeOperand s.curWord))

/-- R305, R306: SXRST of a free index or one of its own with a legal quota gives it to the partition, empty, and returns the
positions left; with a quota of 0 it frees the index. SXAPP at the index's own position appends the token, evicting 256 where the
quota is full. On a system wing the partition is number 64 (log 100 DESIGN CHOICE). -/
def Sys2Proof.Claims.SuffixesResetAndAppend : Prop :=
  ∀ (s : State) (w g : B2) (d a b : B6), Ready s .wing w g →
    let id := (s.reg a.toNat).toNat
    let v := (s.reg b.toNat).toNat
    id < 2 ^ 16 → writeWaits s (suffixHome id) false false = false →
    (((suffix s id).owner = none ∨ (suffix s id).owner = some s.myPart) → quotaOk s id v = true →
      ∃ r, completes (.sxrst w g d a b) s w g r ∧ suffix r id = { owner := some s.myPart, q := v } ∧
        r.reg d.toNat = BitVec.ofNat 64 (4194304 - reservedPositions s (suffixHome id) id - v) ∧ r.mem = s.mem) ∧
    (((suffix s id).owner = none ∨ (suffix s id).owner = some s.myPart) → v = 0 →
      ∃ r, completes (.sxrst w g d a b) s w g r ∧ suffix r id = {} ∧ (suffix r id).owner = none ∧
        r.reg d.toNat = BitVec.ofNat 64 (4194304 - reservedPositions s (suffixHome id) id) ∧ r.mem = s.mem) ∧
    ((suffix s id).owner = some s.myPart → v / 2 ^ 32 = (suffix s id).n →
      let x := suffix s id
      ∃ r, completes (.sxapp w g d a b) s w g r ∧ r.mem = s.mem ∧ r.reg d.toNat = BitVec.ofNat 64 (x.n + 1) ∧
        (suffix r id).n = x.n + 1 ∧
        (x.n - x.e ≠ x.q → (suffix r id).toks = x.toks ++ [BitVec.ofNat 32 v] ∧ (suffix r id).e = x.e) ∧
        (x.n - x.e = x.q → (suffix r id).toks = x.toks.drop 256 ++ [BitVec.ofNat 32 v] ∧ (suffix r id).e = x.e + 256))

/-- R307: SXQRY of an index of the partition returns the count of candidates and sets ML and CP: the length of the longest
match and the position after its most recent occurrence. That what follows it follows every write that any die knows of is the
model's choice (log 2 DESIGN CHOICE), and so is the number 64 of a system wing (log 100 DESIGN CHOICE). -/
def Sys2Proof.Claims.SxqryFindsTheMatch : Prop :=
  ∀ (s t : State) (w g : B2) (d a b : B6) (l j : Nat), Ready s .wing w g →
    let id := (s.reg a.toNat).toNat
    let v := (s.reg b.toNat).toNat
    let o := v % 2 ^ 32
    let k := v / 2 ^ 32
    let x := suffix s id
    let c := if l = 0 then 0 else min k j
    id < 2 ^ 16 → x.owner = some s.myPart → k ≤ 16 → inScratch s.cur.core o (4 * k) = true → o % 4 = 0 →
    mustWait s (suffixHome id) false false = false → scratchLate s s.cur = false → x.bad = false →
    bestMatch x.toks.reverse (x.toks.reverse.drop 1) 1 (0, 0) = (l, j) →
    writeScratch ((setSuffix s id { x with queries := x.queries + 1 }).modMe (fun y =>
        { y with ml := BitVec.ofNat 64 l, cp := BitVec.ofNat 64 (if l = 0 then x.n else x.n - j) }))
      s.cur.core s.cur.slot o
      ((if l = 0 then [] else (x.toks.drop (x.toks.length - j)).take c).flatMap (fun y => bytesOfNat 4 y.toNat)) = some t →
    completes (.sxqry w g d a b) s w g ((orderAll t s.cur).setReg d.toNat (BitVec.ofNat 64 c) false)

/-- R307: what the search finds. No other earlier position of the index matches more of its end, and no nearer one as
much. -/
def Sys2Proof.Claims.BestMatchIsLongestAndNearest : Prop :=
  ∀ (r : List (BitVec 32)) (l j : Nat), bestMatch r (r.drop 1) 1 (0, 0) = (l, j) →
    (∀ i, 1 ≤ i → i < r.length → commonPrefix r (r.drop i) ≤ l) ∧
    (l ≠ 0 → 1 ≤ j ∧ j < r.length ∧ commonPrefix r (r.drop j) = l ∧ ∀ i, 1 ≤ i → i < j → commonPrefix r (r.drop i) < l)

/-! ## Isolation (R321–R330) -/

/-- R328: PROBE of a range whose pages can all be pinned within the guarantee, with nothing in the core's queues, pins the frame
of each of them once more for the task; a page that cannot be reached, or whose frame would pass the guarantee, is a failed probe
(cause 7) and pins nothing. UNPIN takes off a frame one pin of the task for each page of the range that leads to it, and a frame
at 0 is no longer pinned. -/
def Sys2Proof.Claims.ProbesPinPages : Prop :=
  ∀ (s : State) (w g : B2) (a b : B6), Ready s .wing w g →
    let x := (s.reg a.toNat).toNat
    let n := (s.reg b.toNat).toNat
    let idle := drained s s.cur.core 0 = true ∧ drained s s.cur.core 1 = true
    let mine := s.mySerial.toNat
    let off := fun (p : Pin) => pagesTo s s.myPart (x / 65536) (pagesOf x n) p.frame
    let strong := strongFrames s s.myPart
    (n = 0 → (idle → completes (.probe w g a b) s w g s) ∧ completes (.unpin w g a b) s w g s) ∧
    (x + n ≤ 2 ^ 60 → n ≠ 0 →
      (privilegedPage s x n = none → idle →
        (∀ ps, checkPages s strong (pagesOf x n) (x / 65536) [] = .ok ps →
          (overGuarantee s s.myPart ps strong = none →
            completes (.probe w g a b) s w g
              { s with pins := ps.foldl (fun l e => addPin mine s.myPart l e.2) s.pins }) ∧
          (∀ va, overGuarantee s s.myPart ps strong = some va →
            exec (.probe w g a b) s = .next (takeTrap s s.cur 7 (BitVec.ofNat 64 va)))) ∧
        (∀ va, checkPages s strong (pagesOf x n) (x / 65536) [] = .error (.bad va) →
          exec (.probe w g a b) s = .next (takeTrap s s.cur 7 (BitVec.ofNat 64 va)))) ∧
      ∃ r, completes (.unpin w g a b) s w g r ∧ r = { s with pins := r.pins } ∧
        (∀ p ∈ s.pins, p.serial ≠ mine → 0 < p.count → p ∈ r.pins) ∧
        (∀ p ∈ s.pins, p.serial = mine → off p < p.count → { p with count := p.count - off p } ∈ r.pins) ∧
        (∀ y ∈ r.pins, 0 < y.count ∧ ∃ p ∈ s.pins, p.serial = y.serial ∧ p.part = y.part ∧ p.frame = y.frame ∧
          y.count = if p.serial = mine then p.count - off p else p.count))

/-- R328: a pin that PROBE takes counts one more for a frame that the task has pinned, and is the first of the frame otherwise. -/
def Sys2Proof.Claims.PinsCountUp : Prop :=
  ∀ (serial part frame : Nat) (pins : List Pin),
    let mine := fun (p : Pin) => p.serial = serial ∧ p.frame = frame
    (∀ p ∈ pins, ¬mine p → p ∈ addPin serial part pins frame) ∧
    (∀ p ∈ pins, mine p → { p with count := p.count + 1 } ∈ addPin serial part pins frame) ∧
    ((∀ p ∈ pins, ¬mine p) → ⟨serial, part, frame, 1⟩ ∈ addPin serial part pins frame) ∧
    (∀ p ∈ addPin serial part pins frame, ¬mine p → p ∈ pins)

/-- R324: HNEW within the guarantee, with frames in one home's free pool, makes an object: live, strong count 1, its frames
owned by the partition and reading zero, named by the handle that it returns. Beyond the guarantee it returns 0. -/
def Sys2Proof.Claims.HnewMakesAnObject : Prop :=
  ∀ (s s1 : State) (w g : B2) (d a b : B6) (i id : Nat) (fs : List Nat), Ready s .wing w g →
    let p := s.myPart
    let size := (s.reg a.toNat).toNat
    let f := (s.reg b.toNat).toNat
    let slot := f / 2 ^ 16 % 512
    let space := f / 2 ^ 26 % 4
    let n := (size + 65535) / 65536
    let within := frs s p + n ≤ (s.part p).frg.toNat ∧ frs s p + frw s p + n ≤ (s.part p).frg.toNat + (s.part p).frb.toNat
    size ≠ 0 → size ≤ 2 ^ 32 → f / 2 ^ 28 = 0 → f / 2 ^ 25 % 2 = 0 → f / 16 % 4096 = 0 → space ≤ 1 → mayName s p slot = true →
    (¬within → completes (.hnew w g d a b) s w g (s.setReg d.toNat 0 false)) ∧
    (within → s.draw = (i, s1) → pickHome s1 space n i 16 i = some fs → freeId s1 p (2 ^ 24 - 1) i = some id →
    ∃ r o, completes (.hnew w g d a b) s w g r ∧ seek r.objects (p * 2 ^ 24 + id) = some o ∧ o.live = true ∧ o.count = 1 ∧
      o.size = size ∧ o.frames = fs ∧ o.key = slot ∧ o.prio = BitVec.ofNat 4 (f % 16) ∧
      (∀ e ∈ fs, ownerOf r (frameCode 0 space e) = p ∧ ∀ j < 65536, readByte r.mem (framePhys 0 64 space e 0 + j) = 0) ∧
      r.reg d.toNat = makeHandle o id false)

/-- R323, R324: what HFREE, HUPG, HDNG and HPRI do to the object that a live handle names: a strong HFREE and HDNG take
one from its strong count, HUPG adds one, HPRI sets its priority; an HFREE that leaves the count at 0 destroys it. The clock that
the life word keeps is the model's (log 2 DESIGN CHOICE). -/
def Sys2Proof.Claims.HandlesCountReferences : Prop :=
  ∀ (s : State) (w g : B2) (d a b : B6) (o : Obj), Ready s .wing w g →
    let h := s.reg a.toNat
    let k := s.myPart * 2 ^ 24 + handleId h
    let v := (s.reg b.toNat).toNat
    homeReady s h true = true → liveObj s h = some o →
    let leaves := fun (i : Instr) (x : Obj) (ok : State → Prop) =>
      ∃ r y, completes i s w g r ∧ seek r.objects k = some y ∧ y = { x with clock := y.clock } ∧ r.mem = s.mem ∧ ok r
    (handleWeak h = false → 1 < o.count →
      leaves (.hfree w g d a) { o with count := o.count - 1 } (fun r => r.reg d.toNat = 0)) ∧
    (handleWeak h = true → o.count ≠ 0 → leaves (.hfree w g d a) o (fun r => r.reg d.toNat = 0)) ∧
    ((if handleWeak h then o.count = 0 else o.count = 1) → objPinned s o = false →
      leaves (.hfree w g d a) { o with live := false, gen := o.gen + 1, count := 0, draining := true }
        (fun r => r.reg d.toNat = 1)) ∧
    (handleWeak h = false → o.count ≠ 0 →
      leaves (.hdng w g d a) { o with count := o.count - 1 }
        (fun r => (r.reg d.toNat).getLsbD 59 = true ∧ handleId (r.reg d.toNat) = handleId h)) ∧
    ((o.count ≠ 0 ∨ frs s s.myPart + o.frames.length ≤ (s.part s.myPart).frg.toNat) → o.count ≠ 2 ^ 32 - 1 →
      leaves (.hupg w g d a) { o with count := o.count + 1 }
        (fun r => r.me.gone = false ∧ (r.reg d.toNat).getLsbD 59 = false ∧ handleId (r.reg d.toNat) = handleId h)) ∧
    (v < 16 → leaves (.hpri w g d a b) { o with prio := BitVec.ofNat 4 v }
      (fun r => (r.reg d.toNat).toNat / 2 ^ 60 = v ∧ handleId (r.reg d.toNat) = handleId h ∧
        (handleWeak h = true → r.me.gone = false)))

/-- R325, R326: HLDW through a handle of a live object loads and clears G; through one whose object is gone it loads 0 and
sets G; BGONE branches exactly when G is set. -/
def Sys2Proof.Claims.GoneObjectsAreSeen : Prop :=
  (∀ (s u : State) (w g : B2) (d a b : B6) (o : Obj) (f : Nat) (bs : List Byte), Ready s .wing w g → Present s →
    let h := s.reg a.toNat
    let off := (s.reg b.toNat).toNat
    off % 8 = 0 → homeReady s h false = true →
    let t := readLife s h
    (liveObj s h = none → completes (.hldw w g d a b) s w g (setGone (t.setReg d.toNat 0 false) true)) ∧
    (liveObj s h = some o → o.frames[off / 65536]? = some f →
      readPlace t t.cur t.myPart false ⟨framePhys 0 0 o.space f (off % 65536), objHome o, some o.key, none, false, true⟩ 8 = (u, some bs) →
      completes (.hldw w g d a b) s w g (setGone (u.setReg d.toNat (BitVec.ofNat 64 (natOfBytes bs)) false) false))) ∧
  (∀ (s : State) (w g : B2) (o : BitVec 18), Ready s .wing w g → (s.inLock = true → s.cur.party = .w0) →
    let p := (s.me.pc.toNat : Int) + 4 * o.toInt
    (s.me.gone = false → completes (.bgone w g o) s w g s) ∧
    (s.me.gone = true → 0 ≤ p → p < imemSize s.cur → (s.inLock = true → p % 16 = 0) →
      arrives (.bgone w g o) s p))

/-- R323: the destruction of an object completes when no access to its frames is under way: it keeps no frame, and its
frames, owned by no partition, read 0. -/
def Sys2Proof.Claims.DestructionZeroesFrames : Prop :=
  ∀ (s : State) (part id : Nat) (o : Obj), seek s.objects (part * 2 ^ 24 + id) = some o → o.draining = true →
    o.frames.any (fun f => frameInFlight s o.space f) = false →
    ∃ t, exec (.objectDestruction part id) s = .next t ∧
      seek t.objects (part * 2 ^ 24 + id) = some { o with draining := false, frames := [] } ∧
      (∀ f ∈ o.frames, ownerOf t (frameCode 0 o.space f) = 64 ∧
        ∀ i < 65536, readByte t.mem (framePhys 0 64 o.space f 0 + i) = 0)

/-- R330: WINPUB raises the count, publishes what its die knows besides what has been published before, and hands the writing over where asked, unless a command of the
partition that writes the region is in progress (log 80 DESIGN CHOICE); WINACQ returns the count, and what follows it follows what
was published (log 2 DESIGN CHOICE); WINCLOSE ends the window and revokes its key slot, which holds no key then. A
window that the partition does not share, and a WINPUB of its other side, is a privilege violation with the number as TVAL. -/
def Sys2Proof.Claims.WindowsOpenAndClose : Prop :=
  ∀ (s : State) (w g : B2) (d a b : B6) (x : Window), Ready s .wing w g →
    let n := (s.reg a.toNat).toNat
    let v := s.reg b.toNat
    n ≤ 255 → (sharedWindow s n = none →
      exec (.winpub w g d a b) s = .next (takeTrap s s.cur 2 (BitVec.ofNat 64 n)) ∧
      exec (.winacq w g d a) s = .next (takeTrap s s.cur 2 (BitVec.ofNat 64 n)) ∧
      exec (.winclose w g a) s = .next (takeTrap s s.cur 2 (BitVec.ofNat 64 n))) ∧
    (sharedWindow s n = some x →
    (isWriter s x = false → exec (.winpub w g d a b) s = .next (takeTrap s s.cur 2 (BitVec.ofNat 64 n))) ∧
    (isWriter s x = true → v.toNat < 2 → mustWait s x.home false true = false → (v = 1 → commandInto s s.myPart x = false) →
      ∃ r, completes (.winpub w g d a b) s w g r ∧ r.reg d.toNat = BitVec.ofNat 64 (x.count + 1) ∧ r.mem = s.mem ∧
        seek r.windows n = some { x with count := x.count + 1, published := mergeClock x.published (publication s (dieOf s.cur.core) s.myPart),
                                         importerWrites := if v = 1 then !x.importerWrites else x.importerWrites }) ∧
    (mustWait s x.home true false = false →
      completes (.winacq w g d a) s w g
        ((orderPoint (learnPublished s (dieOf s.cur.core) s.myPart x.published) s.cur).setReg d.toNat (BitVec.ofNat 64 x.count)
          false)) ∧
    (regionBusy s x = false →
      ∃ r, completes (.winclose w g a) s w g r ∧ r.mem = s.mem ∧ (∀ y, seek r.windows n = some y → y.live = false) ∧
        (r.key x.slot).loaded = false ∧ (r.key x.slot).revoked = true))

/-- R329: WINOPEN of a legal record opens the window that it describes under a free number and a free key slot. -/
def Sys2Proof.Claims.WinopenOpensAWindow : Prop :=
  ∀ (s u s1 : State) (w g : B2) (d a : B6) (r : List Byte) (i n slot : Nat), Ready s .wing w g → scratchLate s s.cur = false →
    let o := (s.reg a.toNat).toNat
    let p := s.myPart
    let base := recField r 0 8
    let len := recField r 8 8
    let peer := recField r 16 1
    o % 16 = 0 → inScratch s.cur.core o 32 = true → readScratch s s.cur.core s.cur.slot o 32 = some (u, r) →
    base % 65536 = 0 → len % 65536 = 0 → 65536 ≤ len → len ≤ 2 ^ 32 → peer < 64 → peer ≠ p → p < 64 → recField r 17 1 ≤ 1 →
    recField r 18 14 = 0 → base + len ≤ weightBase →
    (∀ k < len / 65536, ∃ f, frameAt u p (base + k * 65536) = some f ∧ f ∈ strongFrames u p) →
    u.draw = (i, s1) → firstFrom (List.range 256) i (fun k => (seek u.windows k).isNone) = some n →
    firstFrom ((List.range (u.part p).keyn.toNat).map (fun k => (u.part p).keyb.toNat + k)) i
      (fun k => !(u.key k).loaded && !(namedSlots u p).contains k) = some slot →
    (∀ x, x.exporter = p → x.base = base → x.length = len → regionBusy u x = false) →
    ∃ t x, completes (.winopen w g d a) s w g t ∧ t.reg d.toNat = BitVec.ofNat 64 n ∧ t.mem = s.mem ∧
      seek t.windows n = some x ∧ x.exporter = p ∧ x.importer = peer ∧ x.base = base ∧ x.length = len ∧ x.slot = slot ∧
      x.importerWrites = decide (recField r 17 1 = 1) ∧ x.live = true ∧ (t.key slot).loaded = true

/-! ## Budgets (R333–R344, R250) -/

/-- R338, R339, R343, R344: SWPT of the variant in force goes on, and of another goes to that one's point; CLKDIV returns
the old base divisor and sets the new; PGATE asks for the gate and takes the request back; BOOST records the claims of its
mask and returns them. -/
def Sys2Proof.Claims.ClocksGatesAndBoosts : Prop :=
  ∀ (s : State) (w g : B2) (d a b : B6) (k : BitVec 8) (v : BitVec 3), Ready s .wing w g →
    let x := s.reg a.toNat
    let y := s.reg b.toNat
    let here := s.core s.cur.core
    (v.toNat < 3 → taskFlag s 0 = true → switchAt s k.toNat 0 ≠ none → (s.inLock = true → s.cur.party = .w0) →
      (variantOf (s.part s.myPart) = v.toNat → exec (.swpt k v) s = .next (retire s 0 1)) ∧
      (∀ t, variantOf (s.part s.myPart) ≠ v.toNat → switchAt s k.toNat (variantOf (s.part s.myPart)) = some t →
        let to_ := if s.inLock then t / 16 * 16 + 16 else t + 4
        to_ < imemSize s.cur → arrives (.swpt k v) s to_)) ∧
    (x.toNat ≤ 3 → (s.supervisor = true → x.toNat ≠ 1 ∧ x.toNat ≠ 2) → 12 ≤ y.toNat → y.toNat ≤ 48 →
      ∃ r, completes (.clkdiv w g d a b) s w g r ∧ r.reg d.toNat = (baseDivisor here x.toNat).setWidth 64 ∧
        baseDivisor (r.core s.cur.core) x.toNat = y.setWidth 6 ∧ r.mem = s.mem) ∧
    (s.supervisor = false → x = 1 → (s.core (upperOf s.cur.core)).gated = false →
      ∃ r, completes (.pgate w g a) s w g r ∧ (r.core (upperOf s.cur.core)).gatePending = true ∧ r.mem = s.mem) ∧
    (s.supervisor = false → x = 0 →
      ∃ r, completes (.pgate w g a) s w g r ∧ (r.core (upperOf s.cur.core)).gatePending = false ∧
        ((s.core (upperOf s.cur.core)).gated = true → (r.core (upperOf s.cur.core)).waking = true) ∧ r.mem = s.mem) ∧
    (x.toNat < 32 → x.toNat % 16 ≠ 0 → (s.supervisor = true → x.getLsbD 1 = false ∧ x.getLsbD 2 = false) →
      ∃ r, completes (.boost w g d a) s w g r ∧ r.mem = s.mem ∧
        (∀ i < 4, (r.core s.cur.core).claim.getLsbD i =
          if x.getLsbD i then x.getLsbD 4 else here.claim.getLsbD i) ∧
        r.reg d.toNat = (r.core s.cur.core).claim.setWidth 64)

/-- R250, R344: a gate asked for is granted once the core holds nothing; a waking core is no longer gated, and its partition is
charged for it from then on (R335). -/
def Sys2Proof.Claims.GatesCloseAndOpen : Prop :=
  ∀ (s : State) (c : Nat),
    (mayGate s c = true →
      exec (.gateGrant c) s = .next (s.setCore c { s.core c with gatePending := false, gated := true })) ∧
    ((s.core c).waking = true →
      ∃ t, exec (.coreWake c) s = .next t ∧ t = s.setCore c { s.core c with
        waking := false, gated := false, holders := (t.core c).holders } ∧ (s.core c).part.toNat ∈ (t.core c).holders)


/-- R335, R336: at its moment each periodic event of the accounts happens to every partition, and is next due one period
later: the microsecond's charge, for what was measured on the cores that it held ungated and for the bytes that its agents moved,
where an account that it exhausts has every resident task of its partition pre-empted; the millisecond's refill, clamped to the
ceiling; and the grant of a level. What was measured comes from outside (log 19 DESIGN CHOICE), and so does what the rest of the
module drew (log 63 DESIGN CHOICE); how bytes are counted is log 30 (DESIGN CHOICE), and that a grant follows the charge of its
moment is log 96 (DESIGN CHOICE). -/
def Sys2Proof.Claims.AccountsAreKept : Prop :=
  ∀ (s : State) (used : List (Nat × Nat × Nat × Nat)) (rest p : Nat) (q : Partition), seek s.parts p = some q → p < 64 →
    let mine := used.filter (fun u => decide (u.1 < 272) && decide (u.2.1 = p) && decide (u.2.2.2 ≤ u.2.2.1) &&
      (s.core u.1).holders.contains p)
    let bytes := fun (k : Nat) => look 0 s.moved (16 * p + k)
    let cost := q.carry + (mine.map (fun u => u.2.2.1)).sum + 32 * ((List.range 8).map bytes).sum + 250 * bytes 8 +
      200 * (bytes 9 + bytes 10)
    (s.due.energy ≤ s.time → ∃ t, exec (.energyTick used) s = .next t ∧ t.due.energy = s.due.energy + 1000 ∧
      (t.part p).eacc = q.eacc - BitVec.ofNat 64 (cost / 10000000) ∧ (t.part p).carry = cost % 10000000 ∧
      ((t.part p).eacc.toInt ≤ 0 → (t.part p).spent = true) ∧
      (q.spent = false → (t.part p).eacc.toInt ≤ 0 →
        ∀ c k x, k < 2 → (s.ctx c k).task = some x → x.part = p → (t.ctx c k).halting = true) ∧
      t.moved = [] ∧ t.mem = s.mem) ∧
    (s.due.refill ≤ s.time → ∃ t, exec .energyRefill s = .next t ∧ t.due.refill = s.due.refill + 1000000 ∧
      (t.part p).eacc = BitVec.ofInt 64 (min (q.eacc.toInt + q.efill.toNat) q.ecap.toNat) ∧
      (0 < (t.part p).eacc.toInt → (t.part p).spent = false) ∧ t.mem = s.mem) ∧
    (s.due.grant ≤ s.time → s.due.grant < s.due.energy →
      let high := 3 * 10 ^ 12 < s.moduleDraw.sum + rest
      ∃ t, exec (.levelGrant rest) s = .next t ∧ t.due.grant = s.due.grant + 100000 ∧
        (q.created = true → q.ecap ≠ 0 →
          (t.part p).plvl.toNat ≤ q.plcap.toNat ∧ (q.granted = true → high → (t.part p).plvl.toNat ≤ q.plvl.toNat - 1) ∧
          (q.granted = true → ¬high → (t.part p).plvl.toNat ≤ q.plvl.toNat + 1)) ∧ t.mem = s.mem)

/-- R340, R342: an interval of the boost pools and a refill happen at their moments and are next due one period later; a
refill leaves each pool within 64 permits, and no interval raises one. -/
def Sys2Proof.Claims.BoostPoolsAreKept : Prop :=
  ∀ (s : State) (h : Nat), h < 8 →
    (s.due.interval ≤ s.time → s.due.interval < s.due.pool →
      ∃ t, exec .boostInterval s = .next t ∧ t.due.interval = s.due.interval + 4000 ∧ (t.hamper h).pool ≤ (s.hamper h).pool ∧
        t.mem = s.mem) ∧
    (s.due.pool ≤ s.time →
      ∃ t, exec .boostRefill s = .next t ∧ t.due.pool = s.due.pool + 32000 ∧ t.mem = s.mem ∧
        ((s.hamper h).clean = true → (t.hamper h).pool = min 64 ((s.hamper h).pool + 1)) ∧
        ((s.hamper h).clean = false → (t.hamper h).pool = (s.hamper h).pool))

/-! ## Launches (R33, R251–R262, R283–R287, R376) -/

/-- R253, R254: where a queue without a head moves, its next record becomes head and is checked: one that passes is the
head, and of no iterations completes at once; one that fails, or could not be read, is not head and completes with its reject
code. Which of several codes that is, is the model's (log 71 DESIGN CHOICE). -/
def Sys2Proof.Claims.RecordsBecomeHeads : Prop :=
  ∀ (s : State) (p q : Nat) (index : BitVec 32) (r : Option (List Byte)) (rest : List (BitVec 32 × Option (List Byte))),
    let s1 := copyIn s p q
    let s2 := s1.setQueue p q { s1.queue p q with recs := rest }
    queueMoves s p q = true → (s1.queue p q).head = none → (s1.queue p q).recs = (index, r) :: rest →
    (∀ bs l, r = some bs → checkRecord s2 p index bs = .ok l →
      ∃ t, exec (.launchHead p q) s = .next t ∧ t.launches = s2.launches + 1 ∧ (t.queue p q).recs = rest ∧
        (iterations l ≠ 0 → (t.queue p q).head = some l) ∧
        (iterations l = 0 → (t.queue p q).head = none)) ∧
    (∀ bs c, r = some bs → checkRecord s2 p index bs = .error c →
      exec (.launchHead p q) s = .next (completeRecord s2 p q index (recTag r) 1 c 0)) ∧
    (r = none → exec (.launchHead p q) s = .next (completeRecord s2 p q index 0 1 7 0))

/-- R254, R256: what a record that passes makes: a launch none of whose iterations has been handed out. -/
def Sys2Proof.Claims.LaunchesBeginUndone : Prop :=
  ∀ (s : State) (p : Nat) (index : BitVec 32) (bs : List Byte) (l : Launch), checkRecord s p index bs = .ok l →
    l.next = 0 ∧ l.done = 0 ∧ l.failed = 0 ∧ l.cause = none ∧ l.index = index ∧ l.headAt = s.time ∧ l.prio ≤ 11 ∧
    l.levels ≤ 6 ∧ l.levels ≠ 0

/-- R255–R258, R262, R362: the core that is first in turn for the launch that is served first receives its next iteration: the
launch is then one iteration further, and in the core's free slot there is a task of it with the next serial number, for which
the frames of a Cocoon are set aside. -/
def Sys2Proof.Claims.IterationsAreHandedOut : Prop :=
  ∀ (s s1 : State) (core q i slot : Nat) (l : Launch) (fs : List Nat),
    let p := (s.core core).part.toNat
    chosen s core p = some (q, l) → resumable s core l = none → l.superstep = false →
    (∀ c < core, startable s c p l = true → givenTo s p q c = false) →
    freeSlot s core = some slot → s.draw = (i, s1) → cocoonFor s1 core p l.hdr i = some fs →
    ∃ t u, exec (.taskStart core) s = .next t ∧ (t.ctx core slot).task = some u ∧ u.part = p ∧ u.queue = q ∧ u.launch = l.id ∧
      u.serial = BitVec.ofNat 22 s.serial ∧ u.idx = iterationIndex l l.next ∧ u.frames = fs.map (frameCode 0 0) ∧
      t.serial = nextSerial s.serial ∧ (t.queue p q).head = some { l with next := l.next + 1, waited := 0 } ∧
      (∀ f ∈ fs, ownerOf t (frameCode 0 0 f) = p)

/-- R255, R279: of a superstep launch every iteration that it has starts in one step, on the first cores that can take one and are
given to it. -/
def Sys2Proof.Claims.SuperstepLaunchesStartWhole : Prop :=
  ∀ (s t : State) (core q : Nat) (l : Launch),
    let p := (s.core core).part.toNat
    let cores := ((startCores s p l).filter (givenTo s p q)).take (iterations l)
    chosen s core p = some (q, l) → resumable s core l = none → l.superstep = true →
    (∀ c < core, startable s c p l = true → givenTo s p q c = false) → cores.length = iterations l →
    handAll s p q cores = some t → exec (.taskStart core) s = .next t

/-- R262: what a hand-out leaves: the launch one iteration further, and in the core's free slot a task of that launch with
the next serial number, whose wings run at their entry with the iteration's indices, the wing's number and the argument. -/
def Sys2Proof.Claims.HandOutStartsATask : Prop :=
  ∀ (s t : State) (core p q slot : Nat) (l : Launch), (s.queue p q).head = some l → freeSlot s core = some slot →
    handOut s core p q = some t → slot < 2 →
    (t.queue p q).head = some { l with next := l.next + 1, waited := 0 } ∧ t.serial = nextSerial s.serial ∧
    ∃ u, (t.ctx core slot).task = some u ∧ u.part = p ∧ u.queue = q ∧ u.launch = l.id ∧
      u.serial = BitVec.ofNat 22 s.serial ∧ u.idx = iterationIndex l l.next ∧
      ∀ w ∈ wings, let x := t.party ⟨core, slot, w⟩
        x.run = .running ∧ x.pc = BitVec.ofNat 64 (4 * (l.hdr.sections.getD 0 {}).entry) ∧
        (∀ i < 6, look 0 x.regs i = (iterationIndex l l.next).getD i 0) ∧ look 0 x.regs 6 = BitVec.ofNat 64 w.num ∧
        look 0 x.regs 7 = l.args ∧ x.taint = 0

/-- R255, R287: a pre-empted task of the launch that is served first is restored on a core that can take it, where that core, and
the one that the task bound to its column goes to, are given to the launch; and its launch, with that of the task bound to its
column, waits anew (R283). -/
def Sys2Proof.Claims.PreemptedTasksResume : Prop :=
  ∀ (s t : State) (core q : Nat) (l : Launch) (c : Cocoon), chosen s core (s.core core).part.toNat = some (q, l) →
    resumable s core l = some c → resumeAt s core c = some (.ok t) →
    (∀ k ∈ resumeCores s core c, givenTo s (s.core core).part.toNat q k = true) →
    exec (.taskResume core) s = .next ((c :: (mateOf s c).toList).foldl (fun u k => handedBack u k.task) t)

/-- R33, R211: a task whose wings have ended, whose used queues have retired their notifies and whose accesses are performed
is complete: it leaves its slot, and where its launch is still head, the launch counts it and its Lookout begins anew (R252). R254:
the task that ends the last iteration of a launch completes the launch, with status 0, or 2 and the cause of the first context
error that a task of it met, and with the number of its tasks that completed. -/
def Sys2Proof.Claims.TasksComplete : Prop :=
  ∀ (s : State) (core slot : Nat) (t : Task), slot < 2 → (s.ctx core slot).task = some t → taskDone s core slot t = true →
    let p := t.part
    let q := t.queue
    let r := releaseTask s core slot t
    let x := s.queue p q
    (r.ctx core slot).task = none ∧ r.queue p q = x ∧
    ((∀ l, x.head = some l → l.id ≠ t.launch) → exec (.taskCompletion core slot) s = .next r) ∧
    (∀ l, x.head = some l → l.id = t.launch →
      (¬(l.next = iterations l ∧ l.done + 1 + l.failed = iterations l) →
        exec (.taskCompletion core slot) s =
          .next (r.setQueue p q { x with head := some { l with done := l.done + 1 }, lkcnt := 0 })) ∧
      (l.next = iterations l → l.done + 1 + l.failed = iterations l →
        let u := completeRecord (r.setQueue p q { x with head := none, lkcnt := 0 }) p q l.index l.tag
          (if l.cause = none then 0 else 2) (l.cause.getD 0) (l.done + 1)
        exec (.taskCompletion core slot) s = .next (closeRecords u p q) ∧ (u.queue p q).head = none ∧
        (x.closing = [] → (closeRecords u p q).mem = u.mem ∧ (closeRecords u p q).out = u.out ∧
          ((closeRecords u p q).queue p q).head = none)))

/-- R283, R284: a launch that has waited long enough at effective priority 0 has a task of a launch behind it asked to
stop; a task asked to stop, whose engines are done, is saved and leaves its core, with those that go only with it. -/
def Sys2Proof.Claims.TasksArePreempted : Prop :=
  (∀ (s s1 : State) (part i : Nat) (e : Nat × Launch) (v : Nat × Nat × Task), starved s part = some e → s.draw = (i, s1) →
    (victims s part e)[i % (victims s part e).length]? = some v →
    (∀ x ∈ slotsOf s part, (s.ctx x.1 x.2.1).halting = false) →
    exec (.preemptWaitExpiry part) s = .next (haltSlots s1 (preemptGroup s v.1 v.2.1))) ∧
  (∀ (s : State) (core slot : Nat) (t : Task), (s.ctx core slot).task = some t →
    let es := preemptGroup s core slot
    ((s.part t.part).spent = true → (∃ e ∈ es, (s.ctx e.1 e.2).halting = false) →
      exec (.preemption core slot) s = .next (haltSlots s es)) ∧
    (es ≠ [] → (∀ e ∈ es, (s.ctx e.1 e.2).halting = true) → groupSaveable s es = true →
      (∀ u, saveSlots s (mateSerial s) (fun _ => false) es = (u, none) → exec (.preemption core slot) s = .next u) ∧
      (es = [(core, slot)] → slot < 2 → s.flips = [] → spoilt s core slot true true = false →
        ∃ u c, exec (.preemption core slot) s = .next u ∧ (u.ctx core slot).task = none ∧ u.cocoons = s.cocoons ++ [c] ∧
          c.task.serial = t.serial ∧ c.parked = false ∧ c.shared = (s.ctx core slot).sh ∧
          c.parties = savedParties s core slot)))

/-- R254, R374, R375, R376: a completion writes its record of 16 bytes at QCPL, in the entry of its index, or, where the
mapping does not take it, sets QSTAT[3]; either way its interrupt goes out where the queue asks for interrupts; one deferred by
coalescing goes out when its time has passed. -/
def Sys2Proof.Claims.CompletionsInterrupt : Prop :=
  ∀ (s : State) (p q : Nat) (index tag : BitVec 32) (status cause tasks : Nat),
    let x := s.queue p q
    let t := completeRecord s p q index tag status cause tasks
    let va := x.qcpl.toNat + 16 * (index.toNat % 2 ^ (x.qcfg.toNat % 32))
    let record := bytesOfNat 4 tag.toNat ++ bytesOfNat 1 status ++ [0] ++ bytesOfNat 2 cause ++ bytesOfNat 8 tasks
    (∀ at_, va < weightBase → paged s p va = .place at_ → at_.readOnly = false → at_.isRow = false → s.Inv →
      revokedPlace s at_ = false → partWrite s p va (allKnown s) record ≠ none →
      readBytes t.mem at_.phys 16 = record ∧ (t.queue p q).qstat = x.qstat) ∧
    (partWrite s p va (allKnown s) record = none → t.mem = s.mem ∧ (t.queue p q).qstat.getLsbD 3 = true) ∧
    (x.qcfg.getLsbD 29 = true → x.lastInt = none → t.out = s.out ++ [.interrupt p x.qiv]) ∧
    (x.qcfg.getLsbD 29 = false → t.out = s.out) ∧
    (∀ n, x.deferred = true → x.lastInt = some n → n + x.qcfg.toNat / 2 ^ 16 % 256 * 1000 ≤ s.time →
      ∃ u, exec (.interruptCoalesceExpiry p q) s = .next u ∧ u.out = s.out ++ [.interrupt p x.qiv] ∧
        (u.queue p q).deferred = false ∧ (u.queue p q).lastInt = some s.time ∧ u.mem = s.mem)

/-! ## The Hizer link and the fabric (R315, R374–R384) -/

/-- R374, R375: writes of the queue registers take effect from phase 7 on: a base or completion address that is aligned,
while the queue is disabled; a doorbell that does not pass the ring; QSTAT clears the bits written as 1; what breaks these
rules, a doorbell that passes the ring or is of a fabric queue included, only sets a bit of QSTAT. QCFG enables a queue with
its pointers back at 0, and disables it again. -/
def Sys2Proof.Claims.QueueRegistersTakeWrites : Prop :=
  ∀ (s : State) (p q : Nat) (v : Word) (n : BitVec 32) (b : BitVec 8), s.mgmt.mstat.toNat % 16 = 7 → p < 64 → q < 32 →
    let x := s.queue p q
    let on := x.qcfg.getLsbD 31
    let flagged := fun (i : Nat) => Host.Outcome.next (s.setQueue p q { x with qstat := setBit x.qstat i true })
    (on = false → v.toNat % 64 = 0 → exec (.qbase p q v) s = .next (s.setQueue p q { x with qbase := v })) ∧
    (on = true ∨ v.toNat % 64 ≠ 0 → exec (.qbase p q v) s = flagged 1) ∧
    (on = false → v.toNat % 16 = 0 → exec (.qcpl p q v) s = .next (s.setQueue p q { x with qcpl := v })) ∧
    (on = true ∨ v.toNat % 16 ≠ 0 → exec (.qcpl p q v) s = flagged 1) ∧
    (on = false → n.getLsbD 31 = true → 4 ≤ n.toNat % 32 → n.toNat % 32 ≤ 16 →
      exec (.qcfg p q n) s = .next (s.setQueue p q { x with qcfg := n &&& 0xE0FF001F, qrp := 0, qwp := 0 })) ∧
    (on = false → n.getLsbD 31 = true → (n.toNat % 32 < 4 ∨ 16 < n.toNat % 32) → exec (.qcfg p q n) s = flagged 1) ∧
    (on = true → x.qcfg.getLsbD 30 = false → (n - x.qrp).toNat ≤ 2 ^ (x.qcfg.toNat % 32) →
      (n - x.qwp).toNat ≤ 2 ^ (x.qcfg.toNat % 32) →
      exec (.qwp p q n) s = .next (copyIn (s.setQueue p q { x with qwp := n }) p q)) ∧
    (on = false ∨ x.qcfg.getLsbD 30 = true ∨ 2 ^ (x.qcfg.toNat % 32) < (n - x.qrp).toNat ∨
      2 ^ (x.qcfg.toNat % 32) < (n - x.qwp).toNat → exec (.qwp p q n) s = flagged 0) ∧
    (on = true → n.getLsbD 30 = x.qcfg.getLsbD 30 → n.toNat % 32 = x.qcfg.toNat % 32 →
      (n.getLsbD 31 = true → exec (.qcfg p q n) s = .next (s.setQueue p q { x with qcfg := n &&& 0xE0FF001F })) ∧
      (n.getLsbD 31 = false → ∃ t, exec (.qcfg p q n) s = .next t ∧ (t.queue p q).qcfg = n &&& 0xE0FF001F ∧
        (t.queue p q).recs = [])) ∧
    (on = true → (n.getLsbD 30 ≠ x.qcfg.getLsbD 30 ∨ n.toNat % 32 ≠ x.qcfg.toNat % 32) →
      exec (.qcfg p q n) s = flagged 1) ∧
    (on = false → n.getLsbD 31 = false →
      exec (.qcfg p q n) s = .next (s.setQueue p q { x with qcfg := n &&& 0xE0FF001F })) ∧
    exec (.qstat p q b) s = .next (copyIn (s.setQueue p q { x with qstat := x.qstat &&& ~~~b }) p q)

/-- R374, R291: while the link is up a host load returns the bytes of the partition's mapping; a host store of bytes within one
line of a page that the mapping takes writes them; the host maps and unmaps pages of its own function, but no page that the
supervisor has given to rows (R289) and none whose frame a probe has pinned (R328). R321: a mapping that would raise the frames
held strongly above the guarantee is refused. R374, R382: a register of the function's window is read. That an access does nothing
while the link is down (R373), and that what it reads goes to `out`, is the model's choice (log 48 DESIGN CHOICE); so is it that
the host maps and unmaps by an access of its own (log 31 DESIGN CHOICE), and that its accesses wait for what it has learnt of and
are ordered as those of one agent (log 108 DESIGN CHOICE). -/
def Sys2Proof.Claims.HostReachesItsPartition : Prop :=
  ∀ (s : State) (fn va : Nat) (bytes : List Byte) (op : HostOp), fn < 64 →
    (linkUp s = false → exec (.hostAccess fn op) s = .next s) ∧
    (linkUp s = true →
      (∀ size, hostReady s fn va size = false → exec (.hostAccess fn (.load va size)) s = .next s) ∧
      (hostReady s fn va bytes.length = false → exec (.hostAccess fn (.store va bytes)) s = .next s) ∧
      (∀ t size bs, hostReady s fn va size = true → hostRead s fn va size = .ok (t, bs) →
        exec (.hostAccess fn (.load va size)) s = .next { t with out := t.out ++ [.hostLoad fn va (some bs)] }) ∧
      (∀ size e, hostReady s fn va size = true → hostRead s fn va size = .error e →
        exec (.hostAccess fn (.load va size)) s = .next { s with out := s.out ++ [.hostLoad fn va none] }) ∧
      (hostReady s fn va bytes.length = true →
        exec (.hostAccess fn (.store va bytes)) s = .next (hostStore fn (bytes.length / 64 + 2) va bytes s)) ∧
      (∀ p, paged s fn va = .place p → va < weightBase → p.readOnly = false → hitsControl p bytes.length = false →
        va % 64 + bytes.length ≤ 64 → revokedPlace s p = false → s.Inv →
        hostReady s fn va bytes.length = true → writePlace s thePart fn s.hostClock p bytes ≠ none →
        ∃ t, exec (.hostAccess fn (.store va bytes)) s = .next t ∧ readBytes t.mem p.phys bytes.length = bytes ∧
          t.parties = s.parties) ∧
      (∀ sp f, let t := { s with pages := put s.pages (fn * 2 ^ 44 + va) (.frame sp f) }
        va < 2 ^ 44 → pageFree s fn va = true →
        (frs t fn ≤ (s.part fn).frg.toNat → exec (.hostAccess fn (.mapPage va (.frame sp f))) s = .next t) ∧
        ((s.part fn).frg.toNat < frs t fn → frs s fn < frs t fn →
          exec (.hostAccess fn (.mapPage va (.frame sp f))) s = .next s)) ∧
      (va < 2 ^ 44 → pageFree s fn va = true → ∃ t, exec (.hostAccess fn (.unmapPage va)) s = .next t ∧
        t = { s with pages := t.pages } ∧ seek t.pages (fn * 2 ^ 44 + va) = none) ∧
      (pageFree s fn va = false → exec (.hostAccess fn (.unmapPage va)) s = .next s ∧
        ∀ target, exec (.hostAccess fn (.mapPage va target)) s = .next s) ∧
      (∀ q < 32, exec (.hostAccess fn (.register (0x1000 + 64 * q + 0x14))) s =
        .next { s with out := s.out ++ [.hostRegister fn (0x1000 + 64 * q + 0x14) (s.queue fn q).qrp.toNat] }))

/-- R345, R377: a flit that fails its check is sent again, and a request for memory from the fabric is answered as
unsupported; neither changes anything else. -/
def Sys2Proof.Claims.FabricRequestsAreRefused : Prop :=
  ∀ (s : State) (device : Nat) (r : FabricRequest),
    exec .flitCrcError s = .next { s with out := s.out ++ [.resent] } ∧
    exec (.fabricMemoryRequest device r) s = .next { s with out := s.out ++ [.unsupported device] }

/-- R378: a launch packet of a permitted sender for an enabled fabric queue with room is placed at QWP and accepted; any
other is refused, and its queue's QSTAT shows it. -/
def Sys2Proof.Claims.LaunchPacketsArePlaced : Prop :=
  ∀ (s : State) (k : LaunchPacket),
    let x := s.queue k.partition k.queue
    (∀ t, packetFault s k = 0 →
      partWrite s k.partition (x.qbase.toNat + 64 * (x.qwp.toNat % 2 ^ (x.qcfg.toNat % 32))) [] (k.record.take 64) = some t →
      let u := copyIn (t.setQueue k.partition k.queue { x with qwp := x.qwp + 1 }) k.partition k.queue
      exec (.fabricLaunchPacket k) s = .next { u with out := u.out ++ [.launchReply k.sender true 0] }) ∧
    (packetFault s k ≠ 0 → k.partition < 64 → k.queue < 32 →
      ∃ t, exec (.fabricLaunchPacket k) s = .next t ∧ t.mem = s.mem ∧ (t.queue k.partition k.queue).qstat.getLsbD 2 = true ∧
        t.out = s.out ++ [.launchReply k.sender false (packetFault s k)])

/-- R379, R383: at its moment a residency report of every partition goes to each of its schedulers, in phase 7 and in no other. -/
def Sys2Proof.Claims.ResidencyIsReported : Prop :=
  ∀ (s : State), s.due.report ≤ s.time →
    ∃ t, exec .residencyReport s = .next t ∧ t.due.report = s.due.report + 100000 ∧ t.mem = s.mem ∧
      (s.mgmt.mstat.toNat % 16 = 7 → ∀ p q e, (p, q) ∈ s.parts → e ∈ q.schedulers → reportOf s p e ∈ t.out) ∧
      (s.mgmt.mstat.toNat % 16 ≠ 7 → t.out = s.out)

/-- R318, R380, R384: in phase 7 an image or a manifest that verifies is recorded in load order; an image that is refused is
not, and MCAUSE says why; every key of the manifest is in its slot. R381: ATGO writes the attestation at the address given, once
the link is up; what host memory it goes to is the management function's, and the signature in it is no value of the model's
(log 44 DESIGN CHOICE). -/
def Sys2Proof.Claims.ImagesAndManifestsLoad : Prop :=
  ∀ (s : State) (i : Image) (k : KeyManifest),
    (s.mgmt.mstat.toNat % 16 = 7 → imageFault s.mgmt.floor i = none →
      ∃ t, exec (.firmwareImageLoad i) s = .next t ∧ t.mgmt.loaded = s.mgmt.loaded ++ [i.bytes] ∧ t.mem = s.mem ∧
        (∀ d, i.die = some d → d < 16 → (t.die d).image = some i)) ∧
    (∀ reason, s.mgmt.mstat.toNat % 16 = 7 → imageFault s.mgmt.floor i = some reason →
      ∃ t, exec (.firmwareImageLoad i) s = .next t ∧ t.mgmt.loaded = s.mgmt.loaded ∧ t.dies = s.dies ∧
        t.mgmt.mcause = mcauseOf 1 reason s.mgmt.images) ∧
    (s.mgmt.mstat.toNat % 16 = 7 → k.verifies = true →
      ∃ t, exec (.keyManifestLoad k) s = .next t ∧ t.mgmt.loaded = s.mgmt.loaded ++ [k.bytes] ∧ t.mem = s.mem ∧
        (∀ slot n, (slot, n) ∈ k.keys → slot < 512 → (t.key slot).loaded = true ∧ (t.key slot).revoked = false)) ∧
    (s.mgmt.mstat.toNat % 16 ≠ 7 → exec (.firmwareImageLoad i) s = .next s ∧ exec (.keyManifestLoad k) s = .next s) ∧
    (linkUp s = true → s.mgmt.ataddr.toNat % 64 = 0 →
      ∃ t, exec (.atgo 1) s = .next t ∧ t.mgmt.mstat = s.mgmt.mstat ||| 0x100 ∧
        t.mem = writeHost s.mem s.mgmt.ataddr.toNat (attestation s.mgmt)) ∧
    (linkUp s = false ∨ s.mgmt.ataddr.toNat % 64 ≠ 0 → exec (.atgo 1) s = .next s)


/-- R383, R384: POWER_GOOD leaves the module as after reset, in phase 0. Each turn of bring-up passes the phase that the part is in,
and MSTAT shows it. Where no step fails the seventh reaches phase 7: the images' bytes and the manifest's are recorded in load
order, the module has the manifest's device number, the supervisor of every die runs at the entry of its die's image, every
partition has the manifest's limits and sets alone, and all else is as after reset. A step that fails stops it in its phase, with
the reason in MCAUSE; before phase 6 no supervisor runs. The memories of the host keep what they hold, and every other memory
reads 0 until the images are placed. That each phase is a turn of its own is the model's (log 6 DESIGN CHOICE). -/
def Sys2Proof.Claims.BringUpEndsInAPhase : Prop :=
  ∀ (s : State) (b : BringUp),
    ∃ s0, exec (.powerGood b) s = .next s0 ∧ s0.mgmt.mstat = 0 ∧ s0.mgmt.mcause = 0 ∧
      s0 = { State.reset with plan := s.plan, tick := s.tick, fresh := s.fresh, cur := s.cur, mem := hostCells s.mem, mgmt := s0.mgmt } ∧
      (∀ u, play .bringUp u = .next (bringUp u)) ∧
      let after := fun (n : Nat) => bringUp^[n] s0
      (∀ n a, inHost a = true → readByte (after n).mem a = readByte s.mem a) ∧
      (firstFailure b = none →
        (∀ n ≤ 7, (after n).mgmt.mstat = BitVec.ofNat 16 n ∧ (after n).mgmt.mcause = 0) ∧
        let t := after 7
        t.mgmt.loaded = b.images.map (fun i => i.bytes) ++ [b.manifest.bytes] ∧
        t.mgmt.fdev = BitVec.ofNat 12 b.manifest.device ∧ t.mgmt.floor = b.manifest.floor ∧
        (∀ d < 16, (t.party (w0Of d)).run = .running ∧
          ∃ i ∈ b.images, i.die = some d ∧ (t.party (w0Of d)).pc = BitVec.ofNat 64 i.entry ∧ (t.die d).image = some i) ∧
        (∀ core < 272, isSystem core = false → ∀ k < 2, ∀ w, t.party ⟨core, k, w⟩ = State.reset.party ⟨core, k, w⟩ ∧
          t.ctx core k = State.reset.ctx core k) ∧
        (∀ p < 64, let x := t.part p
          x = { State.reset.part p with endpoints := x.endpoints, peers := x.peers, schedulers := x.schedulers, limit := x.limit }) ∧
        t = { State.reset with plan := s.plan, tick := s.tick, fresh := s.fresh, cur := s.cur, mem := t.mem, parties := t.parties,
                               ctxs := t.ctxs, dies := t.dies, parts := t.parts, mgmt := t.mgmt } ∧
        bringUp t = t) ∧
      (∀ phase reason detail, firstFailure b = some (phase, reason, detail) → phase ≤ 6 ∧
        (∀ n ≤ phase, (after n).mgmt.mstat = BitVec.ofNat 16 n ∧ (after n).mgmt.mcause = 0) ∧
        let t := after (phase + 1)
        t.mgmt.mcause = mcauseOf phase reason detail ∧ t.mgmt.mstat = BitVec.ofNat 16 (128 + phase) ∧
        (phase < 6 → t.parties = State.reset.parties ∧ t.mem = hostCells s.mem) ∧ bringUp t = t)

/-! ## Recovery (R331, R345–R369) -/

/-- R351: at a boundary where w0 of a system core may take a record, it takes the first pending one: TRET saves the pc, the
trap registers show the record, TCTL.inh is set, and w0 goes on at TVEC, whatever it waited for given up. Its repetitions and loops
are put aside (log 29 DEDUCED). -/
def Sys2Proof.Claims.RecordsAreTaken : Prop :=
  ∀ (s : State) (die : Nat) (r : Record) (rest : List Record),
    let x := s.party (w0Of die)
    (s.die die).pend = r :: rest → mayTake s die = true →
    ∃ t, exec (.takeRecord die) s = .next t ∧
      (t.party (w0Of die)).tcause = r.cause ∧ (t.party (w0Of die)).tpc = r.tpc ∧ (t.party (w0Of die)).tval = r.tval ∧
      (t.party (w0Of die)).tstat = r.tstat ∧ (t.party (w0Of die)).pc = (s.die die).tvec.setWidth 64 ∧
      (t.party (w0Of die)).regs = x.regs ∧ (t.party (w0Of die)).wait = .no ∧ (t.party (w0Of die)).push = none ∧
      (t.die die).held = some r ∧ (t.die die).repc = x.repc ∧ (t.die die).ls = x.ls ∧ (t.die die).order = x.order ∧ (t.die die).began = x.began ∧
      (t.die die).tret = x.pc.setWidth 16 ∧ (t.die die).inh = true ∧ (t.die die).pend = rest ∧ t.mem = s.mem

/-- R352: what the end of an ERET leaves: TCTL.inh clear, no record held, s[d] the number of records still pending, as TPEND counts
them (modulo 256: log 46 DEDUCED), w0 at TRET with its repetitions and loops as they were at the entry (R37; log 29 DEDUCED), and
every byte of memory as before. -/
def Sys2Proof.Machine.leavesHandler (s u : State) (d : B6) : Prop :=
  let x := s.die (dieOf s.cur.core)
  u.reg d.toNat = BitVec.ofNat 64 (x.pend.length % 256) ∧ u.me.pc = x.tret.setWidth 64 ∧ u.me.repc = x.repc ∧ u.me.ls = x.ls ∧
  u.me.order = x.order ∧ u.me.began = x.began ∧ (u.die (dieOf s.cur.core)).inh = false ∧ (u.die (dieOf s.cur.core)).held = none ∧ u.mem = s.mem

/-- R352: the codes that act 2 of an ERET may give a context error. -/
def Sys2Proof.Machine.legalCode (code : Nat) : Prop := 0x101 ≤ code ∧ code ≤ 0x108 ∨ 0x8000 ≤ code ∧ code < 2 ^ 16

/-- R352: ERET of a trap record, by w0 of a system core whose handler runs. Act 0 runs the held party's word again and act 1
goes on past a TRAP, whether the party is one of the system core or of a task that is still resident; w0's own trap lets it go
on at the trapped word; act 2 ends the task with the code given, of 0x0106 with its core as TVAL (R348). Of a hang record act 2 ends every task of the launch (here one none of
whose tasks is saved) and another act sets the queue's LKCNT to 0. A notice is only put away. Outside the handler, and for
act 3, ERET is an illegal operand; outside supervisor context it is a privilege violation, with TVAL 0 (log 87 DESIGN CHOICE). The
TVAL of a 0x0106 is the core where the task is resident (log 109 DESIGN CHOICE). The record is the one that w0 took,
whatever the handler has written (log 36 DEDUCED). -/
def Sys2Proof.Claims.EretReturns : Prop :=
  (∀ (s : State) (w g : B2) (d a : B6) (r : Record), Ready s .wing w g → isSystem s.cur.core = true →
    s.cur = w0Of (dieOf s.cur.core) → s.cur.core < 272 → s.inLock = false →
    let die := dieOf s.cur.core
    let v := (s.reg a.toNat).toNat
    (s.die die).inh = true → (s.die die).held = some r →
    (∀ p q slot t, r.party = some p →
      (isSystem p.core = true ∧ p ≠ s.cur ∧ q = p ∧ slot = p.slot ∨
        isSystem p.core = false ∧ slotOfSerial s (recSerial r) = some (q.core, slot, t) ∧ q = ⟨q.core, slot, p.party⟩ ∧
        partyKey q ≠ partyKey s.cur) →
      (s.ctx q.core slot).sh.lock = false → slot < 2 → (v = 0 ∨ v = 1 ∧ r.cause = 9) →
      ∃ u, exec (.eret w g d a) s = .next (retire (popToken u w) g 0) ∧ leavesHandler s u d ∧ (u.party q).held = false ∧
        (v = 0 → (u.party q).pc = r.tpc) ∧
        (v = 1 → (s.party q).repc = 0 → (s.party q).order = [] → (u.party q).pc = r.tpc + 4)) ∧
    (r.party = some s.cur → v = 0 →
      ∃ u, exec (.eret w g d a) s = .next (retire (popToken u w) g 0) ∧ u.me.pc = r.tpc ∧
        (u.die die).inh = false ∧ (u.die die).held = none ∧ u.mem = s.mem) ∧
    (∀ p core slot t code, r.party = some p → isSystem p.core = false → v = 2 + code * 2 ^ 16 → legalCode code →
      slotOfSerial s (recSerial r) = some (core, slot, t) → underReset s r.part = false → (s.ctx core slot).dying = none →
      ∃ u, exec (.eret w g d a) s = .next (retire (popToken u w) g 0) ∧ leavesHandler s u d ∧
        (u.ctx core slot).dying = some (code, if code = 0x106 then BitVec.ofNat 64 core else 0)) ∧
    (r.party = none → v = 0 →
      ∃ u, exec (.eret w g d a) s = .next (retire (popToken u w) g 0) ∧ leavesHandler s u d ∧
        (r.cause = 0x10 → (u.queue r.part r.queue).lkcnt = 0) ∧ (r.cause ≠ 0x10 → u.queues = s.queues)) ∧
    (∀ code, r.party = none → r.cause = 0x10 → v = 2 + code * 2 ^ 16 → legalCode code → underReset s r.part = false →
      (∀ c ∈ s.cocoons, c.task.launch ≠ r.launch) → s.ctxs.Pairwise (fun x y => x.1 < y.1) →
      ∃ u, exec (.eret w g d a) s = .next (retire (popToken u w) g 0) ∧ leavesHandler s u d ∧
        ∀ core slot t, slotOfSerial s t.serial.toNat = some (core, slot, t) → t.launch = r.launch →
          (s.ctx core slot).dying = none →
          (u.ctx core slot).dying = some (code, if code = 0x106 then BitVec.ofNat 64 core else 0)) ∧
    (v % 4 = 3 → exec (.eret w g d a) s = .next (takeTrap s s.cur 3 s.curWord))) ∧
  (∀ (s : State) (w g : B2) (d a : B6), Ready s .wing w g →
    (s.supervisor = false → exec (.eret w g d a) s = .next (takeTrap s s.cur 2 0)) ∧
    (s.supervisor = true → (s.die (dieOf s.cur.core)).inh = false →
      exec (.eret w g d a) s = .next (takeTrap s s.cur 3 s.curWord)))

/-- R351: a trap of w0 while its handler runs is a double trap: no record is posted, and w0 goes on no more. -/
def Sys2Proof.Claims.DoubleTrapsStopW0 : Prop :=
  ∀ (s : State) (die : Nat) (i : BitVec 19), die < 16 → s.cur = w0Of die → (s.die die).inh = true →
    ∃ t, exec (.trap i) s = .next t ∧ (t.die die).double = true ∧ (t.die die).pend = (s.die die).pend ∧
      alive t (w0Of die) = false ∧ mayTake t die = false ∧ t.me.regs = s.me.regs ∧ t.mem = s.mem

/-- R351: the restart after a double trap gives the system core a fresh start at its image's entry: its trap registers as after
reset, no record held, and every task that a record on the die held ended with 0x0108 (log 37 DEDUCED), here with all of them
resident. Without a double trap there is none. -/
def Sys2Proof.Claims.SupervisorRestarts : Prop :=
  ∀ (s : State) (die : Nat) (i : Image), die < 16 → (s.die die).image = some i →
    ((s.die die).double = true →
      ∃ t, exec (.supervisorRestart die) s = .next t ∧ (t.party (w0Of die)).run = .running ∧
        (t.party (w0Of die)).pc = BitVec.ofNat 64 i.entry ∧ (t.die die).en = true ∧ (t.die die).inh = false ∧
        (t.die die).double = false ∧ (t.die die).held = none ∧ (t.die die).tvec = 0 ∧ (t.die die).tret = 0 ∧
        (let records := (s.die die).held.toList ++ (s.die die).pend
         s.ctxs.Pairwise (fun x y => x.1 < y.1) → (∀ r ∈ records, cocoonOfSerial s (recSerial r) = none) →
         ∀ r ∈ records, ∀ p core slot u, r.party = some p → isSystem p.core = false →
          slotOfSerial s (recSerial r) = some (core, slot, u) → isSystem core = false → (s.ctx core slot).dying = none →
          (t.ctx core slot).dying = some (0x108, 0))) ∧
    ((s.die die).double = false → exec (.supervisorRestart die) s = .next s)

/-- R354: a task that dies, once its retired stores are performed, leaves its slot, which no task occupies any more, its
parties stopped; its launch counts it as failed with the cause, and a notice goes to its die where the part gives the code
(log 38 DEDUCED). -/
def Sys2Proof.Claims.ContextErrorsEndTasks : Prop :=
  ∀ (s : State) (core slot cause : Nat) (v : Word) (t : Task), slot < 2 → (s.ctx core slot).dying = some (cause, v) →
    (s.ctx core slot).task = some t → columnMate s core slot = none → storesDone s core slot t = true →
    ∃ u, exec (.contextError core slot) s = .next u ∧ (u.ctx core slot).task = none ∧
      (∀ p, p.core = core → p.slot = slot → (u.party p).run ≠ .running) ∧
      (∀ l, (s.queue t.part t.queue).head = some l → l.id = t.launch → l.next < iterations l →
        ∃ m, (u.queue t.part t.queue).head = some m ∧ m.failed = l.failed + 1 ∧ m.cause.isSome = true ∧
          (l.cause = none → m.cause = some cause)) ∧
      (core < 272 → 0x101 ≤ cause → cause ≤ 0x108 → ∃ r, r ∈ (u.die (dieOf core)).pend ∧ r.cause = BitVec.ofNat 16 cause ∧ r.tval = v ∧
        r.party = none ∧ recSerial r = t.serial.toNat)

/-- R355: a lone wing's PHSWAP of a pair that is ready, with every copy drained, exchanges the halves: PHB.front inverts,
the back log becomes the front log and the back log is empty; a waiting wing goes on once the swap has happened. A pair that
is not in order is an illegal operand. -/
def Sys2Proof.Claims.PhasesSwap : Prop :=
  ∀ (s : State) (w g : B2) (n : BitVec 3), Ready s .wing w g → s.cur.slot < 2 →
    let sh := s.myCtx.sh
    let asked := s.modMe (fun x => { x with wait := .phase n.toNat false })
    (s.me.wait = .phase n.toNat true → completes (.phswap w g n) s w g s) ∧
    (s.me.wait ≠ .phase n.toNat true → phbOk s (look 0 sh.phb n.toNat) = false →
      exec (.phswap w g n) s = .next (takeTrap s s.cur 3 s.curWord)) ∧
    (s.supervisor = false → s.me.wait ≠ .phase n.toNat true → phbOk s (look 0 sh.phb n.toNat) = true →
      (∀ q ∈ wings, q ≠ s.cur.party → (s.party ⟨s.cur.core, s.cur.slot, q⟩).run = .ended) →
      (s.inLock = true → s.me.wait = .phase n.toNat false) →
      drained asked s.cur.core s.cur.slot = true →
      (∀ q ∈ allParties, (s.party ⟨s.cur.core, s.cur.slot, q⟩).view.late = []) →
      ∃ u, completes (.phswap w g n) s w g u ∧
        look 0 u.myCtx.sh.phb n.toNat = look 0 sh.phb n.toNat ^^^ BitVec.ofNat 64 (2 ^ 62) ∧
        look [] u.myCtx.sh.front n.toNat = look [] sh.back n.toNat ∧ look [] u.myCtx.sh.back n.toNat = [] ∧
        u.myCtx.checkpoint.isSome = true ∧ u.me.regs = s.me.regs ∧
        ((∀ t, s.myCtx.task = some t → ∀ c ∈ t.frames, (s.part (ownerOf s c)).dlctl.getLsbD 0 = false) → u.mem = s.mem))

/-- R363, R364: CTXSV of a serial that names no task answers 1 and CTXSV of a pre-empted one parks it (0), with the task bound to
its column with it; CTXSV of a resident one stops it with all that go only together with it, and saves them once they may be
(0), but parks the task itself and its column mate alone (log 42 DEDUCED). CTXLD of a serial that names no saved task answers
1, of a parked one with the all-ones target lets it resume (0), and with a core that cannot take it answers 2. Of a context that is
lost CTXSV answers 2 and CTXLD 3 (R365). The task is that of the identifier's serial, and a register with high bits set names none
(log 118 DESIGN CHOICE). -/
def Sys2Proof.Claims.TasksAreParkedAndReleased : Prop :=
  ∀ (s : State) (w g : B2) (d a b : B6), Ready s .wing w g → s.supervisor = true →
    let n := bits (s.reg a.toNat).toNat 31 10
    let answer := fun (t : State) (v : Nat) => t.setReg d.toNat (BitVec.ofNat 64 v) false
    let mark := fun (parked : Bool) => { s with
      cocoons := s.cocoons.map (fun k => if k.task.serial.toNat = n then { k with parked := parked } else k) }
    let alone := fun (c : Cocoon) => c.mate = 0 ∧ c.task.serial.toNat = n
    (¬s.reg a.toNat < BitVec.ofNat 64 (2 ^ 32) →
      completes (.ctxsv w g d a) s w g (answer s 1) ∧ completes (.ctxld w g d a b) s w g (answer s 1)) ∧
    (s.reg a.toNat < BitVec.ofNat 64 (2 ^ 32) →
    (n = 0 ∨ (slotOfSerial s n = none ∧ cocoonOfSerial s n = none) →
      completes (.ctxsv w g d a) s w g (answer s 1)) ∧
    (∀ c, n ≠ 0 → slotOfSerial s n = none → cocoonOfSerial s n = some c →
      (c.parked = true → completes (.ctxsv w g d a) s w g (answer s 1)) ∧
      (c.parked = false → c.lost = true → completes (.ctxsv w g d a) s w g (answer s 2)) ∧
      (c.parked = false → c.lost = false → alone c → completes (.ctxsv w g d a) s w g (answer (mark true) 0)) ∧
      (∀ m, c.parked = false → c.lost = false → mateOf s c = some m → ∃ u, completes (.ctxsv w g d a) s w g (answer u 0) ∧
        ∀ k ∈ u.cocoons, k.task.serial = c.task.serial ∨ k.task.serial = m.task.serial → k.parked = true)) ∧
    (∀ core slot t, n ≠ 0 → slotOfSerial s n = some (core, slot, t) →
      let es := preemptGroup s core slot
      let s1 := haltSlots s es
      ((s.ctx core slot).lost = true → completes (.ctxsv w g d a) s w g (answer s 2)) ∧
      ((s.ctx core slot).lost = false → groupSaveable s1 es = false → exec (.ctxsv w g d a) s = .next (s1.setLast .waiting)) ∧
      (∀ u, (s.ctx core slot).lost = false → groupSaveable s1 es = true →
        saveSlots s1 (mateSerial s) (fun e => ((core, slot) :: (columnMate s core slot).toList).contains e) es = (u, none) →
        completes (.ctxsv w g d a) s w g (answer u 0))) ∧
    (cocoonOfSerial s n = none → completes (.ctxld w g d a b) s w g (answer s 1)) ∧
    (∀ c, cocoonOfSerial s n = some c → (c.parked = false → completes (.ctxld w g d a b) s w g (answer s 1)) ∧
      (c.parked = true → c.lost = true → completes (.ctxld w g d a b) s w g (answer s 3)) ∧
      (c.parked = true → c.lost = false → s.reg b.toNat = BitVec.allOnes 64 → alone c →
        completes (.ctxld w g d a b) s w g (answer (mark false) 0)) ∧
      (c.parked = true → c.lost = false → s.reg b.toNat ≠ BitVec.allOnes 64 →
        (restoreAt s (s.reg b.toNat).toNat c = none → completes (.ctxld w g d a b) s w g (answer s 2)) ∧
        (∀ u, restoreAt s (s.reg b.toNat).toNat c = some (.ok u) → completes (.ctxld w g d a b) s w g (answer u 0)))))

/-- R345, R361: a known-answer budget of 1900 or more becomes due, and of less does not; a check that passes clears it and one
that fails takes both cores of the column out of service; a check waits for the runs in flight. A patrol read of a word without
flipped bits changes nothing, of one with one flipped bit corrects and counts it, and of one with more leaves it. -/
def Sys2Proof.Claims.ChecksAndPatrols : Prop :=
  ∀ (s : State) (core addr : Nat),
    (1900 ≤ (s.core core).katb.toNat → isSystem core = false →
      exec (.katbThreshold core) s = .next (s.setCore core { s.core core with katpend := true })) ∧
    ((s.core core).katb.toNat < 1900 → exec (.katbThreshold core) s = .next s) ∧
    ((s.core core).katpend = true → (∀ o ∈ (s.core core).ops, o.kind ≠ 0) →
      exec (.katCheck core true) s = .next (s.setCore core { s.core core with katb := 0, katpend := false }) ∧
      ∃ t, exec (.katCheck core false) s = .next t ∧ (t.core core).failed = true ∧ (t.core (partnerOf core)).failed = true ∧
        (∀ c k, (c = core ∨ c = partnerOf core) → k < 2 → (s.ctx c k).task ≠ none → (t.ctx c k).dying ≠ none) ∧ t.mem = s.mem) ∧
    ((s.core core).katpend = false ∨ (∃ o ∈ (s.core core).ops, o.kind = 0) →
      ∀ pass, exec (.katCheck core pass) s = .next s) ∧
    (let word_ := addr / protectedSize addr * protectedSize addr
     let f := look 0 s.flips word_
     (f = 0 → exec (.patrolRead addr) s = .next s) ∧
     (f ≠ 0 → popCount 64 f ≠ 1 → exec (.patrolRead addr) s = .next s) ∧
     (f ≠ 0 → popCount 64 f = 1 → ∃ t, exec (.patrolRead addr) s = .next t ∧ t.flips = drop s.flips word_ ∧
        (t.die (dieOfPhys addr)).cecnt = (s.die (dieOfPhys addr)).cecnt + 1 ∧ t.mem = s.mem))

/-- R366, R368: at each whole microsecond the Lookout of a queue counts one up exactly where a task of its head launch has been
eligible throughout, below the limit; the count that reaches the limit is an expiry. It comes after the energy charge of the same
moment, which says whose engines are withheld (log 95 DESIGN CHOICE). The hang record of an expiry is that of the moment at which the
count reaches the limit: it names the launch's task on the lowest core, the one in slot 0 of two there (log 119 DESIGN CHOICE), and
there is none where no task is resident (log 120 DESIGN CHOICE). An expiry sets the queue's LKEXP bit and posts its record to the die of
that task. R332: at each whole millisecond every published counter shows what it had counted at the
millisecond before, in units of 4,096; that it too comes after the charge of the same moment is log 96 (DESIGN CHOICE). -/
def Sys2Proof.Claims.LookoutsCountAndExpire : Prop :=
  ∀ (s : State),
    (s.due.lookout ≤ s.time → s.due.lookout < s.due.energy →
      ∃ t, exec .lookoutTick s = .next t ∧ t.due.lookout = s.due.lookout + 1000 ∧ t.mem = s.mem ∧
      ∀ k x, seek s.queues k = some x → ∃ y, seek t.queues k = some y ∧ y.lklim = x.lklim ∧
        (let rises := ∃ l core slot u, x.head = some l ∧ x.lklim ≠ 0 ∧ x.lkcnt.toNat < x.lklim.toNat ∧
           (core, slot, u) ∈ residents s ∧ u.launch = l.id ∧ (s.ctx core slot).disturbed = false ∧ ineligible s core slot = false
         (rises → y.lkcnt = x.lkcnt + 1 ∧
           (y.lkcnt = x.lklim → y.expiring = x.expiring ++ [hangRecord s (k / 32) (k % 32)]) ∧
           (y.lkcnt ≠ x.lklim → y.expiring = x.expiring)) ∧
         (¬rises → y.lkcnt = x.lkcnt ∧ y.expiring = x.expiring))) ∧
    (∀ part queue l core slot k, (s.queue part queue).head = some l → lowestTask s l.id = some (core, slot, k) → core < 272 →
      slot < 2 →
      ∃ r, hangRecord s part queue = some r ∧ r.cause = 0x10 ∧ r.tval = BitVec.ofNat 64 (part * 2 ^ 8 + queue) ∧ r.party = none ∧
        recCore r = core ∧ recSerial r = k.serial.toNat ∧ r.part = part ∧ r.queue = queue ∧ r.launch = l.id) ∧
    (∀ part queue r rest, (s.queue part queue).expiring = r :: rest → queue < 32 →
      ∃ t, exec (.lookoutExpiry part queue) s = .next t ∧ (t.queue part queue).expiring = rest ∧
        (t.part part).lkexp.getLsbD queue = true ∧ t.mem = s.mem ∧ (r = none → t.dies = s.dies) ∧
        (∀ k, r = some k → (t.die (dieOf (recCore k))).pend = (s.die (dieOf (recCore k))).pend ++ [k])) ∧
    (s.due.publish ≤ s.time → s.due.publish < s.due.energy →
      ∃ t, exec .counterPublish s = .next t ∧ t.due.publish = s.due.publish + 1000000 ∧ t.mem = s.mem ∧
      let published := fun (c e : Count) => e.shown = BitVec.ofNat 48 (c.snap.toNat / 4096) ∧ e.snap = c.exact ∧ e.exact = c.exact
      published s.fabric t.fabric ∧ published s.reclaim t.reclaim ∧
      (∀ d x, seek s.dies d = some x → published x.ring (t.die d).ring) ∧
      (∀ h x, seek s.hampers h = some x → published x.dram (t.hamper h).dram))

/-- R331, R385: the scrub of a column ends with both cores' scratchpads and accumulators reading zero and every register of
their parties zero; the change of a frame's owner ends with the frame reading zero and the new owner in place, and waits for an
earlier change of the same frame and, for a frame of a weight store, for the tasks of both owners on its die. -/
def Sys2Proof.Claims.ScrubsAndReassignmentsEnd : Prop :=
  (∀ (s : State) (core : Nat), core < 272 → isSystem core = false → (s.core core).scrub = true →
    ∃ t, exec (.scrubComplete core) s = .next t ∧
      ∀ c, (c = core ∨ c = partnerOf core) → (t.core c).scrub = false ∧ (t.core c).former = [] ∧
        (∀ o < 4194304, readByte t.mem (phys (tagScratch c) o) = 0) ∧
        (∀ k < 8, ∀ i < 65536, readByte t.mem (tileAddr c k + i) = 0) ∧
        (∀ p, p.core = c → p.slot < 2 → (t.party p).regs = [] ∧ (t.party p).v = [] ∧ (t.party p).vm = 0 ∧
          (t.party p).ports = [] ∧ ∀ k < 4, look 1 (t.party p).cw k = 0) ∧
        (t.core c).fifoA = [] ∧ (t.core c).fifoB = [] ∧ (t.core c).vin = [] ∧ (t.core c).trellis = []) ∧
  (∀ (s : State) (k : Nat) (r : Reassign), s.reassigns[k]? = some r →
    let code := frameCode r.die r.space r.frame
    let earlier := ∃ e ∈ s.reassigns.take k, frameCode e.die e.space e.frame = code
    let used := r.space = 3 ∧ ∃ core slot u, (core, slot, u) ∈ residents s ∧ dieOf core = r.die ∧
      (u.part = ownerOf s code ∨ u.part = r.owner)
    (¬earlier → ¬used →
      ∃ t, exec (.frameReassignComplete k) s = .next t ∧ t.reassigns = s.reassigns.eraseIdx k ∧ ownerOf t code = r.owner ∧
        (∀ i < 65536, readByte t.mem (framePhys r.die 64 r.space r.frame i) = 0)) ∧
    (earlier ∨ used → exec (.frameReassignComplete k) s = .next s))

/-- R369: a partition's reset: when none of its entries runs any more, or 10 µs after it began, its parties stop and its writes
that no home has applied are dropped, with the matrix operations that it had in flight (R370), and none of its trap or hang records stays pending (R372; log 97 DEDUCED);
it then ends with no task of it left, its launches and records completed, its key
slots revoked, the partition locked, its level back at 0 and PRSTAT showing its number. It waits, as WINCLOSE does, for an exporter's
accesses in flight to a window in which it is the importer (R330; log 33 DEDUCED). -/
def Sys2Proof.Claims.PartitionResetsEnd : Prop :=
  ∀ (s : State) (r : Reset), s.resetting = some r →
    (r.step = 2 → partRuns s r.part = false ∨ r.since + 10000 ≤ s.time →
      ∃ t, exec .resetDrainExpiry s = .next t ∧ t.resetting = some { r with step := 3 } ∧ t.mem = s.mem ∧
        (∀ f ∈ t.flights, f.part ≠ r.part) ∧
        (∀ die, ∀ e ∈ (t.die die).pend, e.part = r.part → e.party = none ∧ e.cause ≠ 0x10) ∧
        (∀ core slot u p, (core, slot, u) ∈ slotsOf s r.part → let x := t.party ⟨core, slot, p⟩
          (∀ o ∈ (t.core core).ops, o.slot ≠ slot) ∧ x.run = .off ∧ x.busy = none ∧ x.push = none ∧ x.wait = .no ∧ x.view.late = [])) ∧
    (r.step = 2 → partRuns s r.part = true → s.time < r.since + 10000 → exec .resetDrainExpiry s = .next s) ∧
    (r.step = 3 → windowsQuiet (endTasks s r.part) r.part = false → exec .partitionResetComplete s = .next s) ∧
    (r.step = 3 → windowsQuiet (endTasks s r.part) r.part = true → s.resetDue = [] → r.part < 64 →
      ∃ t, exec .partitionResetComplete s = .next t ∧ t.resetting = none ∧ t.prstat = BitVec.ofNat 8 r.part ∧
        (t.part r.part).locked = true ∧ (t.part r.part).plvl = 0 ∧ (t.part r.part).granted = false ∧
        (∀ core slot u, (core, slot, u) ∈ slotsOf s r.part → (t.ctx core slot).task = none ∧
          ∀ p, (t.party ⟨core, slot, p⟩).run ≠ .running) ∧
        (∀ q < 32, (t.queue r.part q).head = none ∧ (t.queue r.part q).recs = []) ∧
        (∀ i < (s.part r.part).keyn.toNat, (t.key ((s.part r.part).keyb.toNat + i)).revoked = true))

/-- R358: a cancelled phase whose front logs are empty goes back to its checkpoint: the parties are those of the checkpoint, but
for what orders their accesses, and every pair in use is marked retried. A second cancellation in a phase is a context error instead,
and so is a checkpoint that cannot be read back from its frame (log 122 DESIGN CHOICE). While the partition is being reset, nothing
of it runs again (R369). -/
def Sys2Proof.Claims.PhasesAreCancelled : Prop :=
  ∀ (s : State) (core slot : Nat) (t : Task) (k : Checkpoint), slot < 2 → (s.ctx core slot).task = some t →
    (s.ctx core slot).checkpoint = some k →
    (underReset s t.part = true → exec (.phaseCancel core slot) s = .next s) ∧
    (underReset s t.part = false → (s.ctx core slot).cancel = true → (s.ctx core slot).dying = none →
      storesDone s core slot t = true → settled s (dieOf core) = true →
      let ends := ∃ u, exec (.phaseCancel core slot) s = .next u ∧ (u.ctx core slot).dying = some (0x103, 0) ∧
        (u.ctx core slot).cancel = false ∧ u.mem = s.mem
      ((s.ctx core slot).sh.phst.toNat % 256 ≠ 0 → ends) ∧
      ((s.ctx core slot).sh.phst.toNat % 256 = 0 → (∀ n < 8, (s.ctx core slot).sh.short.getLsbD n = false) →
        inCollective s core slot = false → (∀ n < 8, look [] (s.ctx core slot).sh.front n = []) →
        (framesChecked s ((cocoonParts t).take 1) = none → ends) ∧
        (framesChecked s ((cocoonParts t).take 1) ≠ none →
          ∃ u, exec (.phaseCancel core slot) s = .next u ∧ (u.ctx core slot).cancel = false ∧
            (u.ctx core slot).checkpoint = some k ∧ u.mem = s.mem ∧
            (u.ctx core slot).sh.phb = k.shared.phb ∧
            (∀ f : Party → PartyState, k.parties = allParties.map (fun p => (p.num, f p)) → ∀ p,
              u.party ⟨core, slot, p⟩ = { f p with view := (u.party ⟨core, slot, p⟩).view }) ∧
            (∀ n < 8, (u.ctx core slot).sh.phst.getLsbD n =
              (phbValid (look 0 k.shared.phb n) || k.shared.phst.getLsbD n)))))

/-! ## The vector engine (R114–R142, R221, R280–R282) -/

/-- What a vector instruction finds as it issues (R115–R117): its operands are legal; reading the sources in their order
leaves `x` of the registers, the incoming FIFO and the ports, and gives the vectors `vs` and the state `t`; nothing
underflows or stalls; the destination has room. (Port vectors come from the scratchpad, here without a flipped bit.) -/
def Sys2Proof.Machine.operandsRead (s : State) (srcs : List VSource) (d : B5) (x : VFiles) (t : State) (vs : List Vec) : Prop :=
  (∀ e ∈ srcs, sourceOk s e.1 = true) ∧ destOk s d = true ∧ overflows x d = false ∧
  (∃ gs, readSources (filesOf s) srcs = .ok (x, gs) ∧ VGot.stall ∉ gs ∧ fetchAll s gs = some (t, vs)) ∧
  (isVq d = true → vqFree s s.cur.core ≠ 0) ∧ (24 ≤ d.toNat → s.flips = [])

/-- A vector instruction retires: its sources as `operandsRead` leaves them, its result written at the destination (`whole` for
VMOV.A, which writes 16 bytes at one point), and a result's vm in place. -/
def Sys2Proof.Machine.vectorEnds (whole : Bool) (i : Instr) (s : State) (w g : B2) (srcs : List VSource) (d : B5) (x : VFiles)
    (t : State) (o : VOut) : Prop :=
  ∃ u, writeDest (takeFiles t x (srcs.any (fun e => isVq e.1))) d whole o = some u ∧
    exec i s = .next (retire (popToken (match o.vm with | some m => u.modMe (fun y => { y with vm := m }) | none => u) w) g 1)

/-- The same of every instruction but VMOV.A. -/
def Sys2Proof.Machine.vectorDone (i : Instr) (s : State) (w g : B2) (srcs : List VSource) (d : B5) (x : VFiles) (t : State)
    (o : VOut) : Prop := vectorEnds false i s w g srcs d x t o

/-- R114, R116, R121, R122: VADD, VSUB, VMUL, VMIN, VMAX, VFMA and VABS complete. Each element of the result is the exact result on
the elements of the sources, narrowed once into td as the control word says; elements of masked-off lanes are zero. -/
def Obligations.VectorArithmeticResults : Prop :=
  ∀ (s t : State) (w g c : B2) (d a b : B5) (p q : BitVec 1) (x : VFiles) (vs : List Vec), Ready s .vector w g →
    let cw := cwOf s c
    let ta := cwTa cw
    let tb := cwTb cw
    let td := cwTd cw
    let narrow := fun (v : FV) => FV.encode (fmt td) (cwRm cw) (cwSat cw) v
    let narrowInt := fun (v : Int) => encodeInt (8 * typeSize td) (intSigned td (cwSd cw)) (cwSat cw) v
    let fa := FV.read (fmt ta)
    let fb := FV.read (fmt tb)
    let ia := readInt ta (cwSa cw)
    let ib := readInt tb (cwSb cw)
    let n := countOf [ta, tb, td]
    let srcs := [(a, decide (p = 1)), (b, decide (q = 1))]
    let binary := fun (i : Instr) (fo : FV → FV → FV) (io : Int → Int → Int) =>
      vectorDone i s w g srcs d x t (masked s.me.vm 0 (typeSize td)
        (List.zipWith (fun m k => if isFloat ta then narrow (fo (fa m) (fb k)) else narrowInt (io (ia m) (ib k)))
          (elems (src0 vs) 0 (typeSize ta) n) (elems (src1 vs) 0 (typeSize tb) n)))
    (sameFamily [ta, tb, td] = true → operandsRead s srcs d x t vs →
      binary (.vadd w g d a b c p q) (FV.add (cwRm cw)) (· + ·) ∧
      binary (.vsub w g d a b c p q) (fun m k => FV.add (cwRm cw) m k.negate) (· - ·) ∧
      binary (.vmul w g d a b c p q) FV.mul (· * ·) ∧
      binary (.vmin w g d a b c p q) FV.minimum min ∧
      binary (.vmax w g d a b c p q) FV.maximum max) ∧
    (sameFamily [ta, tb, td] = true → isV d = true → operandsRead s (srcs ++ [(d, false)]) d x t vs →
      vectorDone (.vfma w g d a b c p q) s w g (srcs ++ [(d, false)]) d x t (masked s.me.vm 0 (typeSize td)
        ((List.range n).map (fun j =>
          let m := (elems (src0 vs) 0 (typeSize ta) n).getD j 0
          let k := (elems (src1 vs) 0 (typeSize tb) n).getD j 0
          let l := (elems (src2 vs) 0 (typeSize td) n).getD j 0
          if isFloat ta then narrow (FV.add (cwRm cw) (FV.mul (fa m) (fb k)) (FV.read (fmt td) l))
          else narrowInt (ia m * ib k + readInt td (cwSd cw) l))))) ∧
    (sameFamily [ta, td] = true → operandsRead s [(a, decide (p = 1))] d x t vs →
      vectorDone (.vabs w g d a c p) s w g [(a, decide (p = 1))] d x t (masked s.me.vm 0 (typeSize td)
        ((elems (src0 vs) 0 (typeSize ta) (countOf [ta, td])).map (fun m =>
          if isFloat ta then narrow (fa m).abs else narrowInt (ia m).natAbs))))

/-- R114, R124–R127: VAND, VOR, VXOR, VSHL, VSHR, VCMP and VSEL complete with their results; a comparison leaves in bit j of vm the
AND over lane j. That VSEL reads and leaves the low four bits of a B4 code is the model's reading (log 47 DEDUCED). -/
def Obligations.VectorBitsAndComparisons : Prop :=
  ∀ (s t : State) (w g c u : B2) (d a b : B5) (p q : BitVec 1) (x : VFiles) (vs : List Vec), Ready s .vector w g →
    let cw := cwOf s c
    let ta := cwTa cw
    let tb := cwTb cw
    let td := cwTd cw
    let z := typeSize ta
    let srcs := [(a, decide (p = 1)), (b, decide (q = 1))]
    let done := fun (i : Instr) (o : VOut) => vectorDone i s w g srcs d x t o
    let bitwise := fun (f : Nat → Nat → Nat) =>
      masked s.me.vm 0 4 (List.zipWith f (elems (src0 vs) 0 4 64) (elems (src1 vs) 0 4 64))
    let shifted := fun (f : Nat → Nat → Nat) =>
      masked s.me.vm 0 z (List.zipWith f (elems (src0 vs) 0 z (countOf [ta, tb])) (elems (src1 vs) 0 (typeSize tb) (countOf [ta, tb])))
    operandsRead s srcs d x t vs →
    done (.vand w g d a b c p q) (bitwise (· &&& ·)) ∧ done (.vor w g d a b c p q) (bitwise (· ||| ·)) ∧
    done (.vxor w g d a b c p q) (bitwise (· ^^^ ·)) ∧
    (isInt ta = true → isInt tb = true → td = ta →
      done (.vshl w g d a b c p q) (shifted (fun m k => if 8 * z ≤ k then 0 else m * 2 ^ k % 2 ^ (8 * z))) ∧
      done (.vshr w g d a b c p q) (shifted (fun m k =>
        let j := min k (8 * z)
        if intSigned ta (cwSa cw) then (BitVec.ofInt (8 * z) ((BitVec.ofNat (8 * z) m).toInt / 2 ^ j)).toNat else m / 2 ^ j))) ∧
    (sameFamily [ta, tb] = true →
      let n := countOf [ta, tb]
      let y := max z (typeSize tb)
      let bs := (List.range n).map (fun i =>
        laneCmp cw u ((elems (src0 vs) 0 z n).getD i 0) ((elems (src1 vs) 0 (typeSize tb) n).getD i 0))
      ∃ o, done (.vcmp w g d a b c p q u) o ∧ o.keep = 0 ∧ o.data = layout 0 y (bs.map (fun e => if e then 2 ^ (8 * y) - 1 else 0)) ∧
        ∃ vm, o.vm = some vm ∧
          ∀ j < 64, vm.getLsbD j = decide (∀ i < n, i * 64 / n = j → bs.getD i false = true)) ∧
    (vType ta = true → vType tb = true → vType td = true → typeSize tb = z → typeSize td = z →
      let n := countOf [ta, tb, td]
      done (.vsel w g d a b c p q) ⟨layout 0 z ((List.range n).map (fun i =>
        let low := fun (y k : Nat) => if y = 9 then k % 16 else k
        low td (if s.me.vm.getLsbD (i * 64 / n) then low ta ((elems (src0 vs) 0 z n).getD i 0)
          else low tb ((elems (src1 vs) 0 z n).getD i 0)))), 0, none⟩)

/-- R128–R135: conversions (VCVT, VQNT, VDQ), bit-plane packing (VBPK, VBUN) and the functions VRCP, VRSQ, VEXP2 and VLOG2
complete with their results; a factor of VQNT and VDQ multiplies exactly before the one rounding. -/
def Obligations.VectorConversions : Prop :=
  ∀ (s t : State) (w g c k : B2) (d a b : B5) (p q : BitVec 1) (x : VFiles) (vs : List Vec), Ready s .vector w g →
    let cw := cwOf s c
    let ta := cwTa cw
    let td := cwTd cw
    let one := [(a, decide (p = 1))]
    let two := [(a, decide (p = 1)), (b, decide (q = 1))]
    let n := countOf [ta, td]
    let value := fun (m : Nat) => if isFloat ta then FV.read (fmt ta) m else FV.ofInt (readInt ta (cwSa cw) m)
    let into := fun (v : FV) => if isFloat td then FV.encode (fmt td) (cwRm cw) (cwSat cw) v
      else FV.toInteger (8 * typeSize td) (intSigned td (cwSd cw)) (cwSat cw) (cwRm cw) v
    let map1 := fun (so dof z y m : Nat) (f : Nat → Nat) => masked s.me.vm dof y ((elems (src0 vs) so z m).map f)
    (operandsRead s one d x t vs →
      (∀ so dof, (isFloat ta || isInt ta) = true → (isFloat td || isInt td) = true → sliceOf ta td n k.toNat = some (so, dof) →
        vectorDone (.vcvt w g d a c p k) s w g one d x t (map1 so dof (typeSize ta) (typeSize td) n (fun m => into (value m)))) ∧
      (isFloat ta = true → td = 0 → vectorDone (.vrcp w g d a c p) s w g one d x t
        (map1 0 0 (typeSize ta) 4 64 (fun m => recip (FV.read (fmt ta) m)))) ∧
      (isFloat ta = true → isFloat td = true →
        let function := fun (f : Fmt → Nat → Bool → FV → Nat) =>
          map1 0 0 (typeSize ta) (typeSize td) n (fun m => f (fmt td) (cwRm cw) (cwSat cw) (FV.read (fmt ta) m))
        vectorDone (.vrsq w g d a c p) s w g one d x t (function rsqrt) ∧
        vectorDone (.vexp2 w g d a c p) s w g one d x t (function exp2) ∧
        vectorDone (.vlog2 w g d a c p) s w g one d x t (function log2)) ∧
      ((s.reg b.toNat).toNat < 512 →
        let v := (s.reg b.toNat).toNat
        let pl := v % 4
        let wd := v / 4 % 32
        let bl := v / 128
        vectorDone (.vbpk w g d a b c p) s w g one d x t
          ⟨((List.range 64).map (fun i => ((src0 vs).toNat / 2 ^ (8 * (64 * bl + i) + pl) % 2) * 2 ^ (64 * wd + i))).sum, 0, none⟩ ∧
        vectorDone (.vbun w g d a b c p) s w g one d x t
          ⟨layout (64 * bl) 1 ((List.range 64).map (fun i => ((src0 vs).toNat / 2 ^ (64 * wd + i) % 2) * 2 ^ pl)), 0, none⟩)) ∧
    (operandsRead s two d x t vs → cwTb cw = 0 →
      let scaled := fun (so dof : Nat) (f : FV → Nat) (v : Nat → FV) =>
        masked s.me.vm dof (typeSize td) (List.zipWith (fun m e => f (FV.mul (v m) (FV.read fp32 e)))
          (elems (src0 vs) so (typeSize ta) 64) (elems (src1 vs) 0 4 64))
      (ta ≤ 2 → td ∈ [1, 2, 3, 4, 5, 6] → ∀ so dof, sliceOf ta td 64 k.toNat = some (so, dof) →
        vectorDone (.vqnt w g d a b c p q k) s w g two d x t (scaled so dof into value)) ∧
      (ta ≤ 2 → td = 9 → vectorDone (.vqnt w g d a b c p q k) s w g two d x t
        (scaled 0 0 (encodeCode k.toNat (cwRm cw)) value)) ∧
      (ta ∈ [1, 2, 3, 4, 5, 6] → td ≤ 2 → ∀ so dof, sliceOf ta td 64 k.toNat = some (so, dof) →
        vectorDone (.vdq w g d a b c p q k) s w g two d x t (scaled so dof into value)) ∧
      (ta = 9 → td ≤ 2 → vectorDone (.vdq w g d a b c p q k) s w g two d x t
        (scaled 0 0 into (fun m => codeValue k.toNat (m % 16)))))

/-- R136, R137: VRED and VSCAN complete: a reduction broadcasts the reduced set of the unmasked elements, and element i of
a scan is the reduction of the unmasked elements up to i, or before i for the exclusive sum. -/
def Sys2Proof.Claims.ReductionsAndScans : Prop :=
  ∀ (s t : State) (w g c n : B2) (d a : B5) (p : BitVec 1) (x : VFiles) (vs : List Vec), Ready s .vector w g →
    let cw := cwOf s c
    let ts := [cwTa cw, cwTd cw]
    let m := countOf ts
    let es := elems (src0 vs) 0 (typeSize (cwTa cw)) m
    let chosen := fun (f : Nat → Bool) =>
      ((List.range m).filter (fun i => f i && s.me.vm.getLsbD (i * 64 / m))).map (fun i => es.getD i 0)
    sameFamily ts = true → operandsRead s [(a, decide (p = 1))] d x t vs →
    vectorDone (.vred w g d a c p n) s w g [(a, decide (p = 1))] d x t
      ⟨layout 0 (typeSize (cwTd cw)) (List.replicate m (reduceSet cw n.toNat (chosen (fun _ => true)))), 0, none⟩ ∧
    vectorDone (.vscan w g d a c p n) s w g [(a, decide (p = 1))] d x t
      (masked s.me.vm 0 (typeSize (cwTd cw)) ((List.range m).map (fun i =>
        reduceSet cw (n.toNat - 1) (chosen (fun j => if n = 1 then decide (j < i) else decide (j ≤ i))))))

/-- R114, R123, R126, R138, R139, R142: the moves complete: VPERM, both forms of VBCS, VIMM, VADDI, VMOV, VMOV.A and VNOISE. That
VPERM and VBCS read and leave the low four bits of a B4 code is the model's reading (log 47 DEDUCED). -/
def Sys2Proof.Claims.VectorMoves : Prop :=
  ∀ (s t : State) (w g c n : B2) (d a b : B5) (p q : BitVec 1) (i : BitVec 16) (x : VFiles) (vs : List Vec),
    Ready s .vector w g →
    let cw := cwOf s c
    let td := cwTd cw
    let z := typeSize td
    let one := [(a, decide (p = 1))]
    let two := [(a, decide (p = 1)), (b, decide (q = 1))]
    let low := fun (y k : Nat) => if y = 9 then k % 16 else k
    (operandsRead s two d x t vs → vType (cwTa cw) = true → vType td = true → isInt (cwTb cw) = true → typeSize (cwTa cw) = z →
      let m := countOf [cwTa cw, cwTb cw, td]
      vectorDone (.vperm w g d a b c p q) s w g two d x t (masked s.me.vm 0 z
        ((elems (src1 vs) 0 (typeSize (cwTb cw)) m).map (fun j => low td (low (cwTa cw) ((elems (src0 vs) 0 z m).getD (j % m) 0)))))) ∧
    (operandsRead s one d x t vs →
      (vType (cwTa cw) = true → vType td = true → typeSize (cwTa cw) = z →
        let m := countOf [cwTa cw, td]
        vectorDone (.vbcsElement w g d a b c p) s w g one d x t
          (masked s.me.vm 0 z (List.replicate m (low td (low (cwTa cw) ((elems (src0 vs) 0 z m).getD ((s.reg b.toNat).toNat % m) 0)))))) ∧
      vectorDone (.vmov w g d a c p) s w g one d x t (masked s.me.vm 0 4 (elems (src0 vs) 0 4 64)) ∧
      (24 ≤ d.toNat → (∀ y, seek s.me.ports (d.toNat - 24) = some y → portAddr y y.pos % 16 = 0) →
        vectorEnds true (.vmovA w g d a c p) s w g one d x t (masked s.me.vm 0 4 (elems (src0 vs) 0 4 64))) ∧
      (b.toNat % 2 = 0 → b.toNat ≤ 30 → cwTa cw = 7 → td = 0 →
        vectorDone (.vnoise w g d a b c p n) s w g one d x t (masked s.me.vm 0 4
          ((elems (src0 vs) 0 4 64).map (noise (s.reg b.toNat) (s.reg (b.toNat + 1)) (decide (n ≠ 0))))))) ∧
    (operandsRead s [] d x t vs →
      (vType td = true → vectorDone (.vbcsScalar w g d b c) s w g [] d x t
        (masked s.me.vm 0 z (List.replicate (256 / z) (low td ((s.reg b.toNat).toNat % 2 ^ (8 * z)))))) ∧
      (∀ l, immLane (cwOf s 0) i = some l →
        let y := typeSize (cwTb (cwOf s 0))
        vectorDone (.vimm w g d i) s w g [] d x t (masked s.me.vm 0 y (elems (immVec l) 0 y (256 / y))))) ∧
    (operandsRead s [(d, false)] d x t vs → isV d = true →
      let c0 := cwOf s 0
      let m := countOf [cwTb c0, cwTd c0]
      ∀ l, immLane c0 i = some l → sameFamily [cwTb c0, cwTd c0] = true →
        vectorDone (.vaddi w g d i) s w g [(d, false)] d x t (masked s.me.vm 0 (typeSize (cwTd c0))
          (List.zipWith (fun e f =>
            if isFloat (cwTd c0) then
              FV.encode (fmt (cwTd c0)) (cwRm c0) (cwSat c0) (FV.add (cwRm c0) (FV.read (fmt (cwTd c0)) e) (FV.read (fmt (cwTb c0)) f))
            else encodeInt (8 * typeSize (cwTd c0)) (intSigned (cwTd c0) (cwSd c0)) (cwSat c0)
              (readInt (cwTd c0) (cwSd c0) e + readInt (cwTb c0) (cwSb c0) f))
            (elems (src0 vs) 0 (typeSize (cwTd c0)) m) (elems (immVec l) 0 (typeSize (cwTb c0)) m))))

/-- R115–R117: what a vector register does. A read takes its oldest vector, or leaves it under peek; a write adds the
newest; a read of an empty register traps (cause 5) and a write to one that holds four traps (cause 6), with the operand
code as TVAL and nothing changed; an entry that holds an uncorrectable error is not read at all, and its task consumes the
error (R346). R116: the elements of a result under the lane mask. -/
def Obligations.VectorRegistersQueue : Prop :=
  (∀ (x : VFiles) (f : B5) (peek : Bool) (e : VEntry) (es : List VEntry), f.toNat < 20 → look [] x.v f.toNat = e :: es →
    readSource x (f, peek) = some (if peek then x else { x with v := put x.v f.toNat es }, .vec e)) ∧
  (∀ (s u : State) (d : B5) (whole : Bool) (o : VOut), d.toNat < 20 → writeDest s d whole o = some u →
    look [] u.me.v d.toNat = look [] s.me.v d.toNat ++ [⟨BitVec.ofNat 2048 o.data, false⟩] ∧ u.mem = s.mem) ∧
  (∀ (s : State) (w g c : B2) (d a : B5) (p : BitVec 1), Ready s .vector w g →
    a.toNat < min 20 (vregs s) → d.toNat < min 20 (vregs s) →
    (look [] s.me.v a.toNat = [] → exec (.vmov w g d a c p) s = .next (takeTrap s s.cur 5 (a.setWidth 64))) ∧
    (look [] s.me.v a.toNat ≠ [] → a ≠ d → (look [] s.me.v d.toNat).length = 4 →
      exec (.vmov w g d a c p) s = .next (takeTrap s s.cur 6 (d.setWidth 64)))) ∧
  (∀ (s : State) (w g c : B2) (d a : B5) (p : BitVec 1) (e : VEntry) (es : List VEntry), Ready s .vector w g →
    a.toNat < min 20 (vregs s) → d.toNat < min 20 (vregs s) → a ≠ d → look [] s.me.v a.toNat = e :: es → e.bad = true →
    (look [] s.me.v d.toNat).length < 4 →
    exec (.vmov w g d a c p) s = .next ((consume s s.cur.core s.cur.slot).setLast .waiting)) ∧
  (∀ (vm : Word) (o size : Nat) (es : List Nat), 0 < size → o + size * es.length ≤ 256 →
    elems (BitVec.ofNat 2048 (masked vm o size es).data) o size es.length =
      (List.range es.length).map (fun i =>
        if vm.getLsbD (i * 64 / es.length) then es.getD i 0 % 2 ^ (8 * size) else 0))

/-- The vector engine's instructions, each with the destination that it may write. -/
def Sys2Proof.Machine.vectorForm : Instr → Option (Option B5)
  | .vadd _ _ d _ _ _ _ _ | .vsub _ _ d _ _ _ _ _ | .vmul _ _ d _ _ _ _ _ | .vfma _ _ d _ _ _ _ _
  | .vmin _ _ d _ _ _ _ _ | .vmax _ _ d _ _ _ _ _ | .vsel _ _ d _ _ _ _ _ | .vand _ _ d _ _ _ _ _
  | .vor _ _ d _ _ _ _ _ | .vxor _ _ d _ _ _ _ _ | .vshl _ _ d _ _ _ _ _ | .vshr _ _ d _ _ _ _ _
  | .vcmp _ _ d _ _ _ _ _ _ | .vqnt _ _ d _ _ _ _ _ _ | .vdq _ _ d _ _ _ _ _ _ | .vperm _ _ d _ _ _ _ _
  | .vabs _ _ d _ _ _ | .vcvt _ _ d _ _ _ _ | .vbpk _ _ d _ _ _ _ | .vbun _ _ d _ _ _ _ | .vrcp _ _ d _ _ _
  | .vrsq _ _ d _ _ _ | .vexp2 _ _ d _ _ _ | .vlog2 _ _ d _ _ _ | .vred _ _ d _ _ _ _ | .vscan _ _ d _ _ _ _
  | .vbcsElement _ _ d _ _ _ _ | .vbcsScalar _ _ d _ _ | .vimm _ _ d _ | .vmov _ _ d _ _ _ | .vmovA _ _ d _ _ _
  | .vaddi _ _ d _ | .vspop _ _ d _ | .vnoise _ _ d _ _ _ _ _ => some (some d)
  | .vspsh _ _ _ _ _ | .vsbal _ _ _ | .gcfg _ _ _ _ | .grst _ _ _ => some none
  | _ => none

/-- The bytes of the port that a destination names: 256 at the place that its walk has reached. -/
def Sys2Proof.Machine.portBytes (s : State) : Option B5 → List Nat
  | some d =>
    match voperand d with
    | .port n =>
      match seek s.me.ports n with
      | some p => scratchBytes s s.cur.core s.cur.slot (portAddr p p.pos) 256
      | none => []
    | _ => []
  | none => []

/-- What an instruction of an engine may change of residency slots and dies: marks of a trap or of an end to come, the mark of a
task bound to its column, trap records and counted corrections. -/
def Sys2Proof.Machine.engineMarks (s t : State) : Prop :=
  (∀ c k, let x := s.ctx c k
    let y := t.ctx c k
    y = { x with task := y.task, dying := y.dying, cancel := y.cancel, disturbed := y.disturbed } ∧
    y.task.map (fun z => { z with bound := false }) = x.task.map (fun z => { z with bound := false })) ∧
  ∀ d, t.die d = { s.die d with pend := (t.die d).pend, cecnt := (t.die d).cecnt }

/-- The frame of the vector instructions: every byte of memory outside the vector that a destination port stands at reads as
before; of its own party an instruction changes vector registers, vm, ports and what `flowOnly` names, of the other parties only
the latter; of the cores only the vertical FIFOs; of the rest only what `engineMarks` names and, for a stream instruction, its
record stream. -/
def Sys2Proof.Claims.VectorFrame : Prop :=
  ∀ (i : Instr) (o : Option B5) (s t : State), vectorForm i = some o → s.Inv → exec i s = .next t →
    (∀ x, x ∉ portBytes s o → readByte t.mem x = readByte s.mem x) ∧
    t = { s with parties := t.parties, ctxs := t.ctxs, cores := t.cores, dies := t.dies, mem := t.mem, flips := t.flips,
                 seq := t.seq, past := t.past, streams := t.streams, last := t.last } ∧
    (∀ k, k ≠ streamKey (myDie s) s.myPart (k % 32) → look [[]] t.streams k = look [[]] s.streams k) ∧
    flowOnly { s.me with v := (t.party s.cur).v, vm := (t.party s.cur).vm, ports := (t.party s.cur).ports } (t.party s.cur) ∧
    (∀ q, partyKey q ≠ partyKey s.cur → flowOnly (s.party q) (t.party q)) ∧
    (∀ c, t.core c = { s.core c with vin := (t.core c).vin, vfly := (t.core c).vfly }) ∧
    engineMarks s t

/-- R280–R282: a record stream: VSPSH appends the records of the unmasked lanes to the open generation, VSPOP takes up to 64
of the oldest generation and sets vm to as many ones, VSBAL closes the open generation.
That a sealed generation which holds no record takes one pop is the model's choice (log 70 DESIGN CHOICE). -/
def Sys2Proof.Claims.StreamsPushAndPop : Prop :=
  ∀ (s t : State) (w g : B2) (d a n : B5) (p : BitVec 1) (x : VFiles) (vs : List Vec), Ready s .vector w g →
    let st := streamOf s n.toNat
    (operandsRead s [(a, decide (p = 1))] 21 x t vs →
      (st.map List.length).sum + ((List.range 64).filter (fun i => s.me.vm.getLsbD i)).length ≤ 262144 →
      completes (.vspsh w g n a p) s w g (setStream (takeFiles t x (isVq a)) n.toNat (st.dropLast ++ [st.getLastD [] ++
        ((List.range 64).filter (fun i => s.me.vm.getLsbD i)).map (fun i =>
          BitVec.ofNat 32 ((elems (src0 vs) 0 4 64).getD i 0))]))) ∧
    (∀ oldest rest, st = oldest :: rest → operandsRead s [] d x t vs →
      let short := decide (rest = []) && decide (oldest.length < 64)
      let taken := if short then [] else oldest.take 64
      let left := if short then [oldest] else if rest = [] then [oldest.drop 64]
        else if oldest.length ≤ 64 then rest else oldest.drop 64 :: rest
      ∃ r, completes (.vspop w g d n) s w g r ∧ streamOf r n.toNat = left ∧
        (r.me.vm = BitVec.ofNat 64 (2 ^ taken.length - 1)) ∧
        (d.toNat < 20 → look [] r.me.v d.toNat = look [] s.me.v d.toNat ++
          [⟨BitVec.ofNat 2048 (layout 0 4 (taken.map BitVec.toNat)), false⟩])) ∧
    completes (.vsbal w g n) s w g (setStream s n.toNat (st ++ [[]]))

/-- R140, R141, R221: GCFG of a legal record gives the port its walk from the start, GRST puts a configured port back to its
start, and the oldest vector on its way into a column's FIFO becomes poppable. -/
def Sys2Proof.Claims.PortsAreConfigured : Prop :=
  (∀ (s : State) (w g : B2) (d a : B5) (x : Port), Ready s .vector w g → 24 ≤ d.toNat →
    let o := (s.reg a.toNat).toNat
    (∀ t r, o % 16 = 0 → o + 48 ≤ scratchSize s.cur.core → scratchLate s s.cur = false →
      readScratch s s.cur.core s.cur.slot o 48 = some (t, r) → portOf (scratchSize s.cur.core) r = some x →
      completes (.gcfg w g d a) s w g (t.setMe { t.me with ports := put t.me.ports (d.toNat - 24) x }) ∧ x.pos = 0 ∧
      t.me.ports = s.me.ports ∧ t.mem = s.mem ∧
      (s.me.view.lag = 0 → r = peekScratch s s.cur.core s.cur.slot o 48)) ∧
    (seek s.me.ports (d.toNat - 24) = some x →
      completes (.grst w g d) s w g (s.setMe { s.me with ports := put s.me.ports (d.toNat - 24) { x with pos := 0 } }))) ∧
  (∀ (s : State) (core : Nat) (x : VEntry) (rest : List VEntry), (s.core core).vfly = x :: rest →
    exec (.vqEntryArrival core) s = .next (s.setCore core { s.core core with vin := (s.core core).vin ++ [x], vfly := rest }))

/-! ## The matrix engine (R143–R154) -/

/-- R144, R146: MNEST writes its level of the nest; R150: MZERO sets the tiles of its mask to zero and no other byte; R155: MWT
retires where no operation is in flight. -/
def Sys2Proof.Claims.NestsAndZeroTiles : Prop :=
  ∀ (s : State) (w g : B2) (a b : B5), Ready s .matrix w g → taskFlag s 1 = true →
    let v := (s.reg a.toNat).toNat
    ((s.reg b.toNat).toNat < 6 → ∃ r, completes (.mnest w g a b) s w g r ∧ r.mem = s.mem ∧
      look 0 r.myCtx.sh.ns (s.reg b.toNat).toNat = s.reg a.toNat &&& BitVec.ofNat 64 0xFF00FFFFFF) ∧
    (v < 256 → (∀ o ∈ flying s, ∀ t < 8, v.testBit t = true → usesTile t o = false) →
      let zeroed := fun (x : Nat) => ∃ t < 8, v.testBit t = true ∧ tileAddr s.cur.core t ≤ x ∧ x < tileAddr s.cur.core t + 65536
      ∃ r, completes (.mzero w g a) s w g r ∧
        ∀ x, (zeroed x → readByte r.mem x = 0) ∧ (¬zeroed x → readByte r.mem x = readByte s.mem x)) ∧
    (flying s = [] → completes (.mwt w g) s w g s)

/-- R147, R148, R151, R152: MRUN, MLDC and MDRAIN retire as soon as their operation is in flight; the signal token waits for
the operation's end. -/
def Sys2Proof.Claims.MatrixOperationsStart : Prop :=
  ∀ (s : State) (w g : B2) (a b : B5) (c t : B2), Ready s .matrix w g → taskFlag s 1 = true →
    let cw := cwOf s c
    let v := (s.reg a.toNat).toNat
    let o := (s.reg b.toNat).toNat
    let k := bits (look 0 s.myCtx.sh.ns 0).toNat 23 0
    let starts := fun (i : Instr) (op : MatOp) => completes i s w 0 (startOp s op)
    (∀ used off : List (Nat × Int), flying s = [] → v < 8 → k ≠ 0 → bits (look 0 s.myCtx.sh.ns 0).toNat 39 32 = 0 →
      (t ≠ 0 → k % 128 = 0) → runTypes (cwTa cw) (cwTb cw) (cwTd cw) = true →
      (List.range 5).map (fun l => nestLevel (look 0 s.myCtx.sh.ns (l + 1))) = used ++ off →
      (∀ l ∈ used, l.1 ≠ 0) → (∀ l ∈ off, l.1 = 0) → (∀ x ∈ reachTiles used.reverse v, 0 ≤ x ∧ x ≤ 7) →
      let n := k * (used.map (fun l => l.1)).prod
      starts (.mrun w g a c t) ⟨0, s.cur.slot, cw, v, (k, 0) :: used, t.getLsbD 0, t.getLsbD 1,
        ((reachTiles used.reverse v).map Int.toNat).eraseDups, n, n, [], [], 0, false, g⟩) ∧
    (v < 8 → loadTypes (cwTa cw) = true → (∀ x ∈ flying s, usesTile v x = false) →
      starts (.mldc w g a c) ⟨1, s.cur.slot, cw, v, [], false, false, [v], 128, 0, [], [], 0, false, g⟩) ∧
    (v < 16 → o % 4 = 0 → o + 16384 * typeSize (cwTd cw) ≤ scratchSize s.cur.core → drainTypes (cwTa cw) (cwTd cw) = true →
      flying s = [] →
      starts (.mdrain w g a b c)
        ⟨2, s.cur.slot, cw, v % 8, [], false, false, [v % 8], 0, 0, [], [], o, decide (8 ≤ v), g⟩)

/-- R147, R148, R151, R152: an operation that has its entries ends, once its signal token can be pushed (log 111 DESIGN CHOICE). A run
makes its passes in the order of the walk, each over what the tile then holds and the next K entries of both FIFOs, and leaves in every
tile what the passes over it have made; MLDC leaves its 128 rows there; an operation with an entry that holds an uncorrectable
error consumes it instead (R346); MDRAIN leaves the tile's values, narrowed once, in
the scratchpad. -/
def Obligations.MatrixOperationsEnd : Prop :=
  ∀ (s : State) (core : Nat) (o : MatOp) (rest : List MatOp), s.Inv → s.flips = [] → o.tile < 8 →
    opMayEnd s core o = true →
    let at_ := tileAddr core o.tile
    let whole := ∀ e ∈ o.gotA ++ o.gotB, e.bad = false
    let old := quads (readBytes s.mem at_ 65536)
    (∀ (k : Nat) (levels : List (Nat × Int)), firstOp 0 (s.core core).ops = some (o, rest) → o.nest = (k, 0) :: levels →
      let walk := (walkTiles levels.reverse (o.tile : Int)).map Int.toNat
      o.gotA.length = k * walk.length → o.gotB.length = k * walk.length → (∀ t ∈ walk, t ∈ o.tiles) → (∀ t ∈ o.tiles, t < 8) →
      whole →
      let after := fun (t : Nat) => (List.range walk.length).foldl (fun c i =>
          if walk[i]? = some t then pass o.cw o.ta o.tb c ((o.gotA.drop (k * i)).take k) ((o.gotB.drop (k * i)).take k) else c)
        (quads (readBytes s.mem (tileAddr core t) 65536))
      ∃ t, exec (.runComplete core) s = .next t ∧ (t.core core).ops = rest ∧
        (∀ n < 8, readBytes t.mem (tileAddr core n) 65536 = (after n).flatMap (bytesOfNat 4)) ∧
        ∀ x, (∀ n ∈ walk, x < tileAddr core n ∨ tileAddr core n + 65536 ≤ x) → readByte t.mem x = readByte s.mem x) ∧
    (firstOp 1 (s.core core).ops = some (o, rest) → o.gotA.length = 128 → (∀ e ∈ o.gotA, e.elems.length = 128) → whole →
      ∃ t, exec (.mldcComplete core) s = .next t ∧ (t.core core).ops = rest ∧
        readBytes t.mem at_ 65536 = o.gotA.flatMap (fun e => e.elems.flatMap (fun v =>
          bytesOfNat 4 (if isFloat (cwTa o.cw) then FV.encode fp32 0 false (FV.read (fmt (cwTa o.cw)) v)
            else encodeInt 32 true false (readInt (cwTa o.cw) true v)))) ∧
        ∀ x, x < at_ ∨ at_ + 65536 ≤ x → readByte t.mem x = readByte s.mem x) ∧
    (¬whole → (firstOp 0 (s.core core).ops = some (o, rest) → exec (.runComplete core) s = .next (consume s core o.slot)) ∧
      (firstOp 1 (s.core core).ops = some (o, rest) → exec (.mldcComplete core) s = .next (consume s core o.slot))) ∧
    (firstOp 2 (s.core core).ops = some (o, rest) → (s.party ⟨core, o.slot, .m⟩).view.lag = 0 →
      let z := typeSize (cwTd o.cw)
      let place := fun (i : Nat) => scratchPhys s core o.slot (o.offset + i)
      o.offset + 16384 * z ≤ scratchSize core →
      ∃ t, exec (.drainComplete core) s = .next t ∧ (t.core core).ops = rest ∧
        (List.range (16384 * z)).map (fun i => readByte t.mem (place i)) = old.flatMap (fun v => bytesOfNat z (
          if isFloat (cwTa o.cw) then FV.encode (fmt (cwTd o.cw)) (cwRm o.cw) (cwSat o.cw) (FV.read fp32 v)
          else encodeInt (8 * z) (intSigned (cwTd o.cw) (cwSd o.cw)) (cwSat o.cw) (readInt 7 (cwSa o.cw) v))) ∧
        (o.zero = true → ∀ i < 65536, readByte t.mem (at_ + i) = 0) ∧
        ∀ x, (∀ i < 16384 * z, x ≠ place i) → (o.zero = true → x < at_ ∨ at_ + 65536 ≤ x) → readByte t.mem x = readByte s.mem x)

/-- R102: a pass adds its products to the accumulator in groups of 32, in order, the last group holding what is left, each group to what
the one before it left; every product is exact. R106: a group of integer products is added to the accumulator exactly and narrowed once
to INT32, wrapping or saturating. -/
def Obligations.IntegerPassesAdd : Prop :=
  (∀ (sat : Bool) (c : Nat) (a b more moreB : List Int), c < 2 ^ 32 → 0 < a.length → a.length ≤ 32 → b.length = a.length →
    more.length = moreB.length →
    passInt sat c a b = encodeInt 32 true sat ((List.zipWith (· * ·) a b).sum + (BitVec.ofNat 32 c).toInt) ∧
    (a.length = 32 → passInt sat c (a ++ more) (b ++ moreB) = passInt sat (passInt sat c a b) more moreB)) ∧
  (∀ (c : Nat) (a b more moreB : List FV), 0 < a.length → a.length ≤ 32 → b.length = a.length → more.length = moreB.length →
    passReal c a b = group (List.zipWith FV.mul a b ++ [FV.read fp32 c]) ∧
    (a.length = 32 → passReal c (a ++ more) (b ++ moreB) = passReal (passReal c a b) more moreB)) ∧
  (∀ (d e : FEntry) (i j : Nat) (x y : Int) (m n : Bool), d.type ∈ [1, 2, 3, 4, 9] → e.type ∈ [1, 2, 3, 4, 9] →
    entryReal d i = .fin x m → entryReal e j = .fin y n →
    ∃ z k, FV.mul (entryReal d i) (entryReal e j) = .fin z k ∧ z * (unit : Int) = x * y)

/-- The matrix engine's instructions. -/
def Sys2Proof.Machine.isMatrix : Instr → Bool
  | .mnest _ _ _ _ | .mrun _ _ _ _ _ | .mzero _ _ _ | .mldc _ _ _ _ | .mdrain _ _ _ _ _ | .mkat _ _ _ | .msig _ _ _ _
  | .mwt _ _ => true
  | _ => false

/-- Whether an instruction sets the byte at `x` to zero: MZERO, in the tiles of its mask. -/
def Sys2Proof.Machine.zeroes (s : State) (i : Instr) (x : Nat) : Prop :=
  match i with
  | .mzero _ _ a => ∃ t < 8, (s.reg a.toNat).toNat.testBit t = true ∧ tileAddr s.cur.core t ≤ x ∧ x < tileAddr s.cur.core t + 65536
  | _ => False

/-- The register that an instruction of the matrix engine writes: MSIG's destination. -/
def Sys2Proof.Machine.matrixDest : Instr → Option B5
  | .msig _ _ d _ => some d
  | _ => none

/-- The frame of the matrix instructions: outside the tiles that an MZERO clears no byte of memory changes, no register but MSIG's
destination; of the cores only the operand FIFOs, the operations in flight and KATB of the party's own; of the residency slots
besides marks only the nest of MNEST. -/
def Sys2Proof.Claims.MatrixFrame : Prop :=
  ∀ (i : Instr) (s t : State), isMatrix i = true → exec i s = .next t →
    (∀ x, ¬zeroes s i x → readByte t.mem x = readByte s.mem x) ∧
    t = { s with parties := t.parties, ctxs := t.ctxs, cores := t.cores, dies := t.dies, mem := t.mem, flips := t.flips,
                 last := t.last } ∧
    (∀ d, matrixDest i = some d → flowAnd (d.setWidth 6) s.me (t.party s.cur)) ∧
    (matrixDest i = none → flowOnly s.me (t.party s.cur)) ∧
    (∀ q, partyKey q ≠ partyKey s.cur → flowOnly (s.party q) (t.party q)) ∧
    (∀ c, let y := t.core c
      y = { s.core c with ops := y.ops, fifoA := y.fifoA, fifoB := y.fifoB, katb := y.katb } ∧ (c ≠ s.cur.core → y = s.core c)) ∧
    (∀ c k, let x := s.ctx c k
      let y := t.ctx c k
      y = { x with dying := y.dying, cancel := y.cancel, disturbed := y.disturbed, sh := y.sh } ∧ y.sh = { x.sh with ns := y.sh.ns }) ∧
    ∀ d, t.die d = { s.die d with pend := (t.die d).pend, cecnt := (t.die d).cecnt }

/-- R153, R154: MSIG gives the CRC of a tile that no operation in flight changes; MKAT goes on past its three words and
clears the known-answer budget where the signature is the one that the next two words hold, and traps with the signature as
TVAL where it is not. -/
def Sys2Proof.Claims.SignaturesAreChecked : Prop :=
  ∀ (s : State) (w g : B2) (d a : B5), Ready s .matrix w g → taskFlag s 1 = true → s.flips = [] → flying s = [] →
    let v := (s.reg a.toNat).toNat
    let pc := s.me.pc.toNat
    let sig := crc64 (readBytes s.mem (tileAddr s.cur.core v) 65536)
    let want := (wordAt s s.cur (pc + 4)).toNat + 2 ^ 32 * (wordAt s s.cur (pc + 8)).toNat
    v < 8 →
    completes (.msig w g d a) s w g (s.setReg d.toNat sig false) ∧
    (pc + 12 ≤ imemSize s.cur → endsLoop s.me pc = false → endsLoop s.me (pc + 4) = false →
      (sig.toNat = want → exec (.mkat w g a) s =
        .next (retire (popToken (s.modCore s.cur.core (fun c => { c with katb := 0 })) w) g 3)) ∧
      (sig.toNat ≠ want → exec (.mkat w g a) s = .next (takeTrap s s.cur 8 sig)))

/-! ## The copy engines (R229–R241, R309–R311, R356) -/

/-- A copy command that passes every check at issue, no write that its die knows of being under way (R196, R230–R233): the
record at s[a], the descriptors that it names, its
types and places, and a destination that it may write (R330); `cmd` is the command, `t` the state that the reads leave. -/
def Sys2Proof.Machine.copyOrder (s : State) (op : Nat) (a b : B5) (t : State) (cmd : CopyCmd) : Prop :=
  let o := (s.reg a.toNat).toNat
  copyForeign s op a b = false ∧ settled s (myDie s) = true ∧ o % 16 = 0 ∧ o + 208 ≤ scratchSize s.cur.core ∧
  scratchLate s s.cur = false ∧ ∃ s0 r s1 src s2 dst list,
    readScratch s s.cur.core s.cur.slot o 208 = some (s0, r) ∧ recordOk s0 op r = true ∧
    sideTensor s0 (srcScratch op r || decide (op = 2)) (recField r 1 1) (decide (op = 1)) = .ok (s1, src) ∧
    sideTensor s1 (dstScratch op r || decide (op = 5)) (recField r 2 1) false = .ok (s2, dst) ∧
    cmd = ⟨op, r ++ src ++ dst, s0.reg b.toNat⟩ ∧ typesOk op r (copyOf cmd) = true ∧ placesOk s0 op r (copyOf cmd) = true ∧
    readScratch s2 s2.cur.core s2.cur.slot (copyOf cmd).list (copyOf cmd).listSize = some (t, list) ∧
    ∀ x, (copyOf cmd).dst = some x → destFault t x (boxTiles x ((copyOf cmd).spans x list)) = none

/-- R231, R234, R235, R237: XCOPY, XFILL, XGATH and XSCAT begin: the command is in progress, with XSTAT 0 and no chunk done;
XFEED begins likewise. A record that is not aligned traps (cause 4). -/
def Sys2Proof.Claims.CopiesBegin : Prop :=
  ∀ (s t : State) (w g : B2) (a b : B5) (f : BitVec 1) (cmd : CopyCmd), Ready s .copy w g →
    let begins := fun (i : Instr) (op : Nat) =>
      (copyOrder s op a b t cmd → ∃ u, exec i s = .next u ∧ u.last = .waiting ∧ u.me.busy = some (.copy cmd, w, g) ∧
        u.me.xstat = 0 ∧ u.me.xprog = 0 ∧ u.me.pc = s.me.pc ∧ u.mem = s.mem) ∧
      ((s.reg a.toNat).toNat % 16 ≠ 0 → exec i s = .next (takeTrap s s.cur 4 (s.reg a.toNat)))
    begins (.xcopy w g a b) 1 ∧ begins (.xfill w g a b) 2 ∧ begins (.xgath w g a b) 3 ∧ begins (.xscat w g a b) 4 ∧
    (copyOrder s 5 a b t cmd → ∃ u, exec (.xfeed w g a b f) s = .next u ∧ u.last = .waiting ∧
      u.me.busy = some (.feed cmd (decide (f = 1)) 0, w, g) ∧ u.me.pc = s.me.pc ∧ u.mem = s.mem)

/-- R228, R234: a chunk of a copy moves; after the last the command retires, and at a weak source that has been destroyed
the command ends early with XSTAT 1. Of a weak source the die reads the life word first, as an HLDW does (log 2 DESIGN CHOICE). -/
def Sys2Proof.Claims.CopyChunksComplete : Prop :=
  ∀ (s : State) (p : PartyId) (cmd : CopyCmd) (w g : B2), (s.party p).busy = some (.copy cmd, w, g) → goesOn s p = true →
    (s.ctx p.core p.slot).halting = false → settled s (dieOf p.core) = true →
    let c := copyOf cmd
    let s1 := readWeak (s.setCur p) c
    let done := (s.party p).xprog.toNat
    let then_ := fun (u : State) => exec (.copyChunkComplete p) s = .next ((retire (popToken u w) g 1).setCur s.cur)
    (sourceGone s1 c = true → then_ (s1.modMe (fun x => { x with xstat := 1 }))) ∧
    (∀ t, sourceGone s1 c = false → moveChunk s1 c done = .ok (t, false) → done + 1 < 2 ^ 40 →
      (c.chunks ≤ done + 1 → then_ (t.modMe (fun x => { x with xprog := x.xprog + 1 }))) ∧
      (done + 1 < c.chunks → ∃ u, exec (.copyChunkComplete p) s = .next u ∧ u.cur = s.cur ∧
        (u.party p).xprog.toNat = done + 1 ∧ (u.party p).busy = (s.party p).busy ∧ u.mem = t.mem))

/-- R234: a chunk reads its source whole before it writes: a one-dimensional copy of bytes within the scratchpad leaves in
its destination what its source held before, even where the two overlap, and changes nothing else, where the turn lets it read the
present (log 2 DESIGN CHOICE). -/
def Obligations.OverlappingCopiesMoveBytes : Prop :=
  ∀ (s t : State) (m from_ to_ : Nat) (c : Copy), s.Inv → s.me.view.lag = 0 → 0 < m → m ≤ 65536 →
    from_ + m ≤ scratchSize s.cur.core → to_ + m ≤ scratchSize s.cur.core →
    c.op = 1 → c.src = none → c.dst = none → c.n = 1 → c.box = [m] → c.type = 6 →
    c.srcOrg.headD 0 = from_ → c.dstOrg.headD 0 = to_ → moveChunk s c 0 = .ok (t, false) →
    let place := fun (i : Nat) => scratchPhys s s.cur.core s.cur.slot i
    (∀ i < m, readByte t.mem (place (to_ + i)) = readByte s.mem (place (from_ + i))) ∧
    ∀ x, (∀ i < m, x ≠ place (to_ + i)) → readByte t.mem x = readByte s.mem x

/-- R238, R241: XCRC gives the CRC-64 of its bytes; XREF waits for a bank that is free for as long as asked and gives the
time to its next refresh. -/
def Sys2Proof.Claims.ChecksumsAndRefreshTimes : Prop :=
  ∀ (s : State) (w g : B2) (d a b : B5), Ready s .copy w g →
    let o := (s.reg a.toNat).toNat
    let n := (s.reg b.toNat).toNat
    (∀ t bs, o + n ≤ scratchSize s.cur.core → scratchLate s s.cur = false →
      readScratch s s.cur.core s.cur.slot o n = some (t, bs) →
      completes (.xcrc w g d a b) s w g (t.setReg d.toNat (crc64 bs) false) ∧ t.mem = s.mem ∧
      (s.me.view.lag = 0 → bs = peekScratch s s.cur.core s.cur.slot o n)) ∧
    (let next := (40 * (o / 4096 % 96) + 4000 - s.time % 4000) % 4000
     o < 402653184 → n ≤ 3939 → inRefresh s o = false →
      (n ≤ next → completes (.xref w g d a b) s w g (s.setReg d.toNat (BitVec.ofNat 64 next) false)) ∧
      (next < n → exec (.xref w g d a b) s = .next (s.setLast .waiting)))

/-- The copy engines' instructions. -/
def Sys2Proof.Machine.isCopy : Instr → Bool
  | .xcopy _ _ _ _ | .xfill _ _ _ _ | .xgath _ _ _ _ | .xscat _ _ _ _ | .xfeed _ _ _ _ _ | .xtrw _ _ _ | .xtru _ _ _ _
  | .xtrd _ _ _ _ | .xtbld _ _ _ _ | .xtdef _ _ _ _ | .xcrc _ _ _ _ _ | .xws _ _ _ | .xref _ _ _ _ _ => true
  | _ => false

/-- The register that an instruction of a copy engine writes. -/
def Sys2Proof.Machine.copyDest : Instr → Option B5
  | .xcrc _ _ d _ _ | .xref _ _ d _ _ => some d
  | _ => none

/-- The frame of the copy engines' instructions as they issue: no byte of memory changes (a command's bytes come with its events),
no register but the destination of XCRC and XREF; bytes moved are counted; of its own party an instruction changes XSTAT, XPROG
and what `flowOnly` names; of
the cores only its own one's trellis slots and search unit; of the residency slots besides marks only the back logs of PHSWAP
pairs. -/
def Sys2Proof.Claims.CopyFrame : Prop :=
  ∀ (i : Instr) (s t : State), isCopy i = true → exec i s = .next t →
    t = { s with parties := t.parties, ctxs := t.ctxs, cores := t.cores, dies := t.dies, flips := t.flips, moved := t.moved,
                 last := t.last } ∧
    (∀ d, copyDest i = some d → flowAnd (d.setWidth 6) s.me (t.party s.cur)) ∧
    (copyDest i = none → flowOnly { s.me with xstat := (t.party s.cur).xstat, xprog := (t.party s.cur).xprog } (t.party s.cur)) ∧
    (∀ q, partyKey q ≠ partyKey s.cur → flowOnly (s.party q) (t.party q)) ∧
    (∀ c, let y := t.core c
      y = { s.core c with trellis := y.trellis, search := y.search } ∧ (c ≠ s.cur.core → y = s.core c)) ∧
    (∀ c k, let x := s.ctx c k
      let y := t.ctx c k
      y = { x with dying := y.dying, cancel := y.cancel, disturbed := y.disturbed, sh := y.sh } ∧
      y.sh = { x.sh with back := y.sh.back, phst := y.sh.phst }) ∧
    ∀ d < 16, t.die d = { s.die d with pend := (t.die d).pend, cecnt := (t.die d).cecnt }

/-- Whether the byte at `x` lies in the frame of a partition's dirty log (R371). -/
def Sys2Proof.Machine.inDirtyLog (s : State) (part x : Nat) : Prop :=
  let b := (s.part part).dlbase.toNat
  framePhys 0 64 (bits b 42 40) (bits b 39 0) 0 ≤ x ∧ x < framePhys 0 64 (bits b 42 40) (bits b 39 0) 65536

/-- What an engine writes to a tensor lands in the frames that the tensor's tile table names: every byte outside the bytes of the
units written, and outside its partition's dirty log, reads as before. -/
def Sys2Proof.Claims.TensorWritesStayInTiles : Prop :=
  ∀ (s u : State) (t : Tensor) (us : List (List Int × List Byte)) (b : Bool), s.Inv → (∀ e ∈ us, e.2.length ≤ 2048) →
    writeUnits s t us = .ok (u, b) →
    ∀ x, (∀ e ∈ us, ∀ tile n v p k, t.find e.1 = some (tile, n) → tilePlace s t tile (t.unitStart n) = .ok (v, p) →
        k < e.2.length → x ≠ p.phys + k) →
      ¬inDirtyLog s s.myPart x →
      readByte u.mem x = readByte s.mem x

/-! ## Trellis-coded tensors (R157–R183) -/

/-- The definition record of an XTBLD, its fields legal, v = 1 and the whole of it in the scratchpad (R166, R174); no bytes for
another command. -/
def Sys2Proof.Machine.definitionAt (s : State) (op : Nat) (b : Word) (t : State) (d : List Byte) : Prop :=
  if op = 9 then
    b.toNat % 16 = 0 ∧ b.toNat + 16 ≤ scratchSize s.cur.core ∧ readScratch s s.cur.core s.cur.slot b.toNat 16 = some (t, d) ∧
    definitionOk d = true ∧ recField d 2 1 = 1 ∧ b.toNat + definitionSize d ≤ scratchSize s.cur.core
  else t = s ∧ d = []

/-- A trellis command that passes its checks at issue (R165, R166): `r` is its record with the descriptors and, of an XTBLD, the
definition record; `c` is its slot. -/
def Sys2Proof.Machine.trellisOrder (s : State) (op : Nat) (a : B5) (b : Word) (t : State) (r : List Byte) (c : Trellis) : Prop :=
  let o := (s.reg a.toNat).toNat
  trellisForeign s op a b = false ∧ settled s (myDie s) = true ∧ holdsTrellis s = true ∧ o % 16 = 0 ∧
  o + 32 ≤ scratchSize s.cur.core ∧ scratchLate s s.cur = false ∧
  ∃ s0 r0 sd d s1 st s2 v wk,
    readScratch s s.cur.core s.cur.slot o 32 = some (s0, r0) ∧ cmdSlot r0 < 16 ∧ trellisSlot s0 (cmdSlot r0) = some c ∧
    commandOk s0 op r0 c b = true ∧ definitionAt s0 op b sd d ∧ nameTensor sd (recField r0 1 1) false = .ok (s1, st) ∧
    nameValues s1 r0 (valuesUsed op r0 b) = .ok (s2, v) ∧ nameWork s2 op r0 = .ok (t, wk) ∧ r = r0 ++ st ++ v ++ wk ++ d ∧
    tensorsOk op r0 c b (describe st) (valuesOf r) (workOf r) = true ∧
    writtenFault t op r0 c b (describe st) (valuesOf r) (workOf r) = none

/-- R165, R166, R173, R175, R179: XTRW and XTRU take the search unit and are in progress, or wait while it is taken; XTRD is
in progress, and of no elements retires at once; XTBLD takes the unit too, and keeps the definition that it has read at its issue (log
61 DEDUCED). XTDEF of a legal definition loads its slot, which no
command in flight may name. -/
def Sys2Proof.Claims.TrellisCommandsBegin : Prop :=
  ∀ (s t : State) (w g : B2) (a b : B5) (r : List Byte) (c : Trellis), Ready s .copy w g →
    let y := s.reg b.toNat
    let begins := fun (i : Instr) (cmd : Cmd) (search : Option (Nat × Party)) =>
      ∃ u, exec i s = .next u ∧ u.last = .waiting ∧ u.me.busy = some (cmd, w, g) ∧ u.me.pc = s.me.pc ∧ u.mem = s.mem ∧
        (u.core s.cur.core).search = search
    let search := some (s.cur.slot, s.cur.party)
    (trellisOrder s 6 a 0 t r c →
      (searchFree t = true → begins (.xtrw w g a) (.trellis 6 r 0) search) ∧
      (searchFree t = false → exec (.xtrw w g a) s = .next (s.setLast .waiting))) ∧
    (trellisOrder s 7 a y t r c → searchFree t = true → begins (.xtru w g a b) (.trellis 7 r y) search) ∧
    (trellisOrder s 8 a y t r c →
      (y ≠ 0 → begins (.xtrd w g a b) (if cmdDest r = 0 then .trellis 8 r y else .trellisFeed r y 0) (t.core s.cur.core).search) ∧
      (y = 0 → completes (.xtrd w g a b) s w g t)) ∧
    (trellisOrder s 9 a y t r c → searchFree t = true → begins (.xtbld w g a b) (.trellis 9 r y) search) ∧
    (let o := (s.reg a.toNat).toNat
     ∀ s1 h s2 d k, holdsTrellis s = true → o % 16 = 0 → y.toNat < 16 → scratchLate s s.cur = false →
      o + 16 ≤ scratchSize s.cur.core → readScratch s s.cur.core s.cur.slot o 16 = some (s1, h) → definitionOk h = true →
      o + definitionSize h ≤ scratchSize s.cur.core →
      readScratch s1 s1.cur.core s1.cur.slot o (definitionSize h) = some (s2, d) → definitionOf d = some k →
      (slotInUse s2 s.cur.core y.toNat none = false →
        completes (.xtdef w g a b) s w g (s2.modCore s.cur.core (fun x => { x with trellis := put x.trellis y.toNat k }))) ∧
      (slotInUse s2 s.cur.core y.toNat none = true → exec (.xtdef w g a b) s = .next (s.setLast .waiting)))

/-- R167–R176, R181: a trellis command that has its result ends, and gives the search unit back. -/
def Sys2Proof.Claims.TrellisCommandsEnd : Prop :=
  ∀ (s t : State) (p : PartyId) (op : Nat) (r : List Byte) (b : Word) (w g : B2),
    (s.party p).busy = some (.trellis op r b, w, g) → goesOn s p = true → settled s (dieOf p.core) = true →
    (op = 9 → slotInUse s p.core (cmdSlot r) (some p) = false) →
    trellisResult (s.setCur p) op r b = .ok (t, false) →
    exec (.trellisInstructionEnd p) s = .next ((retire (popToken (freeSearch t) w) g 1).setCur s.cur)

/-- R157–R161, R168: what the search finds. For a code whose fields are legal, the windows of its trace from the least state
form a path: each window's upper bits are the state that the one before leaves. -/
def Sys2Proof.Claims.TracesArePaths : Prop :=
  ∀ (t : Trellis) (state : Nat) (rows : List (List (Option Nat))), state < 2 ^ t.m →
    (∀ row ∈ rows, ∀ p ∈ row, ∀ k, p = some k → k < 2 ^ t.b) →
    let r := traceBack t state rows
    r.2.length = rows.length ∧ r.1 < 2 ^ t.m ∧ (∀ u ∈ r.2, u < 2 ^ t.b) ∧
    r.2.foldl (fun x u => (x * 2 ^ t.b + u) % 2 ^ t.m) r.1 = state

/-- R158: packed bits read back as they were, the earliest most significant. -/
def Sys2Proof.Claims.StreamsReadBack : Prop :=
  ∀ (bs : List Bool) (k n v : Nat),
    (k < bs.length → streamBit (packBits bs) k = bs.getD k false) ∧
    (v < 2 ^ n → streamBits (packBits (bs.take k ++ bitsOf n v)) (bs.take k).length n = v)

/-- R182, R183: XWS of a legal record is in progress for supervisor code alone, and its bytes are in the weight store once no
task of the partition is resident on the die. While it is in flight no task of the partition is restored there, and afterwards none that
began before it, whether it is resident elsewhere or saved at the write (log 77 DEDUCED). The
source is read at the write (log 112 DESIGN CHOICE), and the owners of the frames are not tested again (log 113 DESIGN CHOICE). That the
privilege trap has TVAL 0 is the model's choice (log 87 DESIGN CHOICE). -/
def Sys2Proof.Claims.WeightsAreStored : Prop :=
  (∀ (s : State) (w g : B2) (a : B5), s.cur.party.map = .copy → s.supervisor = false →
    exec (.xws w g a) s = .next (takeTrap s s.cur 2 0)) ∧
  (∀ (s : State) (w g : B2) (a : B5), Ready s .copy w g → s.supervisor = true → s.flips = [] → scratchLate s s.cur = false →
    s.me.view.lag = 0 →
    let o := (s.reg a.toNat).toNat
    let r := peekScratch s s.cur.core s.cur.slot o 16
    o % 16 = 0 → o + 16 ≤ scratchSize s.cur.core → weightsOk s r = true →
    ∃ u, exec (.xws w g a) s = .next u ∧ u.last = .waiting ∧ u.mem = s.mem ∧
      u.me.busy = some (.weights (recField r 0 4) (recField r 4 4) (recField r 8 4) (recField r 12 1) s.tick, w, g)) ∧
  (∀ (s : State) (p : PartyId) (src len dst part since : Nat) (w g : B2), s.Inv → s.flips = [] →
    (s.party p).busy = some (.weights src len dst part since, w, g) → goesOn s p = true → settled s (dieOf p.core) = true →
    tasksOn s (dieOf p.core) part = false → isSystem p.core = true → p.slot = 0 → p.core < 272 →
    scratchLate s p = false → (s.party p).view.lag = 0 →
    src + len ≤ 2 ^ 20 → dst + len ≤ 402653184 →
    ∃ u, exec (.weightStoreWriteComplete p) s = .next u ∧ (u.party p).busy = none ∧
      (∀ c k t, (s.ctx c k).task = some t → t.part = part → t.begun < since →
        ∃ y, (u.ctx c k).task = some y ∧ dieOf p.core ∈ y.stale) ∧
      (∀ c ∈ s.cocoons, c.task.part = part → c.task.begun < since →
        ∃ y ∈ u.cocoons, y.task.serial = c.task.serial ∧ dieOf p.core ∈ y.task.stale) ∧
      ∀ i < len, readByte u.mem (phys (tagWeights (dieOf p.core)) (dst + i)) = readByte s.mem (phys (tagScratch p.core) (src + i))) ∧
  (∀ (s : State) (p : PartyId) (src len dst part since : Nat) (w g : B2),
    (s.party p).busy = some (.weights src len dst part since, w, g) → tasksOn s (dieOf p.core) part = true →
    exec (.weightStoreWriteComplete p) s = .next s) ∧
  (∀ (s : State) (core : Nat) (k : Cocoon), dieOf core ∈ k.task.stale → restoreSlot s core k = none ∧
    (k.task.bound = false → restoreAt s core k = none ∧ resumeAt s core k = none)) ∧
  (∀ (s : State) (p : PartyId) (src len dst part since core : Nat) (w g : B2) (k : Cocoon),
    (s.party p).busy = some (.weights src len dst part since, w, g) → p.slot < 2 → dieOf core = dieOf p.core →
    k.task.part = part → restoreSlot s core k = none)

/-! ## The collective engine and Swallowtail (R242–R249, R301–R303) -/

/-- A collective instruction that passes its checks at issue (R243, R244, R330), no write that its die knows of being under way
(R196): `r` is its record with its tensors, `es` its list, `t` the state that the reads leave. -/
def Sys2Proof.Machine.collOrder (s : State) (kind : Nat) (a : B5) (t : State) (r : List Byte) (es : List Nat) : Prop :=
  let o := (s.reg a.toNat).toNat
  collForeign s kind a = false ∧ settled s (myDie s) = true ∧ o % 16 = 0 ∧ o + 48 ≤ scratchSize s.cur.core ∧
  scratchLate s s.cur = false ∧
  ∃ s0 r0 s1 bytes s2 src dst,
    readScratch s s.cur.core s.cur.slot o 48 = some (s0, r0) ∧ collFields s0 kind r0 = true ∧
    readScratch s0 s0.cur.core s0.cur.slot (recField r0 8 4) (2 * recField r0 6 2) = some (s1, bytes) ∧
    es = (List.range (recField r0 6 2)).map (fun i => recField bytes (2 * i) 2) ∧ listOk s1 kind es = true ∧
    nameSide s1 r0 (sendsData kind) (recField r0 0 1) (recSfirst r0) (sourceSpan kind r0) = .ok (s2, src) ∧
    nameSide s2 r0 (takesData kind) (recField r0 1 1) (recDfirst r0) (destSpan kind r0) = .ok (t, dst) ∧
    r = r0 ++ src ++ dst ∧
    ∀ x, collDest r = some x → destFault t x (linearTiles x (recDfirst r0) (destSpan kind r0)) = none

/-- The machine once the messages that the executing queue's instruction over `n` ranks has received are heard (R206). -/
def Sys2Proof.Machine.handedOver (s : State) (n : Nat) : State :=
  (heldMsgs s).foldl heardMsg
    { s with msgs := s.msgs.filter (fun m => !(heldMsgs s).contains m), fresh := s.fresh + 2 * n }

/-- R243, R244, R246: CSEND sends its message and retires; CRECV is in progress; CRED, CGATH, CSAMP, CBCAST at its root and
CA2A send to every other rank and are in progress with their own contribution there, and CBCAST elsewhere without one. Alone in
its set, and at the root of a CBCAST, such an instruction writes its destination and retires. -/
def Sys2Proof.Claims.CollectivesBegin : Prop :=
  ∀ (s t : State) (w g : B2) (a : B5) (r : List Byte) (es : List Nat), Ready s .collective w g →
    let rank := es.findIdx (fun e => decide (e = ownEndpoint s))
    let begun := fun (i : Instr) (kind k : Nat) (u : State) (got : Sparse (List Byte)) =>
      ∃ v, exec i s = .next v ∧ v.last = .waiting ∧ v.me.pc = s.me.pc ∧ v.mem = s.mem ∧
        v.me.busy = some (.coll ⟨kind, r, es, k, 0, got, 0, false, s.tick, false⟩, w, g) ∧ v.msgs = u.msgs ∧ v.out = u.out
    let alone := fun (i : Instr) (kind : Nat) (u : State) (bs : List Byte) =>
      let sent := sendShares u kind r es rank (fun _ => bs)
      ∀ v, writeSide (handedOver sent es.length) r (received u.fresh kind r [(rank, bs)]) = .ok (v, false) →
        completes i s w g (orderPoint (keepSenders (noteDelivered v (heldMsgs sent)) (heldMsgs sent)) v.cur)
    let shares := fun (i : Instr) (kind : Nat) =>
      ∀ u xs, collOrder s kind a t r es → readSide t kind r = .ok (u, xs) →
        let bs := packElems (recType r) xs
        (2 ≤ es.length → begun i kind rank (sendShares u kind r es rank (fun _ => bs)) [(rank, bs)]) ∧
        (es.length = 1 → alone i kind u bs)
    (∀ u xs, collOrder s 1 a t r es → readSide t 1 r = .ok (u, xs) →
      let v := noteSends (sendMsg u (messageTo u 1 r es 0 0 false (packElems (recType r) xs)))
      completes (.csend w g a) s w g (orderPoint v v.cur)) ∧
    (collOrder s 2 a t r es → begun (.crecv w g a) 2 0 t []) ∧
    shares (.cred w g a) 3 ∧ shares (.cgath w g a) 6 ∧ shares (.csamp w g a) 7 ∧
    (∀ u xs, collOrder s 4 a t r es → rank = recField r 0x28 2 → readSide t 4 r = .ok (u, xs) →
      alone (.cbcast w g a) 4 u (packElems (recType r) xs)) ∧
    (collOrder s 4 a t r es → rank ≠ recField r 0x28 2 → begun (.cbcast w g a) 4 rank t []) ∧
    (∀ u xs, collOrder s 5 a t r es → readSide t 5 r = .ok (u, xs) →
      let n := recCount r
      let block := fun (k : Nat) => packElems (recType r) ((xs.drop (n * k)).take n)
      (2 ≤ es.length → begun (.ca2a w g a) 5 rank (sendShares u 5 r es rank block) [(rank, block rank)]) ∧
      (es.length = 1 → alone (.ca2a w g a) 5 u (block rank)))

/-- R247, R248: CFLAG sends its flag to every peer; when the last has answered, none having refused it, it retires; where one has
refused it, its task ends with a collective mismatch (0x0105). A flag waits for its turn and for everything that it names (what
that is: log 59 DEDUCED). -/
def Sys2Proof.Claims.FlagsAreSentAndAnswered : Prop :=
  (∀ (s t : State) (w g : B2) (a b : B5) (r : List Byte) (es : List Nat), Ready s .collective w g → collOrder s 8 a t r es →
    ∃ v, exec (.cflag w g a b) s = .next v ∧ v.last = .waiting ∧ v.me.pc = s.me.pc ∧ v.mem = s.mem ∧
      v.me.busy = some (.coll ⟨8, r, es, 0, s.reg b.toNat, [], 0, false, s.tick, false⟩, w, g) ∧
      v.msgs.length + v.out.length = s.msgs.length + s.out.length + es.length) ∧
  (∀ (s : State) (k : Nat) (m : Msg), s.msgs[k]? = some m →
    (inOrder s m none = false ∨ contextDone s m none = false) → exec (.flagMessageArrival k) s = .next s) ∧
  (∀ (s : State) (k : Nat) (m : Msg) (p : PartyId) (c : Coll) (w g : B2), s.msgs[k]? = some m → m.flag = true →
    inOrder s m none = true → contextDone s m none = true → m.agent = some p →
    (s.party p).busy = some (.coll c, w, g) → c.kind = 8 → c.since = m.since →
    let f := heardMsg { s with msgs := s.msgs.eraseIdx k } m
    let page := look 0 (s.part m.part).flpg (m.dst % 16)
    (page.getLsbD 63 = false → c.answered + 1 < c.list.length →
      exec (.flagMessageArrival k) s =
        .next (f.modParty p (fun x => { x with busy := some (.coll { c with answered := c.answered + 1, refused := true }, w, g) }))) ∧
    (page.getLsbD 63 = false → c.answered + 1 = c.list.length → (s.ctx p.core p.slot).dying = none →
      ∃ t, exec (.flagMessageArrival k) s = .next t ∧ (t.ctx p.core p.slot).dying = some (0x105, 0) ∧ t.mem = s.mem) ∧
    (∀ t, storeFlag f m = some t → c.refused = false → c.answered + 1 = c.list.length →
      exec (.flagMessageArrival k) s = .next ((retire (popToken (t.setCur p) w) g 1).setCur s.cur)))

/-- R244, R246: a message that may be delivered, to an instruction whose count, type and list agree: it is received, and the
instruction goes on waiting, or, all contributions being there, it writes its destination and retires, its messages being delivered
with it; where count or type differ the receiver's task and the sender's, wherever it is, end with a collective mismatch (0x0105),
and where the lists differ the receiver traps (cause 3) without effect: nothing is received, and what it has sent is taken back; one with
whose share another has retired traps no more, and the message stays (log 98 DEDUCED). A message waits for what it names and for the earlier ones of its queue or tag. Which waiting instruction
a message is for and what it waits for is the model's reading (log 59 DEDUCED), and 0x0105 where the count or type of another kind
than CSEND and CRECV differs its choice (log 89 DESIGN CHOICE). -/
def Sys2Proof.Claims.MessagesAreDelivered : Prop :=
  (∀ (s : State) (k : Nat) (m : Msg), s.msgs[k]? = some m →
    (∀ x, receiverOf s m = some x → inOrder s m (some x.1) = false ∨ contextDone s m (some x.1) = false) →
    exec (.collectiveMessageArrival k) s = .next s) ∧
  ∀ (s : State) (k : Nat) (m : Msg) (p : PartyId) (c : Coll) (w g : B2), s.msgs[k]? = some m → m.flag = false → m.holder = none →
    inOrder s m (some p) = true → contextDone s m (some p) = true → settled s (m.dst % 16) = true →
    receiverOf s m = some (p, c, w, g) → (s.party p).busy = some (.coll c, w, g) → goesOn s p = true →
    let c1 := { c with got := put c.got (if m.kind = 1 then 0 else m.fromRank) m.bytes }
    let held := s.msgs.map (fun h => if h = m then { h with holder := some p } else h)
    let f := { s with msgs := held }.setCur p
    ((m.count ≠ recCount c.record ∨ m.type ≠ recType c.record) →
      (m.agent = none ∨ cocoonOfSerial s m.serial = none →
        ∃ t, exec (.collectiveMessageArrival k) s = .next t ∧ (t.ctx p.core p.slot).dying = some (0x105, 0) ∧
          (∀ a core slot u, m.agent = some a → slotOfSerial s m.serial = some (core, slot, u) → (s.ctx core slot).dying = none →
            (t.ctx core slot).dying = some (0x105, 0)) ∧
          t.msgs = s.msgs.filter (fun h => decide (h ≠ m)) ∧ t.mem = s.mem) ∧
      (∀ a x, m.agent = some a → slotOfSerial s m.serial = none → cocoonOfSerial s m.serial = some x →
        ∃ t, exec (.collectiveMessageArrival k) s = .next t ∧ ∀ y ∈ t.cocoons, y.task.serial ≠ x.task.serial)) ∧
    (m.count = recCount c.record → m.type = recType c.record → m.kind ≠ 1 → m.list ≠ c.list → c.kept = true → m.agent = none →
      exec (.collectiveMessageArrival k) s = .next s) ∧
    (m.count = recCount c.record → m.type = recType c.record → m.kind ≠ 1 → m.list ≠ c.list → c.kept = false →
      ∃ t, exec (.collectiveMessageArrival k) s = .next t ∧ (t.party p).tcause = 3 ∧ (t.party p).held = true ∧
        (t.party p).busy = none ∧ (t.party p).pc = (s.party p).pc ∧ t.heard = s.heard ∧ (m.agent = none → m ∈ t.msgs) ∧
        (∀ h ∈ t.msgs, h.agent = some p → h.since ≠ c.since) ∧ t.mem = s.mem) ∧
    (m.count = recCount c.record → m.type = recType c.record → (m.kind = 1 ∨ m.list = c.list) →
      (c1.got.length < wanted c1 →
        ∃ t, exec (.collectiveMessageArrival k) s = .next t ∧ (t.party p).busy = some (.coll c1, w, g) ∧ t.msgs = held ∧
          t.mem = s.mem) ∧
      (∀ u, wanted c1 ≤ c1.got.length →
        writeSide (handedOver f c1.list.length) c1.record (received s.fresh c1.kind c1.record c1.got) = .ok (u, false) →
        exec (.collectiveMessageArrival k) s =
          .next ((retire (popToken (orderPoint (keepSenders (noteDelivered u (heldMsgs f)) (heldMsgs f)) u.cur) w) g 1).setCur
            s.cur)))

/-- The kind and the record's register of a collective instruction. -/
def Sys2Proof.Machine.collForm : Instr → Option (Nat × B5)
  | .csend _ _ a => some (1, a)
  | .crecv _ _ a => some (2, a)
  | .cred _ _ a => some (3, a)
  | .cbcast _ _ a => some (4, a)
  | .ca2a _ _ a => some (5, a)
  | .cgath _ _ a => some (6, a)
  | .csamp _ _ a => some (7, a)
  | .cflag _ _ a _ => some (8, a)
  | _ => none

/-- Whether the byte at `x` lies in the destination of a collective instruction: in a tile of its tensor that holds an element of it
(R226), or in its range of the scratchpad. -/
def Sys2Proof.Machine.collStores (t : State) (kind : Nat) (r : List Byte) (x : Nat) : Prop :=
  match collDest r with
  | some d => ∃ n ∈ linearTiles d (recDfirst r) (destSpan kind r), ∃ o < 65536, ∃ v p, tilePlace t d n o = .ok (v, p) ∧ x = p.phys
  | none => ∃ k < elemBytes (recType r) (destSpan kind r), x = scratchPhys t t.cur.core t.cur.slot (recDfirst r + k)



/-- The frame of the collective instructions as they issue: no register, vector register, control word or group of any party
changes; nothing of the machine but messages, clocks, bytes counted, marks and what one that retires at once writes: every byte
outside its destination and its partition's dirty log reads as before. One that fails its checks, traps or is in progress, and a
CSEND, CRECV or CFLAG, changes no byte. -/
def Sys2Proof.Claims.CollectiveFrame : Prop :=
  ∀ (i : Instr) (kind : Nat) (a : B5) (s t : State), collForm i = some (kind, a) → exec i s = .next t →
    (t.last = .trapped ∨ (s.me.busy = none ∧ t.me.busy ≠ none) ∨ kind ∈ [1, 2, 8] ∨ (∀ u r es, ¬collOrder s kind a u r es) →
      t.mem = s.mem) ∧
    (s.Inv → ∀ u r es, collOrder s kind a u r es → ∀ x, ¬collStores u kind r x → ¬inDirtyLog s s.myPart x →
      readByte t.mem x = readByte s.mem x) ∧
    t = { s with fresh := t.fresh, parties := t.parties, ctxs := t.ctxs, dies := t.dies, parts := t.parts, mem := t.mem,
                 tags := t.tags, flips := t.flips, stamps := t.stamps, seq := t.seq, past := t.past, msgs := t.msgs, out := t.out,
                 heard := t.heard, delivered := t.delivered, moved := t.moved, last := t.last } ∧
    (∀ q, flowOnly (s.party q) (t.party q)) ∧
    (∀ c k, (t.ctx c k).task = (s.ctx c k).task ∧ (t.ctx c k).checkpoint = (s.ctx c k).checkpoint ∧
      (t.ctx c k).sh = { (s.ctx c k).sh with istat := (t.ctx c k).sh.istat }) ∧
    ∀ p, t.part p = { s.part p with dirty := (t.part p).dirty, dlhead := (t.part p).dlhead, dlctl := (t.part p).dlctl }

/-- R245, R299: what CSAMP prefers is a strict order on pairs: never both ways, transitive, and one way or the other of any two pairs
that differ, but for two NaNs of one index, which are written alike. CRED of INT32 adds modulo 2^32. -/
def Obligations.CollectiveCombinations : Prop :=
  (∀ x y : Nat, beats x y = true → beats y x = false) ∧
  (∀ x y z : Nat, beats x y = true → beats y z = true → beats x z = true) ∧
  (let value := fun (x : Nat) => FV.read fp32 (x % 2 ^ 32)
   (∀ x y : Nat, x ≠ y → ((value x).isNan = true → (value y).isNan = true → x / 2 ^ 32 ≠ y / 2 ^ 32) →
     beats x y = true ∨ beats y x = true) ∧
   ∀ x y : Nat, (value x).isNan = true → (value y).isNan = true → x / 2 ^ 32 = y / 2 ^ 32 → canonical 7 8 x = canonical 7 8 y) ∧
  (∀ x y : Nat, x < 2 ^ 32 → y < 2 ^ 32 → combine 7 0 x y = (x + y) % 2 ^ 32)

/-- R302: SSCFG of a legal record loads its slot with the strings and a new generation, or frees it where the record holds
none. R303: SSFEED of a claimed row runs its bytes through the slot's strings, after the bytes that the row holds from the feed before
where that was of the slot's generation; bytes held from another are released first, and the result says so (bit 1). A completed string
sets bit 0 of the result, and the row is STOPPED and no longer claimed. The slots that system cores load are number 65's (log 115
DESIGN CHOICE). -/
def Sys2Proof.Claims.StopStringsLoadAndFeed : Prop :=
  ∀ (s : State) (w g : B2) (a b : B5), Ready s .swallowtail w g → s.flips = [] → scratchLate s s.cur = false →
    s.me.view.lag = 0 →
    let o := (s.reg a.toNat).toNat
    let peek := fun (o n : Nat) => peekScratch s s.cur.core s.cur.slot o n
    (let n := (s.reg b.toNat).toNat
     let h := peek o 16
     let count := recField h 0 2
     let total := recField h 2 2
     ∀ strings, o % 16 = 0 → n < 16 → o + 16 + count + total ≤ scratchSize s.cur.core → count ≤ 256 → total ≤ 4096 →
      recField h 4 12 = 0 → ((stopSlot s n).owner = 64 ∨ (stopSlot s n).owner = stopOwner s) →
      parseStops count (peek (o + 16) (count + total)) = some strings → (strings.map List.length).sum = total →
      strings.Nodup →
      ∃ r, completes (.sscfg w g a b) s w g r ∧ r.mem = s.mem ∧
        stopSlot r n = ⟨if count = 0 then 64 else stopOwner s, (stopSlot s n).gen + 1, strings⟩) ∧
    (let r := peek o 32
     let row := recField r 0 2
     let x := stopSlot s (recField r 2 1)
     let n := recField r 4 2
     let ooff := recField r 12 4
     let slot := recField r 2 1 + 16 * x.gen.toNat
     let valid := rowGet s row 0x62 1 % 2 = 1
     let same := rowGet s row 0x60 2 = slot
     let fed := feedStream x.strings ((if valid ∧ same then rowHeld s row else []) ++ peek (recField r 8 4) n) [] 0 []
     let out := (if valid ∧ ¬same then rowHeld s row else []) ++ fed.1
     o % 16 = 0 → o + 32 ≤ scratchSize s.cur.core → row < 16384 → rowClaimed s row = true →
      rowSerial s row = s.mySerial.toNat → s.mySerial ≠ 0 → recField r 2 1 < 16 → x.owner = stopOwner s → n ≤ 4096 →
      recField r 8 4 + n ≤ scratchSize s.cur.core → ooff + n + 27 ≤ scratchSize s.cur.core → recField r 16 16 = 0 →
      mustWait s (rowHome row) false true = false → rowGet s row 0x63 1 ≤ 27 → s.Inv →
      (∀ y ∈ x.strings, y.length ≤ 28) →
      let byte := fun (t : State) (i : Nat) => readByte t.mem (scratchPhys s s.cur.core s.cur.slot i)
      ∃ t, completes (.ssfeed w g a) s w g t ∧ rowHeld t row = fed.2.1 ∧ rowGet t row 0x62 1 = 1 ∧ rowGet t row 0x60 2 = slot ∧
        (∀ i < out.length, byte t (ooff + i) = out.getD i 0) ∧
        (ooff + out.length ≤ o ∨ o + 32 ≤ ooff →
          byte t (o + 3) = BitVec.ofNat 8 ((if fed.2.2 then 1 else 0) + (if valid ∧ ¬same then 2 else 0)) ∧
          (byte t (o + 6)).toNat + 256 * (byte t (o + 7)).toNat = out.length) ∧
        (fed.2.2 = true → rowClaimed t row = false ∧ rowPhase t row = if rowVoiding s row then 0 else 0xFF) ∧
        (fed.2.2 = false → rowClaimed t row = true ∧ rowPhase t row = rowPhase s row))

/-- The frame of SSCFG and SSFEED: SSCFG changes no byte of memory and of the Hampers only the slots of its own; SSFEED changes no
byte outside its record, the output that it names and its row; no register of any party changes. -/
def Sys2Proof.Claims.SwallowtailFrame : Prop :=
  ∀ (s t : State) (w g : B2) (a b : B5),
    (exec (.sscfg w g a b) s = .next t →
      t = { s with parties := t.parties, ctxs := t.ctxs, dies := t.dies, hampers := t.hampers, flips := t.flips, last := t.last } ∧
      (∀ h, t.hamper h = { s.hamper h with stops := (t.hamper h).stops } ∧
        (h ≠ hamperOf s.cur.core → t.hamper h = s.hamper h)) ∧ ∀ q, flowOnly (s.party q) (t.party q)) ∧
    (s.Inv → s.me.view.lag = 0 → scratchLate s s.cur = false → exec (.ssfeed w g a) s = .next t →
      let o := (s.reg a.toNat).toNat
      let r := peekScratch s s.cur.core s.cur.slot o 32
      let place := fun (k : Nat) => scratchPhys s s.cur.core s.cur.slot k
      (∀ x, (∀ k < 32, x ≠ place (o + k)) → (∀ k < recField r 4 2 + 28, x ≠ place (recField r 12 4 + k)) →
        ¬(rowPhys (recField r 0 2) 0 ≤ x ∧ x < rowPhys (recField r 0 2) 0 + 128) → readByte t.mem x = readByte s.mem x) ∧
      t = { s with parties := t.parties, ctxs := t.ctxs, dies := t.dies, mem := t.mem, flips := t.flips, stamps := t.stamps,
                   seq := t.seq, past := t.past, last := t.last } ∧
      ∀ q, flowOnly (s.party q) (t.party q))

/-- R303: nothing that a feed releases can still become part of a stop string, and nothing is lost: without a completed
string, what is released and what is held are the input together, and what is held is the longest end of the input with which a
stop string begins. A feed stops at the first completed string, the longest of those that end there, which it does not release. -/
def Sys2Proof.Claims.FeedsLoseNothing : Prop :=
  ∀ (strings : List (List Byte)) (input : List Byte), (∀ x ∈ strings, 0 < x.length ∧ x.length ≤ 28) →
    let r := feedStream strings input [] 0 []
    let begins := fun (h : List Byte) => ∃ x ∈ strings, h <+: x ∧ h.length < x.length
    (r.2.2 = false ↔ ∀ x ∈ strings, ¬ x <:+: input) ∧
    (r.2.2 = false → r.1 ++ r.2.1 = input ∧ r.2.1.length ≤ 27 ∧ (r.2.1 = [] ∨ begins r.2.1) ∧
      ∀ h, h <:+ input → begins h → h.length ≤ r.2.1.length) ∧
    (r.2.2 = true → r.2.1 = [] ∧ ∃ x ∈ strings, r.1 ++ x <+: input ∧
      (∀ y ∈ strings, y <:+ r.1 ++ x → y.length ≤ x.length) ∧
      ∀ k < (r.1 ++ x).length, ∀ y ∈ strings, ¬ y <:+ input.take k)

/-! ## Suffix images (R309, R310) -/

/-- R309: SXSAV writes the index's image into its tensor and gives its size. R310: SXLD of an image rebuilds the index that
it holds. -/
def Sys2Proof.Claims.SuffixImagesSaveAndLoad : Prop :=
  ∀ (s : State) (w g : B2) (d a b : B6), Ready s .wing w g →
    let id := (s.reg a.toNat).toNat
    let im := suffixImage (suffix s id)
    (∀ u t v, ownIndex s a = some id → sxsavForeign s a b = false → (suffix s id).bad = false → imageTensor s b = .ok (u, t) →
      im.length ≤ t.extent 0 →
      destFault u t (rowTiles t im.length) = none → mustWait s (suffixHome id) false true = false →
      writeUnits u t (((List.range im.length).zip im).map (fun e => ([(e.1 : Int)], [e.2]))) = .ok (v, false) →
      completes (.sxsav w g d a b) s w g (v.setReg d.toNat (BitVec.ofNat 64 im.length) false)) ∧
    (∀ u t v h x z bs, id < 65536 → (suffix s id).owner = none → s.supervisor = false → imageTensor s b = .ok (u, t) →
      mustWait s (suffixHome id) false true = false → readRow t 64 0 u = .ok (v, h) →
      suffixFrom s id h (t.extent 0) = some x → readRow t (4 * (x.n - x.e)) 64 v = .ok (z, bs) →
      ∃ r, completes (.sxld w g d a b) s w g r ∧ r.reg d.toNat = BitVec.ofNat 64 x.n ∧ r.tainted d.toNat = false ∧
        suffix r id = { x with toks := (quads bs).map (BitVec.ofNat 32) } ∧ r.mem = z.mem)

/-! ## Decoding, the step, the invariant, reset (R45–R64, R251, R264, R345, R383) -/

/-- R46–R60: decoding the word of a well-formed instruction, in a party that may execute it, gives the instruction back,
with every operand at every value that the encoding admits. -/
def Obligations.EncodingsDecode : Prop :=
  ∀ (i : Instr) (x : IWord) (k : Kind), i.wf = true → encode i = some x → i.fits k = true → decode k x = .ok i

/-- R47: a word that decodes has one meaning and no bit to spare: the instruction's encoding is that word, the instruction
is well-formed, and the party may execute it. -/
def Obligations.DecodedWordsEncode : Prop :=
  ∀ (i : Instr) (x : IWord) (k : Kind), decode k x = .ok i → encode i = some x ∧ i.wf = true ∧ i.fits k = true

/-- Words of the spec's own examples and encodings decode to what they stand for (R56–R60). -/
def Obligations.ExampleWordsDecode : Prop :=
  decode .wing 0x04514400 = .ok (.addi 10 10 0x400) ∧ decode .matrix 0x16507F80 = .ok (.lui 10 0x7F80) ∧
  decode .copy 0x10514020 = .ok (.shli 10 10 32) ∧ decode .vector 0x4C000123 = .ok (.trap 0x123) ∧
  decode .swallowtail 0x48000000 = .ok .nop ∧ decode .wing 0x84800000 = .ok (.phswap 0 0 0) ∧
  decode .wing 0x8106AA00 = .ok (.lda 0 0 13 21 0) ∧ decode .wing 0x82452858 = .ok (.amoAdd 0 0 2 10 20 11) ∧
  decode .wing 0x82A00001 = .ok (.fence 0 0 0 1) ∧ decode .copy 0x88200040 = .ok (.xcopy 0 1 0 1) ∧
  decode .copy 0x81821900 = .ok (.xcrc 0 0 2 3 4) ∧ decode .wing 0 = .error .allZero

/-- R251, R45–R47: where it is the turn of a party that can go on, is alone (not in lock-step), has no command or push in progress
and, being an engine, no write left for later, the step is the execution, as that party, of the instruction that the word at its pc
decodes to; a word that does not decode traps as an illegal instruction with the word as TVAL. Before that the gates that can be
granted are (R250); a system core's w0 takes a pending record first (R351), by a statement of its own. -/
def Obligations.StepRunsDecodedWord : Prop :=
  ∀ (s : State) (p : PartyId) (rest : List Turn), s.plan = .issue p :: rest →
    let turn : State := { grantGates s with plan := rest, tick := s.tick + 1 }
    isParty p = true → alive turn p = true → (p = w0Of (dieOf p.core) → takesRecord turn (dieOf p.core) = false) →
    parked (s.party p) = false → ((s.ctx p.core p.slot).sh.lock = false ∨ p.party.isWing = false) →
    (s.party p).push = none → (s.party p).busy = none → (p.party.isWing = true ∨ (s.party p).view.late = []) → s.flips = [] →
    let x := wordAt s p (s.party p).pc.toNat
    (∀ i, decode p.party.map x = .ok i →
      step s = match exec i (turn.setCur p) with
        | .next u => .next (u.setCur s.cur)
        | .fault f => .fault f
        | .refused f => .refused f) ∧
    (∀ e, decode p.party.map x = .error e → step s = .next ((takeTrap (turn.setCur p) p 1 (x.setWidth 64)).setCur s.cur))

/-- R264, R347: a word of a bundle that traps leaves no word of the bundle an effect: of the parties only the trap registers, the hold and
the mark of waiting change, of the residency slots the mark that the Lookout reads, of the dies the pending records, the double trap and
the count of corrected errors; the words as they are fetched may be corrected (R345), and the numbers that the model draws its free
values by go on. A bundle with a word that cannot be fetched only consumes the error (R346). -/
def Obligations.TrappedBundlesChangeNothing : Prop :=
  ∀ (s t : State) (core slot : Nat), issueBundle s core slot = .next t → t.last = .trapped →
    (s.last = .trapped ∧ t = consume s core slot) ∨
    (t = { s with parties := t.parties, ctxs := t.ctxs, dies := t.dies, flips := t.flips, fresh := t.fresh, last := t.last } ∧
      (∀ q, let y := t.party q
        y = { s.party q with tcause := y.tcause, tpc := y.tpc, tval := y.tval, tstat := y.tstat, held := y.held, wait := y.wait }) ∧
      (∀ c k, t.ctx c k = { s.ctx c k with disturbed := (t.ctx c k).disturbed }) ∧
      ∀ d, let y := t.die d
        y = { s.die d with pend := y.pend, double := y.double, cecnt := y.cecnt })

/-- Every step keeps the memory's canonical form, whatever moves: a party, an event, time or the environment. -/
def Obligations.StepKeepsInv : Prop :=
  ∀ s t : State, s.Inv → step s = .next t → t.Inv

/-- The bounds of a party's registers: a vector register holds at most four vectors (R36), a wing has joined at most eight groups,
each once (R277). -/
def Sys2Proof.Machine.PartyState.Bounded (x : PartyState) : Prop :=
  (∀ n, (look [] x.v n).length ≤ 4) ∧ x.groups.length ≤ 8 ∧ x.groups.Nodup

/-- Every party keeps its bounds, those saved in checkpoints (R356) and in Cocoons (R285) among them. -/
def Sys2Proof.Machine.State.Bounded (s : State) : Prop :=
  (∀ e ∈ s.parties, PartyState.Bounded e.2) ∧
  (∀ e ∈ s.ctxs, ∀ k, e.2.checkpoint = some k → ∀ p ∈ k.parties, PartyState.Bounded p.2) ∧
  ∀ c ∈ s.cocoons, (∀ p ∈ c.parties, PartyState.Bounded p.2) ∧
    ∀ k, c.checkpoint = some k → ∀ p ∈ k.parties, PartyState.Bounded p.2

/-- R36, R277, R285, R356: every step keeps the bounds of vector registers and groups, whatever moves. -/
def Obligations.StepKeepsBounds : Prop :=
  ∀ s t : State, s.Bounded → step s = .next t → t.Bounded

/-- R314, R317: no word of a party outside supervisor context changes what isolates partitions: the registers of a partition, but
for what its own claims and writes move (SEQCLM's cursor, the dirty log); the partition, the scrub and the failure of a core; a die's
trap control and ring limits; PRSTAT, resets and owner changes under way; the pages. A frame changes its owner only from none to
the word's partition. -/
def Sys2Proof.Claims.GuestsChangeNoIsolation : Prop :=
  ∀ (i : Instr) (x : IWord) (s t : State), encode i = some x → s.supervisor = false → exec i s = .next t →
    (∀ p, let y := t.part p
      y = { s.part p with cursor := y.cursor, dirty := y.dirty, dlhead := y.dlhead, dlctl := y.dlctl }) ∧
    (∀ c, let y := t.core c
      let z := s.core c
      y.part = z.part ∧ y.scrub = z.scrub ∧ y.former = z.former ∧ y.failed = z.failed ∧ y.gated = z.gated) ∧
    (∀ d, let y := t.die d
      let z := s.die d
      y.rslots = z.rslots ∧ y.tvec = z.tvec ∧ y.tret = z.tret ∧ y.en = z.en ∧ y.inh = z.inh ∧ y.held = z.held ∧ y.image = z.image) ∧
    t.prstat = s.prstat ∧ t.resetting = s.resetting ∧ t.reassigns = s.reassigns ∧ t.aside = s.aside ∧ t.pages = s.pages ∧
    t.mgmt = s.mgmt ∧
    ∀ code, ownerOf t code = ownerOf s code ∨ (ownerOf s code = 64 ∧ ownerOf t code = s.myPart)

/-- R314, R385: no word of a party outside supervisor context changes a byte of a frame of stacked DRAM or second tier that another
partition owns, unless that partition has opened a window to its own (R329). -/
def Sys2Proof.Claims.GuestsStayInTheirFrames : Prop :=
  ∀ (i : Instr) (x : IWord) (s t : State), encode i = some x → s.supervisor = false → s.Inv → exec i s = .next t →
    ∀ space f o, space < 2 → f < framesOf space → o < 65536 →
      let q := ownerOf s (frameCode 0 space f)
      q < 64 → q ≠ s.myPart → (∀ e ∈ s.windows, e.2.exporter = q → e.2.importer ≠ s.myPart) →
      readByte t.mem (framePhys 0 0 space f o) = readByte s.mem (framePhys 0 0 space f o)

/-- R6, R22, R91, R328, R337, R340, R351: what reset leaves: the memory's canonical form and the bounds of the parties, and the reset
values that the spec gives; the model's own choices among them are that all of memory reads 0 (log 5 DESIGN CHOICE) and the value 64
of PRSTAT, whose idle form is R369's (log 4 DESIGN CHOICE). -/
def Obligations.ResetLeaves : Prop :=
  let s := State.reset
  s.Inv ∧ s.Bounded ∧ s.mem = [] ∧ s.time = 0 ∧ s.prstat = 64 ∧
  (∀ d, (s.die d).en = true ∧ (s.die d).inh = false ∧ (s.die d).cecnt = 0) ∧
  (∀ p, (s.part p).plmaps = 0x015A ∧ (s.part p).plcap = 7) ∧ (∀ h, (s.hamper h).pool = 64) ∧
  (∀ p, (s.party p).iref = 0 ∧ ∀ k, look 0x00070000 (s.party p).cw k = 0x00070000) ∧
  (∀ c, (s.core c).div0 = 12 ∧ (s.core c).div1 = 12 ∧ (s.core c).div2 = 12 ∧ (s.core c).div3 = 14)

/-! ## Statements of several parts -/

/-- The claims `RegisterArithmeticResults`, `BitCounts` together. -/
def Obligations.ScalarResults : Prop :=
  Claims.RegisterArithmeticResults ∧
  Claims.BitCounts

/-- The claims `RetiringMovesThePc`, `LoopsStart`, `RepeatAndLeave` together. -/
def Obligations.LoopsAndRepeats : Prop :=
  Claims.RetiringMovesThePc ∧
  Claims.LoopsStart ∧
  Claims.RepeatAndLeave

/-- The claims `BranchesCompareAndTransfer`, `JumpsTransfer`, `TransferLeavesLoops` together. -/
def Obligations.BranchesAndJumps : Prop :=
  Claims.BranchesCompareAndTransfer ∧
  Claims.JumpsTransfer ∧
  Claims.TransferLeavesLoops

/-- The claims `TokensMove`, `EndStopsTheParty`, `WaitevReturnsEvents`, `WaitevDeadlinePasses` together. -/
def Obligations.TokensEventsAndEnds : Prop :=
  Claims.TokensMove ∧
  Claims.EndStopsTheParty ∧
  Claims.WaitevReturnsEvents ∧
  Claims.WaitevDeadlinePasses

/-- The claims `SystemRegisterMoves`, `WrittenRegistersReadBack`, `SupervisorRegistersAreGuarded` together. -/
def Obligations.SystemRegisters : Prop :=
  Claims.SystemRegisterMoves ∧
  Claims.WrittenRegistersReadBack ∧
  Claims.SupervisorRegistersAreGuarded

/-- The claims `WindowRegistersKeepValues`, `QueueRegistersTakeWrites` together. -/
def Obligations.WindowRegisters : Prop :=
  Claims.WindowRegistersKeepValues ∧
  Claims.QueueRegistersTakeWrites

/-- The claims `LoadsReadMemory`, `MisalignedLoadsTrap` together. -/
def Obligations.LoadsComplete : Prop :=
  Claims.LoadsReadMemory ∧
  Claims.MisalignedLoadsTrap

/-- The claims `StoreFrame`, `LoadFrame`, `AtomicFrame` together. -/
def Obligations.WingMemoryFrames : Prop :=
  Claims.StoreFrame ∧
  Claims.LoadFrame ∧
  Claims.AtomicFrame

/-- The claims `FencesAndWaits`, `SleepersWake` together. -/
def Obligations.FencesAndSleepers : Prop :=
  Claims.FencesAndWaits ∧
  Claims.SleepersWake

/-- The claims `FlightsArrive`, `RemoteLoadsReturn` together. -/
def Obligations.RemoteAccessesArrive : Prop :=
  Claims.FlightsArrive ∧
  Claims.RemoteLoadsReturn

/-- The claims `EnqAppendsAnEntry`, `MarksJoinsNotifiesAppend`, `QueueHeadsMove`, `JoinsRelease` together. -/
def Obligations.EngineQueues : Prop :=
  Claims.EnqAppendsAnEntry ∧
  Claims.MarksJoinsNotifiesAppend ∧
  Claims.QueueHeadsMove ∧
  Claims.JoinsRelease

/-- The claims `GroupsAndBarriers`, `LoneBarrierPasses`, `LockStepStartsAndEnds`, `SuperstepsAdvance` together. -/
def Obligations.GroupsAndLockStep : Prop :=
  Claims.GroupsAndBarriers ∧
  Claims.LoneBarrierPasses ∧
  Claims.LockStepStartsAndEnds ∧
  Claims.SuperstepsAdvance

/-- The claims `SeqclmClaimsRows`, `SeqadvSetsThePhase`, `ClaimedRowsWereFree` together. -/
def Obligations.RowsAreClaimed : Prop :=
  Claims.SeqclmClaimsRows ∧
  Claims.SeqadvSetsThePhase ∧
  Claims.ClaimedRowsWereFree

/-- The claims `SuffixesResetAndAppend`, `SxqryFindsTheMatch`, `BestMatchIsLongestAndNearest`, `SuffixImagesSaveAndLoad`
together. -/
def Obligations.SuffixIndexes : Prop :=
  Claims.SuffixesResetAndAppend ∧
  Claims.SxqryFindsTheMatch ∧
  Claims.BestMatchIsLongestAndNearest ∧
  Claims.SuffixImagesSaveAndLoad

/-- The claims `ProbesPinPages`, `PinsCountUp`, `WindowsOpenAndClose`, `WinopenOpensAWindow` together. -/
def Obligations.PinsAndWindows : Prop :=
  Claims.ProbesPinPages ∧
  Claims.PinsCountUp ∧
  Claims.WindowsOpenAndClose ∧
  Claims.WinopenOpensAWindow

/-- The claims `HnewMakesAnObject`, `HandlesCountReferences`, `GoneObjectsAreSeen`, `DestructionZeroesFrames` together. -/
def Obligations.HandlesAndObjects : Prop :=
  Claims.HnewMakesAnObject ∧
  Claims.HandlesCountReferences ∧
  Claims.GoneObjectsAreSeen ∧
  Claims.DestructionZeroesFrames

/-- The claims `ClocksGatesAndBoosts`, `GatesCloseAndOpen` together. -/
def Obligations.ClocksAndGates : Prop :=
  Claims.ClocksGatesAndBoosts ∧
  Claims.GatesCloseAndOpen

/-- The claims `AccountsAreKept`, `BoostPoolsAreKept` together. -/
def Obligations.AccountsAndPools : Prop :=
  Claims.AccountsAreKept ∧
  Claims.BoostPoolsAreKept

/-- The claims `RecordsBecomeHeads`, `LaunchesBeginUndone`, `IterationsAreHandedOut`, `SuperstepLaunchesStartWhole`,
`HandOutStartsATask` together. -/
def Obligations.LaunchesHandOut : Prop :=
  Claims.RecordsBecomeHeads ∧
  Claims.LaunchesBeginUndone ∧
  Claims.IterationsAreHandedOut ∧
  Claims.SuperstepLaunchesStartWhole ∧
  Claims.HandOutStartsATask

/-- The claims `PreemptedTasksResume`, `TasksComplete`, `TasksArePreempted`, `CompletionsInterrupt` together. -/
def Obligations.TasksRunAndEnd : Prop :=
  Claims.PreemptedTasksResume ∧
  Claims.TasksComplete ∧
  Claims.TasksArePreempted ∧
  Claims.CompletionsInterrupt

/-- The claims `HostReachesItsPartition`, `FabricRequestsAreRefused`, `LaunchPacketsArePlaced`, `ResidencyIsReported`
together. -/
def Obligations.OutsideReaches : Prop :=
  Claims.HostReachesItsPartition ∧
  Claims.FabricRequestsAreRefused ∧
  Claims.LaunchPacketsArePlaced ∧
  Claims.ResidencyIsReported

/-- The claims `ImagesAndManifestsLoad`, `BringUpEndsInAPhase` together. -/
def Obligations.BringUpAndImages : Prop :=
  Claims.ImagesAndManifestsLoad ∧
  Claims.BringUpEndsInAPhase

/-- The claims `RecordsAreTaken`, `EretReturns`, `DoubleTrapsStopW0`, `SupervisorRestarts` together. -/
def Obligations.HandlersEnterAndReturn : Prop :=
  Claims.RecordsAreTaken ∧
  Claims.EretReturns ∧
  Claims.DoubleTrapsStopW0 ∧
  Claims.SupervisorRestarts

/-- The claims `ContextErrorsEndTasks`, `ScrubsAndReassignmentsEnd`, `PartitionResetsEnd` together. -/
def Obligations.TasksAndPartitionsEnd : Prop :=
  Claims.ContextErrorsEndTasks ∧
  Claims.ScrubsAndReassignmentsEnd ∧
  Claims.PartitionResetsEnd

/-- The claims `PhasesSwap`, `PhasesAreCancelled`, `TasksAreParkedAndReleased` together. -/
def Obligations.PhasesAndParking : Prop :=
  Claims.PhasesSwap ∧
  Claims.PhasesAreCancelled ∧
  Claims.TasksAreParkedAndReleased

/-- The claims `ChecksAndPatrols`, `LookoutsCountAndExpire` together. -/
def Obligations.ChecksAndLookouts : Prop :=
  Claims.ChecksAndPatrols ∧
  Claims.LookoutsCountAndExpire

/-- The claims `ReductionsAndScans`, `VectorMoves` together. -/
def Obligations.VectorReductionsAndMoves : Prop :=
  Claims.ReductionsAndScans ∧
  Claims.VectorMoves

/-- The claims `StreamsPushAndPop`, `PortsAreConfigured` together. -/
def Obligations.StreamsAndPorts : Prop :=
  Claims.StreamsPushAndPop ∧
  Claims.PortsAreConfigured

/-- The claims `NestsAndZeroTiles`, `MatrixOperationsStart`, `SignaturesAreChecked` together. -/
def Obligations.MatrixStarts : Prop :=
  Claims.NestsAndZeroTiles ∧
  Claims.MatrixOperationsStart ∧
  Claims.SignaturesAreChecked

/-- The claims `CopiesBegin`, `CopyChunksComplete`, `ChecksumsAndRefreshTimes` together. -/
def Obligations.CopiesRun : Prop :=
  Claims.CopiesBegin ∧
  Claims.CopyChunksComplete ∧
  Claims.ChecksumsAndRefreshTimes

/-- The claims `TrellisCommandsBegin`, `TrellisCommandsEnd`, `WeightsAreStored` together. -/
def Obligations.TrellisRuns : Prop :=
  Claims.TrellisCommandsBegin ∧
  Claims.TrellisCommandsEnd ∧
  Claims.WeightsAreStored

/-- The claims `TracesArePaths`, `StreamsReadBack` together. -/
def Obligations.TrellisPaths : Prop :=
  Claims.TracesArePaths ∧
  Claims.StreamsReadBack

/-- The claims `CollectivesBegin`, `FlagsAreSentAndAnswered`, `MessagesAreDelivered` together. -/
def Obligations.CollectivesRun : Prop :=
  Claims.CollectivesBegin ∧
  Claims.FlagsAreSentAndAnswered ∧
  Claims.MessagesAreDelivered

/-- The claims `StopStringsLoadAndFeed`, `FeedsLoseNothing` together. -/
def Obligations.StopStrings : Prop :=
  Claims.StopStringsLoadAndFeed ∧
  Claims.FeedsLoseNothing

/-- The claims `VectorFrame`, `MatrixFrame`, `CopyFrame`, `CollectiveFrame`, `SwallowtailFrame`,
`TensorWritesStayInTiles` together. -/
def Obligations.EngineFrames : Prop :=
  Claims.VectorFrame ∧
  Claims.MatrixFrame ∧
  Claims.CopyFrame ∧
  Claims.CollectiveFrame ∧
  Claims.SwallowtailFrame ∧
  Claims.TensorWritesStayInTiles

/-- The claims `GuestsChangeNoIsolation`, `GuestsStayInTheirFrames` together. -/
def Obligations.GuestsKeepIsolation : Prop :=
  Claims.GuestsChangeNoIsolation ∧
  Claims.GuestsStayInTheirFrames
end

