-- ==== Sys2Proof/Laws/Maps.lean ====
section
/-! SUPPORT. Laws of finite maps (`look`, `seek`, `put`, `drop`): what is put is found, other keys are left alone. -/

namespace Sys2Proof.Machine

variable {α : Type}

@[simp] theorem look_nil (d : α) (k : Nat) : look d [] k = d := rfl

@[simp] theorem look_cons (d : α) (m : Sparse α) (k k' : Nat) (v : α) :
    look d ((k', v) :: m) k = if k = k' then v else look d m k := rfl

theorem look_put (d : α) (m : Sparse α) (k k' : Nat) (v : α) :
    look d (put m k v) k' = if k' = k then v else look d m k' := by
  induction m with
  | nil => simp [put]
  | cons e m ih =>
    obtain ⟨a, w⟩ := e
    simp only [put]
    split
    · simp
    · split
      · rename_i h; subst h; simp only [look_cons]; split <;> simp_all
      · simp only [look_cons, ih]
        split
        · split <;> first | rfl | omega
        · rfl

@[simp] theorem look_put_same (d : α) (m : Sparse α) (k : Nat) (v : α) : look d (put m k v) k = v := by
  simp [look_put]

theorem look_put_other (d : α) (m : Sparse α) (k k' : Nat) (v : α) (h : k' ≠ k) :
    look d (put m k v) k' = look d m k' := by simp [look_put, h]

theorem seek_put (m : Sparse α) (k k' : Nat) (v : α) :
    seek (put m k v) k' = if k' = k then some v else seek m k' := by
  induction m with
  | nil => simp [put, seek]
  | cons e m ih =>
    obtain ⟨a, w⟩ := e
    simp only [put]
    split
    · simp [seek]
    · split
      · rename_i h; subst h; simp only [seek]; split <;> simp_all
      · simp only [seek, ih]
        split
        · split <;> first | rfl | omega
        · rfl

theorem look_drop (d : α) (m : Sparse α) (k k' : Nat) (h : k' ≠ k) : look d (drop m k) k' = look d m k' := by
  induction m with
  | nil => rfl
  | cons e m ih =>
    obtain ⟨a, w⟩ := e
    by_cases ha : a = k
    · subst ha; simp [drop] at ih ⊢; simp [h, ih]
    · simp [drop, ha] at ih ⊢; simp [ih]

theorem look_drop_same (d : α) (m : Sparse α) (k : Nat) : look d (drop m k) k = d := by
  induction m with
  | nil => rfl
  | cons e m ih =>
    obtain ⟨a, w⟩ := e
    by_cases ha : a = k
    · subst ha; simp [drop] at ih ⊢; exact ih
    · simp [drop, ha] at ih ⊢; rw [if_neg (fun h => ha h.symm)]; exact ih

/-- Keys strictly rising, the form in which the model keeps every map. -/
def risingFrom (lo : Nat) : Sparse α → Prop
  | [] => True
  | (k, _) :: m => lo ≤ k ∧ risingFrom (k + 1) m

theorem risingFrom_weaken {lo lo' : Nat} (h : lo' ≤ lo) : ∀ {m : Sparse α}, risingFrom lo m → risingFrom lo' m
  | [], _ => trivial
  | _ :: _, ⟨h1, h2⟩ => ⟨Nat.le_trans h h1, h2⟩

/-- `put` keeps the keys rising. -/
theorem put_rising {lo k : Nat} {v : α} (hk : lo ≤ k) : ∀ {m : Sparse α}, risingFrom lo m → risingFrom lo (put m k v) := by
  intro m
  induction m generalizing lo with
  | nil => intro _; exact ⟨hk, trivial⟩
  | cons e m ih =>
    obtain ⟨a, w⟩ := e
    rintro ⟨h1, h2⟩
    simp only [put]
    split
    · exact ⟨hk, by omega, h2⟩
    · split
      · rename_i h; subst h; exact ⟨hk, h2⟩
      · exact ⟨h1, ih (by omega) h2⟩

end Sys2Proof.Machine
end

