-- ==== Sys2Proof/Laws/Memory.lean ====
section
/-! SUPPORT. Laws of memory: a byte written is the byte read, every other byte is left alone, and every memory operation keeps
the canonical form. -/

namespace Sys2Proof.Machine

theorem cellsFrom_weaken {lo lo' : Nat} (h : lo' ≤ lo) :
    ∀ {m : List Host.Cell}, cellsFrom lo m = true → cellsFrom lo' m = true
  | [], _ => rfl
  | (a, v) :: m, hm => by
    simp only [cellsFrom, Bool.and_eq_true, decide_eq_true_eq] at hm ⊢
    exact ⟨⟨by omega, hm.1.2⟩, hm.2⟩

theorem readByte_below {lo a : Nat} (h : a < lo) :
    ∀ {m : List Host.Cell}, cellsFrom lo m = true → readByte m a = unwritten := by
  intro m
  induction m generalizing lo with
  | nil => intro _; rfl
  | cons e m ih =>
    obtain ⟨k, v⟩ := e
    intro hm
    simp only [cellsFrom, Bool.and_eq_true, decide_eq_true_eq] at hm
    have hk : a ≠ k := by omega
    simp only [readByte, look_cons, hk, if_false]
    exact ih (lo := k + 1) (by omega) hm.2

/-- Writing a byte keeps the canonical form. -/
theorem cellsFrom_writeByte {lo a : Nat} {v : Byte} (h : lo ≤ a) :
    ∀ {m : List Host.Cell}, cellsFrom lo m = true → cellsFrom lo (writeByte m a v) = true := by
  intro m
  induction m generalizing lo with
  | nil => intro _; simp only [writeByte]; split <;> simp_all [cellsFrom]
  | cons e m ih =>
    obtain ⟨k, w⟩ := e
    intro hm
    have hm' := hm
    simp only [cellsFrom, Bool.and_eq_true, decide_eq_true_eq] at hm
    obtain ⟨⟨h1, h2⟩, h3⟩ := hm
    simp only [writeByte]
    split
    · split
      · exact hm'
      · simp only [cellsFrom, Bool.and_eq_true, decide_eq_true_eq]
        exact ⟨⟨h, by assumption⟩, ⟨by omega, h2⟩, h3⟩
    · split
      · rename_i hk; subst hk
        split
        · exact cellsFrom_weaken (by omega) h3
        · simp only [cellsFrom, Bool.and_eq_true, decide_eq_true_eq]
          exact ⟨⟨h, by assumption⟩, h3⟩
      · simp only [cellsFrom, Bool.and_eq_true, decide_eq_true_eq]
        exact ⟨⟨h1, h2⟩, ih (by omega) h3⟩

theorem wf_writeByte {m : List Host.Cell} (a : Nat) (v : Byte) (h : Memory.wf m = true) :
    Memory.wf (writeByte m a v) = true := cellsFrom_writeByte (Nat.zero_le _) h

theorem readByte_writeByte_from {lo a b : Nat} {v : Byte} :
    ∀ {m : List Host.Cell}, cellsFrom lo m = true → readByte (writeByte m a v) b = if b = a then v else readByte m b := by
  intro m
  induction m generalizing lo with
  | nil =>
    intro _; simp only [writeByte]
    split
    · rename_i h; subst h; simp [readByte, look]
    · simp [readByte]
  | cons e m ih =>
    obtain ⟨k, w⟩ := e
    intro hm
    simp only [cellsFrom, Bool.and_eq_true, decide_eq_true_eq] at hm
    obtain ⟨⟨h1, h2⟩, h3⟩ := hm
    simp only [writeByte]
    split
    · split
      · rename_i hlt hv; subst hv
        split
        · rename_i hb; subst hb
          have : b ≠ k := by omega
          simp only [readByte, look_cons, this, if_false]
          exact readByte_below (lo := k + 1) (by omega) h3
        · rfl
      · simp [readByte]
    · split
      · rename_i hk; subst hk
        split
        · rename_i hv; subst hv
          split
          · rename_i hb; subst hb
            exact readByte_below (lo := b + 1) (by omega) h3
          · rename_i hb; simp [readByte, hb]
        · simp only [readByte, look_cons]
          split <;> rfl
      · have := ih h3
        simp only [readByte, look_cons] at this ⊢
        rw [this]
        split
        · split <;> first | rfl | omega
        · rfl

/-- A byte written is the byte read; every other byte reads as before. -/
theorem readByte_writeByte {m : List Host.Cell} (a b : Nat) (v : Byte) (h : Memory.wf m = true) :
    readByte (writeByte m a v) b = if b = a then v else readByte m b := readByte_writeByte_from h

theorem wf_writeBytes {m : List Host.Cell} (a : Nat) (bs : List Byte) (h : Memory.wf m = true) :
    Memory.wf (writeBytes m a bs) = true := by
  induction bs generalizing m a with
  | nil => exact h
  | cons b bs ih => exact ih (a + 1) (wf_writeByte a b h)

/-- Bytes outside the bytes written read as before. -/
theorem readByte_writeBytes_outside {m : List Host.Cell} (a b : Nat) (bs : List Byte) (h : Memory.wf m = true)
    (hb : b < a ∨ a + bs.length ≤ b) : readByte (writeBytes m a bs) b = readByte m b := by
  induction bs generalizing m a with
  | nil => rfl
  | cons c bs ih =>
    simp only [List.length_cons] at hb
    rw [writeBytes, ih (a + 1) (wf_writeByte a c h) (by omega), readByte_writeByte _ _ _ h, if_neg (by omega)]

/-- The bytes written are read back. -/
theorem readBytes_writeBytes {m : List Host.Cell} (a : Nat) (bs : List Byte) (h : Memory.wf m = true) :
    readBytes (writeBytes m a bs) a bs.length = bs := by
  induction bs generalizing m a with
  | nil => rfl
  | cons c bs ih =>
    simp only [writeBytes, List.length_cons, readBytes]
    rw [readByte_writeBytes_outside _ _ _ (wf_writeByte a c h) (by omega), readByte_writeByte _ _ _ h, if_pos rfl,
      ih (a + 1) (wf_writeByte a c h)]

theorem cellsFrom_filter {lo : Nat} (f : Host.Cell → Bool) :
    ∀ {m : List Host.Cell}, cellsFrom lo m = true → cellsFrom lo (m.filter f) = true := by
  intro m
  induction m generalizing lo with
  | nil => intro _; rfl
  | cons e m ih =>
    obtain ⟨k, v⟩ := e
    intro hm
    simp only [cellsFrom, Bool.and_eq_true, decide_eq_true_eq] at hm
    rw [List.filter_cons]
    split
    · simp only [cellsFrom, Bool.and_eq_true, decide_eq_true_eq]
      exact ⟨hm.1, ih hm.2⟩
    · exact cellsFrom_weaken (by omega) (ih hm.2)

theorem wf_clearRange {m : List Host.Cell} (a n : Nat) (h : Memory.wf m = true) : Memory.wf (clearRange m a n) = true :=
  cellsFrom_filter _ h

theorem wf_writeCells {m : List Host.Cell} (a : Nat) (cs : List Host.Cell) (h : Memory.wf m = true) :
    Memory.wf (writeCells m a cs) = true := by
  induction cs generalizing m with
  | nil => exact h
  | cons c cs ih => obtain ⟨k, v⟩ := c; exact ih (wf_writeByte (a + k) v h)

theorem wf_writeAt {m : List Host.Cell} (as : List Nat) (bs : List Byte) (h : Memory.wf m = true) :
    Memory.wf (writeAt m as bs) = true := by
  induction as generalizing m bs with
  | nil => cases bs <;> exact h
  | cons a as ih =>
    cases bs with
    | nil => exact h
    | cons b bs => exact ih bs (wf_writeByte a b h)

theorem wf_empty : Memory.wf [] = true := rfl

end Sys2Proof.Machine
end

