-- ==== Sys2Proof/Laws/State.lean ====
section
/-! SUPPORT. What each update of the state leaves alone: one lemma per field per update, and what the accessors of `Ops` read
after an update. -/

namespace Sys2Proof.Machine.State

variable (s : State)

@[simp] theorem plan_setLast (e : Ending) : (s.setLast e).plan = s.plan := rfl
@[simp] theorem tick_setLast (e : Ending) : (s.setLast e).tick = s.tick := rfl
@[simp] theorem fresh_setLast (e : Ending) : (s.setLast e).fresh = s.fresh := rfl
@[simp] theorem cur_setLast (e : Ending) : (s.setLast e).cur = s.cur := rfl
@[simp] theorem due_setLast (e : Ending) : (s.setLast e).due = s.due := rfl
@[simp] theorem time_setLast (e : Ending) : (s.setLast e).time = s.time := rfl
@[simp] theorem mem_setLast (e : Ending) : (s.setLast e).mem = s.mem := rfl
@[simp] theorem tags_setLast (e : Ending) : (s.setLast e).tags = s.tags := rfl
@[simp] theorem flips_setLast (e : Ending) : (s.setLast e).flips = s.flips := rfl
@[simp] theorem stamps_setLast (e : Ending) : (s.setLast e).stamps = s.stamps := rfl
@[simp] theorem delivered_setLast (e : Ending) : (s.setLast e).delivered = s.delivered := rfl
@[simp] theorem hostClock_setLast (e : Ending) : (s.setLast e).hostClock = s.hostClock := rfl
@[simp] theorem seq_setLast (e : Ending) : (s.setLast e).seq = s.seq := rfl
@[simp] theorem past_setLast (e : Ending) : (s.setLast e).past = s.past := rfl
@[simp] theorem parties_setLast (e : Ending) : (s.setLast e).parties = s.parties := rfl
@[simp] theorem ctxs_setLast (e : Ending) : (s.setLast e).ctxs = s.ctxs := rfl
@[simp] theorem cores_setLast (e : Ending) : (s.setLast e).cores = s.cores := rfl
@[simp] theorem dies_setLast (e : Ending) : (s.setLast e).dies = s.dies := rfl
@[simp] theorem hampers_setLast (e : Ending) : (s.setLast e).hampers = s.hampers := rfl
@[simp] theorem parts_setLast (e : Ending) : (s.setLast e).parts = s.parts := rfl
@[simp] theorem queues_setLast (e : Ending) : (s.setLast e).queues = s.queues := rfl
@[simp] theorem keys_setLast (e : Ending) : (s.setLast e).keys = s.keys := rfl
@[simp] theorem moved_setLast (e : Ending) : (s.setLast e).moved = s.moved := rfl
@[simp] theorem moduleDraw_setLast (e : Ending) : (s.setLast e).moduleDraw = s.moduleDraw := rfl
@[simp] theorem owners_setLast (e : Ending) : (s.setLast e).owners = s.owners := rfl
@[simp] theorem aside_setLast (e : Ending) : (s.setLast e).aside = s.aside := rfl
@[simp] theorem reassigns_setLast (e : Ending) : (s.setLast e).reassigns = s.reassigns := rfl
@[simp] theorem pages_setLast (e : Ending) : (s.setLast e).pages = s.pages := rfl
@[simp] theorem pins_setLast (e : Ending) : (s.setLast e).pins = s.pins := rfl
@[simp] theorem objects_setLast (e : Ending) : (s.setLast e).objects = s.objects := rfl
@[simp] theorem windows_setLast (e : Ending) : (s.setLast e).windows = s.windows := rfl
@[simp] theorem streams_setLast (e : Ending) : (s.setLast e).streams = s.streams := rfl
@[simp] theorem suffixes_setLast (e : Ending) : (s.setLast e).suffixes = s.suffixes := rfl
@[simp] theorem cocoons_setLast (e : Ending) : (s.setLast e).cocoons = s.cocoons := rfl
@[simp] theorem flights_setLast (e : Ending) : (s.setLast e).flights = s.flights := rfl
@[simp] theorem loads_setLast (e : Ending) : (s.setLast e).loads = s.loads := rfl
@[simp] theorem msgs_setLast (e : Ending) : (s.setLast e).msgs = s.msgs := rfl
@[simp] theorem heard_setLast (e : Ending) : (s.setLast e).heard = s.heard := rfl
@[simp] theorem out_setLast (e : Ending) : (s.setLast e).out = s.out := rfl
@[simp] theorem prstat_setLast (e : Ending) : (s.setLast e).prstat = s.prstat := rfl
@[simp] theorem resetting_setLast (e : Ending) : (s.setLast e).resetting = s.resetting := rfl
@[simp] theorem resetDue_setLast (e : Ending) : (s.setLast e).resetDue = s.resetDue := rfl
@[simp] theorem fabric_setLast (e : Ending) : (s.setLast e).fabric = s.fabric := rfl
@[simp] theorem reclaim_setLast (e : Ending) : (s.setLast e).reclaim = s.reclaim := rfl
@[simp] theorem mgmt_setLast (e : Ending) : (s.setLast e).mgmt = s.mgmt := rfl
@[simp] theorem serial_setLast (e : Ending) : (s.setLast e).serial = s.serial := rfl
@[simp] theorem launches_setLast (e : Ending) : (s.setLast e).launches = s.launches := rfl
@[simp] theorem keynum_setLast (e : Ending) : (s.setLast e).keynum = s.keynum := rfl

@[simp] theorem plan_setCur (p : PartyId) : (s.setCur p).plan = s.plan := rfl
@[simp] theorem tick_setCur (p : PartyId) : (s.setCur p).tick = s.tick := rfl
@[simp] theorem fresh_setCur (p : PartyId) : (s.setCur p).fresh = s.fresh := rfl
@[simp] theorem last_setCur (p : PartyId) : (s.setCur p).last = s.last := rfl
@[simp] theorem due_setCur (p : PartyId) : (s.setCur p).due = s.due := rfl
@[simp] theorem time_setCur (p : PartyId) : (s.setCur p).time = s.time := rfl
@[simp] theorem mem_setCur (p : PartyId) : (s.setCur p).mem = s.mem := rfl
@[simp] theorem tags_setCur (p : PartyId) : (s.setCur p).tags = s.tags := rfl
@[simp] theorem flips_setCur (p : PartyId) : (s.setCur p).flips = s.flips := rfl
@[simp] theorem stamps_setCur (p : PartyId) : (s.setCur p).stamps = s.stamps := rfl
@[simp] theorem delivered_setCur (p : PartyId) : (s.setCur p).delivered = s.delivered := rfl
@[simp] theorem hostClock_setCur (p : PartyId) : (s.setCur p).hostClock = s.hostClock := rfl
@[simp] theorem seq_setCur (p : PartyId) : (s.setCur p).seq = s.seq := rfl
@[simp] theorem past_setCur (p : PartyId) : (s.setCur p).past = s.past := rfl
@[simp] theorem parties_setCur (p : PartyId) : (s.setCur p).parties = s.parties := rfl
@[simp] theorem ctxs_setCur (p : PartyId) : (s.setCur p).ctxs = s.ctxs := rfl
@[simp] theorem cores_setCur (p : PartyId) : (s.setCur p).cores = s.cores := rfl
@[simp] theorem dies_setCur (p : PartyId) : (s.setCur p).dies = s.dies := rfl
@[simp] theorem hampers_setCur (p : PartyId) : (s.setCur p).hampers = s.hampers := rfl
@[simp] theorem parts_setCur (p : PartyId) : (s.setCur p).parts = s.parts := rfl
@[simp] theorem queues_setCur (p : PartyId) : (s.setCur p).queues = s.queues := rfl
@[simp] theorem keys_setCur (p : PartyId) : (s.setCur p).keys = s.keys := rfl
@[simp] theorem moved_setCur (p : PartyId) : (s.setCur p).moved = s.moved := rfl
@[simp] theorem moduleDraw_setCur (p : PartyId) : (s.setCur p).moduleDraw = s.moduleDraw := rfl
@[simp] theorem owners_setCur (p : PartyId) : (s.setCur p).owners = s.owners := rfl
@[simp] theorem aside_setCur (p : PartyId) : (s.setCur p).aside = s.aside := rfl
@[simp] theorem reassigns_setCur (p : PartyId) : (s.setCur p).reassigns = s.reassigns := rfl
@[simp] theorem pages_setCur (p : PartyId) : (s.setCur p).pages = s.pages := rfl
@[simp] theorem pins_setCur (p : PartyId) : (s.setCur p).pins = s.pins := rfl
@[simp] theorem objects_setCur (p : PartyId) : (s.setCur p).objects = s.objects := rfl
@[simp] theorem windows_setCur (p : PartyId) : (s.setCur p).windows = s.windows := rfl
@[simp] theorem streams_setCur (p : PartyId) : (s.setCur p).streams = s.streams := rfl
@[simp] theorem suffixes_setCur (p : PartyId) : (s.setCur p).suffixes = s.suffixes := rfl
@[simp] theorem cocoons_setCur (p : PartyId) : (s.setCur p).cocoons = s.cocoons := rfl
@[simp] theorem flights_setCur (p : PartyId) : (s.setCur p).flights = s.flights := rfl
@[simp] theorem loads_setCur (p : PartyId) : (s.setCur p).loads = s.loads := rfl
@[simp] theorem msgs_setCur (p : PartyId) : (s.setCur p).msgs = s.msgs := rfl
@[simp] theorem heard_setCur (p : PartyId) : (s.setCur p).heard = s.heard := rfl
@[simp] theorem out_setCur (p : PartyId) : (s.setCur p).out = s.out := rfl
@[simp] theorem prstat_setCur (p : PartyId) : (s.setCur p).prstat = s.prstat := rfl
@[simp] theorem resetting_setCur (p : PartyId) : (s.setCur p).resetting = s.resetting := rfl
@[simp] theorem resetDue_setCur (p : PartyId) : (s.setCur p).resetDue = s.resetDue := rfl
@[simp] theorem fabric_setCur (p : PartyId) : (s.setCur p).fabric = s.fabric := rfl
@[simp] theorem reclaim_setCur (p : PartyId) : (s.setCur p).reclaim = s.reclaim := rfl
@[simp] theorem mgmt_setCur (p : PartyId) : (s.setCur p).mgmt = s.mgmt := rfl
@[simp] theorem serial_setCur (p : PartyId) : (s.setCur p).serial = s.serial := rfl
@[simp] theorem launches_setCur (p : PartyId) : (s.setCur p).launches = s.launches := rfl
@[simp] theorem keynum_setCur (p : PartyId) : (s.setCur p).keynum = s.keynum := rfl

@[simp] theorem plan_setParty (p : PartyId) (x : PartyState) : (s.setParty p x).plan = s.plan := rfl
@[simp] theorem tick_setParty (p : PartyId) (x : PartyState) : (s.setParty p x).tick = s.tick := rfl
@[simp] theorem fresh_setParty (p : PartyId) (x : PartyState) : (s.setParty p x).fresh = s.fresh := rfl
@[simp] theorem last_setParty (p : PartyId) (x : PartyState) : (s.setParty p x).last = s.last := rfl
@[simp] theorem cur_setParty (p : PartyId) (x : PartyState) : (s.setParty p x).cur = s.cur := rfl
@[simp] theorem due_setParty (p : PartyId) (x : PartyState) : (s.setParty p x).due = s.due := rfl
@[simp] theorem time_setParty (p : PartyId) (x : PartyState) : (s.setParty p x).time = s.time := rfl
@[simp] theorem mem_setParty (p : PartyId) (x : PartyState) : (s.setParty p x).mem = s.mem := rfl
@[simp] theorem tags_setParty (p : PartyId) (x : PartyState) : (s.setParty p x).tags = s.tags := rfl
@[simp] theorem flips_setParty (p : PartyId) (x : PartyState) : (s.setParty p x).flips = s.flips := rfl
@[simp] theorem stamps_setParty (p : PartyId) (x : PartyState) : (s.setParty p x).stamps = s.stamps := rfl
@[simp] theorem delivered_setParty (p : PartyId) (x : PartyState) : (s.setParty p x).delivered = s.delivered := rfl
@[simp] theorem hostClock_setParty (p : PartyId) (x : PartyState) : (s.setParty p x).hostClock = s.hostClock := rfl
@[simp] theorem seq_setParty (p : PartyId) (x : PartyState) : (s.setParty p x).seq = s.seq := rfl
@[simp] theorem past_setParty (p : PartyId) (x : PartyState) : (s.setParty p x).past = s.past := rfl
@[simp] theorem ctxs_setParty (p : PartyId) (x : PartyState) : (s.setParty p x).ctxs = s.ctxs := rfl
@[simp] theorem cores_setParty (p : PartyId) (x : PartyState) : (s.setParty p x).cores = s.cores := rfl
@[simp] theorem dies_setParty (p : PartyId) (x : PartyState) : (s.setParty p x).dies = s.dies := rfl
@[simp] theorem hampers_setParty (p : PartyId) (x : PartyState) : (s.setParty p x).hampers = s.hampers := rfl
@[simp] theorem parts_setParty (p : PartyId) (x : PartyState) : (s.setParty p x).parts = s.parts := rfl
@[simp] theorem queues_setParty (p : PartyId) (x : PartyState) : (s.setParty p x).queues = s.queues := rfl
@[simp] theorem keys_setParty (p : PartyId) (x : PartyState) : (s.setParty p x).keys = s.keys := rfl
@[simp] theorem moved_setParty (p : PartyId) (x : PartyState) : (s.setParty p x).moved = s.moved := rfl
@[simp] theorem moduleDraw_setParty (p : PartyId) (x : PartyState) : (s.setParty p x).moduleDraw = s.moduleDraw := rfl
@[simp] theorem owners_setParty (p : PartyId) (x : PartyState) : (s.setParty p x).owners = s.owners := rfl
@[simp] theorem aside_setParty (p : PartyId) (x : PartyState) : (s.setParty p x).aside = s.aside := rfl
@[simp] theorem reassigns_setParty (p : PartyId) (x : PartyState) : (s.setParty p x).reassigns = s.reassigns := rfl
@[simp] theorem pages_setParty (p : PartyId) (x : PartyState) : (s.setParty p x).pages = s.pages := rfl
@[simp] theorem pins_setParty (p : PartyId) (x : PartyState) : (s.setParty p x).pins = s.pins := rfl
@[simp] theorem objects_setParty (p : PartyId) (x : PartyState) : (s.setParty p x).objects = s.objects := rfl
@[simp] theorem windows_setParty (p : PartyId) (x : PartyState) : (s.setParty p x).windows = s.windows := rfl
@[simp] theorem streams_setParty (p : PartyId) (x : PartyState) : (s.setParty p x).streams = s.streams := rfl
@[simp] theorem suffixes_setParty (p : PartyId) (x : PartyState) : (s.setParty p x).suffixes = s.suffixes := rfl
@[simp] theorem cocoons_setParty (p : PartyId) (x : PartyState) : (s.setParty p x).cocoons = s.cocoons := rfl
@[simp] theorem flights_setParty (p : PartyId) (x : PartyState) : (s.setParty p x).flights = s.flights := rfl
@[simp] theorem loads_setParty (p : PartyId) (x : PartyState) : (s.setParty p x).loads = s.loads := rfl
@[simp] theorem msgs_setParty (p : PartyId) (x : PartyState) : (s.setParty p x).msgs = s.msgs := rfl
@[simp] theorem heard_setParty (p : PartyId) (x : PartyState) : (s.setParty p x).heard = s.heard := rfl
@[simp] theorem out_setParty (p : PartyId) (x : PartyState) : (s.setParty p x).out = s.out := rfl
@[simp] theorem prstat_setParty (p : PartyId) (x : PartyState) : (s.setParty p x).prstat = s.prstat := rfl
@[simp] theorem resetting_setParty (p : PartyId) (x : PartyState) : (s.setParty p x).resetting = s.resetting := rfl
@[simp] theorem resetDue_setParty (p : PartyId) (x : PartyState) : (s.setParty p x).resetDue = s.resetDue := rfl
@[simp] theorem fabric_setParty (p : PartyId) (x : PartyState) : (s.setParty p x).fabric = s.fabric := rfl
@[simp] theorem reclaim_setParty (p : PartyId) (x : PartyState) : (s.setParty p x).reclaim = s.reclaim := rfl
@[simp] theorem mgmt_setParty (p : PartyId) (x : PartyState) : (s.setParty p x).mgmt = s.mgmt := rfl
@[simp] theorem serial_setParty (p : PartyId) (x : PartyState) : (s.setParty p x).serial = s.serial := rfl
@[simp] theorem launches_setParty (p : PartyId) (x : PartyState) : (s.setParty p x).launches = s.launches := rfl
@[simp] theorem keynum_setParty (p : PartyId) (x : PartyState) : (s.setParty p x).keynum = s.keynum := rfl

@[simp] theorem plan_setCtx (c k : Nat) (x : Ctx) : (s.setCtx c k x).plan = s.plan := rfl
@[simp] theorem tick_setCtx (c k : Nat) (x : Ctx) : (s.setCtx c k x).tick = s.tick := rfl
@[simp] theorem fresh_setCtx (c k : Nat) (x : Ctx) : (s.setCtx c k x).fresh = s.fresh := rfl
@[simp] theorem last_setCtx (c k : Nat) (x : Ctx) : (s.setCtx c k x).last = s.last := rfl
@[simp] theorem cur_setCtx (c k : Nat) (x : Ctx) : (s.setCtx c k x).cur = s.cur := rfl
@[simp] theorem due_setCtx (c k : Nat) (x : Ctx) : (s.setCtx c k x).due = s.due := rfl
@[simp] theorem time_setCtx (c k : Nat) (x : Ctx) : (s.setCtx c k x).time = s.time := rfl
@[simp] theorem mem_setCtx (c k : Nat) (x : Ctx) : (s.setCtx c k x).mem = s.mem := rfl
@[simp] theorem tags_setCtx (c k : Nat) (x : Ctx) : (s.setCtx c k x).tags = s.tags := rfl
@[simp] theorem flips_setCtx (c k : Nat) (x : Ctx) : (s.setCtx c k x).flips = s.flips := rfl
@[simp] theorem stamps_setCtx (c k : Nat) (x : Ctx) : (s.setCtx c k x).stamps = s.stamps := rfl
@[simp] theorem delivered_setCtx (c k : Nat) (x : Ctx) : (s.setCtx c k x).delivered = s.delivered := rfl
@[simp] theorem hostClock_setCtx (c k : Nat) (x : Ctx) : (s.setCtx c k x).hostClock = s.hostClock := rfl
@[simp] theorem seq_setCtx (c k : Nat) (x : Ctx) : (s.setCtx c k x).seq = s.seq := rfl
@[simp] theorem past_setCtx (c k : Nat) (x : Ctx) : (s.setCtx c k x).past = s.past := rfl
@[simp] theorem parties_setCtx (c k : Nat) (x : Ctx) : (s.setCtx c k x).parties = s.parties := rfl
@[simp] theorem cores_setCtx (c k : Nat) (x : Ctx) : (s.setCtx c k x).cores = s.cores := rfl
@[simp] theorem dies_setCtx (c k : Nat) (x : Ctx) : (s.setCtx c k x).dies = s.dies := rfl
@[simp] theorem hampers_setCtx (c k : Nat) (x : Ctx) : (s.setCtx c k x).hampers = s.hampers := rfl
@[simp] theorem parts_setCtx (c k : Nat) (x : Ctx) : (s.setCtx c k x).parts = s.parts := rfl
@[simp] theorem queues_setCtx (c k : Nat) (x : Ctx) : (s.setCtx c k x).queues = s.queues := rfl
@[simp] theorem keys_setCtx (c k : Nat) (x : Ctx) : (s.setCtx c k x).keys = s.keys := rfl
@[simp] theorem moved_setCtx (c k : Nat) (x : Ctx) : (s.setCtx c k x).moved = s.moved := rfl
@[simp] theorem moduleDraw_setCtx (c k : Nat) (x : Ctx) : (s.setCtx c k x).moduleDraw = s.moduleDraw := rfl
@[simp] theorem owners_setCtx (c k : Nat) (x : Ctx) : (s.setCtx c k x).owners = s.owners := rfl
@[simp] theorem aside_setCtx (c k : Nat) (x : Ctx) : (s.setCtx c k x).aside = s.aside := rfl
@[simp] theorem reassigns_setCtx (c k : Nat) (x : Ctx) : (s.setCtx c k x).reassigns = s.reassigns := rfl
@[simp] theorem pages_setCtx (c k : Nat) (x : Ctx) : (s.setCtx c k x).pages = s.pages := rfl
@[simp] theorem pins_setCtx (c k : Nat) (x : Ctx) : (s.setCtx c k x).pins = s.pins := rfl
@[simp] theorem objects_setCtx (c k : Nat) (x : Ctx) : (s.setCtx c k x).objects = s.objects := rfl
@[simp] theorem windows_setCtx (c k : Nat) (x : Ctx) : (s.setCtx c k x).windows = s.windows := rfl
@[simp] theorem streams_setCtx (c k : Nat) (x : Ctx) : (s.setCtx c k x).streams = s.streams := rfl
@[simp] theorem suffixes_setCtx (c k : Nat) (x : Ctx) : (s.setCtx c k x).suffixes = s.suffixes := rfl
@[simp] theorem cocoons_setCtx (c k : Nat) (x : Ctx) : (s.setCtx c k x).cocoons = s.cocoons := rfl
@[simp] theorem flights_setCtx (c k : Nat) (x : Ctx) : (s.setCtx c k x).flights = s.flights := rfl
@[simp] theorem loads_setCtx (c k : Nat) (x : Ctx) : (s.setCtx c k x).loads = s.loads := rfl
@[simp] theorem msgs_setCtx (c k : Nat) (x : Ctx) : (s.setCtx c k x).msgs = s.msgs := rfl
@[simp] theorem heard_setCtx (c k : Nat) (x : Ctx) : (s.setCtx c k x).heard = s.heard := rfl
@[simp] theorem out_setCtx (c k : Nat) (x : Ctx) : (s.setCtx c k x).out = s.out := rfl
@[simp] theorem prstat_setCtx (c k : Nat) (x : Ctx) : (s.setCtx c k x).prstat = s.prstat := rfl
@[simp] theorem resetting_setCtx (c k : Nat) (x : Ctx) : (s.setCtx c k x).resetting = s.resetting := rfl
@[simp] theorem resetDue_setCtx (c k : Nat) (x : Ctx) : (s.setCtx c k x).resetDue = s.resetDue := rfl
@[simp] theorem fabric_setCtx (c k : Nat) (x : Ctx) : (s.setCtx c k x).fabric = s.fabric := rfl
@[simp] theorem reclaim_setCtx (c k : Nat) (x : Ctx) : (s.setCtx c k x).reclaim = s.reclaim := rfl
@[simp] theorem mgmt_setCtx (c k : Nat) (x : Ctx) : (s.setCtx c k x).mgmt = s.mgmt := rfl
@[simp] theorem serial_setCtx (c k : Nat) (x : Ctx) : (s.setCtx c k x).serial = s.serial := rfl
@[simp] theorem launches_setCtx (c k : Nat) (x : Ctx) : (s.setCtx c k x).launches = s.launches := rfl
@[simp] theorem keynum_setCtx (c k : Nat) (x : Ctx) : (s.setCtx c k x).keynum = s.keynum := rfl

@[simp] theorem plan_setCore (c : Nat) (x : CoreState) : (s.setCore c x).plan = s.plan := rfl
@[simp] theorem tick_setCore (c : Nat) (x : CoreState) : (s.setCore c x).tick = s.tick := rfl
@[simp] theorem fresh_setCore (c : Nat) (x : CoreState) : (s.setCore c x).fresh = s.fresh := rfl
@[simp] theorem last_setCore (c : Nat) (x : CoreState) : (s.setCore c x).last = s.last := rfl
@[simp] theorem cur_setCore (c : Nat) (x : CoreState) : (s.setCore c x).cur = s.cur := rfl
@[simp] theorem due_setCore (c : Nat) (x : CoreState) : (s.setCore c x).due = s.due := rfl
@[simp] theorem time_setCore (c : Nat) (x : CoreState) : (s.setCore c x).time = s.time := rfl
@[simp] theorem mem_setCore (c : Nat) (x : CoreState) : (s.setCore c x).mem = s.mem := rfl
@[simp] theorem tags_setCore (c : Nat) (x : CoreState) : (s.setCore c x).tags = s.tags := rfl
@[simp] theorem flips_setCore (c : Nat) (x : CoreState) : (s.setCore c x).flips = s.flips := rfl
@[simp] theorem stamps_setCore (c : Nat) (x : CoreState) : (s.setCore c x).stamps = s.stamps := rfl
@[simp] theorem delivered_setCore (c : Nat) (x : CoreState) : (s.setCore c x).delivered = s.delivered := rfl
@[simp] theorem hostClock_setCore (c : Nat) (x : CoreState) : (s.setCore c x).hostClock = s.hostClock := rfl
@[simp] theorem seq_setCore (c : Nat) (x : CoreState) : (s.setCore c x).seq = s.seq := rfl
@[simp] theorem past_setCore (c : Nat) (x : CoreState) : (s.setCore c x).past = s.past := rfl
@[simp] theorem parties_setCore (c : Nat) (x : CoreState) : (s.setCore c x).parties = s.parties := rfl
@[simp] theorem ctxs_setCore (c : Nat) (x : CoreState) : (s.setCore c x).ctxs = s.ctxs := rfl
@[simp] theorem dies_setCore (c : Nat) (x : CoreState) : (s.setCore c x).dies = s.dies := rfl
@[simp] theorem hampers_setCore (c : Nat) (x : CoreState) : (s.setCore c x).hampers = s.hampers := rfl
@[simp] theorem parts_setCore (c : Nat) (x : CoreState) : (s.setCore c x).parts = s.parts := rfl
@[simp] theorem queues_setCore (c : Nat) (x : CoreState) : (s.setCore c x).queues = s.queues := rfl
@[simp] theorem keys_setCore (c : Nat) (x : CoreState) : (s.setCore c x).keys = s.keys := rfl
@[simp] theorem moved_setCore (c : Nat) (x : CoreState) : (s.setCore c x).moved = s.moved := rfl
@[simp] theorem moduleDraw_setCore (c : Nat) (x : CoreState) : (s.setCore c x).moduleDraw = s.moduleDraw := rfl
@[simp] theorem owners_setCore (c : Nat) (x : CoreState) : (s.setCore c x).owners = s.owners := rfl
@[simp] theorem aside_setCore (c : Nat) (x : CoreState) : (s.setCore c x).aside = s.aside := rfl
@[simp] theorem reassigns_setCore (c : Nat) (x : CoreState) : (s.setCore c x).reassigns = s.reassigns := rfl
@[simp] theorem pages_setCore (c : Nat) (x : CoreState) : (s.setCore c x).pages = s.pages := rfl
@[simp] theorem pins_setCore (c : Nat) (x : CoreState) : (s.setCore c x).pins = s.pins := rfl
@[simp] theorem objects_setCore (c : Nat) (x : CoreState) : (s.setCore c x).objects = s.objects := rfl
@[simp] theorem windows_setCore (c : Nat) (x : CoreState) : (s.setCore c x).windows = s.windows := rfl
@[simp] theorem streams_setCore (c : Nat) (x : CoreState) : (s.setCore c x).streams = s.streams := rfl
@[simp] theorem suffixes_setCore (c : Nat) (x : CoreState) : (s.setCore c x).suffixes = s.suffixes := rfl
@[simp] theorem cocoons_setCore (c : Nat) (x : CoreState) : (s.setCore c x).cocoons = s.cocoons := rfl
@[simp] theorem flights_setCore (c : Nat) (x : CoreState) : (s.setCore c x).flights = s.flights := rfl
@[simp] theorem loads_setCore (c : Nat) (x : CoreState) : (s.setCore c x).loads = s.loads := rfl
@[simp] theorem msgs_setCore (c : Nat) (x : CoreState) : (s.setCore c x).msgs = s.msgs := rfl
@[simp] theorem heard_setCore (c : Nat) (x : CoreState) : (s.setCore c x).heard = s.heard := rfl
@[simp] theorem out_setCore (c : Nat) (x : CoreState) : (s.setCore c x).out = s.out := rfl
@[simp] theorem prstat_setCore (c : Nat) (x : CoreState) : (s.setCore c x).prstat = s.prstat := rfl
@[simp] theorem resetting_setCore (c : Nat) (x : CoreState) : (s.setCore c x).resetting = s.resetting := rfl
@[simp] theorem resetDue_setCore (c : Nat) (x : CoreState) : (s.setCore c x).resetDue = s.resetDue := rfl
@[simp] theorem fabric_setCore (c : Nat) (x : CoreState) : (s.setCore c x).fabric = s.fabric := rfl
@[simp] theorem reclaim_setCore (c : Nat) (x : CoreState) : (s.setCore c x).reclaim = s.reclaim := rfl
@[simp] theorem mgmt_setCore (c : Nat) (x : CoreState) : (s.setCore c x).mgmt = s.mgmt := rfl
@[simp] theorem serial_setCore (c : Nat) (x : CoreState) : (s.setCore c x).serial = s.serial := rfl
@[simp] theorem launches_setCore (c : Nat) (x : CoreState) : (s.setCore c x).launches = s.launches := rfl
@[simp] theorem keynum_setCore (c : Nat) (x : CoreState) : (s.setCore c x).keynum = s.keynum := rfl

@[simp] theorem plan_setDie (d : Nat) (x : DieState) : (s.setDie d x).plan = s.plan := rfl
@[simp] theorem tick_setDie (d : Nat) (x : DieState) : (s.setDie d x).tick = s.tick := rfl
@[simp] theorem fresh_setDie (d : Nat) (x : DieState) : (s.setDie d x).fresh = s.fresh := rfl
@[simp] theorem last_setDie (d : Nat) (x : DieState) : (s.setDie d x).last = s.last := rfl
@[simp] theorem cur_setDie (d : Nat) (x : DieState) : (s.setDie d x).cur = s.cur := rfl
@[simp] theorem due_setDie (d : Nat) (x : DieState) : (s.setDie d x).due = s.due := rfl
@[simp] theorem time_setDie (d : Nat) (x : DieState) : (s.setDie d x).time = s.time := rfl
@[simp] theorem mem_setDie (d : Nat) (x : DieState) : (s.setDie d x).mem = s.mem := rfl
@[simp] theorem tags_setDie (d : Nat) (x : DieState) : (s.setDie d x).tags = s.tags := rfl
@[simp] theorem flips_setDie (d : Nat) (x : DieState) : (s.setDie d x).flips = s.flips := rfl
@[simp] theorem stamps_setDie (d : Nat) (x : DieState) : (s.setDie d x).stamps = s.stamps := rfl
@[simp] theorem delivered_setDie (d : Nat) (x : DieState) : (s.setDie d x).delivered = s.delivered := rfl
@[simp] theorem hostClock_setDie (d : Nat) (x : DieState) : (s.setDie d x).hostClock = s.hostClock := rfl
@[simp] theorem seq_setDie (d : Nat) (x : DieState) : (s.setDie d x).seq = s.seq := rfl
@[simp] theorem past_setDie (d : Nat) (x : DieState) : (s.setDie d x).past = s.past := rfl
@[simp] theorem parties_setDie (d : Nat) (x : DieState) : (s.setDie d x).parties = s.parties := rfl
@[simp] theorem ctxs_setDie (d : Nat) (x : DieState) : (s.setDie d x).ctxs = s.ctxs := rfl
@[simp] theorem cores_setDie (d : Nat) (x : DieState) : (s.setDie d x).cores = s.cores := rfl
@[simp] theorem hampers_setDie (d : Nat) (x : DieState) : (s.setDie d x).hampers = s.hampers := rfl
@[simp] theorem parts_setDie (d : Nat) (x : DieState) : (s.setDie d x).parts = s.parts := rfl
@[simp] theorem queues_setDie (d : Nat) (x : DieState) : (s.setDie d x).queues = s.queues := rfl
@[simp] theorem keys_setDie (d : Nat) (x : DieState) : (s.setDie d x).keys = s.keys := rfl
@[simp] theorem moved_setDie (d : Nat) (x : DieState) : (s.setDie d x).moved = s.moved := rfl
@[simp] theorem moduleDraw_setDie (d : Nat) (x : DieState) : (s.setDie d x).moduleDraw = s.moduleDraw := rfl
@[simp] theorem owners_setDie (d : Nat) (x : DieState) : (s.setDie d x).owners = s.owners := rfl
@[simp] theorem aside_setDie (d : Nat) (x : DieState) : (s.setDie d x).aside = s.aside := rfl
@[simp] theorem reassigns_setDie (d : Nat) (x : DieState) : (s.setDie d x).reassigns = s.reassigns := rfl
@[simp] theorem pages_setDie (d : Nat) (x : DieState) : (s.setDie d x).pages = s.pages := rfl
@[simp] theorem pins_setDie (d : Nat) (x : DieState) : (s.setDie d x).pins = s.pins := rfl
@[simp] theorem objects_setDie (d : Nat) (x : DieState) : (s.setDie d x).objects = s.objects := rfl
@[simp] theorem windows_setDie (d : Nat) (x : DieState) : (s.setDie d x).windows = s.windows := rfl
@[simp] theorem streams_setDie (d : Nat) (x : DieState) : (s.setDie d x).streams = s.streams := rfl
@[simp] theorem suffixes_setDie (d : Nat) (x : DieState) : (s.setDie d x).suffixes = s.suffixes := rfl
@[simp] theorem cocoons_setDie (d : Nat) (x : DieState) : (s.setDie d x).cocoons = s.cocoons := rfl
@[simp] theorem flights_setDie (d : Nat) (x : DieState) : (s.setDie d x).flights = s.flights := rfl
@[simp] theorem loads_setDie (d : Nat) (x : DieState) : (s.setDie d x).loads = s.loads := rfl
@[simp] theorem msgs_setDie (d : Nat) (x : DieState) : (s.setDie d x).msgs = s.msgs := rfl
@[simp] theorem heard_setDie (d : Nat) (x : DieState) : (s.setDie d x).heard = s.heard := rfl
@[simp] theorem out_setDie (d : Nat) (x : DieState) : (s.setDie d x).out = s.out := rfl
@[simp] theorem prstat_setDie (d : Nat) (x : DieState) : (s.setDie d x).prstat = s.prstat := rfl
@[simp] theorem resetting_setDie (d : Nat) (x : DieState) : (s.setDie d x).resetting = s.resetting := rfl
@[simp] theorem resetDue_setDie (d : Nat) (x : DieState) : (s.setDie d x).resetDue = s.resetDue := rfl
@[simp] theorem fabric_setDie (d : Nat) (x : DieState) : (s.setDie d x).fabric = s.fabric := rfl
@[simp] theorem reclaim_setDie (d : Nat) (x : DieState) : (s.setDie d x).reclaim = s.reclaim := rfl
@[simp] theorem mgmt_setDie (d : Nat) (x : DieState) : (s.setDie d x).mgmt = s.mgmt := rfl
@[simp] theorem serial_setDie (d : Nat) (x : DieState) : (s.setDie d x).serial = s.serial := rfl
@[simp] theorem launches_setDie (d : Nat) (x : DieState) : (s.setDie d x).launches = s.launches := rfl
@[simp] theorem keynum_setDie (d : Nat) (x : DieState) : (s.setDie d x).keynum = s.keynum := rfl

@[simp] theorem plan_setHamper (h : Nat) (x : HamperState) : (s.setHamper h x).plan = s.plan := rfl
@[simp] theorem tick_setHamper (h : Nat) (x : HamperState) : (s.setHamper h x).tick = s.tick := rfl
@[simp] theorem fresh_setHamper (h : Nat) (x : HamperState) : (s.setHamper h x).fresh = s.fresh := rfl
@[simp] theorem last_setHamper (h : Nat) (x : HamperState) : (s.setHamper h x).last = s.last := rfl
@[simp] theorem cur_setHamper (h : Nat) (x : HamperState) : (s.setHamper h x).cur = s.cur := rfl
@[simp] theorem due_setHamper (h : Nat) (x : HamperState) : (s.setHamper h x).due = s.due := rfl
@[simp] theorem time_setHamper (h : Nat) (x : HamperState) : (s.setHamper h x).time = s.time := rfl
@[simp] theorem mem_setHamper (h : Nat) (x : HamperState) : (s.setHamper h x).mem = s.mem := rfl
@[simp] theorem tags_setHamper (h : Nat) (x : HamperState) : (s.setHamper h x).tags = s.tags := rfl
@[simp] theorem flips_setHamper (h : Nat) (x : HamperState) : (s.setHamper h x).flips = s.flips := rfl
@[simp] theorem stamps_setHamper (h : Nat) (x : HamperState) : (s.setHamper h x).stamps = s.stamps := rfl
@[simp] theorem delivered_setHamper (h : Nat) (x : HamperState) : (s.setHamper h x).delivered = s.delivered := rfl
@[simp] theorem hostClock_setHamper (h : Nat) (x : HamperState) : (s.setHamper h x).hostClock = s.hostClock := rfl
@[simp] theorem seq_setHamper (h : Nat) (x : HamperState) : (s.setHamper h x).seq = s.seq := rfl
@[simp] theorem past_setHamper (h : Nat) (x : HamperState) : (s.setHamper h x).past = s.past := rfl
@[simp] theorem parties_setHamper (h : Nat) (x : HamperState) : (s.setHamper h x).parties = s.parties := rfl
@[simp] theorem ctxs_setHamper (h : Nat) (x : HamperState) : (s.setHamper h x).ctxs = s.ctxs := rfl
@[simp] theorem cores_setHamper (h : Nat) (x : HamperState) : (s.setHamper h x).cores = s.cores := rfl
@[simp] theorem dies_setHamper (h : Nat) (x : HamperState) : (s.setHamper h x).dies = s.dies := rfl
@[simp] theorem parts_setHamper (h : Nat) (x : HamperState) : (s.setHamper h x).parts = s.parts := rfl
@[simp] theorem queues_setHamper (h : Nat) (x : HamperState) : (s.setHamper h x).queues = s.queues := rfl
@[simp] theorem keys_setHamper (h : Nat) (x : HamperState) : (s.setHamper h x).keys = s.keys := rfl
@[simp] theorem moved_setHamper (h : Nat) (x : HamperState) : (s.setHamper h x).moved = s.moved := rfl
@[simp] theorem moduleDraw_setHamper (h : Nat) (x : HamperState) : (s.setHamper h x).moduleDraw = s.moduleDraw := rfl
@[simp] theorem owners_setHamper (h : Nat) (x : HamperState) : (s.setHamper h x).owners = s.owners := rfl
@[simp] theorem aside_setHamper (h : Nat) (x : HamperState) : (s.setHamper h x).aside = s.aside := rfl
@[simp] theorem reassigns_setHamper (h : Nat) (x : HamperState) : (s.setHamper h x).reassigns = s.reassigns := rfl
@[simp] theorem pages_setHamper (h : Nat) (x : HamperState) : (s.setHamper h x).pages = s.pages := rfl
@[simp] theorem pins_setHamper (h : Nat) (x : HamperState) : (s.setHamper h x).pins = s.pins := rfl
@[simp] theorem objects_setHamper (h : Nat) (x : HamperState) : (s.setHamper h x).objects = s.objects := rfl
@[simp] theorem windows_setHamper (h : Nat) (x : HamperState) : (s.setHamper h x).windows = s.windows := rfl
@[simp] theorem streams_setHamper (h : Nat) (x : HamperState) : (s.setHamper h x).streams = s.streams := rfl
@[simp] theorem suffixes_setHamper (h : Nat) (x : HamperState) : (s.setHamper h x).suffixes = s.suffixes := rfl
@[simp] theorem cocoons_setHamper (h : Nat) (x : HamperState) : (s.setHamper h x).cocoons = s.cocoons := rfl
@[simp] theorem flights_setHamper (h : Nat) (x : HamperState) : (s.setHamper h x).flights = s.flights := rfl
@[simp] theorem loads_setHamper (h : Nat) (x : HamperState) : (s.setHamper h x).loads = s.loads := rfl
@[simp] theorem msgs_setHamper (h : Nat) (x : HamperState) : (s.setHamper h x).msgs = s.msgs := rfl
@[simp] theorem heard_setHamper (h : Nat) (x : HamperState) : (s.setHamper h x).heard = s.heard := rfl
@[simp] theorem out_setHamper (h : Nat) (x : HamperState) : (s.setHamper h x).out = s.out := rfl
@[simp] theorem prstat_setHamper (h : Nat) (x : HamperState) : (s.setHamper h x).prstat = s.prstat := rfl
@[simp] theorem resetting_setHamper (h : Nat) (x : HamperState) : (s.setHamper h x).resetting = s.resetting := rfl
@[simp] theorem resetDue_setHamper (h : Nat) (x : HamperState) : (s.setHamper h x).resetDue = s.resetDue := rfl
@[simp] theorem fabric_setHamper (h : Nat) (x : HamperState) : (s.setHamper h x).fabric = s.fabric := rfl
@[simp] theorem reclaim_setHamper (h : Nat) (x : HamperState) : (s.setHamper h x).reclaim = s.reclaim := rfl
@[simp] theorem mgmt_setHamper (h : Nat) (x : HamperState) : (s.setHamper h x).mgmt = s.mgmt := rfl
@[simp] theorem serial_setHamper (h : Nat) (x : HamperState) : (s.setHamper h x).serial = s.serial := rfl
@[simp] theorem launches_setHamper (h : Nat) (x : HamperState) : (s.setHamper h x).launches = s.launches := rfl
@[simp] theorem keynum_setHamper (h : Nat) (x : HamperState) : (s.setHamper h x).keynum = s.keynum := rfl

@[simp] theorem plan_setPart (p : Nat) (x : Partition) : (s.setPart p x).plan = s.plan := rfl
@[simp] theorem tick_setPart (p : Nat) (x : Partition) : (s.setPart p x).tick = s.tick := rfl
@[simp] theorem fresh_setPart (p : Nat) (x : Partition) : (s.setPart p x).fresh = s.fresh := rfl
@[simp] theorem last_setPart (p : Nat) (x : Partition) : (s.setPart p x).last = s.last := rfl
@[simp] theorem cur_setPart (p : Nat) (x : Partition) : (s.setPart p x).cur = s.cur := rfl
@[simp] theorem due_setPart (p : Nat) (x : Partition) : (s.setPart p x).due = s.due := rfl
@[simp] theorem time_setPart (p : Nat) (x : Partition) : (s.setPart p x).time = s.time := rfl
@[simp] theorem mem_setPart (p : Nat) (x : Partition) : (s.setPart p x).mem = s.mem := rfl
@[simp] theorem tags_setPart (p : Nat) (x : Partition) : (s.setPart p x).tags = s.tags := rfl
@[simp] theorem flips_setPart (p : Nat) (x : Partition) : (s.setPart p x).flips = s.flips := rfl
@[simp] theorem stamps_setPart (p : Nat) (x : Partition) : (s.setPart p x).stamps = s.stamps := rfl
@[simp] theorem delivered_setPart (p : Nat) (x : Partition) : (s.setPart p x).delivered = s.delivered := rfl
@[simp] theorem hostClock_setPart (p : Nat) (x : Partition) : (s.setPart p x).hostClock = s.hostClock := rfl
@[simp] theorem seq_setPart (p : Nat) (x : Partition) : (s.setPart p x).seq = s.seq := rfl
@[simp] theorem past_setPart (p : Nat) (x : Partition) : (s.setPart p x).past = s.past := rfl
@[simp] theorem parties_setPart (p : Nat) (x : Partition) : (s.setPart p x).parties = s.parties := rfl
@[simp] theorem ctxs_setPart (p : Nat) (x : Partition) : (s.setPart p x).ctxs = s.ctxs := rfl
@[simp] theorem cores_setPart (p : Nat) (x : Partition) : (s.setPart p x).cores = s.cores := rfl
@[simp] theorem dies_setPart (p : Nat) (x : Partition) : (s.setPart p x).dies = s.dies := rfl
@[simp] theorem hampers_setPart (p : Nat) (x : Partition) : (s.setPart p x).hampers = s.hampers := rfl
@[simp] theorem queues_setPart (p : Nat) (x : Partition) : (s.setPart p x).queues = s.queues := rfl
@[simp] theorem keys_setPart (p : Nat) (x : Partition) : (s.setPart p x).keys = s.keys := rfl
@[simp] theorem moved_setPart (p : Nat) (x : Partition) : (s.setPart p x).moved = s.moved := rfl
@[simp] theorem moduleDraw_setPart (p : Nat) (x : Partition) : (s.setPart p x).moduleDraw = s.moduleDraw := rfl
@[simp] theorem owners_setPart (p : Nat) (x : Partition) : (s.setPart p x).owners = s.owners := rfl
@[simp] theorem aside_setPart (p : Nat) (x : Partition) : (s.setPart p x).aside = s.aside := rfl
@[simp] theorem reassigns_setPart (p : Nat) (x : Partition) : (s.setPart p x).reassigns = s.reassigns := rfl
@[simp] theorem pages_setPart (p : Nat) (x : Partition) : (s.setPart p x).pages = s.pages := rfl
@[simp] theorem pins_setPart (p : Nat) (x : Partition) : (s.setPart p x).pins = s.pins := rfl
@[simp] theorem objects_setPart (p : Nat) (x : Partition) : (s.setPart p x).objects = s.objects := rfl
@[simp] theorem windows_setPart (p : Nat) (x : Partition) : (s.setPart p x).windows = s.windows := rfl
@[simp] theorem streams_setPart (p : Nat) (x : Partition) : (s.setPart p x).streams = s.streams := rfl
@[simp] theorem suffixes_setPart (p : Nat) (x : Partition) : (s.setPart p x).suffixes = s.suffixes := rfl
@[simp] theorem cocoons_setPart (p : Nat) (x : Partition) : (s.setPart p x).cocoons = s.cocoons := rfl
@[simp] theorem flights_setPart (p : Nat) (x : Partition) : (s.setPart p x).flights = s.flights := rfl
@[simp] theorem loads_setPart (p : Nat) (x : Partition) : (s.setPart p x).loads = s.loads := rfl
@[simp] theorem msgs_setPart (p : Nat) (x : Partition) : (s.setPart p x).msgs = s.msgs := rfl
@[simp] theorem heard_setPart (p : Nat) (x : Partition) : (s.setPart p x).heard = s.heard := rfl
@[simp] theorem out_setPart (p : Nat) (x : Partition) : (s.setPart p x).out = s.out := rfl
@[simp] theorem prstat_setPart (p : Nat) (x : Partition) : (s.setPart p x).prstat = s.prstat := rfl
@[simp] theorem resetting_setPart (p : Nat) (x : Partition) : (s.setPart p x).resetting = s.resetting := rfl
@[simp] theorem resetDue_setPart (p : Nat) (x : Partition) : (s.setPart p x).resetDue = s.resetDue := rfl
@[simp] theorem fabric_setPart (p : Nat) (x : Partition) : (s.setPart p x).fabric = s.fabric := rfl
@[simp] theorem reclaim_setPart (p : Nat) (x : Partition) : (s.setPart p x).reclaim = s.reclaim := rfl
@[simp] theorem mgmt_setPart (p : Nat) (x : Partition) : (s.setPart p x).mgmt = s.mgmt := rfl
@[simp] theorem serial_setPart (p : Nat) (x : Partition) : (s.setPart p x).serial = s.serial := rfl
@[simp] theorem launches_setPart (p : Nat) (x : Partition) : (s.setPart p x).launches = s.launches := rfl
@[simp] theorem keynum_setPart (p : Nat) (x : Partition) : (s.setPart p x).keynum = s.keynum := rfl

@[simp] theorem plan_setQueue (p q : Nat) (x : LQueue) : (s.setQueue p q x).plan = s.plan := rfl
@[simp] theorem tick_setQueue (p q : Nat) (x : LQueue) : (s.setQueue p q x).tick = s.tick := rfl
@[simp] theorem fresh_setQueue (p q : Nat) (x : LQueue) : (s.setQueue p q x).fresh = s.fresh := rfl
@[simp] theorem last_setQueue (p q : Nat) (x : LQueue) : (s.setQueue p q x).last = s.last := rfl
@[simp] theorem cur_setQueue (p q : Nat) (x : LQueue) : (s.setQueue p q x).cur = s.cur := rfl
@[simp] theorem due_setQueue (p q : Nat) (x : LQueue) : (s.setQueue p q x).due = s.due := rfl
@[simp] theorem time_setQueue (p q : Nat) (x : LQueue) : (s.setQueue p q x).time = s.time := rfl
@[simp] theorem mem_setQueue (p q : Nat) (x : LQueue) : (s.setQueue p q x).mem = s.mem := rfl
@[simp] theorem tags_setQueue (p q : Nat) (x : LQueue) : (s.setQueue p q x).tags = s.tags := rfl
@[simp] theorem flips_setQueue (p q : Nat) (x : LQueue) : (s.setQueue p q x).flips = s.flips := rfl
@[simp] theorem stamps_setQueue (p q : Nat) (x : LQueue) : (s.setQueue p q x).stamps = s.stamps := rfl
@[simp] theorem delivered_setQueue (p q : Nat) (x : LQueue) : (s.setQueue p q x).delivered = s.delivered := rfl
@[simp] theorem hostClock_setQueue (p q : Nat) (x : LQueue) : (s.setQueue p q x).hostClock = s.hostClock := rfl
@[simp] theorem seq_setQueue (p q : Nat) (x : LQueue) : (s.setQueue p q x).seq = s.seq := rfl
@[simp] theorem past_setQueue (p q : Nat) (x : LQueue) : (s.setQueue p q x).past = s.past := rfl
@[simp] theorem parties_setQueue (p q : Nat) (x : LQueue) : (s.setQueue p q x).parties = s.parties := rfl
@[simp] theorem ctxs_setQueue (p q : Nat) (x : LQueue) : (s.setQueue p q x).ctxs = s.ctxs := rfl
@[simp] theorem cores_setQueue (p q : Nat) (x : LQueue) : (s.setQueue p q x).cores = s.cores := rfl
@[simp] theorem dies_setQueue (p q : Nat) (x : LQueue) : (s.setQueue p q x).dies = s.dies := rfl
@[simp] theorem hampers_setQueue (p q : Nat) (x : LQueue) : (s.setQueue p q x).hampers = s.hampers := rfl
@[simp] theorem parts_setQueue (p q : Nat) (x : LQueue) : (s.setQueue p q x).parts = s.parts := rfl
@[simp] theorem keys_setQueue (p q : Nat) (x : LQueue) : (s.setQueue p q x).keys = s.keys := rfl
@[simp] theorem moved_setQueue (p q : Nat) (x : LQueue) : (s.setQueue p q x).moved = s.moved := rfl
@[simp] theorem moduleDraw_setQueue (p q : Nat) (x : LQueue) : (s.setQueue p q x).moduleDraw = s.moduleDraw := rfl
@[simp] theorem owners_setQueue (p q : Nat) (x : LQueue) : (s.setQueue p q x).owners = s.owners := rfl
@[simp] theorem aside_setQueue (p q : Nat) (x : LQueue) : (s.setQueue p q x).aside = s.aside := rfl
@[simp] theorem reassigns_setQueue (p q : Nat) (x : LQueue) : (s.setQueue p q x).reassigns = s.reassigns := rfl
@[simp] theorem pages_setQueue (p q : Nat) (x : LQueue) : (s.setQueue p q x).pages = s.pages := rfl
@[simp] theorem pins_setQueue (p q : Nat) (x : LQueue) : (s.setQueue p q x).pins = s.pins := rfl
@[simp] theorem objects_setQueue (p q : Nat) (x : LQueue) : (s.setQueue p q x).objects = s.objects := rfl
@[simp] theorem windows_setQueue (p q : Nat) (x : LQueue) : (s.setQueue p q x).windows = s.windows := rfl
@[simp] theorem streams_setQueue (p q : Nat) (x : LQueue) : (s.setQueue p q x).streams = s.streams := rfl
@[simp] theorem suffixes_setQueue (p q : Nat) (x : LQueue) : (s.setQueue p q x).suffixes = s.suffixes := rfl
@[simp] theorem cocoons_setQueue (p q : Nat) (x : LQueue) : (s.setQueue p q x).cocoons = s.cocoons := rfl
@[simp] theorem flights_setQueue (p q : Nat) (x : LQueue) : (s.setQueue p q x).flights = s.flights := rfl
@[simp] theorem loads_setQueue (p q : Nat) (x : LQueue) : (s.setQueue p q x).loads = s.loads := rfl
@[simp] theorem msgs_setQueue (p q : Nat) (x : LQueue) : (s.setQueue p q x).msgs = s.msgs := rfl
@[simp] theorem heard_setQueue (p q : Nat) (x : LQueue) : (s.setQueue p q x).heard = s.heard := rfl
@[simp] theorem out_setQueue (p q : Nat) (x : LQueue) : (s.setQueue p q x).out = s.out := rfl
@[simp] theorem prstat_setQueue (p q : Nat) (x : LQueue) : (s.setQueue p q x).prstat = s.prstat := rfl
@[simp] theorem resetting_setQueue (p q : Nat) (x : LQueue) : (s.setQueue p q x).resetting = s.resetting := rfl
@[simp] theorem resetDue_setQueue (p q : Nat) (x : LQueue) : (s.setQueue p q x).resetDue = s.resetDue := rfl
@[simp] theorem fabric_setQueue (p q : Nat) (x : LQueue) : (s.setQueue p q x).fabric = s.fabric := rfl
@[simp] theorem reclaim_setQueue (p q : Nat) (x : LQueue) : (s.setQueue p q x).reclaim = s.reclaim := rfl
@[simp] theorem mgmt_setQueue (p q : Nat) (x : LQueue) : (s.setQueue p q x).mgmt = s.mgmt := rfl
@[simp] theorem serial_setQueue (p q : Nat) (x : LQueue) : (s.setQueue p q x).serial = s.serial := rfl
@[simp] theorem launches_setQueue (p q : Nat) (x : LQueue) : (s.setQueue p q x).launches = s.launches := rfl
@[simp] theorem keynum_setQueue (p q : Nat) (x : LQueue) : (s.setQueue p q x).keynum = s.keynum := rfl

@[simp] theorem plan_setKey (k : Nat) (x : KeySlot) : (s.setKey k x).plan = s.plan := rfl
@[simp] theorem tick_setKey (k : Nat) (x : KeySlot) : (s.setKey k x).tick = s.tick := rfl
@[simp] theorem fresh_setKey (k : Nat) (x : KeySlot) : (s.setKey k x).fresh = s.fresh := rfl
@[simp] theorem last_setKey (k : Nat) (x : KeySlot) : (s.setKey k x).last = s.last := rfl
@[simp] theorem cur_setKey (k : Nat) (x : KeySlot) : (s.setKey k x).cur = s.cur := rfl
@[simp] theorem due_setKey (k : Nat) (x : KeySlot) : (s.setKey k x).due = s.due := rfl
@[simp] theorem time_setKey (k : Nat) (x : KeySlot) : (s.setKey k x).time = s.time := rfl
@[simp] theorem mem_setKey (k : Nat) (x : KeySlot) : (s.setKey k x).mem = s.mem := rfl
@[simp] theorem tags_setKey (k : Nat) (x : KeySlot) : (s.setKey k x).tags = s.tags := rfl
@[simp] theorem flips_setKey (k : Nat) (x : KeySlot) : (s.setKey k x).flips = s.flips := rfl
@[simp] theorem stamps_setKey (k : Nat) (x : KeySlot) : (s.setKey k x).stamps = s.stamps := rfl
@[simp] theorem delivered_setKey (k : Nat) (x : KeySlot) : (s.setKey k x).delivered = s.delivered := rfl
@[simp] theorem hostClock_setKey (k : Nat) (x : KeySlot) : (s.setKey k x).hostClock = s.hostClock := rfl
@[simp] theorem seq_setKey (k : Nat) (x : KeySlot) : (s.setKey k x).seq = s.seq := rfl
@[simp] theorem past_setKey (k : Nat) (x : KeySlot) : (s.setKey k x).past = s.past := rfl
@[simp] theorem parties_setKey (k : Nat) (x : KeySlot) : (s.setKey k x).parties = s.parties := rfl
@[simp] theorem ctxs_setKey (k : Nat) (x : KeySlot) : (s.setKey k x).ctxs = s.ctxs := rfl
@[simp] theorem cores_setKey (k : Nat) (x : KeySlot) : (s.setKey k x).cores = s.cores := rfl
@[simp] theorem dies_setKey (k : Nat) (x : KeySlot) : (s.setKey k x).dies = s.dies := rfl
@[simp] theorem hampers_setKey (k : Nat) (x : KeySlot) : (s.setKey k x).hampers = s.hampers := rfl
@[simp] theorem parts_setKey (k : Nat) (x : KeySlot) : (s.setKey k x).parts = s.parts := rfl
@[simp] theorem queues_setKey (k : Nat) (x : KeySlot) : (s.setKey k x).queues = s.queues := rfl
@[simp] theorem moved_setKey (k : Nat) (x : KeySlot) : (s.setKey k x).moved = s.moved := rfl
@[simp] theorem moduleDraw_setKey (k : Nat) (x : KeySlot) : (s.setKey k x).moduleDraw = s.moduleDraw := rfl
@[simp] theorem owners_setKey (k : Nat) (x : KeySlot) : (s.setKey k x).owners = s.owners := rfl
@[simp] theorem aside_setKey (k : Nat) (x : KeySlot) : (s.setKey k x).aside = s.aside := rfl
@[simp] theorem reassigns_setKey (k : Nat) (x : KeySlot) : (s.setKey k x).reassigns = s.reassigns := rfl
@[simp] theorem pages_setKey (k : Nat) (x : KeySlot) : (s.setKey k x).pages = s.pages := rfl
@[simp] theorem pins_setKey (k : Nat) (x : KeySlot) : (s.setKey k x).pins = s.pins := rfl
@[simp] theorem objects_setKey (k : Nat) (x : KeySlot) : (s.setKey k x).objects = s.objects := rfl
@[simp] theorem windows_setKey (k : Nat) (x : KeySlot) : (s.setKey k x).windows = s.windows := rfl
@[simp] theorem streams_setKey (k : Nat) (x : KeySlot) : (s.setKey k x).streams = s.streams := rfl
@[simp] theorem suffixes_setKey (k : Nat) (x : KeySlot) : (s.setKey k x).suffixes = s.suffixes := rfl
@[simp] theorem cocoons_setKey (k : Nat) (x : KeySlot) : (s.setKey k x).cocoons = s.cocoons := rfl
@[simp] theorem flights_setKey (k : Nat) (x : KeySlot) : (s.setKey k x).flights = s.flights := rfl
@[simp] theorem loads_setKey (k : Nat) (x : KeySlot) : (s.setKey k x).loads = s.loads := rfl
@[simp] theorem msgs_setKey (k : Nat) (x : KeySlot) : (s.setKey k x).msgs = s.msgs := rfl
@[simp] theorem heard_setKey (k : Nat) (x : KeySlot) : (s.setKey k x).heard = s.heard := rfl
@[simp] theorem out_setKey (k : Nat) (x : KeySlot) : (s.setKey k x).out = s.out := rfl
@[simp] theorem prstat_setKey (k : Nat) (x : KeySlot) : (s.setKey k x).prstat = s.prstat := rfl
@[simp] theorem resetting_setKey (k : Nat) (x : KeySlot) : (s.setKey k x).resetting = s.resetting := rfl
@[simp] theorem resetDue_setKey (k : Nat) (x : KeySlot) : (s.setKey k x).resetDue = s.resetDue := rfl
@[simp] theorem fabric_setKey (k : Nat) (x : KeySlot) : (s.setKey k x).fabric = s.fabric := rfl
@[simp] theorem reclaim_setKey (k : Nat) (x : KeySlot) : (s.setKey k x).reclaim = s.reclaim := rfl
@[simp] theorem mgmt_setKey (k : Nat) (x : KeySlot) : (s.setKey k x).mgmt = s.mgmt := rfl
@[simp] theorem serial_setKey (k : Nat) (x : KeySlot) : (s.setKey k x).serial = s.serial := rfl
@[simp] theorem launches_setKey (k : Nat) (x : KeySlot) : (s.setKey k x).launches = s.launches := rfl
@[simp] theorem keynum_setKey (k : Nat) (x : KeySlot) : (s.setKey k x).keynum = s.keynum := rfl

@[simp] theorem plan_setMe (x : PartyState) : (s.setMe x).plan = s.plan := rfl
@[simp] theorem tick_setMe (x : PartyState) : (s.setMe x).tick = s.tick := rfl
@[simp] theorem fresh_setMe (x : PartyState) : (s.setMe x).fresh = s.fresh := rfl
@[simp] theorem last_setMe (x : PartyState) : (s.setMe x).last = s.last := rfl
@[simp] theorem cur_setMe (x : PartyState) : (s.setMe x).cur = s.cur := rfl
@[simp] theorem due_setMe (x : PartyState) : (s.setMe x).due = s.due := rfl
@[simp] theorem time_setMe (x : PartyState) : (s.setMe x).time = s.time := rfl
@[simp] theorem mem_setMe (x : PartyState) : (s.setMe x).mem = s.mem := rfl
@[simp] theorem tags_setMe (x : PartyState) : (s.setMe x).tags = s.tags := rfl
@[simp] theorem flips_setMe (x : PartyState) : (s.setMe x).flips = s.flips := rfl
@[simp] theorem stamps_setMe (x : PartyState) : (s.setMe x).stamps = s.stamps := rfl
@[simp] theorem delivered_setMe (x : PartyState) : (s.setMe x).delivered = s.delivered := rfl
@[simp] theorem hostClock_setMe (x : PartyState) : (s.setMe x).hostClock = s.hostClock := rfl
@[simp] theorem seq_setMe (x : PartyState) : (s.setMe x).seq = s.seq := rfl
@[simp] theorem past_setMe (x : PartyState) : (s.setMe x).past = s.past := rfl
@[simp] theorem ctxs_setMe (x : PartyState) : (s.setMe x).ctxs = s.ctxs := rfl
@[simp] theorem cores_setMe (x : PartyState) : (s.setMe x).cores = s.cores := rfl
@[simp] theorem dies_setMe (x : PartyState) : (s.setMe x).dies = s.dies := rfl
@[simp] theorem hampers_setMe (x : PartyState) : (s.setMe x).hampers = s.hampers := rfl
@[simp] theorem parts_setMe (x : PartyState) : (s.setMe x).parts = s.parts := rfl
@[simp] theorem queues_setMe (x : PartyState) : (s.setMe x).queues = s.queues := rfl
@[simp] theorem keys_setMe (x : PartyState) : (s.setMe x).keys = s.keys := rfl
@[simp] theorem moved_setMe (x : PartyState) : (s.setMe x).moved = s.moved := rfl
@[simp] theorem moduleDraw_setMe (x : PartyState) : (s.setMe x).moduleDraw = s.moduleDraw := rfl
@[simp] theorem owners_setMe (x : PartyState) : (s.setMe x).owners = s.owners := rfl
@[simp] theorem aside_setMe (x : PartyState) : (s.setMe x).aside = s.aside := rfl
@[simp] theorem reassigns_setMe (x : PartyState) : (s.setMe x).reassigns = s.reassigns := rfl
@[simp] theorem pages_setMe (x : PartyState) : (s.setMe x).pages = s.pages := rfl
@[simp] theorem pins_setMe (x : PartyState) : (s.setMe x).pins = s.pins := rfl
@[simp] theorem objects_setMe (x : PartyState) : (s.setMe x).objects = s.objects := rfl
@[simp] theorem windows_setMe (x : PartyState) : (s.setMe x).windows = s.windows := rfl
@[simp] theorem streams_setMe (x : PartyState) : (s.setMe x).streams = s.streams := rfl
@[simp] theorem suffixes_setMe (x : PartyState) : (s.setMe x).suffixes = s.suffixes := rfl
@[simp] theorem cocoons_setMe (x : PartyState) : (s.setMe x).cocoons = s.cocoons := rfl
@[simp] theorem flights_setMe (x : PartyState) : (s.setMe x).flights = s.flights := rfl
@[simp] theorem loads_setMe (x : PartyState) : (s.setMe x).loads = s.loads := rfl
@[simp] theorem msgs_setMe (x : PartyState) : (s.setMe x).msgs = s.msgs := rfl
@[simp] theorem heard_setMe (x : PartyState) : (s.setMe x).heard = s.heard := rfl
@[simp] theorem out_setMe (x : PartyState) : (s.setMe x).out = s.out := rfl
@[simp] theorem prstat_setMe (x : PartyState) : (s.setMe x).prstat = s.prstat := rfl
@[simp] theorem resetting_setMe (x : PartyState) : (s.setMe x).resetting = s.resetting := rfl
@[simp] theorem resetDue_setMe (x : PartyState) : (s.setMe x).resetDue = s.resetDue := rfl
@[simp] theorem fabric_setMe (x : PartyState) : (s.setMe x).fabric = s.fabric := rfl
@[simp] theorem reclaim_setMe (x : PartyState) : (s.setMe x).reclaim = s.reclaim := rfl
@[simp] theorem mgmt_setMe (x : PartyState) : (s.setMe x).mgmt = s.mgmt := rfl
@[simp] theorem serial_setMe (x : PartyState) : (s.setMe x).serial = s.serial := rfl
@[simp] theorem launches_setMe (x : PartyState) : (s.setMe x).launches = s.launches := rfl
@[simp] theorem keynum_setMe (x : PartyState) : (s.setMe x).keynum = s.keynum := rfl

@[simp] theorem plan_modParty (p : PartyId) (f : PartyState → PartyState) : (s.modParty p f).plan = s.plan := rfl
@[simp] theorem tick_modParty (p : PartyId) (f : PartyState → PartyState) : (s.modParty p f).tick = s.tick := rfl
@[simp] theorem fresh_modParty (p : PartyId) (f : PartyState → PartyState) : (s.modParty p f).fresh = s.fresh := rfl
@[simp] theorem last_modParty (p : PartyId) (f : PartyState → PartyState) : (s.modParty p f).last = s.last := rfl
@[simp] theorem cur_modParty (p : PartyId) (f : PartyState → PartyState) : (s.modParty p f).cur = s.cur := rfl
@[simp] theorem due_modParty (p : PartyId) (f : PartyState → PartyState) : (s.modParty p f).due = s.due := rfl
@[simp] theorem time_modParty (p : PartyId) (f : PartyState → PartyState) : (s.modParty p f).time = s.time := rfl
@[simp] theorem mem_modParty (p : PartyId) (f : PartyState → PartyState) : (s.modParty p f).mem = s.mem := rfl
@[simp] theorem tags_modParty (p : PartyId) (f : PartyState → PartyState) : (s.modParty p f).tags = s.tags := rfl
@[simp] theorem flips_modParty (p : PartyId) (f : PartyState → PartyState) : (s.modParty p f).flips = s.flips := rfl
@[simp] theorem stamps_modParty (p : PartyId) (f : PartyState → PartyState) : (s.modParty p f).stamps = s.stamps := rfl
@[simp] theorem delivered_modParty (p : PartyId) (f : PartyState → PartyState) : (s.modParty p f).delivered = s.delivered := rfl
@[simp] theorem hostClock_modParty (p : PartyId) (f : PartyState → PartyState) : (s.modParty p f).hostClock = s.hostClock := rfl
@[simp] theorem seq_modParty (p : PartyId) (f : PartyState → PartyState) : (s.modParty p f).seq = s.seq := rfl
@[simp] theorem past_modParty (p : PartyId) (f : PartyState → PartyState) : (s.modParty p f).past = s.past := rfl
@[simp] theorem ctxs_modParty (p : PartyId) (f : PartyState → PartyState) : (s.modParty p f).ctxs = s.ctxs := rfl
@[simp] theorem cores_modParty (p : PartyId) (f : PartyState → PartyState) : (s.modParty p f).cores = s.cores := rfl
@[simp] theorem dies_modParty (p : PartyId) (f : PartyState → PartyState) : (s.modParty p f).dies = s.dies := rfl
@[simp] theorem hampers_modParty (p : PartyId) (f : PartyState → PartyState) : (s.modParty p f).hampers = s.hampers := rfl
@[simp] theorem parts_modParty (p : PartyId) (f : PartyState → PartyState) : (s.modParty p f).parts = s.parts := rfl
@[simp] theorem queues_modParty (p : PartyId) (f : PartyState → PartyState) : (s.modParty p f).queues = s.queues := rfl
@[simp] theorem keys_modParty (p : PartyId) (f : PartyState → PartyState) : (s.modParty p f).keys = s.keys := rfl
@[simp] theorem moved_modParty (p : PartyId) (f : PartyState → PartyState) : (s.modParty p f).moved = s.moved := rfl
@[simp] theorem moduleDraw_modParty (p : PartyId) (f : PartyState → PartyState) : (s.modParty p f).moduleDraw = s.moduleDraw := rfl
@[simp] theorem owners_modParty (p : PartyId) (f : PartyState → PartyState) : (s.modParty p f).owners = s.owners := rfl
@[simp] theorem aside_modParty (p : PartyId) (f : PartyState → PartyState) : (s.modParty p f).aside = s.aside := rfl
@[simp] theorem reassigns_modParty (p : PartyId) (f : PartyState → PartyState) : (s.modParty p f).reassigns = s.reassigns := rfl
@[simp] theorem pages_modParty (p : PartyId) (f : PartyState → PartyState) : (s.modParty p f).pages = s.pages := rfl
@[simp] theorem pins_modParty (p : PartyId) (f : PartyState → PartyState) : (s.modParty p f).pins = s.pins := rfl
@[simp] theorem objects_modParty (p : PartyId) (f : PartyState → PartyState) : (s.modParty p f).objects = s.objects := rfl
@[simp] theorem windows_modParty (p : PartyId) (f : PartyState → PartyState) : (s.modParty p f).windows = s.windows := rfl
@[simp] theorem streams_modParty (p : PartyId) (f : PartyState → PartyState) : (s.modParty p f).streams = s.streams := rfl
@[simp] theorem suffixes_modParty (p : PartyId) (f : PartyState → PartyState) : (s.modParty p f).suffixes = s.suffixes := rfl
@[simp] theorem cocoons_modParty (p : PartyId) (f : PartyState → PartyState) : (s.modParty p f).cocoons = s.cocoons := rfl
@[simp] theorem flights_modParty (p : PartyId) (f : PartyState → PartyState) : (s.modParty p f).flights = s.flights := rfl
@[simp] theorem loads_modParty (p : PartyId) (f : PartyState → PartyState) : (s.modParty p f).loads = s.loads := rfl
@[simp] theorem msgs_modParty (p : PartyId) (f : PartyState → PartyState) : (s.modParty p f).msgs = s.msgs := rfl
@[simp] theorem heard_modParty (p : PartyId) (f : PartyState → PartyState) : (s.modParty p f).heard = s.heard := rfl
@[simp] theorem out_modParty (p : PartyId) (f : PartyState → PartyState) : (s.modParty p f).out = s.out := rfl
@[simp] theorem prstat_modParty (p : PartyId) (f : PartyState → PartyState) : (s.modParty p f).prstat = s.prstat := rfl
@[simp] theorem resetting_modParty (p : PartyId) (f : PartyState → PartyState) : (s.modParty p f).resetting = s.resetting := rfl
@[simp] theorem resetDue_modParty (p : PartyId) (f : PartyState → PartyState) : (s.modParty p f).resetDue = s.resetDue := rfl
@[simp] theorem fabric_modParty (p : PartyId) (f : PartyState → PartyState) : (s.modParty p f).fabric = s.fabric := rfl
@[simp] theorem reclaim_modParty (p : PartyId) (f : PartyState → PartyState) : (s.modParty p f).reclaim = s.reclaim := rfl
@[simp] theorem mgmt_modParty (p : PartyId) (f : PartyState → PartyState) : (s.modParty p f).mgmt = s.mgmt := rfl
@[simp] theorem serial_modParty (p : PartyId) (f : PartyState → PartyState) : (s.modParty p f).serial = s.serial := rfl
@[simp] theorem launches_modParty (p : PartyId) (f : PartyState → PartyState) : (s.modParty p f).launches = s.launches := rfl
@[simp] theorem keynum_modParty (p : PartyId) (f : PartyState → PartyState) : (s.modParty p f).keynum = s.keynum := rfl

@[simp] theorem plan_modMe (f : PartyState → PartyState) : (s.modMe f).plan = s.plan := rfl
@[simp] theorem tick_modMe (f : PartyState → PartyState) : (s.modMe f).tick = s.tick := rfl
@[simp] theorem fresh_modMe (f : PartyState → PartyState) : (s.modMe f).fresh = s.fresh := rfl
@[simp] theorem last_modMe (f : PartyState → PartyState) : (s.modMe f).last = s.last := rfl
@[simp] theorem cur_modMe (f : PartyState → PartyState) : (s.modMe f).cur = s.cur := rfl
@[simp] theorem due_modMe (f : PartyState → PartyState) : (s.modMe f).due = s.due := rfl
@[simp] theorem time_modMe (f : PartyState → PartyState) : (s.modMe f).time = s.time := rfl
@[simp] theorem mem_modMe (f : PartyState → PartyState) : (s.modMe f).mem = s.mem := rfl
@[simp] theorem tags_modMe (f : PartyState → PartyState) : (s.modMe f).tags = s.tags := rfl
@[simp] theorem flips_modMe (f : PartyState → PartyState) : (s.modMe f).flips = s.flips := rfl
@[simp] theorem stamps_modMe (f : PartyState → PartyState) : (s.modMe f).stamps = s.stamps := rfl
@[simp] theorem delivered_modMe (f : PartyState → PartyState) : (s.modMe f).delivered = s.delivered := rfl
@[simp] theorem hostClock_modMe (f : PartyState → PartyState) : (s.modMe f).hostClock = s.hostClock := rfl
@[simp] theorem seq_modMe (f : PartyState → PartyState) : (s.modMe f).seq = s.seq := rfl
@[simp] theorem past_modMe (f : PartyState → PartyState) : (s.modMe f).past = s.past := rfl
@[simp] theorem ctxs_modMe (f : PartyState → PartyState) : (s.modMe f).ctxs = s.ctxs := rfl
@[simp] theorem cores_modMe (f : PartyState → PartyState) : (s.modMe f).cores = s.cores := rfl
@[simp] theorem dies_modMe (f : PartyState → PartyState) : (s.modMe f).dies = s.dies := rfl
@[simp] theorem hampers_modMe (f : PartyState → PartyState) : (s.modMe f).hampers = s.hampers := rfl
@[simp] theorem parts_modMe (f : PartyState → PartyState) : (s.modMe f).parts = s.parts := rfl
@[simp] theorem queues_modMe (f : PartyState → PartyState) : (s.modMe f).queues = s.queues := rfl
@[simp] theorem keys_modMe (f : PartyState → PartyState) : (s.modMe f).keys = s.keys := rfl
@[simp] theorem moved_modMe (f : PartyState → PartyState) : (s.modMe f).moved = s.moved := rfl
@[simp] theorem moduleDraw_modMe (f : PartyState → PartyState) : (s.modMe f).moduleDraw = s.moduleDraw := rfl
@[simp] theorem owners_modMe (f : PartyState → PartyState) : (s.modMe f).owners = s.owners := rfl
@[simp] theorem aside_modMe (f : PartyState → PartyState) : (s.modMe f).aside = s.aside := rfl
@[simp] theorem reassigns_modMe (f : PartyState → PartyState) : (s.modMe f).reassigns = s.reassigns := rfl
@[simp] theorem pages_modMe (f : PartyState → PartyState) : (s.modMe f).pages = s.pages := rfl
@[simp] theorem pins_modMe (f : PartyState → PartyState) : (s.modMe f).pins = s.pins := rfl
@[simp] theorem objects_modMe (f : PartyState → PartyState) : (s.modMe f).objects = s.objects := rfl
@[simp] theorem windows_modMe (f : PartyState → PartyState) : (s.modMe f).windows = s.windows := rfl
@[simp] theorem streams_modMe (f : PartyState → PartyState) : (s.modMe f).streams = s.streams := rfl
@[simp] theorem suffixes_modMe (f : PartyState → PartyState) : (s.modMe f).suffixes = s.suffixes := rfl
@[simp] theorem cocoons_modMe (f : PartyState → PartyState) : (s.modMe f).cocoons = s.cocoons := rfl
@[simp] theorem flights_modMe (f : PartyState → PartyState) : (s.modMe f).flights = s.flights := rfl
@[simp] theorem loads_modMe (f : PartyState → PartyState) : (s.modMe f).loads = s.loads := rfl
@[simp] theorem msgs_modMe (f : PartyState → PartyState) : (s.modMe f).msgs = s.msgs := rfl
@[simp] theorem heard_modMe (f : PartyState → PartyState) : (s.modMe f).heard = s.heard := rfl
@[simp] theorem out_modMe (f : PartyState → PartyState) : (s.modMe f).out = s.out := rfl
@[simp] theorem prstat_modMe (f : PartyState → PartyState) : (s.modMe f).prstat = s.prstat := rfl
@[simp] theorem resetting_modMe (f : PartyState → PartyState) : (s.modMe f).resetting = s.resetting := rfl
@[simp] theorem resetDue_modMe (f : PartyState → PartyState) : (s.modMe f).resetDue = s.resetDue := rfl
@[simp] theorem fabric_modMe (f : PartyState → PartyState) : (s.modMe f).fabric = s.fabric := rfl
@[simp] theorem reclaim_modMe (f : PartyState → PartyState) : (s.modMe f).reclaim = s.reclaim := rfl
@[simp] theorem mgmt_modMe (f : PartyState → PartyState) : (s.modMe f).mgmt = s.mgmt := rfl
@[simp] theorem serial_modMe (f : PartyState → PartyState) : (s.modMe f).serial = s.serial := rfl
@[simp] theorem launches_modMe (f : PartyState → PartyState) : (s.modMe f).launches = s.launches := rfl
@[simp] theorem keynum_modMe (f : PartyState → PartyState) : (s.modMe f).keynum = s.keynum := rfl

@[simp] theorem plan_modCtx (c k : Nat) (f : Ctx → Ctx) : (s.modCtx c k f).plan = s.plan := rfl
@[simp] theorem tick_modCtx (c k : Nat) (f : Ctx → Ctx) : (s.modCtx c k f).tick = s.tick := rfl
@[simp] theorem fresh_modCtx (c k : Nat) (f : Ctx → Ctx) : (s.modCtx c k f).fresh = s.fresh := rfl
@[simp] theorem last_modCtx (c k : Nat) (f : Ctx → Ctx) : (s.modCtx c k f).last = s.last := rfl
@[simp] theorem cur_modCtx (c k : Nat) (f : Ctx → Ctx) : (s.modCtx c k f).cur = s.cur := rfl
@[simp] theorem due_modCtx (c k : Nat) (f : Ctx → Ctx) : (s.modCtx c k f).due = s.due := rfl
@[simp] theorem time_modCtx (c k : Nat) (f : Ctx → Ctx) : (s.modCtx c k f).time = s.time := rfl
@[simp] theorem mem_modCtx (c k : Nat) (f : Ctx → Ctx) : (s.modCtx c k f).mem = s.mem := rfl
@[simp] theorem tags_modCtx (c k : Nat) (f : Ctx → Ctx) : (s.modCtx c k f).tags = s.tags := rfl
@[simp] theorem flips_modCtx (c k : Nat) (f : Ctx → Ctx) : (s.modCtx c k f).flips = s.flips := rfl
@[simp] theorem stamps_modCtx (c k : Nat) (f : Ctx → Ctx) : (s.modCtx c k f).stamps = s.stamps := rfl
@[simp] theorem delivered_modCtx (c k : Nat) (f : Ctx → Ctx) : (s.modCtx c k f).delivered = s.delivered := rfl
@[simp] theorem hostClock_modCtx (c k : Nat) (f : Ctx → Ctx) : (s.modCtx c k f).hostClock = s.hostClock := rfl
@[simp] theorem seq_modCtx (c k : Nat) (f : Ctx → Ctx) : (s.modCtx c k f).seq = s.seq := rfl
@[simp] theorem past_modCtx (c k : Nat) (f : Ctx → Ctx) : (s.modCtx c k f).past = s.past := rfl
@[simp] theorem parties_modCtx (c k : Nat) (f : Ctx → Ctx) : (s.modCtx c k f).parties = s.parties := rfl
@[simp] theorem cores_modCtx (c k : Nat) (f : Ctx → Ctx) : (s.modCtx c k f).cores = s.cores := rfl
@[simp] theorem dies_modCtx (c k : Nat) (f : Ctx → Ctx) : (s.modCtx c k f).dies = s.dies := rfl
@[simp] theorem hampers_modCtx (c k : Nat) (f : Ctx → Ctx) : (s.modCtx c k f).hampers = s.hampers := rfl
@[simp] theorem parts_modCtx (c k : Nat) (f : Ctx → Ctx) : (s.modCtx c k f).parts = s.parts := rfl
@[simp] theorem queues_modCtx (c k : Nat) (f : Ctx → Ctx) : (s.modCtx c k f).queues = s.queues := rfl
@[simp] theorem keys_modCtx (c k : Nat) (f : Ctx → Ctx) : (s.modCtx c k f).keys = s.keys := rfl
@[simp] theorem moved_modCtx (c k : Nat) (f : Ctx → Ctx) : (s.modCtx c k f).moved = s.moved := rfl
@[simp] theorem moduleDraw_modCtx (c k : Nat) (f : Ctx → Ctx) : (s.modCtx c k f).moduleDraw = s.moduleDraw := rfl
@[simp] theorem owners_modCtx (c k : Nat) (f : Ctx → Ctx) : (s.modCtx c k f).owners = s.owners := rfl
@[simp] theorem aside_modCtx (c k : Nat) (f : Ctx → Ctx) : (s.modCtx c k f).aside = s.aside := rfl
@[simp] theorem reassigns_modCtx (c k : Nat) (f : Ctx → Ctx) : (s.modCtx c k f).reassigns = s.reassigns := rfl
@[simp] theorem pages_modCtx (c k : Nat) (f : Ctx → Ctx) : (s.modCtx c k f).pages = s.pages := rfl
@[simp] theorem pins_modCtx (c k : Nat) (f : Ctx → Ctx) : (s.modCtx c k f).pins = s.pins := rfl
@[simp] theorem objects_modCtx (c k : Nat) (f : Ctx → Ctx) : (s.modCtx c k f).objects = s.objects := rfl
@[simp] theorem windows_modCtx (c k : Nat) (f : Ctx → Ctx) : (s.modCtx c k f).windows = s.windows := rfl
@[simp] theorem streams_modCtx (c k : Nat) (f : Ctx → Ctx) : (s.modCtx c k f).streams = s.streams := rfl
@[simp] theorem suffixes_modCtx (c k : Nat) (f : Ctx → Ctx) : (s.modCtx c k f).suffixes = s.suffixes := rfl
@[simp] theorem cocoons_modCtx (c k : Nat) (f : Ctx → Ctx) : (s.modCtx c k f).cocoons = s.cocoons := rfl
@[simp] theorem flights_modCtx (c k : Nat) (f : Ctx → Ctx) : (s.modCtx c k f).flights = s.flights := rfl
@[simp] theorem loads_modCtx (c k : Nat) (f : Ctx → Ctx) : (s.modCtx c k f).loads = s.loads := rfl
@[simp] theorem msgs_modCtx (c k : Nat) (f : Ctx → Ctx) : (s.modCtx c k f).msgs = s.msgs := rfl
@[simp] theorem heard_modCtx (c k : Nat) (f : Ctx → Ctx) : (s.modCtx c k f).heard = s.heard := rfl
@[simp] theorem out_modCtx (c k : Nat) (f : Ctx → Ctx) : (s.modCtx c k f).out = s.out := rfl
@[simp] theorem prstat_modCtx (c k : Nat) (f : Ctx → Ctx) : (s.modCtx c k f).prstat = s.prstat := rfl
@[simp] theorem resetting_modCtx (c k : Nat) (f : Ctx → Ctx) : (s.modCtx c k f).resetting = s.resetting := rfl
@[simp] theorem resetDue_modCtx (c k : Nat) (f : Ctx → Ctx) : (s.modCtx c k f).resetDue = s.resetDue := rfl
@[simp] theorem fabric_modCtx (c k : Nat) (f : Ctx → Ctx) : (s.modCtx c k f).fabric = s.fabric := rfl
@[simp] theorem reclaim_modCtx (c k : Nat) (f : Ctx → Ctx) : (s.modCtx c k f).reclaim = s.reclaim := rfl
@[simp] theorem mgmt_modCtx (c k : Nat) (f : Ctx → Ctx) : (s.modCtx c k f).mgmt = s.mgmt := rfl
@[simp] theorem serial_modCtx (c k : Nat) (f : Ctx → Ctx) : (s.modCtx c k f).serial = s.serial := rfl
@[simp] theorem launches_modCtx (c k : Nat) (f : Ctx → Ctx) : (s.modCtx c k f).launches = s.launches := rfl
@[simp] theorem keynum_modCtx (c k : Nat) (f : Ctx → Ctx) : (s.modCtx c k f).keynum = s.keynum := rfl

@[simp] theorem plan_modMyCtx (f : Ctx → Ctx) : (s.modMyCtx f).plan = s.plan := rfl
@[simp] theorem tick_modMyCtx (f : Ctx → Ctx) : (s.modMyCtx f).tick = s.tick := rfl
@[simp] theorem fresh_modMyCtx (f : Ctx → Ctx) : (s.modMyCtx f).fresh = s.fresh := rfl
@[simp] theorem last_modMyCtx (f : Ctx → Ctx) : (s.modMyCtx f).last = s.last := rfl
@[simp] theorem cur_modMyCtx (f : Ctx → Ctx) : (s.modMyCtx f).cur = s.cur := rfl
@[simp] theorem due_modMyCtx (f : Ctx → Ctx) : (s.modMyCtx f).due = s.due := rfl
@[simp] theorem time_modMyCtx (f : Ctx → Ctx) : (s.modMyCtx f).time = s.time := rfl
@[simp] theorem mem_modMyCtx (f : Ctx → Ctx) : (s.modMyCtx f).mem = s.mem := rfl
@[simp] theorem tags_modMyCtx (f : Ctx → Ctx) : (s.modMyCtx f).tags = s.tags := rfl
@[simp] theorem flips_modMyCtx (f : Ctx → Ctx) : (s.modMyCtx f).flips = s.flips := rfl
@[simp] theorem stamps_modMyCtx (f : Ctx → Ctx) : (s.modMyCtx f).stamps = s.stamps := rfl
@[simp] theorem delivered_modMyCtx (f : Ctx → Ctx) : (s.modMyCtx f).delivered = s.delivered := rfl
@[simp] theorem hostClock_modMyCtx (f : Ctx → Ctx) : (s.modMyCtx f).hostClock = s.hostClock := rfl
@[simp] theorem seq_modMyCtx (f : Ctx → Ctx) : (s.modMyCtx f).seq = s.seq := rfl
@[simp] theorem past_modMyCtx (f : Ctx → Ctx) : (s.modMyCtx f).past = s.past := rfl
@[simp] theorem parties_modMyCtx (f : Ctx → Ctx) : (s.modMyCtx f).parties = s.parties := rfl
@[simp] theorem cores_modMyCtx (f : Ctx → Ctx) : (s.modMyCtx f).cores = s.cores := rfl
@[simp] theorem dies_modMyCtx (f : Ctx → Ctx) : (s.modMyCtx f).dies = s.dies := rfl
@[simp] theorem hampers_modMyCtx (f : Ctx → Ctx) : (s.modMyCtx f).hampers = s.hampers := rfl
@[simp] theorem parts_modMyCtx (f : Ctx → Ctx) : (s.modMyCtx f).parts = s.parts := rfl
@[simp] theorem queues_modMyCtx (f : Ctx → Ctx) : (s.modMyCtx f).queues = s.queues := rfl
@[simp] theorem keys_modMyCtx (f : Ctx → Ctx) : (s.modMyCtx f).keys = s.keys := rfl
@[simp] theorem moved_modMyCtx (f : Ctx → Ctx) : (s.modMyCtx f).moved = s.moved := rfl
@[simp] theorem moduleDraw_modMyCtx (f : Ctx → Ctx) : (s.modMyCtx f).moduleDraw = s.moduleDraw := rfl
@[simp] theorem owners_modMyCtx (f : Ctx → Ctx) : (s.modMyCtx f).owners = s.owners := rfl
@[simp] theorem aside_modMyCtx (f : Ctx → Ctx) : (s.modMyCtx f).aside = s.aside := rfl
@[simp] theorem reassigns_modMyCtx (f : Ctx → Ctx) : (s.modMyCtx f).reassigns = s.reassigns := rfl
@[simp] theorem pages_modMyCtx (f : Ctx → Ctx) : (s.modMyCtx f).pages = s.pages := rfl
@[simp] theorem pins_modMyCtx (f : Ctx → Ctx) : (s.modMyCtx f).pins = s.pins := rfl
@[simp] theorem objects_modMyCtx (f : Ctx → Ctx) : (s.modMyCtx f).objects = s.objects := rfl
@[simp] theorem windows_modMyCtx (f : Ctx → Ctx) : (s.modMyCtx f).windows = s.windows := rfl
@[simp] theorem streams_modMyCtx (f : Ctx → Ctx) : (s.modMyCtx f).streams = s.streams := rfl
@[simp] theorem suffixes_modMyCtx (f : Ctx → Ctx) : (s.modMyCtx f).suffixes = s.suffixes := rfl
@[simp] theorem cocoons_modMyCtx (f : Ctx → Ctx) : (s.modMyCtx f).cocoons = s.cocoons := rfl
@[simp] theorem flights_modMyCtx (f : Ctx → Ctx) : (s.modMyCtx f).flights = s.flights := rfl
@[simp] theorem loads_modMyCtx (f : Ctx → Ctx) : (s.modMyCtx f).loads = s.loads := rfl
@[simp] theorem msgs_modMyCtx (f : Ctx → Ctx) : (s.modMyCtx f).msgs = s.msgs := rfl
@[simp] theorem heard_modMyCtx (f : Ctx → Ctx) : (s.modMyCtx f).heard = s.heard := rfl
@[simp] theorem out_modMyCtx (f : Ctx → Ctx) : (s.modMyCtx f).out = s.out := rfl
@[simp] theorem prstat_modMyCtx (f : Ctx → Ctx) : (s.modMyCtx f).prstat = s.prstat := rfl
@[simp] theorem resetting_modMyCtx (f : Ctx → Ctx) : (s.modMyCtx f).resetting = s.resetting := rfl
@[simp] theorem resetDue_modMyCtx (f : Ctx → Ctx) : (s.modMyCtx f).resetDue = s.resetDue := rfl
@[simp] theorem fabric_modMyCtx (f : Ctx → Ctx) : (s.modMyCtx f).fabric = s.fabric := rfl
@[simp] theorem reclaim_modMyCtx (f : Ctx → Ctx) : (s.modMyCtx f).reclaim = s.reclaim := rfl
@[simp] theorem mgmt_modMyCtx (f : Ctx → Ctx) : (s.modMyCtx f).mgmt = s.mgmt := rfl
@[simp] theorem serial_modMyCtx (f : Ctx → Ctx) : (s.modMyCtx f).serial = s.serial := rfl
@[simp] theorem launches_modMyCtx (f : Ctx → Ctx) : (s.modMyCtx f).launches = s.launches := rfl
@[simp] theorem keynum_modMyCtx (f : Ctx → Ctx) : (s.modMyCtx f).keynum = s.keynum := rfl

@[simp] theorem plan_modSh (f : Shared → Shared) : (s.modSh f).plan = s.plan := rfl
@[simp] theorem tick_modSh (f : Shared → Shared) : (s.modSh f).tick = s.tick := rfl
@[simp] theorem fresh_modSh (f : Shared → Shared) : (s.modSh f).fresh = s.fresh := rfl
@[simp] theorem last_modSh (f : Shared → Shared) : (s.modSh f).last = s.last := rfl
@[simp] theorem cur_modSh (f : Shared → Shared) : (s.modSh f).cur = s.cur := rfl
@[simp] theorem due_modSh (f : Shared → Shared) : (s.modSh f).due = s.due := rfl
@[simp] theorem time_modSh (f : Shared → Shared) : (s.modSh f).time = s.time := rfl
@[simp] theorem mem_modSh (f : Shared → Shared) : (s.modSh f).mem = s.mem := rfl
@[simp] theorem tags_modSh (f : Shared → Shared) : (s.modSh f).tags = s.tags := rfl
@[simp] theorem flips_modSh (f : Shared → Shared) : (s.modSh f).flips = s.flips := rfl
@[simp] theorem stamps_modSh (f : Shared → Shared) : (s.modSh f).stamps = s.stamps := rfl
@[simp] theorem delivered_modSh (f : Shared → Shared) : (s.modSh f).delivered = s.delivered := rfl
@[simp] theorem hostClock_modSh (f : Shared → Shared) : (s.modSh f).hostClock = s.hostClock := rfl
@[simp] theorem seq_modSh (f : Shared → Shared) : (s.modSh f).seq = s.seq := rfl
@[simp] theorem past_modSh (f : Shared → Shared) : (s.modSh f).past = s.past := rfl
@[simp] theorem parties_modSh (f : Shared → Shared) : (s.modSh f).parties = s.parties := rfl
@[simp] theorem cores_modSh (f : Shared → Shared) : (s.modSh f).cores = s.cores := rfl
@[simp] theorem dies_modSh (f : Shared → Shared) : (s.modSh f).dies = s.dies := rfl
@[simp] theorem hampers_modSh (f : Shared → Shared) : (s.modSh f).hampers = s.hampers := rfl
@[simp] theorem parts_modSh (f : Shared → Shared) : (s.modSh f).parts = s.parts := rfl
@[simp] theorem queues_modSh (f : Shared → Shared) : (s.modSh f).queues = s.queues := rfl
@[simp] theorem keys_modSh (f : Shared → Shared) : (s.modSh f).keys = s.keys := rfl
@[simp] theorem moved_modSh (f : Shared → Shared) : (s.modSh f).moved = s.moved := rfl
@[simp] theorem moduleDraw_modSh (f : Shared → Shared) : (s.modSh f).moduleDraw = s.moduleDraw := rfl
@[simp] theorem owners_modSh (f : Shared → Shared) : (s.modSh f).owners = s.owners := rfl
@[simp] theorem aside_modSh (f : Shared → Shared) : (s.modSh f).aside = s.aside := rfl
@[simp] theorem reassigns_modSh (f : Shared → Shared) : (s.modSh f).reassigns = s.reassigns := rfl
@[simp] theorem pages_modSh (f : Shared → Shared) : (s.modSh f).pages = s.pages := rfl
@[simp] theorem pins_modSh (f : Shared → Shared) : (s.modSh f).pins = s.pins := rfl
@[simp] theorem objects_modSh (f : Shared → Shared) : (s.modSh f).objects = s.objects := rfl
@[simp] theorem windows_modSh (f : Shared → Shared) : (s.modSh f).windows = s.windows := rfl
@[simp] theorem streams_modSh (f : Shared → Shared) : (s.modSh f).streams = s.streams := rfl
@[simp] theorem suffixes_modSh (f : Shared → Shared) : (s.modSh f).suffixes = s.suffixes := rfl
@[simp] theorem cocoons_modSh (f : Shared → Shared) : (s.modSh f).cocoons = s.cocoons := rfl
@[simp] theorem flights_modSh (f : Shared → Shared) : (s.modSh f).flights = s.flights := rfl
@[simp] theorem loads_modSh (f : Shared → Shared) : (s.modSh f).loads = s.loads := rfl
@[simp] theorem msgs_modSh (f : Shared → Shared) : (s.modSh f).msgs = s.msgs := rfl
@[simp] theorem heard_modSh (f : Shared → Shared) : (s.modSh f).heard = s.heard := rfl
@[simp] theorem out_modSh (f : Shared → Shared) : (s.modSh f).out = s.out := rfl
@[simp] theorem prstat_modSh (f : Shared → Shared) : (s.modSh f).prstat = s.prstat := rfl
@[simp] theorem resetting_modSh (f : Shared → Shared) : (s.modSh f).resetting = s.resetting := rfl
@[simp] theorem resetDue_modSh (f : Shared → Shared) : (s.modSh f).resetDue = s.resetDue := rfl
@[simp] theorem fabric_modSh (f : Shared → Shared) : (s.modSh f).fabric = s.fabric := rfl
@[simp] theorem reclaim_modSh (f : Shared → Shared) : (s.modSh f).reclaim = s.reclaim := rfl
@[simp] theorem mgmt_modSh (f : Shared → Shared) : (s.modSh f).mgmt = s.mgmt := rfl
@[simp] theorem serial_modSh (f : Shared → Shared) : (s.modSh f).serial = s.serial := rfl
@[simp] theorem launches_modSh (f : Shared → Shared) : (s.modSh f).launches = s.launches := rfl
@[simp] theorem keynum_modSh (f : Shared → Shared) : (s.modSh f).keynum = s.keynum := rfl

@[simp] theorem plan_modCore (c : Nat) (f : CoreState → CoreState) : (s.modCore c f).plan = s.plan := rfl
@[simp] theorem tick_modCore (c : Nat) (f : CoreState → CoreState) : (s.modCore c f).tick = s.tick := rfl
@[simp] theorem fresh_modCore (c : Nat) (f : CoreState → CoreState) : (s.modCore c f).fresh = s.fresh := rfl
@[simp] theorem last_modCore (c : Nat) (f : CoreState → CoreState) : (s.modCore c f).last = s.last := rfl
@[simp] theorem cur_modCore (c : Nat) (f : CoreState → CoreState) : (s.modCore c f).cur = s.cur := rfl
@[simp] theorem due_modCore (c : Nat) (f : CoreState → CoreState) : (s.modCore c f).due = s.due := rfl
@[simp] theorem time_modCore (c : Nat) (f : CoreState → CoreState) : (s.modCore c f).time = s.time := rfl
@[simp] theorem mem_modCore (c : Nat) (f : CoreState → CoreState) : (s.modCore c f).mem = s.mem := rfl
@[simp] theorem tags_modCore (c : Nat) (f : CoreState → CoreState) : (s.modCore c f).tags = s.tags := rfl
@[simp] theorem flips_modCore (c : Nat) (f : CoreState → CoreState) : (s.modCore c f).flips = s.flips := rfl
@[simp] theorem stamps_modCore (c : Nat) (f : CoreState → CoreState) : (s.modCore c f).stamps = s.stamps := rfl
@[simp] theorem delivered_modCore (c : Nat) (f : CoreState → CoreState) : (s.modCore c f).delivered = s.delivered := rfl
@[simp] theorem hostClock_modCore (c : Nat) (f : CoreState → CoreState) : (s.modCore c f).hostClock = s.hostClock := rfl
@[simp] theorem seq_modCore (c : Nat) (f : CoreState → CoreState) : (s.modCore c f).seq = s.seq := rfl
@[simp] theorem past_modCore (c : Nat) (f : CoreState → CoreState) : (s.modCore c f).past = s.past := rfl
@[simp] theorem parties_modCore (c : Nat) (f : CoreState → CoreState) : (s.modCore c f).parties = s.parties := rfl
@[simp] theorem ctxs_modCore (c : Nat) (f : CoreState → CoreState) : (s.modCore c f).ctxs = s.ctxs := rfl
@[simp] theorem dies_modCore (c : Nat) (f : CoreState → CoreState) : (s.modCore c f).dies = s.dies := rfl
@[simp] theorem hampers_modCore (c : Nat) (f : CoreState → CoreState) : (s.modCore c f).hampers = s.hampers := rfl
@[simp] theorem parts_modCore (c : Nat) (f : CoreState → CoreState) : (s.modCore c f).parts = s.parts := rfl
@[simp] theorem queues_modCore (c : Nat) (f : CoreState → CoreState) : (s.modCore c f).queues = s.queues := rfl
@[simp] theorem keys_modCore (c : Nat) (f : CoreState → CoreState) : (s.modCore c f).keys = s.keys := rfl
@[simp] theorem moved_modCore (c : Nat) (f : CoreState → CoreState) : (s.modCore c f).moved = s.moved := rfl
@[simp] theorem moduleDraw_modCore (c : Nat) (f : CoreState → CoreState) : (s.modCore c f).moduleDraw = s.moduleDraw := rfl
@[simp] theorem owners_modCore (c : Nat) (f : CoreState → CoreState) : (s.modCore c f).owners = s.owners := rfl
@[simp] theorem aside_modCore (c : Nat) (f : CoreState → CoreState) : (s.modCore c f).aside = s.aside := rfl
@[simp] theorem reassigns_modCore (c : Nat) (f : CoreState → CoreState) : (s.modCore c f).reassigns = s.reassigns := rfl
@[simp] theorem pages_modCore (c : Nat) (f : CoreState → CoreState) : (s.modCore c f).pages = s.pages := rfl
@[simp] theorem pins_modCore (c : Nat) (f : CoreState → CoreState) : (s.modCore c f).pins = s.pins := rfl
@[simp] theorem objects_modCore (c : Nat) (f : CoreState → CoreState) : (s.modCore c f).objects = s.objects := rfl
@[simp] theorem windows_modCore (c : Nat) (f : CoreState → CoreState) : (s.modCore c f).windows = s.windows := rfl
@[simp] theorem streams_modCore (c : Nat) (f : CoreState → CoreState) : (s.modCore c f).streams = s.streams := rfl
@[simp] theorem suffixes_modCore (c : Nat) (f : CoreState → CoreState) : (s.modCore c f).suffixes = s.suffixes := rfl
@[simp] theorem cocoons_modCore (c : Nat) (f : CoreState → CoreState) : (s.modCore c f).cocoons = s.cocoons := rfl
@[simp] theorem flights_modCore (c : Nat) (f : CoreState → CoreState) : (s.modCore c f).flights = s.flights := rfl
@[simp] theorem loads_modCore (c : Nat) (f : CoreState → CoreState) : (s.modCore c f).loads = s.loads := rfl
@[simp] theorem msgs_modCore (c : Nat) (f : CoreState → CoreState) : (s.modCore c f).msgs = s.msgs := rfl
@[simp] theorem heard_modCore (c : Nat) (f : CoreState → CoreState) : (s.modCore c f).heard = s.heard := rfl
@[simp] theorem out_modCore (c : Nat) (f : CoreState → CoreState) : (s.modCore c f).out = s.out := rfl
@[simp] theorem prstat_modCore (c : Nat) (f : CoreState → CoreState) : (s.modCore c f).prstat = s.prstat := rfl
@[simp] theorem resetting_modCore (c : Nat) (f : CoreState → CoreState) : (s.modCore c f).resetting = s.resetting := rfl
@[simp] theorem resetDue_modCore (c : Nat) (f : CoreState → CoreState) : (s.modCore c f).resetDue = s.resetDue := rfl
@[simp] theorem fabric_modCore (c : Nat) (f : CoreState → CoreState) : (s.modCore c f).fabric = s.fabric := rfl
@[simp] theorem reclaim_modCore (c : Nat) (f : CoreState → CoreState) : (s.modCore c f).reclaim = s.reclaim := rfl
@[simp] theorem mgmt_modCore (c : Nat) (f : CoreState → CoreState) : (s.modCore c f).mgmt = s.mgmt := rfl
@[simp] theorem serial_modCore (c : Nat) (f : CoreState → CoreState) : (s.modCore c f).serial = s.serial := rfl
@[simp] theorem launches_modCore (c : Nat) (f : CoreState → CoreState) : (s.modCore c f).launches = s.launches := rfl
@[simp] theorem keynum_modCore (c : Nat) (f : CoreState → CoreState) : (s.modCore c f).keynum = s.keynum := rfl

@[simp] theorem plan_modDie (d : Nat) (f : DieState → DieState) : (s.modDie d f).plan = s.plan := rfl
@[simp] theorem tick_modDie (d : Nat) (f : DieState → DieState) : (s.modDie d f).tick = s.tick := rfl
@[simp] theorem fresh_modDie (d : Nat) (f : DieState → DieState) : (s.modDie d f).fresh = s.fresh := rfl
@[simp] theorem last_modDie (d : Nat) (f : DieState → DieState) : (s.modDie d f).last = s.last := rfl
@[simp] theorem cur_modDie (d : Nat) (f : DieState → DieState) : (s.modDie d f).cur = s.cur := rfl
@[simp] theorem due_modDie (d : Nat) (f : DieState → DieState) : (s.modDie d f).due = s.due := rfl
@[simp] theorem time_modDie (d : Nat) (f : DieState → DieState) : (s.modDie d f).time = s.time := rfl
@[simp] theorem mem_modDie (d : Nat) (f : DieState → DieState) : (s.modDie d f).mem = s.mem := rfl
@[simp] theorem tags_modDie (d : Nat) (f : DieState → DieState) : (s.modDie d f).tags = s.tags := rfl
@[simp] theorem flips_modDie (d : Nat) (f : DieState → DieState) : (s.modDie d f).flips = s.flips := rfl
@[simp] theorem stamps_modDie (d : Nat) (f : DieState → DieState) : (s.modDie d f).stamps = s.stamps := rfl
@[simp] theorem delivered_modDie (d : Nat) (f : DieState → DieState) : (s.modDie d f).delivered = s.delivered := rfl
@[simp] theorem hostClock_modDie (d : Nat) (f : DieState → DieState) : (s.modDie d f).hostClock = s.hostClock := rfl
@[simp] theorem seq_modDie (d : Nat) (f : DieState → DieState) : (s.modDie d f).seq = s.seq := rfl
@[simp] theorem past_modDie (d : Nat) (f : DieState → DieState) : (s.modDie d f).past = s.past := rfl
@[simp] theorem parties_modDie (d : Nat) (f : DieState → DieState) : (s.modDie d f).parties = s.parties := rfl
@[simp] theorem ctxs_modDie (d : Nat) (f : DieState → DieState) : (s.modDie d f).ctxs = s.ctxs := rfl
@[simp] theorem cores_modDie (d : Nat) (f : DieState → DieState) : (s.modDie d f).cores = s.cores := rfl
@[simp] theorem hampers_modDie (d : Nat) (f : DieState → DieState) : (s.modDie d f).hampers = s.hampers := rfl
@[simp] theorem parts_modDie (d : Nat) (f : DieState → DieState) : (s.modDie d f).parts = s.parts := rfl
@[simp] theorem queues_modDie (d : Nat) (f : DieState → DieState) : (s.modDie d f).queues = s.queues := rfl
@[simp] theorem keys_modDie (d : Nat) (f : DieState → DieState) : (s.modDie d f).keys = s.keys := rfl
@[simp] theorem moved_modDie (d : Nat) (f : DieState → DieState) : (s.modDie d f).moved = s.moved := rfl
@[simp] theorem moduleDraw_modDie (d : Nat) (f : DieState → DieState) : (s.modDie d f).moduleDraw = s.moduleDraw := rfl
@[simp] theorem owners_modDie (d : Nat) (f : DieState → DieState) : (s.modDie d f).owners = s.owners := rfl
@[simp] theorem aside_modDie (d : Nat) (f : DieState → DieState) : (s.modDie d f).aside = s.aside := rfl
@[simp] theorem reassigns_modDie (d : Nat) (f : DieState → DieState) : (s.modDie d f).reassigns = s.reassigns := rfl
@[simp] theorem pages_modDie (d : Nat) (f : DieState → DieState) : (s.modDie d f).pages = s.pages := rfl
@[simp] theorem pins_modDie (d : Nat) (f : DieState → DieState) : (s.modDie d f).pins = s.pins := rfl
@[simp] theorem objects_modDie (d : Nat) (f : DieState → DieState) : (s.modDie d f).objects = s.objects := rfl
@[simp] theorem windows_modDie (d : Nat) (f : DieState → DieState) : (s.modDie d f).windows = s.windows := rfl
@[simp] theorem streams_modDie (d : Nat) (f : DieState → DieState) : (s.modDie d f).streams = s.streams := rfl
@[simp] theorem suffixes_modDie (d : Nat) (f : DieState → DieState) : (s.modDie d f).suffixes = s.suffixes := rfl
@[simp] theorem cocoons_modDie (d : Nat) (f : DieState → DieState) : (s.modDie d f).cocoons = s.cocoons := rfl
@[simp] theorem flights_modDie (d : Nat) (f : DieState → DieState) : (s.modDie d f).flights = s.flights := rfl
@[simp] theorem loads_modDie (d : Nat) (f : DieState → DieState) : (s.modDie d f).loads = s.loads := rfl
@[simp] theorem msgs_modDie (d : Nat) (f : DieState → DieState) : (s.modDie d f).msgs = s.msgs := rfl
@[simp] theorem heard_modDie (d : Nat) (f : DieState → DieState) : (s.modDie d f).heard = s.heard := rfl
@[simp] theorem out_modDie (d : Nat) (f : DieState → DieState) : (s.modDie d f).out = s.out := rfl
@[simp] theorem prstat_modDie (d : Nat) (f : DieState → DieState) : (s.modDie d f).prstat = s.prstat := rfl
@[simp] theorem resetting_modDie (d : Nat) (f : DieState → DieState) : (s.modDie d f).resetting = s.resetting := rfl
@[simp] theorem resetDue_modDie (d : Nat) (f : DieState → DieState) : (s.modDie d f).resetDue = s.resetDue := rfl
@[simp] theorem fabric_modDie (d : Nat) (f : DieState → DieState) : (s.modDie d f).fabric = s.fabric := rfl
@[simp] theorem reclaim_modDie (d : Nat) (f : DieState → DieState) : (s.modDie d f).reclaim = s.reclaim := rfl
@[simp] theorem mgmt_modDie (d : Nat) (f : DieState → DieState) : (s.modDie d f).mgmt = s.mgmt := rfl
@[simp] theorem serial_modDie (d : Nat) (f : DieState → DieState) : (s.modDie d f).serial = s.serial := rfl
@[simp] theorem launches_modDie (d : Nat) (f : DieState → DieState) : (s.modDie d f).launches = s.launches := rfl
@[simp] theorem keynum_modDie (d : Nat) (f : DieState → DieState) : (s.modDie d f).keynum = s.keynum := rfl

@[simp] theorem plan_modHamper (h : Nat) (f : HamperState → HamperState) : (s.modHamper h f).plan = s.plan := rfl
@[simp] theorem tick_modHamper (h : Nat) (f : HamperState → HamperState) : (s.modHamper h f).tick = s.tick := rfl
@[simp] theorem fresh_modHamper (h : Nat) (f : HamperState → HamperState) : (s.modHamper h f).fresh = s.fresh := rfl
@[simp] theorem last_modHamper (h : Nat) (f : HamperState → HamperState) : (s.modHamper h f).last = s.last := rfl
@[simp] theorem cur_modHamper (h : Nat) (f : HamperState → HamperState) : (s.modHamper h f).cur = s.cur := rfl
@[simp] theorem due_modHamper (h : Nat) (f : HamperState → HamperState) : (s.modHamper h f).due = s.due := rfl
@[simp] theorem time_modHamper (h : Nat) (f : HamperState → HamperState) : (s.modHamper h f).time = s.time := rfl
@[simp] theorem mem_modHamper (h : Nat) (f : HamperState → HamperState) : (s.modHamper h f).mem = s.mem := rfl
@[simp] theorem tags_modHamper (h : Nat) (f : HamperState → HamperState) : (s.modHamper h f).tags = s.tags := rfl
@[simp] theorem flips_modHamper (h : Nat) (f : HamperState → HamperState) : (s.modHamper h f).flips = s.flips := rfl
@[simp] theorem stamps_modHamper (h : Nat) (f : HamperState → HamperState) : (s.modHamper h f).stamps = s.stamps := rfl
@[simp] theorem delivered_modHamper (h : Nat) (f : HamperState → HamperState) : (s.modHamper h f).delivered = s.delivered := rfl
@[simp] theorem hostClock_modHamper (h : Nat) (f : HamperState → HamperState) : (s.modHamper h f).hostClock = s.hostClock := rfl
@[simp] theorem seq_modHamper (h : Nat) (f : HamperState → HamperState) : (s.modHamper h f).seq = s.seq := rfl
@[simp] theorem past_modHamper (h : Nat) (f : HamperState → HamperState) : (s.modHamper h f).past = s.past := rfl
@[simp] theorem parties_modHamper (h : Nat) (f : HamperState → HamperState) : (s.modHamper h f).parties = s.parties := rfl
@[simp] theorem ctxs_modHamper (h : Nat) (f : HamperState → HamperState) : (s.modHamper h f).ctxs = s.ctxs := rfl
@[simp] theorem cores_modHamper (h : Nat) (f : HamperState → HamperState) : (s.modHamper h f).cores = s.cores := rfl
@[simp] theorem dies_modHamper (h : Nat) (f : HamperState → HamperState) : (s.modHamper h f).dies = s.dies := rfl
@[simp] theorem parts_modHamper (h : Nat) (f : HamperState → HamperState) : (s.modHamper h f).parts = s.parts := rfl
@[simp] theorem queues_modHamper (h : Nat) (f : HamperState → HamperState) : (s.modHamper h f).queues = s.queues := rfl
@[simp] theorem keys_modHamper (h : Nat) (f : HamperState → HamperState) : (s.modHamper h f).keys = s.keys := rfl
@[simp] theorem moved_modHamper (h : Nat) (f : HamperState → HamperState) : (s.modHamper h f).moved = s.moved := rfl
@[simp] theorem moduleDraw_modHamper (h : Nat) (f : HamperState → HamperState) : (s.modHamper h f).moduleDraw = s.moduleDraw := rfl
@[simp] theorem owners_modHamper (h : Nat) (f : HamperState → HamperState) : (s.modHamper h f).owners = s.owners := rfl
@[simp] theorem aside_modHamper (h : Nat) (f : HamperState → HamperState) : (s.modHamper h f).aside = s.aside := rfl
@[simp] theorem reassigns_modHamper (h : Nat) (f : HamperState → HamperState) : (s.modHamper h f).reassigns = s.reassigns := rfl
@[simp] theorem pages_modHamper (h : Nat) (f : HamperState → HamperState) : (s.modHamper h f).pages = s.pages := rfl
@[simp] theorem pins_modHamper (h : Nat) (f : HamperState → HamperState) : (s.modHamper h f).pins = s.pins := rfl
@[simp] theorem objects_modHamper (h : Nat) (f : HamperState → HamperState) : (s.modHamper h f).objects = s.objects := rfl
@[simp] theorem windows_modHamper (h : Nat) (f : HamperState → HamperState) : (s.modHamper h f).windows = s.windows := rfl
@[simp] theorem streams_modHamper (h : Nat) (f : HamperState → HamperState) : (s.modHamper h f).streams = s.streams := rfl
@[simp] theorem suffixes_modHamper (h : Nat) (f : HamperState → HamperState) : (s.modHamper h f).suffixes = s.suffixes := rfl
@[simp] theorem cocoons_modHamper (h : Nat) (f : HamperState → HamperState) : (s.modHamper h f).cocoons = s.cocoons := rfl
@[simp] theorem flights_modHamper (h : Nat) (f : HamperState → HamperState) : (s.modHamper h f).flights = s.flights := rfl
@[simp] theorem loads_modHamper (h : Nat) (f : HamperState → HamperState) : (s.modHamper h f).loads = s.loads := rfl
@[simp] theorem msgs_modHamper (h : Nat) (f : HamperState → HamperState) : (s.modHamper h f).msgs = s.msgs := rfl
@[simp] theorem heard_modHamper (h : Nat) (f : HamperState → HamperState) : (s.modHamper h f).heard = s.heard := rfl
@[simp] theorem out_modHamper (h : Nat) (f : HamperState → HamperState) : (s.modHamper h f).out = s.out := rfl
@[simp] theorem prstat_modHamper (h : Nat) (f : HamperState → HamperState) : (s.modHamper h f).prstat = s.prstat := rfl
@[simp] theorem resetting_modHamper (h : Nat) (f : HamperState → HamperState) : (s.modHamper h f).resetting = s.resetting := rfl
@[simp] theorem resetDue_modHamper (h : Nat) (f : HamperState → HamperState) : (s.modHamper h f).resetDue = s.resetDue := rfl
@[simp] theorem fabric_modHamper (h : Nat) (f : HamperState → HamperState) : (s.modHamper h f).fabric = s.fabric := rfl
@[simp] theorem reclaim_modHamper (h : Nat) (f : HamperState → HamperState) : (s.modHamper h f).reclaim = s.reclaim := rfl
@[simp] theorem mgmt_modHamper (h : Nat) (f : HamperState → HamperState) : (s.modHamper h f).mgmt = s.mgmt := rfl
@[simp] theorem serial_modHamper (h : Nat) (f : HamperState → HamperState) : (s.modHamper h f).serial = s.serial := rfl
@[simp] theorem launches_modHamper (h : Nat) (f : HamperState → HamperState) : (s.modHamper h f).launches = s.launches := rfl
@[simp] theorem keynum_modHamper (h : Nat) (f : HamperState → HamperState) : (s.modHamper h f).keynum = s.keynum := rfl

@[simp] theorem plan_modPart (p : Nat) (f : Partition → Partition) : (s.modPart p f).plan = s.plan := rfl
@[simp] theorem tick_modPart (p : Nat) (f : Partition → Partition) : (s.modPart p f).tick = s.tick := rfl
@[simp] theorem fresh_modPart (p : Nat) (f : Partition → Partition) : (s.modPart p f).fresh = s.fresh := rfl
@[simp] theorem last_modPart (p : Nat) (f : Partition → Partition) : (s.modPart p f).last = s.last := rfl
@[simp] theorem cur_modPart (p : Nat) (f : Partition → Partition) : (s.modPart p f).cur = s.cur := rfl
@[simp] theorem due_modPart (p : Nat) (f : Partition → Partition) : (s.modPart p f).due = s.due := rfl
@[simp] theorem time_modPart (p : Nat) (f : Partition → Partition) : (s.modPart p f).time = s.time := rfl
@[simp] theorem mem_modPart (p : Nat) (f : Partition → Partition) : (s.modPart p f).mem = s.mem := rfl
@[simp] theorem tags_modPart (p : Nat) (f : Partition → Partition) : (s.modPart p f).tags = s.tags := rfl
@[simp] theorem flips_modPart (p : Nat) (f : Partition → Partition) : (s.modPart p f).flips = s.flips := rfl
@[simp] theorem stamps_modPart (p : Nat) (f : Partition → Partition) : (s.modPart p f).stamps = s.stamps := rfl
@[simp] theorem delivered_modPart (p : Nat) (f : Partition → Partition) : (s.modPart p f).delivered = s.delivered := rfl
@[simp] theorem hostClock_modPart (p : Nat) (f : Partition → Partition) : (s.modPart p f).hostClock = s.hostClock := rfl
@[simp] theorem seq_modPart (p : Nat) (f : Partition → Partition) : (s.modPart p f).seq = s.seq := rfl
@[simp] theorem past_modPart (p : Nat) (f : Partition → Partition) : (s.modPart p f).past = s.past := rfl
@[simp] theorem parties_modPart (p : Nat) (f : Partition → Partition) : (s.modPart p f).parties = s.parties := rfl
@[simp] theorem ctxs_modPart (p : Nat) (f : Partition → Partition) : (s.modPart p f).ctxs = s.ctxs := rfl
@[simp] theorem cores_modPart (p : Nat) (f : Partition → Partition) : (s.modPart p f).cores = s.cores := rfl
@[simp] theorem dies_modPart (p : Nat) (f : Partition → Partition) : (s.modPart p f).dies = s.dies := rfl
@[simp] theorem hampers_modPart (p : Nat) (f : Partition → Partition) : (s.modPart p f).hampers = s.hampers := rfl
@[simp] theorem queues_modPart (p : Nat) (f : Partition → Partition) : (s.modPart p f).queues = s.queues := rfl
@[simp] theorem keys_modPart (p : Nat) (f : Partition → Partition) : (s.modPart p f).keys = s.keys := rfl
@[simp] theorem moved_modPart (p : Nat) (f : Partition → Partition) : (s.modPart p f).moved = s.moved := rfl
@[simp] theorem moduleDraw_modPart (p : Nat) (f : Partition → Partition) : (s.modPart p f).moduleDraw = s.moduleDraw := rfl
@[simp] theorem owners_modPart (p : Nat) (f : Partition → Partition) : (s.modPart p f).owners = s.owners := rfl
@[simp] theorem aside_modPart (p : Nat) (f : Partition → Partition) : (s.modPart p f).aside = s.aside := rfl
@[simp] theorem reassigns_modPart (p : Nat) (f : Partition → Partition) : (s.modPart p f).reassigns = s.reassigns := rfl
@[simp] theorem pages_modPart (p : Nat) (f : Partition → Partition) : (s.modPart p f).pages = s.pages := rfl
@[simp] theorem pins_modPart (p : Nat) (f : Partition → Partition) : (s.modPart p f).pins = s.pins := rfl
@[simp] theorem objects_modPart (p : Nat) (f : Partition → Partition) : (s.modPart p f).objects = s.objects := rfl
@[simp] theorem windows_modPart (p : Nat) (f : Partition → Partition) : (s.modPart p f).windows = s.windows := rfl
@[simp] theorem streams_modPart (p : Nat) (f : Partition → Partition) : (s.modPart p f).streams = s.streams := rfl
@[simp] theorem suffixes_modPart (p : Nat) (f : Partition → Partition) : (s.modPart p f).suffixes = s.suffixes := rfl
@[simp] theorem cocoons_modPart (p : Nat) (f : Partition → Partition) : (s.modPart p f).cocoons = s.cocoons := rfl
@[simp] theorem flights_modPart (p : Nat) (f : Partition → Partition) : (s.modPart p f).flights = s.flights := rfl
@[simp] theorem loads_modPart (p : Nat) (f : Partition → Partition) : (s.modPart p f).loads = s.loads := rfl
@[simp] theorem msgs_modPart (p : Nat) (f : Partition → Partition) : (s.modPart p f).msgs = s.msgs := rfl
@[simp] theorem heard_modPart (p : Nat) (f : Partition → Partition) : (s.modPart p f).heard = s.heard := rfl
@[simp] theorem out_modPart (p : Nat) (f : Partition → Partition) : (s.modPart p f).out = s.out := rfl
@[simp] theorem prstat_modPart (p : Nat) (f : Partition → Partition) : (s.modPart p f).prstat = s.prstat := rfl
@[simp] theorem resetting_modPart (p : Nat) (f : Partition → Partition) : (s.modPart p f).resetting = s.resetting := rfl
@[simp] theorem resetDue_modPart (p : Nat) (f : Partition → Partition) : (s.modPart p f).resetDue = s.resetDue := rfl
@[simp] theorem fabric_modPart (p : Nat) (f : Partition → Partition) : (s.modPart p f).fabric = s.fabric := rfl
@[simp] theorem reclaim_modPart (p : Nat) (f : Partition → Partition) : (s.modPart p f).reclaim = s.reclaim := rfl
@[simp] theorem mgmt_modPart (p : Nat) (f : Partition → Partition) : (s.modPart p f).mgmt = s.mgmt := rfl
@[simp] theorem serial_modPart (p : Nat) (f : Partition → Partition) : (s.modPart p f).serial = s.serial := rfl
@[simp] theorem launches_modPart (p : Nat) (f : Partition → Partition) : (s.modPart p f).launches = s.launches := rfl
@[simp] theorem keynum_modPart (p : Nat) (f : Partition → Partition) : (s.modPart p f).keynum = s.keynum := rfl

@[simp] theorem plan_modQueue (p q : Nat) (f : LQueue → LQueue) : (s.modQueue p q f).plan = s.plan := rfl
@[simp] theorem tick_modQueue (p q : Nat) (f : LQueue → LQueue) : (s.modQueue p q f).tick = s.tick := rfl
@[simp] theorem fresh_modQueue (p q : Nat) (f : LQueue → LQueue) : (s.modQueue p q f).fresh = s.fresh := rfl
@[simp] theorem last_modQueue (p q : Nat) (f : LQueue → LQueue) : (s.modQueue p q f).last = s.last := rfl
@[simp] theorem cur_modQueue (p q : Nat) (f : LQueue → LQueue) : (s.modQueue p q f).cur = s.cur := rfl
@[simp] theorem due_modQueue (p q : Nat) (f : LQueue → LQueue) : (s.modQueue p q f).due = s.due := rfl
@[simp] theorem time_modQueue (p q : Nat) (f : LQueue → LQueue) : (s.modQueue p q f).time = s.time := rfl
@[simp] theorem mem_modQueue (p q : Nat) (f : LQueue → LQueue) : (s.modQueue p q f).mem = s.mem := rfl
@[simp] theorem tags_modQueue (p q : Nat) (f : LQueue → LQueue) : (s.modQueue p q f).tags = s.tags := rfl
@[simp] theorem flips_modQueue (p q : Nat) (f : LQueue → LQueue) : (s.modQueue p q f).flips = s.flips := rfl
@[simp] theorem stamps_modQueue (p q : Nat) (f : LQueue → LQueue) : (s.modQueue p q f).stamps = s.stamps := rfl
@[simp] theorem delivered_modQueue (p q : Nat) (f : LQueue → LQueue) : (s.modQueue p q f).delivered = s.delivered := rfl
@[simp] theorem hostClock_modQueue (p q : Nat) (f : LQueue → LQueue) : (s.modQueue p q f).hostClock = s.hostClock := rfl
@[simp] theorem seq_modQueue (p q : Nat) (f : LQueue → LQueue) : (s.modQueue p q f).seq = s.seq := rfl
@[simp] theorem past_modQueue (p q : Nat) (f : LQueue → LQueue) : (s.modQueue p q f).past = s.past := rfl
@[simp] theorem parties_modQueue (p q : Nat) (f : LQueue → LQueue) : (s.modQueue p q f).parties = s.parties := rfl
@[simp] theorem ctxs_modQueue (p q : Nat) (f : LQueue → LQueue) : (s.modQueue p q f).ctxs = s.ctxs := rfl
@[simp] theorem cores_modQueue (p q : Nat) (f : LQueue → LQueue) : (s.modQueue p q f).cores = s.cores := rfl
@[simp] theorem dies_modQueue (p q : Nat) (f : LQueue → LQueue) : (s.modQueue p q f).dies = s.dies := rfl
@[simp] theorem hampers_modQueue (p q : Nat) (f : LQueue → LQueue) : (s.modQueue p q f).hampers = s.hampers := rfl
@[simp] theorem parts_modQueue (p q : Nat) (f : LQueue → LQueue) : (s.modQueue p q f).parts = s.parts := rfl
@[simp] theorem keys_modQueue (p q : Nat) (f : LQueue → LQueue) : (s.modQueue p q f).keys = s.keys := rfl
@[simp] theorem moved_modQueue (p q : Nat) (f : LQueue → LQueue) : (s.modQueue p q f).moved = s.moved := rfl
@[simp] theorem moduleDraw_modQueue (p q : Nat) (f : LQueue → LQueue) : (s.modQueue p q f).moduleDraw = s.moduleDraw := rfl
@[simp] theorem owners_modQueue (p q : Nat) (f : LQueue → LQueue) : (s.modQueue p q f).owners = s.owners := rfl
@[simp] theorem aside_modQueue (p q : Nat) (f : LQueue → LQueue) : (s.modQueue p q f).aside = s.aside := rfl
@[simp] theorem reassigns_modQueue (p q : Nat) (f : LQueue → LQueue) : (s.modQueue p q f).reassigns = s.reassigns := rfl
@[simp] theorem pages_modQueue (p q : Nat) (f : LQueue → LQueue) : (s.modQueue p q f).pages = s.pages := rfl
@[simp] theorem pins_modQueue (p q : Nat) (f : LQueue → LQueue) : (s.modQueue p q f).pins = s.pins := rfl
@[simp] theorem objects_modQueue (p q : Nat) (f : LQueue → LQueue) : (s.modQueue p q f).objects = s.objects := rfl
@[simp] theorem windows_modQueue (p q : Nat) (f : LQueue → LQueue) : (s.modQueue p q f).windows = s.windows := rfl
@[simp] theorem streams_modQueue (p q : Nat) (f : LQueue → LQueue) : (s.modQueue p q f).streams = s.streams := rfl
@[simp] theorem suffixes_modQueue (p q : Nat) (f : LQueue → LQueue) : (s.modQueue p q f).suffixes = s.suffixes := rfl
@[simp] theorem cocoons_modQueue (p q : Nat) (f : LQueue → LQueue) : (s.modQueue p q f).cocoons = s.cocoons := rfl
@[simp] theorem flights_modQueue (p q : Nat) (f : LQueue → LQueue) : (s.modQueue p q f).flights = s.flights := rfl
@[simp] theorem loads_modQueue (p q : Nat) (f : LQueue → LQueue) : (s.modQueue p q f).loads = s.loads := rfl
@[simp] theorem msgs_modQueue (p q : Nat) (f : LQueue → LQueue) : (s.modQueue p q f).msgs = s.msgs := rfl
@[simp] theorem heard_modQueue (p q : Nat) (f : LQueue → LQueue) : (s.modQueue p q f).heard = s.heard := rfl
@[simp] theorem out_modQueue (p q : Nat) (f : LQueue → LQueue) : (s.modQueue p q f).out = s.out := rfl
@[simp] theorem prstat_modQueue (p q : Nat) (f : LQueue → LQueue) : (s.modQueue p q f).prstat = s.prstat := rfl
@[simp] theorem resetting_modQueue (p q : Nat) (f : LQueue → LQueue) : (s.modQueue p q f).resetting = s.resetting := rfl
@[simp] theorem resetDue_modQueue (p q : Nat) (f : LQueue → LQueue) : (s.modQueue p q f).resetDue = s.resetDue := rfl
@[simp] theorem fabric_modQueue (p q : Nat) (f : LQueue → LQueue) : (s.modQueue p q f).fabric = s.fabric := rfl
@[simp] theorem reclaim_modQueue (p q : Nat) (f : LQueue → LQueue) : (s.modQueue p q f).reclaim = s.reclaim := rfl
@[simp] theorem mgmt_modQueue (p q : Nat) (f : LQueue → LQueue) : (s.modQueue p q f).mgmt = s.mgmt := rfl
@[simp] theorem serial_modQueue (p q : Nat) (f : LQueue → LQueue) : (s.modQueue p q f).serial = s.serial := rfl
@[simp] theorem launches_modQueue (p q : Nat) (f : LQueue → LQueue) : (s.modQueue p q f).launches = s.launches := rfl
@[simp] theorem keynum_modQueue (p q : Nat) (f : LQueue → LQueue) : (s.modQueue p q f).keynum = s.keynum := rfl

@[simp] theorem plan_setReg (d : Nat) (v : Word) (b : Bool) : (s.setReg d v b).plan = s.plan := rfl
@[simp] theorem tick_setReg (d : Nat) (v : Word) (b : Bool) : (s.setReg d v b).tick = s.tick := rfl
@[simp] theorem fresh_setReg (d : Nat) (v : Word) (b : Bool) : (s.setReg d v b).fresh = s.fresh := rfl
@[simp] theorem last_setReg (d : Nat) (v : Word) (b : Bool) : (s.setReg d v b).last = s.last := rfl
@[simp] theorem cur_setReg (d : Nat) (v : Word) (b : Bool) : (s.setReg d v b).cur = s.cur := rfl
@[simp] theorem due_setReg (d : Nat) (v : Word) (b : Bool) : (s.setReg d v b).due = s.due := rfl
@[simp] theorem time_setReg (d : Nat) (v : Word) (b : Bool) : (s.setReg d v b).time = s.time := rfl
@[simp] theorem mem_setReg (d : Nat) (v : Word) (b : Bool) : (s.setReg d v b).mem = s.mem := rfl
@[simp] theorem tags_setReg (d : Nat) (v : Word) (b : Bool) : (s.setReg d v b).tags = s.tags := rfl
@[simp] theorem flips_setReg (d : Nat) (v : Word) (b : Bool) : (s.setReg d v b).flips = s.flips := rfl
@[simp] theorem stamps_setReg (d : Nat) (v : Word) (b : Bool) : (s.setReg d v b).stamps = s.stamps := rfl
@[simp] theorem delivered_setReg (d : Nat) (v : Word) (b : Bool) : (s.setReg d v b).delivered = s.delivered := rfl
@[simp] theorem hostClock_setReg (d : Nat) (v : Word) (b : Bool) : (s.setReg d v b).hostClock = s.hostClock := rfl
@[simp] theorem seq_setReg (d : Nat) (v : Word) (b : Bool) : (s.setReg d v b).seq = s.seq := rfl
@[simp] theorem past_setReg (d : Nat) (v : Word) (b : Bool) : (s.setReg d v b).past = s.past := rfl
@[simp] theorem ctxs_setReg (d : Nat) (v : Word) (b : Bool) : (s.setReg d v b).ctxs = s.ctxs := rfl
@[simp] theorem cores_setReg (d : Nat) (v : Word) (b : Bool) : (s.setReg d v b).cores = s.cores := rfl
@[simp] theorem dies_setReg (d : Nat) (v : Word) (b : Bool) : (s.setReg d v b).dies = s.dies := rfl
@[simp] theorem hampers_setReg (d : Nat) (v : Word) (b : Bool) : (s.setReg d v b).hampers = s.hampers := rfl
@[simp] theorem parts_setReg (d : Nat) (v : Word) (b : Bool) : (s.setReg d v b).parts = s.parts := rfl
@[simp] theorem queues_setReg (d : Nat) (v : Word) (b : Bool) : (s.setReg d v b).queues = s.queues := rfl
@[simp] theorem keys_setReg (d : Nat) (v : Word) (b : Bool) : (s.setReg d v b).keys = s.keys := rfl
@[simp] theorem moved_setReg (d : Nat) (v : Word) (b : Bool) : (s.setReg d v b).moved = s.moved := rfl
@[simp] theorem moduleDraw_setReg (d : Nat) (v : Word) (b : Bool) : (s.setReg d v b).moduleDraw = s.moduleDraw := rfl
@[simp] theorem owners_setReg (d : Nat) (v : Word) (b : Bool) : (s.setReg d v b).owners = s.owners := rfl
@[simp] theorem aside_setReg (d : Nat) (v : Word) (b : Bool) : (s.setReg d v b).aside = s.aside := rfl
@[simp] theorem reassigns_setReg (d : Nat) (v : Word) (b : Bool) : (s.setReg d v b).reassigns = s.reassigns := rfl
@[simp] theorem pages_setReg (d : Nat) (v : Word) (b : Bool) : (s.setReg d v b).pages = s.pages := rfl
@[simp] theorem pins_setReg (d : Nat) (v : Word) (b : Bool) : (s.setReg d v b).pins = s.pins := rfl
@[simp] theorem objects_setReg (d : Nat) (v : Word) (b : Bool) : (s.setReg d v b).objects = s.objects := rfl
@[simp] theorem windows_setReg (d : Nat) (v : Word) (b : Bool) : (s.setReg d v b).windows = s.windows := rfl
@[simp] theorem streams_setReg (d : Nat) (v : Word) (b : Bool) : (s.setReg d v b).streams = s.streams := rfl
@[simp] theorem suffixes_setReg (d : Nat) (v : Word) (b : Bool) : (s.setReg d v b).suffixes = s.suffixes := rfl
@[simp] theorem cocoons_setReg (d : Nat) (v : Word) (b : Bool) : (s.setReg d v b).cocoons = s.cocoons := rfl
@[simp] theorem flights_setReg (d : Nat) (v : Word) (b : Bool) : (s.setReg d v b).flights = s.flights := rfl
@[simp] theorem loads_setReg (d : Nat) (v : Word) (b : Bool) : (s.setReg d v b).loads = s.loads := rfl
@[simp] theorem msgs_setReg (d : Nat) (v : Word) (b : Bool) : (s.setReg d v b).msgs = s.msgs := rfl
@[simp] theorem heard_setReg (d : Nat) (v : Word) (b : Bool) : (s.setReg d v b).heard = s.heard := rfl
@[simp] theorem out_setReg (d : Nat) (v : Word) (b : Bool) : (s.setReg d v b).out = s.out := rfl
@[simp] theorem prstat_setReg (d : Nat) (v : Word) (b : Bool) : (s.setReg d v b).prstat = s.prstat := rfl
@[simp] theorem resetting_setReg (d : Nat) (v : Word) (b : Bool) : (s.setReg d v b).resetting = s.resetting := rfl
@[simp] theorem resetDue_setReg (d : Nat) (v : Word) (b : Bool) : (s.setReg d v b).resetDue = s.resetDue := rfl
@[simp] theorem fabric_setReg (d : Nat) (v : Word) (b : Bool) : (s.setReg d v b).fabric = s.fabric := rfl
@[simp] theorem reclaim_setReg (d : Nat) (v : Word) (b : Bool) : (s.setReg d v b).reclaim = s.reclaim := rfl
@[simp] theorem mgmt_setReg (d : Nat) (v : Word) (b : Bool) : (s.setReg d v b).mgmt = s.mgmt := rfl
@[simp] theorem serial_setReg (d : Nat) (v : Word) (b : Bool) : (s.setReg d v b).serial = s.serial := rfl
@[simp] theorem launches_setReg (d : Nat) (v : Word) (b : Bool) : (s.setReg d v b).launches = s.launches := rfl
@[simp] theorem keynum_setReg (d : Nat) (v : Word) (b : Bool) : (s.setReg d v b).keynum = s.keynum := rfl

@[simp] theorem plan_post (d : Nat) (r : Record) : (s.post d r).plan = s.plan := rfl
@[simp] theorem tick_post (d : Nat) (r : Record) : (s.post d r).tick = s.tick := rfl
@[simp] theorem fresh_post (d : Nat) (r : Record) : (s.post d r).fresh = s.fresh := rfl
@[simp] theorem last_post (d : Nat) (r : Record) : (s.post d r).last = s.last := rfl
@[simp] theorem cur_post (d : Nat) (r : Record) : (s.post d r).cur = s.cur := rfl
@[simp] theorem due_post (d : Nat) (r : Record) : (s.post d r).due = s.due := rfl
@[simp] theorem time_post (d : Nat) (r : Record) : (s.post d r).time = s.time := rfl
@[simp] theorem mem_post (d : Nat) (r : Record) : (s.post d r).mem = s.mem := rfl
@[simp] theorem tags_post (d : Nat) (r : Record) : (s.post d r).tags = s.tags := rfl
@[simp] theorem flips_post (d : Nat) (r : Record) : (s.post d r).flips = s.flips := rfl
@[simp] theorem stamps_post (d : Nat) (r : Record) : (s.post d r).stamps = s.stamps := rfl
@[simp] theorem delivered_post (d : Nat) (r : Record) : (s.post d r).delivered = s.delivered := rfl
@[simp] theorem hostClock_post (d : Nat) (r : Record) : (s.post d r).hostClock = s.hostClock := rfl
@[simp] theorem seq_post (d : Nat) (r : Record) : (s.post d r).seq = s.seq := rfl
@[simp] theorem past_post (d : Nat) (r : Record) : (s.post d r).past = s.past := rfl
@[simp] theorem parties_post (d : Nat) (r : Record) : (s.post d r).parties = s.parties := rfl
@[simp] theorem ctxs_post (d : Nat) (r : Record) : (s.post d r).ctxs = s.ctxs := rfl
@[simp] theorem cores_post (d : Nat) (r : Record) : (s.post d r).cores = s.cores := rfl
@[simp] theorem hampers_post (d : Nat) (r : Record) : (s.post d r).hampers = s.hampers := rfl
@[simp] theorem parts_post (d : Nat) (r : Record) : (s.post d r).parts = s.parts := rfl
@[simp] theorem queues_post (d : Nat) (r : Record) : (s.post d r).queues = s.queues := rfl
@[simp] theorem keys_post (d : Nat) (r : Record) : (s.post d r).keys = s.keys := rfl
@[simp] theorem moved_post (d : Nat) (r : Record) : (s.post d r).moved = s.moved := rfl
@[simp] theorem moduleDraw_post (d : Nat) (r : Record) : (s.post d r).moduleDraw = s.moduleDraw := rfl
@[simp] theorem owners_post (d : Nat) (r : Record) : (s.post d r).owners = s.owners := rfl
@[simp] theorem aside_post (d : Nat) (r : Record) : (s.post d r).aside = s.aside := rfl
@[simp] theorem reassigns_post (d : Nat) (r : Record) : (s.post d r).reassigns = s.reassigns := rfl
@[simp] theorem pages_post (d : Nat) (r : Record) : (s.post d r).pages = s.pages := rfl
@[simp] theorem pins_post (d : Nat) (r : Record) : (s.post d r).pins = s.pins := rfl
@[simp] theorem objects_post (d : Nat) (r : Record) : (s.post d r).objects = s.objects := rfl
@[simp] theorem windows_post (d : Nat) (r : Record) : (s.post d r).windows = s.windows := rfl
@[simp] theorem streams_post (d : Nat) (r : Record) : (s.post d r).streams = s.streams := rfl
@[simp] theorem suffixes_post (d : Nat) (r : Record) : (s.post d r).suffixes = s.suffixes := rfl
@[simp] theorem cocoons_post (d : Nat) (r : Record) : (s.post d r).cocoons = s.cocoons := rfl
@[simp] theorem flights_post (d : Nat) (r : Record) : (s.post d r).flights = s.flights := rfl
@[simp] theorem loads_post (d : Nat) (r : Record) : (s.post d r).loads = s.loads := rfl
@[simp] theorem msgs_post (d : Nat) (r : Record) : (s.post d r).msgs = s.msgs := rfl
@[simp] theorem heard_post (d : Nat) (r : Record) : (s.post d r).heard = s.heard := rfl
@[simp] theorem out_post (d : Nat) (r : Record) : (s.post d r).out = s.out := rfl
@[simp] theorem prstat_post (d : Nat) (r : Record) : (s.post d r).prstat = s.prstat := rfl
@[simp] theorem resetting_post (d : Nat) (r : Record) : (s.post d r).resetting = s.resetting := rfl
@[simp] theorem resetDue_post (d : Nat) (r : Record) : (s.post d r).resetDue = s.resetDue := rfl
@[simp] theorem fabric_post (d : Nat) (r : Record) : (s.post d r).fabric = s.fabric := rfl
@[simp] theorem reclaim_post (d : Nat) (r : Record) : (s.post d r).reclaim = s.reclaim := rfl
@[simp] theorem mgmt_post (d : Nat) (r : Record) : (s.post d r).mgmt = s.mgmt := rfl
@[simp] theorem serial_post (d : Nat) (r : Record) : (s.post d r).serial = s.serial := rfl
@[simp] theorem launches_post (d : Nat) (r : Record) : (s.post d r).launches = s.launches := rfl
@[simp] theorem keynum_post (d : Nat) (r : Record) : (s.post d r).keynum = s.keynum := rfl

@[simp] theorem party_setLast (e : Ending) (r2 : PartyId) : (s.setLast e).party r2 = s.party r2 := rfl
@[simp] theorem ctx_setLast (e : Ending) (c2 k2 : Nat) : (s.setLast e).ctx c2 k2 = s.ctx c2 k2 := rfl
@[simp] theorem core_setLast (e : Ending) (c2 : Nat) : (s.setLast e).core c2 = s.core c2 := rfl
@[simp] theorem die_setLast (e : Ending) (d2 : Nat) : (s.setLast e).die d2 = s.die d2 := rfl
@[simp] theorem hamper_setLast (e : Ending) (h2 : Nat) : (s.setLast e).hamper h2 = s.hamper h2 := rfl
@[simp] theorem part_setLast (e : Ending) (p2 : Nat) : (s.setLast e).part p2 = s.part p2 := rfl
@[simp] theorem queue_setLast (e : Ending) (p2 q2 : Nat) : (s.setLast e).queue p2 q2 = s.queue p2 q2 := rfl
@[simp] theorem key_setLast (e : Ending) (k2 : Nat) : (s.setLast e).key k2 = s.key k2 := rfl

@[simp] theorem party_setCur (p : PartyId) (r2 : PartyId) : (s.setCur p).party r2 = s.party r2 := rfl
@[simp] theorem ctx_setCur (p : PartyId) (c2 k2 : Nat) : (s.setCur p).ctx c2 k2 = s.ctx c2 k2 := rfl
@[simp] theorem core_setCur (p : PartyId) (c2 : Nat) : (s.setCur p).core c2 = s.core c2 := rfl
@[simp] theorem die_setCur (p : PartyId) (d2 : Nat) : (s.setCur p).die d2 = s.die d2 := rfl
@[simp] theorem hamper_setCur (p : PartyId) (h2 : Nat) : (s.setCur p).hamper h2 = s.hamper h2 := rfl
@[simp] theorem part_setCur (p : PartyId) (p2 : Nat) : (s.setCur p).part p2 = s.part p2 := rfl
@[simp] theorem queue_setCur (p : PartyId) (p2 q2 : Nat) : (s.setCur p).queue p2 q2 = s.queue p2 q2 := rfl
@[simp] theorem key_setCur (p : PartyId) (k2 : Nat) : (s.setCur p).key k2 = s.key k2 := rfl

@[simp] theorem ctx_setParty (p : PartyId) (x : PartyState) (c2 k2 : Nat) : (s.setParty p x).ctx c2 k2 = s.ctx c2 k2 := rfl
@[simp] theorem core_setParty (p : PartyId) (x : PartyState) (c2 : Nat) : (s.setParty p x).core c2 = s.core c2 := rfl
@[simp] theorem die_setParty (p : PartyId) (x : PartyState) (d2 : Nat) : (s.setParty p x).die d2 = s.die d2 := rfl
@[simp] theorem hamper_setParty (p : PartyId) (x : PartyState) (h2 : Nat) : (s.setParty p x).hamper h2 = s.hamper h2 := rfl
@[simp] theorem part_setParty (p : PartyId) (x : PartyState) (p2 : Nat) : (s.setParty p x).part p2 = s.part p2 := rfl
@[simp] theorem queue_setParty (p : PartyId) (x : PartyState) (p2 q2 : Nat) : (s.setParty p x).queue p2 q2 = s.queue p2 q2 := rfl
@[simp] theorem key_setParty (p : PartyId) (x : PartyState) (k2 : Nat) : (s.setParty p x).key k2 = s.key k2 := rfl

@[simp] theorem party_setCtx (c k : Nat) (x : Ctx) (r2 : PartyId) : (s.setCtx c k x).party r2 = s.party r2 := rfl
@[simp] theorem core_setCtx (c k : Nat) (x : Ctx) (c2 : Nat) : (s.setCtx c k x).core c2 = s.core c2 := rfl
@[simp] theorem die_setCtx (c k : Nat) (x : Ctx) (d2 : Nat) : (s.setCtx c k x).die d2 = s.die d2 := rfl
@[simp] theorem hamper_setCtx (c k : Nat) (x : Ctx) (h2 : Nat) : (s.setCtx c k x).hamper h2 = s.hamper h2 := rfl
@[simp] theorem part_setCtx (c k : Nat) (x : Ctx) (p2 : Nat) : (s.setCtx c k x).part p2 = s.part p2 := rfl
@[simp] theorem queue_setCtx (c k : Nat) (x : Ctx) (p2 q2 : Nat) : (s.setCtx c k x).queue p2 q2 = s.queue p2 q2 := rfl
@[simp] theorem key_setCtx (c k : Nat) (x : Ctx) (k2 : Nat) : (s.setCtx c k x).key k2 = s.key k2 := rfl

@[simp] theorem party_setCore (c : Nat) (x : CoreState) (r2 : PartyId) : (s.setCore c x).party r2 = s.party r2 := rfl
@[simp] theorem ctx_setCore (c : Nat) (x : CoreState) (c2 k2 : Nat) : (s.setCore c x).ctx c2 k2 = s.ctx c2 k2 := rfl
@[simp] theorem die_setCore (c : Nat) (x : CoreState) (d2 : Nat) : (s.setCore c x).die d2 = s.die d2 := rfl
@[simp] theorem hamper_setCore (c : Nat) (x : CoreState) (h2 : Nat) : (s.setCore c x).hamper h2 = s.hamper h2 := rfl
@[simp] theorem part_setCore (c : Nat) (x : CoreState) (p2 : Nat) : (s.setCore c x).part p2 = s.part p2 := rfl
@[simp] theorem queue_setCore (c : Nat) (x : CoreState) (p2 q2 : Nat) : (s.setCore c x).queue p2 q2 = s.queue p2 q2 := rfl
@[simp] theorem key_setCore (c : Nat) (x : CoreState) (k2 : Nat) : (s.setCore c x).key k2 = s.key k2 := rfl

@[simp] theorem party_setDie (d : Nat) (x : DieState) (r2 : PartyId) : (s.setDie d x).party r2 = s.party r2 := rfl
@[simp] theorem ctx_setDie (d : Nat) (x : DieState) (c2 k2 : Nat) : (s.setDie d x).ctx c2 k2 = s.ctx c2 k2 := rfl
@[simp] theorem core_setDie (d : Nat) (x : DieState) (c2 : Nat) : (s.setDie d x).core c2 = s.core c2 := rfl
@[simp] theorem hamper_setDie (d : Nat) (x : DieState) (h2 : Nat) : (s.setDie d x).hamper h2 = s.hamper h2 := rfl
@[simp] theorem part_setDie (d : Nat) (x : DieState) (p2 : Nat) : (s.setDie d x).part p2 = s.part p2 := rfl
@[simp] theorem queue_setDie (d : Nat) (x : DieState) (p2 q2 : Nat) : (s.setDie d x).queue p2 q2 = s.queue p2 q2 := rfl
@[simp] theorem key_setDie (d : Nat) (x : DieState) (k2 : Nat) : (s.setDie d x).key k2 = s.key k2 := rfl

@[simp] theorem party_setHamper (h : Nat) (x : HamperState) (r2 : PartyId) : (s.setHamper h x).party r2 = s.party r2 := rfl
@[simp] theorem ctx_setHamper (h : Nat) (x : HamperState) (c2 k2 : Nat) : (s.setHamper h x).ctx c2 k2 = s.ctx c2 k2 := rfl
@[simp] theorem core_setHamper (h : Nat) (x : HamperState) (c2 : Nat) : (s.setHamper h x).core c2 = s.core c2 := rfl
@[simp] theorem die_setHamper (h : Nat) (x : HamperState) (d2 : Nat) : (s.setHamper h x).die d2 = s.die d2 := rfl
@[simp] theorem part_setHamper (h : Nat) (x : HamperState) (p2 : Nat) : (s.setHamper h x).part p2 = s.part p2 := rfl
@[simp] theorem queue_setHamper (h : Nat) (x : HamperState) (p2 q2 : Nat) : (s.setHamper h x).queue p2 q2 = s.queue p2 q2 := rfl
@[simp] theorem key_setHamper (h : Nat) (x : HamperState) (k2 : Nat) : (s.setHamper h x).key k2 = s.key k2 := rfl

@[simp] theorem party_setPart (p : Nat) (x : Partition) (r2 : PartyId) : (s.setPart p x).party r2 = s.party r2 := rfl
@[simp] theorem ctx_setPart (p : Nat) (x : Partition) (c2 k2 : Nat) : (s.setPart p x).ctx c2 k2 = s.ctx c2 k2 := rfl
@[simp] theorem core_setPart (p : Nat) (x : Partition) (c2 : Nat) : (s.setPart p x).core c2 = s.core c2 := rfl
@[simp] theorem die_setPart (p : Nat) (x : Partition) (d2 : Nat) : (s.setPart p x).die d2 = s.die d2 := rfl
@[simp] theorem hamper_setPart (p : Nat) (x : Partition) (h2 : Nat) : (s.setPart p x).hamper h2 = s.hamper h2 := rfl
@[simp] theorem queue_setPart (p : Nat) (x : Partition) (p2 q2 : Nat) : (s.setPart p x).queue p2 q2 = s.queue p2 q2 := rfl
@[simp] theorem key_setPart (p : Nat) (x : Partition) (k2 : Nat) : (s.setPart p x).key k2 = s.key k2 := rfl

@[simp] theorem party_setQueue (p q : Nat) (x : LQueue) (r2 : PartyId) : (s.setQueue p q x).party r2 = s.party r2 := rfl
@[simp] theorem ctx_setQueue (p q : Nat) (x : LQueue) (c2 k2 : Nat) : (s.setQueue p q x).ctx c2 k2 = s.ctx c2 k2 := rfl
@[simp] theorem core_setQueue (p q : Nat) (x : LQueue) (c2 : Nat) : (s.setQueue p q x).core c2 = s.core c2 := rfl
@[simp] theorem die_setQueue (p q : Nat) (x : LQueue) (d2 : Nat) : (s.setQueue p q x).die d2 = s.die d2 := rfl
@[simp] theorem hamper_setQueue (p q : Nat) (x : LQueue) (h2 : Nat) : (s.setQueue p q x).hamper h2 = s.hamper h2 := rfl
@[simp] theorem part_setQueue (p q : Nat) (x : LQueue) (p2 : Nat) : (s.setQueue p q x).part p2 = s.part p2 := rfl
@[simp] theorem key_setQueue (p q : Nat) (x : LQueue) (k2 : Nat) : (s.setQueue p q x).key k2 = s.key k2 := rfl

@[simp] theorem party_setKey (k : Nat) (x : KeySlot) (r2 : PartyId) : (s.setKey k x).party r2 = s.party r2 := rfl
@[simp] theorem ctx_setKey (k : Nat) (x : KeySlot) (c2 k2 : Nat) : (s.setKey k x).ctx c2 k2 = s.ctx c2 k2 := rfl
@[simp] theorem core_setKey (k : Nat) (x : KeySlot) (c2 : Nat) : (s.setKey k x).core c2 = s.core c2 := rfl
@[simp] theorem die_setKey (k : Nat) (x : KeySlot) (d2 : Nat) : (s.setKey k x).die d2 = s.die d2 := rfl
@[simp] theorem hamper_setKey (k : Nat) (x : KeySlot) (h2 : Nat) : (s.setKey k x).hamper h2 = s.hamper h2 := rfl
@[simp] theorem part_setKey (k : Nat) (x : KeySlot) (p2 : Nat) : (s.setKey k x).part p2 = s.part p2 := rfl
@[simp] theorem queue_setKey (k : Nat) (x : KeySlot) (p2 q2 : Nat) : (s.setKey k x).queue p2 q2 = s.queue p2 q2 := rfl

@[simp] theorem ctx_setMe (x : PartyState) (c2 k2 : Nat) : (s.setMe x).ctx c2 k2 = s.ctx c2 k2 := rfl
@[simp] theorem core_setMe (x : PartyState) (c2 : Nat) : (s.setMe x).core c2 = s.core c2 := rfl
@[simp] theorem die_setMe (x : PartyState) (d2 : Nat) : (s.setMe x).die d2 = s.die d2 := rfl
@[simp] theorem hamper_setMe (x : PartyState) (h2 : Nat) : (s.setMe x).hamper h2 = s.hamper h2 := rfl
@[simp] theorem part_setMe (x : PartyState) (p2 : Nat) : (s.setMe x).part p2 = s.part p2 := rfl
@[simp] theorem queue_setMe (x : PartyState) (p2 q2 : Nat) : (s.setMe x).queue p2 q2 = s.queue p2 q2 := rfl
@[simp] theorem key_setMe (x : PartyState) (k2 : Nat) : (s.setMe x).key k2 = s.key k2 := rfl

@[simp] theorem ctx_modParty (p : PartyId) (f : PartyState → PartyState) (c2 k2 : Nat) : (s.modParty p f).ctx c2 k2 = s.ctx c2 k2 := rfl
@[simp] theorem core_modParty (p : PartyId) (f : PartyState → PartyState) (c2 : Nat) : (s.modParty p f).core c2 = s.core c2 := rfl
@[simp] theorem die_modParty (p : PartyId) (f : PartyState → PartyState) (d2 : Nat) : (s.modParty p f).die d2 = s.die d2 := rfl
@[simp] theorem hamper_modParty (p : PartyId) (f : PartyState → PartyState) (h2 : Nat) : (s.modParty p f).hamper h2 = s.hamper h2 := rfl
@[simp] theorem part_modParty (p : PartyId) (f : PartyState → PartyState) (p2 : Nat) : (s.modParty p f).part p2 = s.part p2 := rfl
@[simp] theorem queue_modParty (p : PartyId) (f : PartyState → PartyState) (p2 q2 : Nat) : (s.modParty p f).queue p2 q2 = s.queue p2 q2 := rfl
@[simp] theorem key_modParty (p : PartyId) (f : PartyState → PartyState) (k2 : Nat) : (s.modParty p f).key k2 = s.key k2 := rfl

@[simp] theorem ctx_modMe (f : PartyState → PartyState) (c2 k2 : Nat) : (s.modMe f).ctx c2 k2 = s.ctx c2 k2 := rfl
@[simp] theorem core_modMe (f : PartyState → PartyState) (c2 : Nat) : (s.modMe f).core c2 = s.core c2 := rfl
@[simp] theorem die_modMe (f : PartyState → PartyState) (d2 : Nat) : (s.modMe f).die d2 = s.die d2 := rfl
@[simp] theorem hamper_modMe (f : PartyState → PartyState) (h2 : Nat) : (s.modMe f).hamper h2 = s.hamper h2 := rfl
@[simp] theorem part_modMe (f : PartyState → PartyState) (p2 : Nat) : (s.modMe f).part p2 = s.part p2 := rfl
@[simp] theorem queue_modMe (f : PartyState → PartyState) (p2 q2 : Nat) : (s.modMe f).queue p2 q2 = s.queue p2 q2 := rfl
@[simp] theorem key_modMe (f : PartyState → PartyState) (k2 : Nat) : (s.modMe f).key k2 = s.key k2 := rfl

@[simp] theorem party_modCtx (c k : Nat) (f : Ctx → Ctx) (r2 : PartyId) : (s.modCtx c k f).party r2 = s.party r2 := rfl
@[simp] theorem core_modCtx (c k : Nat) (f : Ctx → Ctx) (c2 : Nat) : (s.modCtx c k f).core c2 = s.core c2 := rfl
@[simp] theorem die_modCtx (c k : Nat) (f : Ctx → Ctx) (d2 : Nat) : (s.modCtx c k f).die d2 = s.die d2 := rfl
@[simp] theorem hamper_modCtx (c k : Nat) (f : Ctx → Ctx) (h2 : Nat) : (s.modCtx c k f).hamper h2 = s.hamper h2 := rfl
@[simp] theorem part_modCtx (c k : Nat) (f : Ctx → Ctx) (p2 : Nat) : (s.modCtx c k f).part p2 = s.part p2 := rfl
@[simp] theorem queue_modCtx (c k : Nat) (f : Ctx → Ctx) (p2 q2 : Nat) : (s.modCtx c k f).queue p2 q2 = s.queue p2 q2 := rfl
@[simp] theorem key_modCtx (c k : Nat) (f : Ctx → Ctx) (k2 : Nat) : (s.modCtx c k f).key k2 = s.key k2 := rfl

@[simp] theorem party_modMyCtx (f : Ctx → Ctx) (r2 : PartyId) : (s.modMyCtx f).party r2 = s.party r2 := rfl
@[simp] theorem core_modMyCtx (f : Ctx → Ctx) (c2 : Nat) : (s.modMyCtx f).core c2 = s.core c2 := rfl
@[simp] theorem die_modMyCtx (f : Ctx → Ctx) (d2 : Nat) : (s.modMyCtx f).die d2 = s.die d2 := rfl
@[simp] theorem hamper_modMyCtx (f : Ctx → Ctx) (h2 : Nat) : (s.modMyCtx f).hamper h2 = s.hamper h2 := rfl
@[simp] theorem part_modMyCtx (f : Ctx → Ctx) (p2 : Nat) : (s.modMyCtx f).part p2 = s.part p2 := rfl
@[simp] theorem queue_modMyCtx (f : Ctx → Ctx) (p2 q2 : Nat) : (s.modMyCtx f).queue p2 q2 = s.queue p2 q2 := rfl
@[simp] theorem key_modMyCtx (f : Ctx → Ctx) (k2 : Nat) : (s.modMyCtx f).key k2 = s.key k2 := rfl

@[simp] theorem party_modSh (f : Shared → Shared) (r2 : PartyId) : (s.modSh f).party r2 = s.party r2 := rfl
@[simp] theorem core_modSh (f : Shared → Shared) (c2 : Nat) : (s.modSh f).core c2 = s.core c2 := rfl
@[simp] theorem die_modSh (f : Shared → Shared) (d2 : Nat) : (s.modSh f).die d2 = s.die d2 := rfl
@[simp] theorem hamper_modSh (f : Shared → Shared) (h2 : Nat) : (s.modSh f).hamper h2 = s.hamper h2 := rfl
@[simp] theorem part_modSh (f : Shared → Shared) (p2 : Nat) : (s.modSh f).part p2 = s.part p2 := rfl
@[simp] theorem queue_modSh (f : Shared → Shared) (p2 q2 : Nat) : (s.modSh f).queue p2 q2 = s.queue p2 q2 := rfl
@[simp] theorem key_modSh (f : Shared → Shared) (k2 : Nat) : (s.modSh f).key k2 = s.key k2 := rfl

@[simp] theorem party_modCore (c : Nat) (f : CoreState → CoreState) (r2 : PartyId) : (s.modCore c f).party r2 = s.party r2 := rfl
@[simp] theorem ctx_modCore (c : Nat) (f : CoreState → CoreState) (c2 k2 : Nat) : (s.modCore c f).ctx c2 k2 = s.ctx c2 k2 := rfl
@[simp] theorem die_modCore (c : Nat) (f : CoreState → CoreState) (d2 : Nat) : (s.modCore c f).die d2 = s.die d2 := rfl
@[simp] theorem hamper_modCore (c : Nat) (f : CoreState → CoreState) (h2 : Nat) : (s.modCore c f).hamper h2 = s.hamper h2 := rfl
@[simp] theorem part_modCore (c : Nat) (f : CoreState → CoreState) (p2 : Nat) : (s.modCore c f).part p2 = s.part p2 := rfl
@[simp] theorem queue_modCore (c : Nat) (f : CoreState → CoreState) (p2 q2 : Nat) : (s.modCore c f).queue p2 q2 = s.queue p2 q2 := rfl
@[simp] theorem key_modCore (c : Nat) (f : CoreState → CoreState) (k2 : Nat) : (s.modCore c f).key k2 = s.key k2 := rfl

@[simp] theorem party_modDie (d : Nat) (f : DieState → DieState) (r2 : PartyId) : (s.modDie d f).party r2 = s.party r2 := rfl
@[simp] theorem ctx_modDie (d : Nat) (f : DieState → DieState) (c2 k2 : Nat) : (s.modDie d f).ctx c2 k2 = s.ctx c2 k2 := rfl
@[simp] theorem core_modDie (d : Nat) (f : DieState → DieState) (c2 : Nat) : (s.modDie d f).core c2 = s.core c2 := rfl
@[simp] theorem hamper_modDie (d : Nat) (f : DieState → DieState) (h2 : Nat) : (s.modDie d f).hamper h2 = s.hamper h2 := rfl
@[simp] theorem part_modDie (d : Nat) (f : DieState → DieState) (p2 : Nat) : (s.modDie d f).part p2 = s.part p2 := rfl
@[simp] theorem queue_modDie (d : Nat) (f : DieState → DieState) (p2 q2 : Nat) : (s.modDie d f).queue p2 q2 = s.queue p2 q2 := rfl
@[simp] theorem key_modDie (d : Nat) (f : DieState → DieState) (k2 : Nat) : (s.modDie d f).key k2 = s.key k2 := rfl

@[simp] theorem party_modHamper (h : Nat) (f : HamperState → HamperState) (r2 : PartyId) : (s.modHamper h f).party r2 = s.party r2 := rfl
@[simp] theorem ctx_modHamper (h : Nat) (f : HamperState → HamperState) (c2 k2 : Nat) : (s.modHamper h f).ctx c2 k2 = s.ctx c2 k2 := rfl
@[simp] theorem core_modHamper (h : Nat) (f : HamperState → HamperState) (c2 : Nat) : (s.modHamper h f).core c2 = s.core c2 := rfl
@[simp] theorem die_modHamper (h : Nat) (f : HamperState → HamperState) (d2 : Nat) : (s.modHamper h f).die d2 = s.die d2 := rfl
@[simp] theorem part_modHamper (h : Nat) (f : HamperState → HamperState) (p2 : Nat) : (s.modHamper h f).part p2 = s.part p2 := rfl
@[simp] theorem queue_modHamper (h : Nat) (f : HamperState → HamperState) (p2 q2 : Nat) : (s.modHamper h f).queue p2 q2 = s.queue p2 q2 := rfl
@[simp] theorem key_modHamper (h : Nat) (f : HamperState → HamperState) (k2 : Nat) : (s.modHamper h f).key k2 = s.key k2 := rfl

@[simp] theorem party_modPart (p : Nat) (f : Partition → Partition) (r2 : PartyId) : (s.modPart p f).party r2 = s.party r2 := rfl
@[simp] theorem ctx_modPart (p : Nat) (f : Partition → Partition) (c2 k2 : Nat) : (s.modPart p f).ctx c2 k2 = s.ctx c2 k2 := rfl
@[simp] theorem core_modPart (p : Nat) (f : Partition → Partition) (c2 : Nat) : (s.modPart p f).core c2 = s.core c2 := rfl
@[simp] theorem die_modPart (p : Nat) (f : Partition → Partition) (d2 : Nat) : (s.modPart p f).die d2 = s.die d2 := rfl
@[simp] theorem hamper_modPart (p : Nat) (f : Partition → Partition) (h2 : Nat) : (s.modPart p f).hamper h2 = s.hamper h2 := rfl
@[simp] theorem queue_modPart (p : Nat) (f : Partition → Partition) (p2 q2 : Nat) : (s.modPart p f).queue p2 q2 = s.queue p2 q2 := rfl
@[simp] theorem key_modPart (p : Nat) (f : Partition → Partition) (k2 : Nat) : (s.modPart p f).key k2 = s.key k2 := rfl

@[simp] theorem party_modQueue (p q : Nat) (f : LQueue → LQueue) (r2 : PartyId) : (s.modQueue p q f).party r2 = s.party r2 := rfl
@[simp] theorem ctx_modQueue (p q : Nat) (f : LQueue → LQueue) (c2 k2 : Nat) : (s.modQueue p q f).ctx c2 k2 = s.ctx c2 k2 := rfl
@[simp] theorem core_modQueue (p q : Nat) (f : LQueue → LQueue) (c2 : Nat) : (s.modQueue p q f).core c2 = s.core c2 := rfl
@[simp] theorem die_modQueue (p q : Nat) (f : LQueue → LQueue) (d2 : Nat) : (s.modQueue p q f).die d2 = s.die d2 := rfl
@[simp] theorem hamper_modQueue (p q : Nat) (f : LQueue → LQueue) (h2 : Nat) : (s.modQueue p q f).hamper h2 = s.hamper h2 := rfl
@[simp] theorem part_modQueue (p q : Nat) (f : LQueue → LQueue) (p2 : Nat) : (s.modQueue p q f).part p2 = s.part p2 := rfl
@[simp] theorem key_modQueue (p q : Nat) (f : LQueue → LQueue) (k2 : Nat) : (s.modQueue p q f).key k2 = s.key k2 := rfl

@[simp] theorem ctx_setReg (d : Nat) (v : Word) (b : Bool) (c2 k2 : Nat) : (s.setReg d v b).ctx c2 k2 = s.ctx c2 k2 := rfl
@[simp] theorem core_setReg (d : Nat) (v : Word) (b : Bool) (c2 : Nat) : (s.setReg d v b).core c2 = s.core c2 := rfl
@[simp] theorem die_setReg (d : Nat) (v : Word) (b : Bool) (d2 : Nat) : (s.setReg d v b).die d2 = s.die d2 := rfl
@[simp] theorem hamper_setReg (d : Nat) (v : Word) (b : Bool) (h2 : Nat) : (s.setReg d v b).hamper h2 = s.hamper h2 := rfl
@[simp] theorem part_setReg (d : Nat) (v : Word) (b : Bool) (p2 : Nat) : (s.setReg d v b).part p2 = s.part p2 := rfl
@[simp] theorem queue_setReg (d : Nat) (v : Word) (b : Bool) (p2 q2 : Nat) : (s.setReg d v b).queue p2 q2 = s.queue p2 q2 := rfl
@[simp] theorem key_setReg (d : Nat) (v : Word) (b : Bool) (k2 : Nat) : (s.setReg d v b).key k2 = s.key k2 := rfl

@[simp] theorem party_post (d : Nat) (r : Record) (r2 : PartyId) : (s.post d r).party r2 = s.party r2 := rfl
@[simp] theorem ctx_post (d : Nat) (r : Record) (c2 k2 : Nat) : (s.post d r).ctx c2 k2 = s.ctx c2 k2 := rfl
@[simp] theorem core_post (d : Nat) (r : Record) (c2 : Nat) : (s.post d r).core c2 = s.core c2 := rfl
@[simp] theorem hamper_post (d : Nat) (r : Record) (h2 : Nat) : (s.post d r).hamper h2 = s.hamper h2 := rfl
@[simp] theorem part_post (d : Nat) (r : Record) (p2 : Nat) : (s.post d r).part p2 = s.part p2 := rfl
@[simp] theorem queue_post (d : Nat) (r : Record) (p2 q2 : Nat) : (s.post d r).queue p2 q2 = s.queue p2 q2 := rfl
@[simp] theorem key_post (d : Nat) (r : Record) (k2 : Nat) : (s.post d r).key k2 = s.key k2 := rfl

@[simp] theorem last_setLast (e : Ending) : (s.setLast e).last = e := rfl
@[simp] theorem cur_setCur (p : PartyId) : (s.setCur p).cur = p := rfl
@[simp] theorem me_setLast (e : Ending) : (s.setLast e).me = s.me := rfl
@[simp] theorem myCtx_setLast (e : Ending) : (s.setLast e).myCtx = s.myCtx := rfl
@[simp] theorem reg_setLast (e : Ending) (r : Nat) : (s.setLast e).reg r = s.reg r := rfl
@[simp] theorem tainted_setLast (e : Ending) (r : Nat) : (s.setLast e).tainted r = s.tainted r := rfl
@[simp] theorem inLock_setLast (e : Ending) : (s.setLast e).inLock = s.inLock := rfl
@[simp] theorem inLock_setMe (y : PartyState) : (s.setMe y).inLock = s.inLock := rfl
@[simp] theorem inLock_modMe (f : PartyState → PartyState) : (s.modMe f).inLock = s.inLock := rfl
@[simp] theorem inLock_setReg (d : Nat) (v : Word) (b : Bool) : (s.setReg d v b).inLock = s.inLock := rfl
@[simp] theorem myCtx_modMe (f : PartyState → PartyState) : (s.modMe f).myCtx = s.myCtx := rfl
@[simp] theorem myCtx_setReg (d : Nat) (v : Word) (b : Bool) : (s.setReg d v b).myCtx = s.myCtx := rfl

/-! ## What an update writes -/

theorem partyKey_inj {p q : PartyId} (hp : p.slot < 2) (hq : q.slot < 2) (h : partyKey p = partyKey q) : p = q := by
  obtain ⟨c, k, u⟩ := p
  obtain ⟨c', k', w⟩ := q
  simp only [partyKey] at h hp hq
  have hx : u.num < 10 := by cases u <;> decide
  have hy : w.num < 10 := by cases w <;> decide
  have h1 : u.num = w.num := by omega
  have h2 : c = c' := by omega
  have h3 : k = k' := by omega
  subst h2; subst h3
  congr 1
  cases u <;> cases w <;> simp_all [Party.num]

@[simp] theorem party_setParty_same (p : PartyId) (x : PartyState) : (s.setParty p x).party p = x := by
  simp [party, setParty]

theorem party_setParty_other (p q : PartyId) (x : PartyState) (h : partyKey q ≠ partyKey p) :
    (s.setParty p x).party q = s.party q := by simp [party, setParty, look_put, h]

@[simp] theorem party_modParty_same (p : PartyId) (f : PartyState → PartyState) :
    (s.modParty p f).party p = f (s.party p) := by simp [modParty]

theorem party_modParty_other (p q : PartyId) (f : PartyState → PartyState) (h : partyKey q ≠ partyKey p) :
    (s.modParty p f).party q = s.party q := party_setParty_other s p q _ h

@[simp] theorem me_setMe (x : PartyState) : (s.setMe x).me = x := by simp [me, setMe, party, setParty]

@[simp] theorem me_modMe (f : PartyState → PartyState) : (s.modMe f).me = f s.me := by simp [modMe]

@[simp] theorem reg_setReg_same (d : Nat) (v : Word) (b : Bool) : (s.setReg d v b).reg d = v := by
  simp [reg, setReg]

theorem reg_setReg_other (d e : Nat) (v : Word) (b : Bool) (h : e ≠ d) : (s.setReg d v b).reg e = s.reg e := by
  simp [reg, setReg, look_put, h]

@[simp] theorem ctx_setCtx_same (c k : Nat) (x : Ctx) : (s.setCtx c k x).ctx c k = x := by simp [ctx, setCtx]

theorem ctx_setCtx_other (c k c2 k2 : Nat) (x : Ctx) (h : c2 * 2 + k2 ≠ c * 2 + k) :
    (s.setCtx c k x).ctx c2 k2 = s.ctx c2 k2 := by simp [ctx, setCtx, look_put, h]

@[simp] theorem ctx_modCtx_same (c k : Nat) (f : Ctx → Ctx) : (s.modCtx c k f).ctx c k = f (s.ctx c k) := by simp [modCtx]

@[simp] theorem myCtx_modMyCtx (f : Ctx → Ctx) : (s.modMyCtx f).myCtx = f s.myCtx := by
  simp [myCtx, modMyCtx, modCtx, ctx, setCtx]

@[simp] theorem core_setCore_same (c : Nat) (x : CoreState) : (s.setCore c x).core c = x := by simp [core, setCore]

theorem core_setCore_other (c d : Nat) (x : CoreState) (h : d ≠ c) : (s.setCore c x).core d = s.core d := by
  simp [core, setCore, look_put, h]

@[simp] theorem core_modCore_same (c : Nat) (f : CoreState → CoreState) : (s.modCore c f).core c = f (s.core c) := by
  simp [modCore]

theorem core_modCore_other (c d : Nat) (f : CoreState → CoreState) (h : d ≠ c) : (s.modCore c f).core d = s.core d :=
  core_setCore_other s c d _ h

@[simp] theorem die_setDie_same (d : Nat) (x : DieState) : (s.setDie d x).die d = x := by simp [die, setDie]

theorem die_setDie_other (d e : Nat) (x : DieState) (h : e ≠ d) : (s.setDie d x).die e = s.die e := by
  simp [die, setDie, look_put, h]

@[simp] theorem die_modDie_same (d : Nat) (f : DieState → DieState) : (s.modDie d f).die d = f (s.die d) := by simp [modDie]

@[simp] theorem hamper_setHamper_same (h : Nat) (x : HamperState) : (s.setHamper h x).hamper h = x := by
  simp [hamper, setHamper]

@[simp] theorem hamper_modHamper_same (h : Nat) (f : HamperState → HamperState) :
    (s.modHamper h f).hamper h = f (s.hamper h) := by simp [modHamper]

@[simp] theorem part_setPart_same (p : Nat) (x : Partition) : (s.setPart p x).part p = x := by simp [part, setPart]

theorem part_setPart_other (p q : Nat) (x : Partition) (h : q ≠ p) : (s.setPart p x).part q = s.part q := by
  simp [part, setPart, look_put, h]

@[simp] theorem part_modPart_same (p : Nat) (f : Partition → Partition) : (s.modPart p f).part p = f (s.part p) := by
  simp [modPart]

theorem part_modPart_other (p q : Nat) (f : Partition → Partition) (h : q ≠ p) : (s.modPart p f).part q = s.part q :=
  part_setPart_other s p q _ h

@[simp] theorem queue_setQueue_same (p q : Nat) (x : LQueue) : (s.setQueue p q x).queue p q = x := by
  simp [queue, setQueue]

@[simp] theorem queue_modQueue_same (p q : Nat) (f : LQueue → LQueue) : (s.modQueue p q f).queue p q = f (s.queue p q) := by
  simp [modQueue]

@[simp] theorem key_setKey_same (k : Nat) (x : KeySlot) : (s.setKey k x).key k = x := by simp [key, setKey]

end Sys2Proof.Machine.State
end

