-- ==== Sys2Proof/Laws/Ops.lean ====
section
/-! SUPPORT. What the shared operations of `Ops` can do, once for each: which parts of the state they leave alone, and the
outcome of `control`, `tokened` and `supervised` once their checks pass. -/

namespace Sys2Proof.Machine

/-! ## Memory -/

@[simp] theorem mem_setHeld (s : State) (b : Bool) (ps : List PartyId) : (setHeld s b ps).mem = s.mem := by
  induction ps generalizing s with
  | nil => rfl
  | cons p ps ih => simp [setHeld, ih]

@[simp] theorem mem_takeTrap (s : State) (p : PartyId) (c : Nat) (v : Word) : (takeTrap s p c v).mem = s.mem := by
  simp only [takeTrap]; split <;> simp

@[simp] theorem mem_orderPoint (s : State) (p : PartyId) : (orderPoint s p).mem = s.mem := rfl

@[simp] theorem mem_settle (s : State) (p : PartyId) : (settle s p).mem = s.mem := by
  grind [settle, State.mem_modParty]

@[simp] theorem cur_settle (s : State) (p : PartyId) : (settle s p).cur = s.cur := by grind [settle, State.cur_modParty]

@[simp] theorem last_settle (s : State) (p : PartyId) : (settle s p).last = s.last := by grind [settle, State.last_modParty]

/-- What settling changes of the executing party: how its accesses are ordered. -/
theorem me_settle (s : State) : ∃ v, (settle s s.cur).me = { s.me with view := v } := by
  simp only [settle]; split
  · exact ⟨_, rfl⟩
  · exact ⟨_, State.party_modParty_same s s.cur _⟩

@[simp] theorem mem_fenceLate (s : State) (p : PartyId) : (fenceLate s p).mem = s.mem := by
  grind [fenceLate, State.mem_modParty]

@[simp] theorem mem_popToken (s : State) (k : B2) : (popToken s k).mem = s.mem := by
  grind [popToken, mem_orderPoint, State.mem_modMe]

@[simp] theorem mem_pushToken (s : State) (k : B2) : (pushToken s k).mem = s.mem := by
  grind [pushToken, mem_fenceLate, State.mem_modParty]

@[simp] theorem mem_advance (s : State) (n : Nat) : (advance s n).mem = s.mem := by grind [advance, State.mem_setMe]

@[simp] theorem mem_retire (s : State) (k : B2) (n : Nat) : (retire s k n).mem = s.mem := by
  grind [retire, State.mem_modMe, State.mem_setLast, mem_settle, mem_pushToken, mem_advance]

@[simp] theorem mem_markDying (s : State) (c k z : Nat) (v : Word) : (markDying s c k z v).mem = s.mem := rfl

@[simp] theorem mem_consume (s : State) (c k : Nat) : (consume s c k).mem = s.mem := by
  grind [consume, State.mem_modCtx, mem_markDying]

@[simp] theorem mem_post (s : State) (d : Nat) (r : Record) : (s.post d r).mem = s.mem := rfl

@[simp] theorem mem_syncWings (s : State) (c k : Nat) : (syncWings s c k).mem = s.mem := rfl

@[simp] theorem mem_returnTo (s : State) (p : PartyId) (v : Word) (a n : Nat) : (returnTo s p v a n).mem = s.mem := by
  grind [returnTo, mem_setHeld, mem_syncWings, mem_advance, State.mem_modParty, State.mem_setCur]

@[simp] theorem mem_finishPush (s : State) : (finishPush s).mem = s.mem := by
  grind [finishPush, State.mem_modMe, mem_retire]

/-! ## Wait tokens -/

/-- A command that starts changes its party's counts and its mark alone (R34). -/
theorem startPop_spec (x : PartyState) (k : B2) :
    startPop x k = { x with tkc := (startPop x k).tkc, popped := (startPop x k).popped } ∧ (startPop x k).popped = (if k = 0 then x.popped else k) := by
  unfold startPop setTokens; split <;> rename_i h <;> refine ⟨rfl, ?_⟩
  · rcases h with h | h <;> simp [h]
  · exact (if_neg fun hk => h (Or.inl hk)).symm

/-- A token that is given back changes its party's counts and its mark alone (R49). -/
theorem giveBack_spec (x : PartyState) :
    giveBack x = { x with tkc := (giveBack x).tkc, popped := (giveBack x).popped } := by
  unfold giveBack setTokens; split <;> rfl

/-! ## No token -/

@[simp] theorem popToken_zero (s : State) : popToken s 0 = s := rfl

@[simp] theorem pushToken_zero (s : State) : pushToken s 0 = s := rfl

@[simp] theorem pushFull_zero (s : State) : pushFull s 0 = false := rfl

/-- A word without a signal token retires at once. -/
theorem retire_zero (s : State) (n : Nat) :
    retire s 0 n =
      (let t := (settle (s.modMe (fun x => { x with wait := .no, busy := none })) s.cur).setLast .retired
       if n = 0 then t else advance t n) := rfl

/-! ## The outcome of an instruction -/

@[simp] theorem signalWaits_zero (s : State) : signalWaits s 0 = false := by
  cases h : s.me.busy.isNone <;> simp only [signalWaits, h] <;> rfl

theorem signalWaits_ready {s : State} {k : Kind} {w g : B2} (h : Ready s k w g) : signalWaits s g = false := by
  by_cases hg : g = 0
  · subst hg; exact signalWaits_zero s
  · simp [signalWaits, h.2.2.2.2.1, h.2.2.2.2.2 hg]

/-- A word that does not wait for its signal token retires. -/
theorem conclude_done {s : State} {g : B2} (h : signalWaits s g = false) (t : State) (w : B2) (n : Nat) :
    conclude s w g (.done t n) = .next (retire (popToken t w) g n) := by simp [conclude, h]

@[simp] theorem conclude_done_zero (s t : State) (w : B2) (n : Nat) :
    conclude s w 0 (.done t n) = .next (retire (popToken t w) 0 n) := conclude_done (signalWaits_zero s) t w n

/-- A word that waits for its signal token has no effect (R36, R273). -/
theorem conclude_full {s : State} {g : B2} (h : signalWaits s g = true) (t : State) (w : B2) (n : Nat) :
    conclude s w g (.done t n) = .next (s.setLast .waiting) := by simp [conclude, h]

@[simp] theorem conclude_trap (s : State) (w g : B2) (c : Nat) (v : Word) :
    conclude s w g (.trap c v) = .next (takeTrap s s.cur c v) := rfl

@[simp] theorem conclude_wait (s t : State) (w g : B2) : conclude s w g (.wait t) = .next (t.setLast .waiting) := rfl

@[simp] theorem conclude_moved (s t : State) (w g : B2) : conclude s w g (.moved t) = .next (t.setLast .transferred) :=
  rfl

@[simp] theorem conclude_issued (s t : State) (w g : B2) (c : Cmd) :
    conclude s w g (.issued t c) =
      .next (((orderPoint t t.cur).modMe (fun x => { startPop x w with busy := some (c, w, g) })).setLast .waiting) := rfl

@[simp] theorem conclude_raw (s t : State) (w g : B2) : conclude s w g (.raw t) = .next t := rfl

@[simp] theorem conclude_ends (s t : State) (w g : B2) (c : Nat) (v : Word) :
    conclude s w g (.ends t c v) = .next ((markDying t t.cur.core t.cur.slot c v).setLast .waiting) := rfl

@[simp] theorem conclude_lost (s t : State) (w g : B2) :
    conclude s w g (.lost t) = .next ((consume t t.cur.core t.cur.slot).setLast .waiting) := rfl

/-- A jump to `o` without tokens. -/
theorem conclude_jump (s t : State) (o : Nat) :
    conclude s 0 0 (.jump t o) =
      .next ((settle ((t.modMe (fun x => goTo x o)).modMe (fun x => { x with wait := .no, busy := none })) t.cur).setLast .transferred) := by
  simp only [conclude, signalWaits_zero]; rfl

/-- What a jump leaves: the party at the target, its registers and memory as the act has them. -/
theorem jump_spec (s u : State) (o : Nat) :
    ∃ t, conclude s 0 0 (.jump u o) = .next t ∧ t.last = .transferred ∧ t.me.pc = word o ∧ t.me.regs = u.me.regs ∧
      t.me.order = (goTo u.me o).order ∧ t.mem = u.mem :=
  by
  obtain ⟨v, hv⟩ := me_settle ((u.modMe (fun x => goTo x o)).modMe (fun x => { x with wait := .no, busy := none }))
  refine ⟨_, conclude_jump s u o, by simp, ?_, ?_, ?_, by simp⟩ <;>
    simp only [State.cur_modMe] at hv <;> simp only [State.me_setLast, hv] <;> simp [goTo]

/-- An instruction of the control subset concludes with its body's act. -/
theorem control_eq (s : State) (f : State → Act) : control s f = conclude s 0 0 (f s) := rfl

/-- A private-half word that is ready concludes with its body's act. -/
theorem tokened_ready {s : State} {k : Kind} {w g : B2} (h : Ready s k w g) (f : State → Act) :
    tokened s k w g f = conclude s w g (f s) := by
  obtain ⟨h1, h2, h3, h4, -, -⟩ := h
  simp only [tokened, h1, h2, h3, h4, ne_eq, not_true_eq_false, if_false, Bool.and_self, Bool.not_true, Bool.false_eq_true]

theorem map_wing {p : Party} : p.map = .wing ↔ p.isWing = true := by cases p <;> decide

/-- A ready word of supervisor code concludes with its body's act. -/
theorem supervised_ready {s : State} {w g : B2} (h : Ready s .wing w g) (hs : s.supervisor = true) (f : State → Act) :
    supervised s w g f = conclude s w g (f s) := by
  simp [supervised, hs, h.1, tokened_ready h]

/-- A party of another kind finds a private-half word illegal (R46). -/
theorem tokened_other {s : State} {k : Kind} (w g : B2) (h : s.cur.party.map ≠ k) (f : State → Act) :
    tokened s k w g f = .next (takeTrap s s.cur causeIllegal s.curWord) := by
  simp [tokened, h]

theorem regOk_wing {s : State} (r : B6) (h : s.cur.party.isWing = true) : regOk s r = true := by simp [regOk, h]

theorem regOk_of {s : State} {rs : List B6} (h : namesRegs s rs) {r : B6} (hr : r ∈ rs) : regOk s r = true := by
  rcases h with h | h
  · exact regOk_wing r h
  · simp [regOk, h r hr]

/-- What a register-register word does (R108). -/
theorem control_arith2 {s : State} {d a b : B6} (h : namesRegs s [d, a, b]) (f : Word → Word → Word) :
    control s (fun s => arith2 s d a b f) =
      .next (retire (s.setReg d.toNat (f (s.reg a.toNat) (s.reg b.toNat)) (s.tainted a.toNat || s.tainted b.toNat)) 0 1) := by
  simp only [control_eq, arith2, regOk_of h, List.mem_cons, true_or, or_true, Bool.and_self, if_true]; exact conclude_done_zero _ _ _ _

/-- What a word with one source does (R110). -/
theorem control_arith1 {s : State} {d a : B6} (h : namesRegs s [d, a]) (f : Word → Word) :
    control s (fun s => arith1 s d a f) = .next (retire (s.setReg d.toNat (f (s.reg a.toNat)) (s.tainted a.toNat)) 0 1) := by
  simp only [control_eq, arith1, regOk_of h, List.mem_cons, true_or, or_true, Bool.and_self, if_true]; exact conclude_done_zero _ _ _ _

/-- What a word without a source does (R111, R112). -/
theorem control_arith0 {s : State} {d : B6} (h : namesRegs s [d]) (v : Word) :
    control s (fun s => arith0 s d v) = .next (retire (s.setReg d.toNat v false) 0 1) := by
  simp only [control_eq, arith0, regOk_of h, List.mem_cons, true_or, if_true]; exact conclude_done_zero _ _ _ _

/-! ## What retiring leaves alone -/

@[simp] theorem cur_advance (s : State) (n : Nat) : (advance s n).cur = s.cur := by grind [advance, State.cur_setMe]

@[simp] theorem cur_fenceLate (s : State) (p : PartyId) : (fenceLate s p).cur = s.cur := by
  grind [fenceLate, State.cur_modParty]

@[simp] theorem cur_pushToken (s : State) (k : B2) : (pushToken s k).cur = s.cur := by
  grind [pushToken, cur_fenceLate, State.cur_modParty]

@[simp] theorem cur_retire (s : State) (g : B2) (n : Nat) : (retire s g n).cur = s.cur := by
  grind [retire, State.cur_modMe, State.cur_setLast, cur_settle, cur_pushToken, cur_advance]

@[simp] theorem regs_goTo (x : PartyState) (t : Nat) : (goTo x t).regs = x.regs := rfl

@[simp] theorem regs_passWord (x : PartyState) (e k : Nat) : (passWord x e k).regs = x.regs := rfl

theorem regs_advance (s : State) (n : Nat) : (advance s n).me.regs = s.me.regs := by
  grind [advance, State.me_setMe, regs_passWord]

/-- Registers of the executing party after a word that retires without a signal token. -/
theorem regs_retire_zero (s : State) (n : Nat) : (retire s 0 n).me.regs = s.me.regs := by
  obtain ⟨v, hv⟩ := me_settle (s.modMe (fun x => { x with wait := .no, busy := none }))
  rw [State.cur_modMe] at hv
  rw [retire_zero]
  grind [State.me_modMe, State.me_setLast, regs_advance]

@[simp] theorem last_advance (s : State) (n : Nat) : (advance s n).last = s.last := by grind [advance, State.last_setMe]

/-- A word without a signal token retires in its turn. -/
@[simp] theorem last_retire_zero (s : State) (n : Nat) : (retire s 0 n).last = .retired := by
  rw [retire_zero]
  grind [last_advance, State.last_setLast]

/-! ## Marks of order and of waiting -/

/-- All that `madeBy` can change: the view of its party. -/
theorem madeBy_spec (s : State) (who : PartyId) (gs : List Nat) :
    madeBy s who gs = s ∨ ∃ v, madeBy s who gs = s.modParty who (fun x => { x with view := v }) := by
  unfold madeBy
  split
  · exact .inl rfl
  · exact .inr ⟨_, rfl⟩

/-- A write to a location without older values changes nothing but the executing party's view. -/
theorem wrote_spec (s : State) : wrote s = s ∨ ∃ v, wrote s = s.modParty s.cur (fun x => { x with view := v }) :=
  madeBy_spec s s.cur []

/-- All that the reading of a life word can change: what the executing party's die knows. -/
theorem readLife_spec (s : State) (h : Word) : readLife s h = s ∨ ∃ c, readLife s h = learn s (myDie s) c := by
  unfold readLife
  split
  · split
    · exact .inl rfl
    · exact .inr ⟨_, rfl⟩
  · exact .inl rfl

theorem readWeak_spec (s : State) (c : Copy) : readWeak s c = s ∨ ∃ k, readWeak s c = learn s (myDie s) k := by
  unfold readWeak
  split
  · split
    · exact readLife_spec s _
    · exact .inl rfl
  · exact .inl rfl

@[simp] theorem mem_handedBack (s : State) (t : Task) : (handedBack s t).mem = s.mem := rfl
@[simp] theorem ctxs_handedBack (s : State) (t : Task) : (handedBack s t).ctxs = s.ctxs := rfl
@[simp] theorem mem_markStale (s : State) (d p n : Nat) : (markStale s d p n).mem = s.mem := rfl
@[simp] theorem parties_markStale (s : State) (d p n : Nat) : (markStale s d p n).parties = s.parties := rfl

/-- All that the mark of a forwarded load changes: the executing party's view. -/
theorem noteRead_spec (s : State) (a n : Nat) :
    noteRead s a n = s ∨ ∃ v : List LateStore → List LateStore, noteRead s a n = s.modMe (fun x => { x with view := { x.view with late := v x.view.late } }) := by
  unfold noteRead
  split
  · exact .inr ⟨_, rfl⟩
  · exact .inl rfl

/-- Where the party has no store left to perform, a write waits for what is owed to its home alone. -/
theorem writeWaits_present {s : State} (h : s.me.view.late = []) (home : Nat) (a r : Bool) :
    writeWaits s home a r = mustWait s home a r := by
  simp [writeWaits, readLate, h]

/-- All that stamping a row changes: the clocks that granules keep. -/
theorem stampRow_spec (s : State) (c : Sparse Nat) (r : Nat) (rs : List (Nat × Nat)) :
    ∃ m, stampRow s c r rs = { s with stamps := m } := by
  unfold stampRow
  induction rs generalizing s with
  | nil => exact ⟨_, rfl⟩
  | cons e rs ih =>
    have h : ∃ m, stampRange s {} c (rowPhys r e.1) e.2 = { s with stamps := m } := by
      unfold stampRange
      split
      · exact ⟨_, rfl⟩
      · exact ⟨_, rfl⟩
    obtain ⟨m, hm⟩ := h
    obtain ⟨k, hk⟩ := ih { s with stamps := m }
    exact ⟨k, by rw [List.foldl_cons, hm, hk]⟩

@[simp] theorem mem_stampRow (s : State) (c : Sparse Nat) (r : Nat) (rs : List (Nat × Nat)) : (stampRow s c r rs).mem = s.mem := by
  obtain ⟨m, h⟩ := stampRow_spec s c r rs
  rw [h]

@[simp] theorem mem_signRow (s : State) (r : Nat) (rs : List (Nat × Nat)) : (signRow s r rs).mem = s.mem := by
  unfold signRow
  rcases wrote_spec (stampRow (tickClock s (dieOf s.cur.core)) (clockOf (tickClock s (dieOf s.cur.core)) (dieOf s.cur.core)) r rs)
    with h | ⟨v, h⟩
  · rw [h, mem_stampRow]; rfl
  · rw [h, State.mem_modParty, mem_stampRow]; rfl

/-- All that the correction of words changes: their flipped bits and the count of a die. -/
theorem checkWords_spec (s t : State) (die : Nat) (as : List Nat) (h : checkWords s die as = some t) :
    ∃ fs ds, t = { s with flips := fs, dies := ds } := by
  induction as generalizing s with
  | nil => cases h; exact ⟨_, _, rfl⟩
  | cons a as ih =>
    unfold checkWords at h
    dsimp only at h
    split at h
    · exact ih s h
    · split at h
      · obtain ⟨fs, ds, ht⟩ := ih _ h
        exact ⟨fs, ds, ht⟩
      · cases h

/-- The senders that an instruction has agreed with are marked, and nothing else is. -/
theorem keepSenders_spec (s : State) (ms : List Msg) : ∃ ps, keepSenders s ms = { s with parties := ps } := by
  unfold keepSenders
  induction ms generalizing s with
  | nil => exact ⟨_, rfl⟩
  | cons m ms ih =>
    rw [List.foldl_cons]
    split
    · split
      · split
        · obtain ⟨ps, h⟩ := ih (s.modParty _ _)
          exact ⟨ps, by rw [h]; rfl⟩
        · exact ih s
      · exact ih s
    · exact ih s

/-- Reading parts of a Cocoon corrects flipped words and counts them: nothing else changes (R345, R350). -/
theorem framesChecked_spec (s t : State) (es : List (Nat × Nat)) (h : framesChecked s es = some t) :
    ∃ fs ds, t = { s with flips := fs, dies := ds } := by
  induction es generalizing s with
  | nil => cases h; exact ⟨_, _, rfl⟩
  | cons e es ih =>
    unfold framesChecked at h
    split at h
    · rename_i u hu
      obtain ⟨fs, ds, rfl⟩ := checkWords_spec _ _ _ _ hu
      obtain ⟨fs', ds', ht⟩ := ih _ h
      exact ⟨fs', ds', ht⟩
    · cases h

@[simp] theorem mem_markLost (s : State) (t : Task) : (markLost s t).mem = s.mem := rfl
@[simp] theorem parties_markLost (s : State) (t : Task) : (markLost s t).parties = s.parties := rfl
@[simp] theorem queues_markLost (s : State) (t : Task) : (markLost s t).queues = s.queues := rfl

end Sys2Proof.Machine
end

