-- ==== Sys2Proof/Laws/PerInstr.lean ====
section
/-! SUPPORT. One lemma per constructor of `Instr`: an instruction has a word exactly when some party may execute it. -/

namespace Sys2Proof.Laws.Encoded

open Sys2Proof

/-- An instruction has a word exactly when some kind of party may execute it: events have none (R45–R47, R251). -/
def Statement (i : Instr) : Prop := (∃ k, i.fits k = true) ↔ ∃ x, encode i = some x

theorem of_word {i : Instr} {x : IWord} {k : Kind} (h : encode i = some x) (hk : i.fits k = true) : Statement i :=
  ⟨fun _ => ⟨x, h⟩, fun _ => ⟨k, hk⟩⟩

theorem of_event {i : Instr} (h : encode i = none) (hk : ∀ k, i.fits k = false) : Statement i :=
  ⟨fun ⟨k, hf⟩ => absurd hf (by rw [hk k]; decide), fun ⟨x, hx⟩ => absurd hx (by rw [h]; simp)⟩

theorem add : ∀ x0 x1 x2, Statement (.add x0 x1 x2) := fun _ _ _ => of_word (k := .wing) rfl rfl

theorem sub : ∀ x0 x1 x2, Statement (.sub x0 x1 x2) := fun _ _ _ => of_word (k := .wing) rfl rfl

theorem and : ∀ x0 x1 x2, Statement (.and x0 x1 x2) := fun _ _ _ => of_word (k := .wing) rfl rfl

theorem or : ∀ x0 x1 x2, Statement (.or x0 x1 x2) := fun _ _ _ => of_word (k := .wing) rfl rfl

theorem xor : ∀ x0 x1 x2, Statement (.xor x0 x1 x2) := fun _ _ _ => of_word (k := .wing) rfl rfl

theorem shl : ∀ x0 x1 x2, Statement (.shl x0 x1 x2) := fun _ _ _ => of_word (k := .wing) rfl rfl

theorem shr : ∀ x0 x1 x2, Statement (.shr x0 x1 x2) := fun _ _ _ => of_word (k := .wing) rfl rfl

theorem sar : ∀ x0 x1 x2, Statement (.sar x0 x1 x2) := fun _ _ _ => of_word (k := .wing) rfl rfl

theorem mul : ∀ x0 x1 x2, Statement (.mul x0 x1 x2) := fun _ _ _ => of_word (k := .wing) rfl rfl

theorem mulh : ∀ x0 x1 x2, Statement (.mulh x0 x1 x2) := fun _ _ _ => of_word (k := .wing) rfl rfl

theorem mulhu : ∀ x0 x1 x2, Statement (.mulhu x0 x1 x2) := fun _ _ _ => of_word (k := .wing) rfl rfl

theorem div : ∀ x0 x1 x2, Statement (.div x0 x1 x2) := fun _ _ _ => of_word (k := .wing) rfl rfl

theorem divu : ∀ x0 x1 x2, Statement (.divu x0 x1 x2) := fun _ _ _ => of_word (k := .wing) rfl rfl

theorem rem : ∀ x0 x1 x2, Statement (.rem x0 x1 x2) := fun _ _ _ => of_word (k := .wing) rfl rfl

theorem remu : ∀ x0 x1 x2, Statement (.remu x0 x1 x2) := fun _ _ _ => of_word (k := .wing) rfl rfl

theorem min : ∀ x0 x1 x2, Statement (.min x0 x1 x2) := fun _ _ _ => of_word (k := .wing) rfl rfl

theorem max : ∀ x0 x1 x2, Statement (.max x0 x1 x2) := fun _ _ _ => of_word (k := .wing) rfl rfl

theorem minu : ∀ x0 x1 x2, Statement (.minu x0 x1 x2) := fun _ _ _ => of_word (k := .wing) rfl rfl

theorem maxu : ∀ x0 x1 x2, Statement (.maxu x0 x1 x2) := fun _ _ _ => of_word (k := .wing) rfl rfl

theorem slt : ∀ x0 x1 x2, Statement (.slt x0 x1 x2) := fun _ _ _ => of_word (k := .wing) rfl rfl

theorem sltu : ∀ x0 x1 x2, Statement (.sltu x0 x1 x2) := fun _ _ _ => of_word (k := .wing) rfl rfl

theorem clz : ∀ x0 x1, Statement (.clz x0 x1) := fun _ _ => of_word (k := .wing) rfl rfl

theorem popc : ∀ x0 x1, Statement (.popc x0 x1) := fun _ _ => of_word (k := .wing) rfl rfl

theorem addi : ∀ x0 x1 x2, Statement (.addi x0 x1 x2) := fun _ _ _ => of_word (k := .wing) rfl rfl

theorem andi : ∀ x0 x1 x2, Statement (.andi x0 x1 x2) := fun _ _ _ => of_word (k := .wing) rfl rfl

theorem ori : ∀ x0 x1 x2, Statement (.ori x0 x1 x2) := fun _ _ _ => of_word (k := .wing) rfl rfl

theorem xori : ∀ x0 x1 x2, Statement (.xori x0 x1 x2) := fun _ _ _ => of_word (k := .wing) rfl rfl

theorem slti : ∀ x0 x1 x2, Statement (.slti x0 x1 x2) := fun _ _ _ => of_word (k := .wing) rfl rfl

theorem sltiu : ∀ x0 x1 x2, Statement (.sltiu x0 x1 x2) := fun _ _ _ => of_word (k := .wing) rfl rfl

theorem shli : ∀ x0 x1 x2, Statement (.shli x0 x1 x2) := fun _ _ _ => of_word (k := .wing) rfl rfl

theorem shri : ∀ x0 x1 x2, Statement (.shri x0 x1 x2) := fun _ _ _ => of_word (k := .wing) rfl rfl

theorem sari : ∀ x0 x1 x2, Statement (.sari x0 x1 x2) := fun _ _ _ => of_word (k := .wing) rfl rfl

theorem lui : ∀ x0 x1, Statement (.lui x0 x1) := fun _ _ => of_word (k := .wing) rfl rfl

theorem addpc : ∀ x0 x1, Statement (.addpc x0 x1) := fun _ _ => of_word (k := .wing) rfl rfl

theorem agen : ∀ x0 x1 x2 x3, Statement (.agen x0 x1 x2 x3) := fun _ _ _ _ => of_word (k := .wing) rfl rfl

theorem beq : ∀ x0 x1 x2, Statement (.beq x0 x1 x2) := fun _ _ _ => of_word (k := .wing) rfl rfl

theorem bne : ∀ x0 x1 x2, Statement (.bne x0 x1 x2) := fun _ _ _ => of_word (k := .wing) rfl rfl

theorem blt : ∀ x0 x1 x2, Statement (.blt x0 x1 x2) := fun _ _ _ => of_word (k := .wing) rfl rfl

theorem bge : ∀ x0 x1 x2, Statement (.bge x0 x1 x2) := fun _ _ _ => of_word (k := .wing) rfl rfl

theorem bltu : ∀ x0 x1 x2, Statement (.bltu x0 x1 x2) := fun _ _ _ => of_word (k := .wing) rfl rfl

theorem bgeu : ∀ x0 x1 x2, Statement (.bgeu x0 x1 x2) := fun _ _ _ => of_word (k := .wing) rfl rfl

theorem jmp : ∀ x0, Statement (.jmp x0) := fun _ => of_word (k := .wing) rfl rfl

theorem jal : ∀ x0, Statement (.jal x0) := fun _ => of_word (k := .wing) rfl rfl

theorem jr : ∀ x0 x1, Statement (.jr x0 x1) := fun _ _ => of_word (k := .wing) rfl rfl

theorem loop : ∀ x0 x1 x2, Statement (.loop x0 x1 x2) := fun _ _ _ => of_word (k := .wing) rfl rfl

theorem loopi : ∀ x0 x1 x2, Statement (.loopi x0 x1 x2) := fun _ _ _ => of_word (k := .wing) rfl rfl

theorem rep : ∀ x0, Statement (.rep x0) := fun _ => of_word (k := .wing) rfl rfl

theorem lexit : ∀ x0, Statement (.lexit x0) := fun _ => of_word (k := .wing) rfl rfl

theorem mfs : ∀ x0 x1, Statement (.mfs x0 x1) := fun _ _ => of_word (k := .wing) rfl rfl

theorem mts : ∀ x0 x1, Statement (.mts x0 x1) := fun _ _ => of_word (k := .wing) rfl rfl

theorem tokw : ∀ x0, Statement (.tokw x0) := fun _ => of_word (k := .wing) rfl rfl

theorem toks : ∀ x0, Statement (.toks x0) := fun _ => of_word (k := .wing) rfl rfl

theorem nop : Statement .nop := of_word (k := .wing) rfl rfl

theorem endOp : Statement .endOp := of_word (k := .wing) rfl rfl

theorem trap : ∀ x0, Statement (.trap x0) := fun _ => of_word (k := .wing) rfl rfl

theorem waitev : ∀ x0 x1 x2, Statement (.waitev x0 x1 x2) := fun _ _ _ => of_word (k := .wing) rfl rfl

theorem ldb : ∀ x0 x1 x2 x3 x4, Statement (.ldb x0 x1 x2 x3 x4) := fun _ _ _ _ _ => of_word (k := .wing) rfl rfl

theorem ldh : ∀ x0 x1 x2 x3 x4, Statement (.ldh x0 x1 x2 x3 x4) := fun _ _ _ _ _ => of_word (k := .wing) rfl rfl

theorem ldw : ∀ x0 x1 x2 x3 x4, Statement (.ldw x0 x1 x2 x3 x4) := fun _ _ _ _ _ => of_word (k := .wing) rfl rfl

theorem ldd : ∀ x0 x1 x2 x3 x4, Statement (.ldd x0 x1 x2 x3 x4) := fun _ _ _ _ _ => of_word (k := .wing) rfl rfl

theorem ldbu : ∀ x0 x1 x2 x3 x4, Statement (.ldbu x0 x1 x2 x3 x4) := fun _ _ _ _ _ => of_word (k := .wing) rfl rfl

theorem ldhu : ∀ x0 x1 x2 x3 x4, Statement (.ldhu x0 x1 x2 x3 x4) := fun _ _ _ _ _ => of_word (k := .wing) rfl rfl

theorem ldwu : ∀ x0 x1 x2 x3 x4, Statement (.ldwu x0 x1 x2 x3 x4) := fun _ _ _ _ _ => of_word (k := .wing) rfl rfl

theorem lda : ∀ x0 x1 x2 x3 x4, Statement (.lda x0 x1 x2 x3 x4) := fun _ _ _ _ _ => of_word (k := .wing) rfl rfl

theorem ldc : ∀ x0 x1 x2 x3 x4, Statement (.ldc x0 x1 x2 x3 x4) := fun _ _ _ _ _ => of_word (k := .wing) rfl rfl

theorem stb : ∀ x0 x1 x2 x3 x4, Statement (.stb x0 x1 x2 x3 x4) := fun _ _ _ _ _ => of_word (k := .wing) rfl rfl

theorem sth : ∀ x0 x1 x2 x3 x4, Statement (.sth x0 x1 x2 x3 x4) := fun _ _ _ _ _ => of_word (k := .wing) rfl rfl

theorem stw : ∀ x0 x1 x2 x3 x4, Statement (.stw x0 x1 x2 x3 x4) := fun _ _ _ _ _ => of_word (k := .wing) rfl rfl

theorem std : ∀ x0 x1 x2 x3 x4, Statement (.std x0 x1 x2 x3 x4) := fun _ _ _ _ _ => of_word (k := .wing) rfl rfl

theorem stl : ∀ x0 x1 x2 x3 x4, Statement (.stl x0 x1 x2 x3 x4) := fun _ _ _ _ _ => of_word (k := .wing) rfl rfl

theorem amoAdd : ∀ x0 x1 x2 x3 x4 x5, Statement (.amoAdd x0 x1 x2 x3 x4 x5) := fun _ _ _ _ _ _ => of_word (k := .wing) rfl rfl

theorem amoAnd : ∀ x0 x1 x2 x3 x4 x5, Statement (.amoAnd x0 x1 x2 x3 x4 x5) := fun _ _ _ _ _ _ => of_word (k := .wing) rfl rfl

theorem amoOr : ∀ x0 x1 x2 x3 x4 x5, Statement (.amoOr x0 x1 x2 x3 x4 x5) := fun _ _ _ _ _ _ => of_word (k := .wing) rfl rfl

theorem amoXor : ∀ x0 x1 x2 x3 x4 x5, Statement (.amoXor x0 x1 x2 x3 x4 x5) := fun _ _ _ _ _ _ => of_word (k := .wing) rfl rfl

theorem amoMin : ∀ x0 x1 x2 x3 x4 x5, Statement (.amoMin x0 x1 x2 x3 x4 x5) := fun _ _ _ _ _ _ => of_word (k := .wing) rfl rfl

theorem amoMax : ∀ x0 x1 x2 x3 x4 x5, Statement (.amoMax x0 x1 x2 x3 x4 x5) := fun _ _ _ _ _ _ => of_word (k := .wing) rfl rfl

theorem amoSwap : ∀ x0 x1 x2 x3 x4 x5, Statement (.amoSwap x0 x1 x2 x3 x4 x5) := fun _ _ _ _ _ _ => of_word (k := .wing) rfl rfl

theorem cas : ∀ x0 x1 x2 x3 x4 x5, Statement (.cas x0 x1 x2 x3 x4 x5) := fun _ _ _ _ _ _ => of_word (k := .wing) rfl rfl

theorem fence : ∀ x0 x1 x2 x3, Statement (.fence x0 x1 x2 x3) := fun _ _ _ _ => of_word (k := .wing) rfl rfl

theorem qfence : ∀ x0 x1 x2, Statement (.qfence x0 x1 x2) := fun _ _ _ => of_word (k := .wing) rfl rfl

theorem mwait : ∀ x0 x1 x2 x3 x4, Statement (.mwait x0 x1 x2 x3 x4) := fun _ _ _ _ _ => of_word (k := .wing) rfl rfl

theorem mwaitWake : ∀ x0, Statement (.mwaitWake x0) := fun _ => of_event rfl (fun k => by cases k <;> rfl)

theorem enq : ∀ x0 x1 x2 x3 x4 x5, Statement (.enq x0 x1 x2 x3 x4 x5) := fun _ _ _ _ _ _ => of_word (k := .wing) rfl rfl

theorem mark : ∀ x0 x1 x2 x3, Statement (.mark x0 x1 x2 x3) := fun _ _ _ _ => of_word (k := .wing) rfl rfl

theorem rdv : ∀ x0 x1 x2, Statement (.rdv x0 x1 x2) := fun _ _ _ => of_word (k := .wing) rfl rfl

theorem notify : ∀ x0 x1 x2, Statement (.notify x0 x1 x2) := fun _ _ _ => of_word (k := .wing) rfl rfl

theorem join : ∀ x0 x1 x2, Statement (.join x0 x1 x2) := fun _ _ _ => of_word (k := .wing) rfl rfl

theorem leave : ∀ x0 x1 x2, Statement (.leave x0 x1 x2) := fun _ _ _ => of_word (k := .wing) rfl rfl

theorem bar : ∀ x0 x1 x2, Statement (.bar x0 x1 x2) := fun _ _ _ => of_word (k := .wing) rfl rfl

theorem wlock : ∀ x0 x1, Statement (.wlock x0 x1) := fun _ _ => of_word (k := .wing) rfl rfl

theorem wfree : ∀ x0 x1, Statement (.wfree x0 x1) := fun _ _ => of_word (k := .wing) rfl rfl

theorem sstep : ∀ x0 x1 x2, Statement (.sstep x0 x1 x2) := fun _ _ _ => of_word (k := .wing) rfl rfl

theorem superstepAdvance : ∀ x0 x1, Statement (.superstepAdvance x0 x1) := fun _ _ => of_event rfl (fun k => by cases k <;> rfl)

theorem probe : ∀ x0 x1 x2 x3, Statement (.probe x0 x1 x2 x3) := fun _ _ _ _ => of_word (k := .wing) rfl rfl

theorem unpin : ∀ x0 x1 x2 x3, Statement (.unpin x0 x1 x2 x3) := fun _ _ _ _ => of_word (k := .wing) rfl rfl

theorem phswap : ∀ x0 x1 x2, Statement (.phswap x0 x1 x2) := fun _ _ _ => of_word (k := .wing) rfl rfl

theorem eret : ∀ x0 x1 x2 x3, Statement (.eret x0 x1 x2 x3) := fun _ _ _ _ => of_word (k := .wing) rfl rfl

theorem ctxsv : ∀ x0 x1 x2 x3, Statement (.ctxsv x0 x1 x2 x3) := fun _ _ _ _ => of_word (k := .wing) rfl rfl

theorem ctxld : ∀ x0 x1 x2 x3 x4, Statement (.ctxld x0 x1 x2 x3 x4) := fun _ _ _ _ _ => of_word (k := .wing) rfl rfl

theorem pgate : ∀ x0 x1 x2, Statement (.pgate x0 x1 x2) := fun _ _ _ => of_word (k := .wing) rfl rfl

theorem clkdiv : ∀ x0 x1 x2 x3 x4, Statement (.clkdiv x0 x1 x2 x3 x4) := fun _ _ _ _ _ => of_word (k := .wing) rfl rfl

theorem swpt : ∀ x0 x1, Statement (.swpt x0 x1) := fun _ _ => of_word (k := .wing) rfl rfl

theorem boost : ∀ x0 x1 x2 x3, Statement (.boost x0 x1 x2 x3) := fun _ _ _ _ => of_word (k := .wing) rfl rfl

theorem seqclm : ∀ x0 x1 x2 x3 x4, Statement (.seqclm x0 x1 x2 x3 x4) := fun _ _ _ _ _ => of_word (k := .wing) rfl rfl

theorem seqadv : ∀ x0 x1 x2 x3 x4, Statement (.seqadv x0 x1 x2 x3 x4) := fun _ _ _ _ _ => of_word (k := .wing) rfl rfl

theorem sxqry : ∀ x0 x1 x2 x3 x4, Statement (.sxqry x0 x1 x2 x3 x4) := fun _ _ _ _ _ => of_word (k := .wing) rfl rfl

theorem hnew : ∀ x0 x1 x2 x3 x4, Statement (.hnew x0 x1 x2 x3 x4) := fun _ _ _ _ _ => of_word (k := .wing) rfl rfl

theorem hfree : ∀ x0 x1 x2 x3, Statement (.hfree x0 x1 x2 x3) := fun _ _ _ _ => of_word (k := .wing) rfl rfl

theorem hldw : ∀ x0 x1 x2 x3 x4, Statement (.hldw x0 x1 x2 x3 x4) := fun _ _ _ _ _ => of_word (k := .wing) rfl rfl

theorem bgone : ∀ x0 x1 x2, Statement (.bgone x0 x1 x2) := fun _ _ _ => of_word (k := .wing) rfl rfl

theorem hupg : ∀ x0 x1 x2 x3, Statement (.hupg x0 x1 x2 x3) := fun _ _ _ _ => of_word (k := .wing) rfl rfl

theorem hdng : ∀ x0 x1 x2 x3, Statement (.hdng x0 x1 x2 x3) := fun _ _ _ _ => of_word (k := .wing) rfl rfl

theorem hpri : ∀ x0 x1 x2 x3 x4, Statement (.hpri x0 x1 x2 x3 x4) := fun _ _ _ _ _ => of_word (k := .wing) rfl rfl

theorem winopen : ∀ x0 x1 x2 x3, Statement (.winopen x0 x1 x2 x3) := fun _ _ _ _ => of_word (k := .wing) rfl rfl

theorem winpub : ∀ x0 x1 x2 x3 x4, Statement (.winpub x0 x1 x2 x3 x4) := fun _ _ _ _ _ => of_word (k := .wing) rfl rfl

theorem winacq : ∀ x0 x1 x2 x3, Statement (.winacq x0 x1 x2 x3) := fun _ _ _ _ => of_word (k := .wing) rfl rfl

theorem winclose : ∀ x0 x1 x2, Statement (.winclose x0 x1 x2) := fun _ _ _ => of_word (k := .wing) rfl rfl

theorem sxapp : ∀ x0 x1 x2 x3 x4, Statement (.sxapp x0 x1 x2 x3 x4) := fun _ _ _ _ _ => of_word (k := .wing) rfl rfl

theorem sxsav : ∀ x0 x1 x2 x3 x4, Statement (.sxsav x0 x1 x2 x3 x4) := fun _ _ _ _ _ => of_word (k := .wing) rfl rfl

theorem sxld : ∀ x0 x1 x2 x3 x4, Statement (.sxld x0 x1 x2 x3 x4) := fun _ _ _ _ _ => of_word (k := .wing) rfl rfl

theorem sxrst : ∀ x0 x1 x2 x3 x4, Statement (.sxrst x0 x1 x2 x3 x4) := fun _ _ _ _ _ => of_word (k := .wing) rfl rfl

theorem vadd : ∀ x0 x1 x2 x3 x4 x5 x6 x7, Statement (.vadd x0 x1 x2 x3 x4 x5 x6 x7) := fun _ _ _ _ _ _ _ _ => of_word (k := .vector) rfl rfl

theorem vsub : ∀ x0 x1 x2 x3 x4 x5 x6 x7, Statement (.vsub x0 x1 x2 x3 x4 x5 x6 x7) := fun _ _ _ _ _ _ _ _ => of_word (k := .vector) rfl rfl

theorem vmul : ∀ x0 x1 x2 x3 x4 x5 x6 x7, Statement (.vmul x0 x1 x2 x3 x4 x5 x6 x7) := fun _ _ _ _ _ _ _ _ => of_word (k := .vector) rfl rfl

theorem vfma : ∀ x0 x1 x2 x3 x4 x5 x6 x7, Statement (.vfma x0 x1 x2 x3 x4 x5 x6 x7) := fun _ _ _ _ _ _ _ _ => of_word (k := .vector) rfl rfl

theorem vmin : ∀ x0 x1 x2 x3 x4 x5 x6 x7, Statement (.vmin x0 x1 x2 x3 x4 x5 x6 x7) := fun _ _ _ _ _ _ _ _ => of_word (k := .vector) rfl rfl

theorem vmax : ∀ x0 x1 x2 x3 x4 x5 x6 x7, Statement (.vmax x0 x1 x2 x3 x4 x5 x6 x7) := fun _ _ _ _ _ _ _ _ => of_word (k := .vector) rfl rfl

theorem vabs : ∀ x0 x1 x2 x3 x4 x5, Statement (.vabs x0 x1 x2 x3 x4 x5) := fun _ _ _ _ _ _ => of_word (k := .vector) rfl rfl

theorem vcmp : ∀ x0 x1 x2 x3 x4 x5 x6 x7 x8, Statement (.vcmp x0 x1 x2 x3 x4 x5 x6 x7 x8) := fun _ _ _ _ _ _ _ _ _ => of_word (k := .vector) rfl rfl

theorem vsel : ∀ x0 x1 x2 x3 x4 x5 x6 x7, Statement (.vsel x0 x1 x2 x3 x4 x5 x6 x7) := fun _ _ _ _ _ _ _ _ => of_word (k := .vector) rfl rfl

theorem vand : ∀ x0 x1 x2 x3 x4 x5 x6 x7, Statement (.vand x0 x1 x2 x3 x4 x5 x6 x7) := fun _ _ _ _ _ _ _ _ => of_word (k := .vector) rfl rfl

theorem vor : ∀ x0 x1 x2 x3 x4 x5 x6 x7, Statement (.vor x0 x1 x2 x3 x4 x5 x6 x7) := fun _ _ _ _ _ _ _ _ => of_word (k := .vector) rfl rfl

theorem vxor : ∀ x0 x1 x2 x3 x4 x5 x6 x7, Statement (.vxor x0 x1 x2 x3 x4 x5 x6 x7) := fun _ _ _ _ _ _ _ _ => of_word (k := .vector) rfl rfl

theorem vshl : ∀ x0 x1 x2 x3 x4 x5 x6 x7, Statement (.vshl x0 x1 x2 x3 x4 x5 x6 x7) := fun _ _ _ _ _ _ _ _ => of_word (k := .vector) rfl rfl

theorem vshr : ∀ x0 x1 x2 x3 x4 x5 x6 x7, Statement (.vshr x0 x1 x2 x3 x4 x5 x6 x7) := fun _ _ _ _ _ _ _ _ => of_word (k := .vector) rfl rfl

theorem vcvt : ∀ x0 x1 x2 x3 x4 x5 x6, Statement (.vcvt x0 x1 x2 x3 x4 x5 x6) := fun _ _ _ _ _ _ _ => of_word (k := .vector) rfl rfl

theorem vqnt : ∀ x0 x1 x2 x3 x4 x5 x6 x7 x8, Statement (.vqnt x0 x1 x2 x3 x4 x5 x6 x7 x8) := fun _ _ _ _ _ _ _ _ _ => of_word (k := .vector) rfl rfl

theorem vdq : ∀ x0 x1 x2 x3 x4 x5 x6 x7 x8, Statement (.vdq x0 x1 x2 x3 x4 x5 x6 x7 x8) := fun _ _ _ _ _ _ _ _ _ => of_word (k := .vector) rfl rfl

theorem vbpk : ∀ x0 x1 x2 x3 x4 x5 x6, Statement (.vbpk x0 x1 x2 x3 x4 x5 x6) := fun _ _ _ _ _ _ _ => of_word (k := .vector) rfl rfl

theorem vbun : ∀ x0 x1 x2 x3 x4 x5 x6, Statement (.vbun x0 x1 x2 x3 x4 x5 x6) := fun _ _ _ _ _ _ _ => of_word (k := .vector) rfl rfl

theorem vrcp : ∀ x0 x1 x2 x3 x4 x5, Statement (.vrcp x0 x1 x2 x3 x4 x5) := fun _ _ _ _ _ _ => of_word (k := .vector) rfl rfl

theorem vrsq : ∀ x0 x1 x2 x3 x4 x5, Statement (.vrsq x0 x1 x2 x3 x4 x5) := fun _ _ _ _ _ _ => of_word (k := .vector) rfl rfl

theorem vexp2 : ∀ x0 x1 x2 x3 x4 x5, Statement (.vexp2 x0 x1 x2 x3 x4 x5) := fun _ _ _ _ _ _ => of_word (k := .vector) rfl rfl

theorem vlog2 : ∀ x0 x1 x2 x3 x4 x5, Statement (.vlog2 x0 x1 x2 x3 x4 x5) := fun _ _ _ _ _ _ => of_word (k := .vector) rfl rfl

theorem vred : ∀ x0 x1 x2 x3 x4 x5 x6, Statement (.vred x0 x1 x2 x3 x4 x5 x6) := fun _ _ _ _ _ _ _ => of_word (k := .vector) rfl rfl

theorem vscan : ∀ x0 x1 x2 x3 x4 x5 x6, Statement (.vscan x0 x1 x2 x3 x4 x5 x6) := fun _ _ _ _ _ _ _ => of_word (k := .vector) rfl rfl

theorem vperm : ∀ x0 x1 x2 x3 x4 x5 x6 x7, Statement (.vperm x0 x1 x2 x3 x4 x5 x6 x7) := fun _ _ _ _ _ _ _ _ => of_word (k := .vector) rfl rfl

theorem vbcsElement : ∀ x0 x1 x2 x3 x4 x5 x6, Statement (.vbcsElement x0 x1 x2 x3 x4 x5 x6) := fun _ _ _ _ _ _ _ => of_word (k := .vector) rfl rfl

theorem vbcsScalar : ∀ x0 x1 x2 x3 x4, Statement (.vbcsScalar x0 x1 x2 x3 x4) := fun _ _ _ _ _ => of_word (k := .vector) rfl rfl

theorem vimm : ∀ x0 x1 x2 x3, Statement (.vimm x0 x1 x2 x3) := fun _ _ _ _ => of_word (k := .vector) rfl rfl

theorem vmov : ∀ x0 x1 x2 x3 x4 x5, Statement (.vmov x0 x1 x2 x3 x4 x5) := fun _ _ _ _ _ _ => of_word (k := .vector) rfl rfl

theorem vmovA : ∀ x0 x1 x2 x3 x4 x5, Statement (.vmovA x0 x1 x2 x3 x4 x5) := fun _ _ _ _ _ _ => of_word (k := .vector) rfl rfl

theorem vaddi : ∀ x0 x1 x2 x3, Statement (.vaddi x0 x1 x2 x3) := fun _ _ _ _ => of_word (k := .vector) rfl rfl

theorem vspsh : ∀ x0 x1 x2 x3 x4, Statement (.vspsh x0 x1 x2 x3 x4) := fun _ _ _ _ _ => of_word (k := .vector) rfl rfl

theorem vspop : ∀ x0 x1 x2 x3, Statement (.vspop x0 x1 x2 x3) := fun _ _ _ _ => of_word (k := .vector) rfl rfl

theorem vsbal : ∀ x0 x1 x2, Statement (.vsbal x0 x1 x2) := fun _ _ _ => of_word (k := .vector) rfl rfl

theorem gcfg : ∀ x0 x1 x2 x3, Statement (.gcfg x0 x1 x2 x3) := fun _ _ _ _ => of_word (k := .vector) rfl rfl

theorem grst : ∀ x0 x1 x2, Statement (.grst x0 x1 x2) := fun _ _ _ => of_word (k := .vector) rfl rfl

theorem vnoise : ∀ x0 x1 x2 x3 x4 x5 x6 x7, Statement (.vnoise x0 x1 x2 x3 x4 x5 x6 x7) := fun _ _ _ _ _ _ _ _ => of_word (k := .vector) rfl rfl

theorem vqEntryArrival : ∀ x0, Statement (.vqEntryArrival x0) := fun _ => of_event rfl (fun k => by cases k <;> rfl)

theorem mnest : ∀ x0 x1 x2 x3, Statement (.mnest x0 x1 x2 x3) := fun _ _ _ _ => of_word (k := .matrix) rfl rfl

theorem mrun : ∀ x0 x1 x2 x3 x4, Statement (.mrun x0 x1 x2 x3 x4) := fun _ _ _ _ _ => of_word (k := .matrix) rfl rfl

theorem runComplete : ∀ x0, Statement (.runComplete x0) := fun _ => of_event rfl (fun k => by cases k <;> rfl)

theorem mzero : ∀ x0 x1 x2, Statement (.mzero x0 x1 x2) := fun _ _ _ => of_word (k := .matrix) rfl rfl

theorem mldc : ∀ x0 x1 x2 x3, Statement (.mldc x0 x1 x2 x3) := fun _ _ _ _ => of_word (k := .matrix) rfl rfl

theorem mldcComplete : ∀ x0, Statement (.mldcComplete x0) := fun _ => of_event rfl (fun k => by cases k <;> rfl)

theorem mdrain : ∀ x0 x1 x2 x3 x4, Statement (.mdrain x0 x1 x2 x3 x4) := fun _ _ _ _ _ => of_word (k := .matrix) rfl rfl

theorem drainComplete : ∀ x0, Statement (.drainComplete x0) := fun _ => of_event rfl (fun k => by cases k <;> rfl)

theorem mkat : ∀ x0 x1 x2, Statement (.mkat x0 x1 x2) := fun _ _ _ => of_word (k := .matrix) rfl rfl

theorem msig : ∀ x0 x1 x2 x3, Statement (.msig x0 x1 x2 x3) := fun _ _ _ _ => of_word (k := .matrix) rfl rfl

theorem mwt : ∀ x0 x1, Statement (.mwt x0 x1) := fun _ _ => of_word (k := .matrix) rfl rfl

theorem xcopy : ∀ x0 x1 x2 x3, Statement (.xcopy x0 x1 x2 x3) := fun _ _ _ _ => of_word (k := .copy) rfl rfl

theorem xfill : ∀ x0 x1 x2 x3, Statement (.xfill x0 x1 x2 x3) := fun _ _ _ _ => of_word (k := .copy) rfl rfl

theorem xgath : ∀ x0 x1 x2 x3, Statement (.xgath x0 x1 x2 x3) := fun _ _ _ _ => of_word (k := .copy) rfl rfl

theorem xscat : ∀ x0 x1 x2 x3, Statement (.xscat x0 x1 x2 x3) := fun _ _ _ _ => of_word (k := .copy) rfl rfl

theorem xfeed : ∀ x0 x1 x2 x3 x4, Statement (.xfeed x0 x1 x2 x3 x4) := fun _ _ _ _ _ => of_word (k := .copy) rfl rfl

theorem copyChunkComplete : ∀ x0, Statement (.copyChunkComplete x0) := fun _ => of_event rfl (fun k => by cases k <;> rfl)

theorem xtrw : ∀ x0 x1 x2, Statement (.xtrw x0 x1 x2) := fun _ _ _ => of_word (k := .copy) rfl rfl

theorem xtru : ∀ x0 x1 x2 x3, Statement (.xtru x0 x1 x2 x3) := fun _ _ _ _ => of_word (k := .copy) rfl rfl

theorem xtrd : ∀ x0 x1 x2 x3, Statement (.xtrd x0 x1 x2 x3) := fun _ _ _ _ => of_word (k := .copy) rfl rfl

theorem xtbld : ∀ x0 x1 x2 x3, Statement (.xtbld x0 x1 x2 x3) := fun _ _ _ _ => of_word (k := .copy) rfl rfl

theorem xtdef : ∀ x0 x1 x2 x3, Statement (.xtdef x0 x1 x2 x3) := fun _ _ _ _ => of_word (k := .copy) rfl rfl

theorem xcrc : ∀ x0 x1 x2 x3 x4, Statement (.xcrc x0 x1 x2 x3 x4) := fun _ _ _ _ _ => of_word (k := .copy) rfl rfl

theorem xws : ∀ x0 x1 x2, Statement (.xws x0 x1 x2) := fun _ _ _ => of_word (k := .copy) rfl rfl

theorem xref : ∀ x0 x1 x2 x3 x4, Statement (.xref x0 x1 x2 x3 x4) := fun _ _ _ _ _ => of_word (k := .copy) rfl rfl

theorem csend : ∀ x0 x1 x2, Statement (.csend x0 x1 x2) := fun _ _ _ => of_word (k := .collective) rfl rfl

theorem crecv : ∀ x0 x1 x2, Statement (.crecv x0 x1 x2) := fun _ _ _ => of_word (k := .collective) rfl rfl

theorem cred : ∀ x0 x1 x2, Statement (.cred x0 x1 x2) := fun _ _ _ => of_word (k := .collective) rfl rfl

theorem cbcast : ∀ x0 x1 x2, Statement (.cbcast x0 x1 x2) := fun _ _ _ => of_word (k := .collective) rfl rfl

theorem ca2a : ∀ x0 x1 x2, Statement (.ca2a x0 x1 x2) := fun _ _ _ => of_word (k := .collective) rfl rfl

theorem cgath : ∀ x0 x1 x2, Statement (.cgath x0 x1 x2) := fun _ _ _ => of_word (k := .collective) rfl rfl

theorem csamp : ∀ x0 x1 x2, Statement (.csamp x0 x1 x2) := fun _ _ _ => of_word (k := .collective) rfl rfl

theorem cflag : ∀ x0 x1 x2 x3, Statement (.cflag x0 x1 x2 x3) := fun _ _ _ _ => of_word (k := .collective) rfl rfl

theorem collectiveMessageArrival : ∀ x0, Statement (.collectiveMessageArrival x0) := fun _ => of_event rfl (fun k => by cases k <;> rfl)

theorem flagMessageArrival : ∀ x0, Statement (.flagMessageArrival x0) := fun _ => of_event rfl (fun k => by cases k <;> rfl)

theorem sscfg : ∀ x0 x1 x2 x3, Statement (.sscfg x0 x1 x2 x3) := fun _ _ _ _ => of_word (k := .swallowtail) rfl rfl

theorem ssfeed : ∀ x0 x1 x2, Statement (.ssfeed x0 x1 x2) := fun _ _ _ => of_word (k := .swallowtail) rfl rfl

theorem entryBegin : ∀ x0, Statement (.entryBegin x0) := fun _ => of_event rfl (fun k => by cases k <;> rfl)

theorem markRetire : ∀ x0, Statement (.markRetire x0) := fun _ => of_event rfl (fun k => by cases k <;> rfl)

theorem notifyRetire : ∀ x0, Statement (.notifyRetire x0) := fun _ => of_event rfl (fun k => by cases k <;> rfl)

theorem qfenceJoinRelease : ∀ x0 x1, Statement (.qfenceJoinRelease x0 x1) := fun _ _ => of_event rfl (fun k => by cases k <;> rfl)

theorem waitevTimeout : ∀ x0, Statement (.waitevTimeout x0) := fun _ => of_event rfl (fun k => by cases k <;> rfl)

theorem powerGood : ∀ x0, Statement (.powerGood x0) := fun _ => of_event rfl (fun k => by cases k <;> rfl)

theorem flitCrcError : Statement .flitCrcError := of_event rfl (fun k => by cases k <;> rfl)

theorem remoteWriteArrival : ∀ x0, Statement (.remoteWriteArrival x0) := fun _ => of_event rfl (fun k => by cases k <;> rfl)

theorem remoteLoadArrival : ∀ x0, Statement (.remoteLoadArrival x0) := fun _ => of_event rfl (fun k => by cases k <;> rfl)

theorem hostAccess : ∀ x0 x1, Statement (.hostAccess x0 x1) := fun _ _ => of_event rfl (fun k => by cases k <;> rfl)

theorem fabricMemoryRequest : ∀ x0 x1, Statement (.fabricMemoryRequest x0 x1) := fun _ _ => of_event rfl (fun k => by cases k <;> rfl)

theorem fabricLaunchPacket : ∀ x0, Statement (.fabricLaunchPacket x0) := fun _ => of_event rfl (fun k => by cases k <;> rfl)

theorem qwp : ∀ x0 x1 x2, Statement (.qwp x0 x1 x2) := fun _ _ _ => of_event rfl (fun k => by cases k <;> rfl)

theorem qcfg : ∀ x0 x1 x2, Statement (.qcfg x0 x1 x2) := fun _ _ _ => of_event rfl (fun k => by cases k <;> rfl)

theorem qbase : ∀ x0 x1 x2, Statement (.qbase x0 x1 x2) := fun _ _ _ => of_event rfl (fun k => by cases k <;> rfl)

theorem qcpl : ∀ x0 x1 x2, Statement (.qcpl x0 x1 x2) := fun _ _ _ => of_event rfl (fun k => by cases k <;> rfl)

theorem qstat : ∀ x0 x1 x2, Statement (.qstat x0 x1 x2) := fun _ _ _ => of_event rfl (fun k => by cases k <;> rfl)

theorem atgo : ∀ x0, Statement (.atgo x0) := fun _ => of_event rfl (fun k => by cases k <;> rfl)

theorem residencyReport : Statement .residencyReport := of_event rfl (fun k => by cases k <;> rfl)

theorem launchHead : ∀ x0 x1, Statement (.launchHead x0 x1) := fun _ _ => of_event rfl (fun k => by cases k <;> rfl)

theorem taskStart : ∀ x0, Statement (.taskStart x0) := fun _ => of_event rfl (fun k => by cases k <;> rfl)

theorem taskResume : ∀ x0, Statement (.taskResume x0) := fun _ => of_event rfl (fun k => by cases k <;> rfl)

theorem taskCompletion : ∀ x0 x1, Statement (.taskCompletion x0 x1) := fun _ _ => of_event rfl (fun k => by cases k <;> rfl)

theorem interruptCoalesceExpiry : ∀ x0 x1, Statement (.interruptCoalesceExpiry x0 x1) := fun _ _ => of_event rfl (fun k => by cases k <;> rfl)

theorem preemptWaitExpiry : ∀ x0, Statement (.preemptWaitExpiry x0) := fun _ => of_event rfl (fun k => by cases k <;> rfl)

theorem preemption : ∀ x0 x1, Statement (.preemption x0 x1) := fun _ _ => of_event rfl (fun k => by cases k <;> rfl)

theorem energyTick : ∀ x0, Statement (.energyTick x0) := fun _ => of_event rfl (fun k => by cases k <;> rfl)

theorem energyRefill : Statement .energyRefill := of_event rfl (fun k => by cases k <;> rfl)

theorem levelGrant : ∀ x0, Statement (.levelGrant x0) := fun _ => of_event rfl (fun k => by cases k <;> rfl)

theorem boostInterval : Statement .boostInterval := of_event rfl (fun k => by cases k <;> rfl)

theorem boostRefill : Statement .boostRefill := of_event rfl (fun k => by cases k <;> rfl)

theorem lookoutTick : Statement .lookoutTick := of_event rfl (fun k => by cases k <;> rfl)

theorem lookoutExpiry : ∀ x0 x1, Statement (.lookoutExpiry x0 x1) := fun _ _ => of_event rfl (fun k => by cases k <;> rfl)

theorem katbThreshold : ∀ x0, Statement (.katbThreshold x0) := fun _ => of_event rfl (fun k => by cases k <;> rfl)

theorem katCheck : ∀ x0 x1, Statement (.katCheck x0 x1) := fun _ _ => of_event rfl (fun k => by cases k <;> rfl)

theorem counterPublish : Statement .counterPublish := of_event rfl (fun k => by cases k <;> rfl)

theorem patrolRead : ∀ x0, Statement (.patrolRead x0) := fun _ => of_event rfl (fun k => by cases k <;> rfl)

theorem phaseCancel : ∀ x0 x1, Statement (.phaseCancel x0 x1) := fun _ _ => of_event rfl (fun k => by cases k <;> rfl)

theorem contextError : ∀ x0 x1, Statement (.contextError x0 x1) := fun _ _ => of_event rfl (fun k => by cases k <;> rfl)

theorem takeRecord : ∀ x0, Statement (.takeRecord x0) := fun _ => of_event rfl (fun k => by cases k <;> rfl)

theorem supervisorRestart : ∀ x0, Statement (.supervisorRestart x0) := fun _ => of_event rfl (fun k => by cases k <;> rfl)

theorem prst : ∀ x0, Statement (.prst x0) := fun _ => of_event rfl (fun k => by cases k <;> rfl)

theorem resetDrainExpiry : Statement .resetDrainExpiry := of_event rfl (fun k => by cases k <;> rfl)

theorem partitionResetComplete : Statement .partitionResetComplete := of_event rfl (fun k => by cases k <;> rfl)

theorem cpart : ∀ x0, Statement (.cpart x0) := fun _ => of_event rfl (fun k => by cases k <;> rfl)

theorem scrubComplete : ∀ x0, Statement (.scrubComplete x0) := fun _ => of_event rfl (fun k => by cases k <;> rfl)

theorem frown : ∀ x0, Statement (.frown x0) := fun _ => of_event rfl (fun k => by cases k <;> rfl)

theorem frameReassignComplete : ∀ x0, Statement (.frameReassignComplete x0) := fun _ => of_event rfl (fun k => by cases k <;> rfl)

theorem frg : ∀ x0, Statement (.frg x0) := fun _ => of_event rfl (fun k => by cases k <;> rfl)

theorem keyb : ∀ x0, Statement (.keyb x0) := fun _ => of_event rfl (fun k => by cases k <;> rfl)

theorem keyn : ∀ x0, Statement (.keyn x0) := fun _ => of_event rfl (fun k => by cases k <;> rfl)

theorem rslot : ∀ x0, Statement (.rslot x0) := fun _ => of_event rfl (fun k => by cases k <;> rfl)

theorem flpg : ∀ x0, Statement (.flpg x0) := fun _ => of_event rfl (fun k => by cases k <;> rfl)

theorem ecap : ∀ x0, Statement (.ecap x0) := fun _ => of_event rfl (fun k => by cases k <;> rfl)

theorem plmaps : ∀ x0, Statement (.plmaps x0) := fun _ => of_event rfl (fun k => by cases k <;> rfl)

theorem pwsh : ∀ x0, Statement (.pwsh x0) := fun _ => of_event rfl (fun k => by cases k <;> rfl)

theorem eadj : ∀ x0, Statement (.eadj x0) := fun _ => of_event rfl (fun k => by cases k <;> rfl)

theorem cstat : ∀ x0, Statement (.cstat x0) := fun _ => of_event rfl (fun k => by cases k <;> rfl)

theorem dlbase : ∀ x0, Statement (.dlbase x0) := fun _ => of_event rfl (fun k => by cases k <;> rfl)

theorem dltail : ∀ x0, Statement (.dltail x0) := fun _ => of_event rfl (fun k => by cases k <;> rfl)

theorem registerWrite : ∀ x0 x1, Statement (.registerWrite x0 x1) := fun _ _ => of_event rfl (fun k => by cases k <;> rfl)

theorem gateGrant : ∀ x0, Statement (.gateGrant x0) := fun _ => of_event rfl (fun k => by cases k <;> rfl)

theorem coreWake : ∀ x0, Statement (.coreWake x0) := fun _ => of_event rfl (fun k => by cases k <;> rfl)

theorem objectDestruction : ∀ x0 x1, Statement (.objectDestruction x0 x1) := fun _ _ => of_event rfl (fun k => by cases k <;> rfl)

theorem linkFailure : ∀ x0, Statement (.linkFailure x0) := fun _ => of_event rfl (fun k => by cases k <;> rfl)

theorem trellisInstructionEnd : ∀ x0, Statement (.trellisInstructionEnd x0) := fun _ => of_event rfl (fun k => by cases k <;> rfl)

theorem weightStoreWriteComplete : ∀ x0, Statement (.weightStoreWriteComplete x0) := fun _ => of_event rfl (fun k => by cases k <;> rfl)

theorem keyManifestLoad : ∀ x0, Statement (.keyManifestLoad x0) := fun _ => of_event rfl (fun k => by cases k <;> rfl)

theorem firmwareImageLoad : ∀ x0, Statement (.firmwareImageLoad x0) := fun _ => of_event rfl (fun k => by cases k <;> rfl)

end Sys2Proof.Laws.Encoded
end

