-- ==== Sys2Proof/Tests/Slice0.lean ====
section
/-! SUPPORT. Tests: ill-formed terms are refused, words written out from the spec's encodings decode, and the hypotheses
of the statements can be met together (a witness for each). -/

namespace Sys2Proof.Tests

set_option Elab.async false

open Sys2Proof Sys2Proof.Machine

/-! ## Well-formedness -/

def badParty : PartyId := ⟨272, 0, .w0⟩
def badSlot : PartyId := ⟨0, 2, .m⟩

/-- One ill-formed term for each check of a word's own fields (R47, R120, R142, R216, R271, R338). -/
theorem test_wf_words :
    (Instr.fence 0 0 4 0).wf = false ∧ (Instr.fence 0 0 1 0).wf = false ∧ (Instr.enq 0 0 0 0 0 6).wf = false ∧
    (Instr.enq 0 0 0 5 0 0).wf = false ∧ (Instr.enq 0 0 1 0 0 0).wf = false ∧ (Instr.swpt 0 3).wf = false ∧
    (Instr.vred 0 0 0 0 0 0 3).wf = false ∧ (Instr.vnoise 0 0 0 0 0 0 0 2).wf = false ∧
    (Instr.add 1 2 3).wf = true ∧ (Instr.fence 0 0 5 2).wf = true ∧ (Instr.enq 0 0 20 2 3 5).wf = true := by decide

/-- One ill-formed term for each check of an event's party. -/
theorem test_wf_parties :
    (Instr.mwaitWake badParty).wf = false ∧ (Instr.copyChunkComplete badSlot).wf = false ∧
    (Instr.entryBegin badParty).wf = false ∧ (Instr.markRetire badSlot).wf = false ∧ (Instr.notifyRetire badParty).wf = false ∧
    (Instr.waitevTimeout badSlot).wf = false ∧ (Instr.trellisInstructionEnd badParty).wf = false ∧
    (Instr.weightStoreWriteComplete badSlot).wf = false ∧ (Instr.entryBegin ⟨271, 1, .m⟩).wf = true := by decide

/-- One ill-formed term for each check of an event's core or slot. -/
theorem test_wf_cores :
    (Instr.vqEntryArrival 272).wf = false ∧ (Instr.runComplete 272).wf = false ∧ (Instr.mldcComplete 272).wf = false ∧
    (Instr.drainComplete 272).wf = false ∧ (Instr.qfenceJoinRelease 272 0).wf = false ∧ (Instr.qfenceJoinRelease 0 2).wf = false ∧
    (Instr.taskStart 272).wf = false ∧ (Instr.taskResume 272).wf = false ∧ (Instr.taskCompletion 272 0).wf = false ∧
    (Instr.taskCompletion 0 2).wf = false ∧ (Instr.preemption 272 0).wf = false ∧ (Instr.preemption 0 2).wf = false ∧
    (Instr.katbThreshold 272).wf = false ∧ (Instr.katCheck 272 true).wf = false ∧ (Instr.phaseCancel 272 0).wf = false ∧
    (Instr.phaseCancel 0 2).wf = false ∧ (Instr.contextError 272 0).wf = false ∧ (Instr.contextError 0 2).wf = false ∧
    (Instr.scrubComplete 272).wf = false ∧ (Instr.gateGrant 272).wf = false ∧ (Instr.coreWake 272).wf = false := by decide

/-- One ill-formed term for each check of an event's die, partition, queue or function. -/
theorem test_wf_numbers :
    (Instr.takeRecord 16).wf = false ∧ (Instr.supervisorRestart 16).wf = false ∧ (Instr.superstepAdvance 64 0).wf = false ∧
    (Instr.superstepAdvance 0 32).wf = false ∧ (Instr.launchHead 64 0).wf = false ∧ (Instr.launchHead 0 32).wf = false ∧
    (Instr.interruptCoalesceExpiry 64 0).wf = false ∧ (Instr.interruptCoalesceExpiry 0 32).wf = false ∧
    (Instr.preemptWaitExpiry 64).wf = false ∧ (Instr.lookoutExpiry 64 0).wf = false ∧ (Instr.lookoutExpiry 0 32).wf = false ∧
    (Instr.objectDestruction 64 0).wf = false ∧ (Instr.hostAccess 65 (.load 0 8)).wf = false ∧ (Instr.qwp 64 0 0).wf = false ∧
    (Instr.qwp 0 32 0).wf = false ∧ (Instr.qcfg 64 0 0).wf = false ∧ (Instr.qcfg 0 32 0).wf = false ∧
    (Instr.qbase 64 0 0).wf = false ∧ (Instr.qbase 0 32 0).wf = false ∧ (Instr.qcpl 64 0 0).wf = false ∧
    (Instr.qcpl 0 32 0).wf = false ∧ (Instr.qstat 64 0 0).wf = false ∧ (Instr.qstat 0 32 0).wf = false ∧
    (Instr.fabricLaunchPacket ⟨1, 2, 3, 4, []⟩).wf = false := by decide

/-- A bring-up that fails in one of the ways that the part does not find itself. -/
def failing (f : Nat × Nat × Nat) : Instr := .powerGood { (default : BringUp) with failure := some f }

/-- One ill-formed term for each range of a detail, and reasons and phases that the table lacks (R384). -/
theorem test_wf_failures :
    (failing (0, 1, 1)).wf = false ∧ (failing (2, 1, 1)).wf = false ∧ (failing (2, 3, 65536)).wf = false ∧
    (failing (3, 2, 32)).wf = false ∧ (failing (4, 1, 128)).wf = false ∧ (failing (4, 2, 65536)).wf = false ∧
    (failing (4, 3, 2)).wf = false ∧ (failing (5, 1, 16)).wf = false ∧ (failing (6, 1, 16)).wf = false ∧
    (failing (6, 2, 4)).wf = false ∧ (failing (6, 3, 1)).wf = false ∧ (failing (8, 1, 0)).wf = false ∧
    (failing (3, 0, 0)).wf = false ∧ (failing (4, 1, 127)).wf = true := by decide

/-! ## Decoding -/

/-- Whether every word of a list decodes, in its map, to its instruction. -/
def reads : List (Kind × IWord × Instr) → Bool
  | [] => true
  | (k, x, i) :: rest => (match decode k x with | .ok j => decide (j = i) | .error _ => false) && reads rest

/-- Words written out from the encodings of R50–R60 (the match bits of the table with the fields in their places): the control subset. -/
theorem test_decode_control1 : reads [
  (.wing, 0x02994680, .add 19 10 13),
  (.wing, 0x02994681, .sub 19 10 13),
  (.wing, 0x02994682, .and 19 10 13),
  (.wing, 0x02994683, .or 19 10 13),
  (.wing, 0x02994684, .xor 19 10 13),
  (.wing, 0x02994685, .shl 19 10 13),
  (.wing, 0x02994686, .shr 19 10 13),
  (.wing, 0x02994687, .sar 19 10 13),
  (.wing, 0x02994688, .mul 19 10 13),
  (.wing, 0x02994689, .mulh 19 10 13),
  (.wing, 0x0299468A, .mulhu 19 10 13),
  (.wing, 0x0299468B, .div 19 10 13),
  (.wing, 0x0299468C, .divu 19 10 13),
  (.wing, 0x0299468D, .rem 19 10 13),
  (.wing, 0x0299468E, .remu 19 10 13),
  (.wing, 0x0299468F, .min 19 10 13),
  (.wing, 0x02994690, .max 19 10 13),
  (.wing, 0x02994691, .minu 19 10 13),
  (.wing, 0x02994692, .maxu 19 10 13),
  (.wing, 0x02994693, .slt 19 10 13),
  (.wing, 0x02994694, .sltu 19 10 13),
  (.wing, 0x02994015, .clz 19 10),
  (.wing, 0x02994016, .popc 19 10),
  (.wing, 0x04994155, .addi 19 10 341),
  (.wing, 0x06994155, .andi 19 10 341),
  (.wing, 0x08994155, .ori 19 10 341),
  (.wing, 0x0A994155, .xori 19 10 341),
  (.wing, 0x0C994155, .slti 19 10 341),
  (.wing, 0x0E994155, .sltiu 19 10 341),
  (.wing, 0x10994021, .shli 19 10 33)] = true := by decide

/-- Words written out from the encodings of R50–R60 (the match bits of the table with the fields in their places): the control subset. -/
theorem test_decode_control2 : reads [
  (.wing, 0x12994022, .shri 19 10 34),
  (.wing, 0x14994023, .sari 19 10 35),
  (.wing, 0x16987F80, .lui 19 32640),
  (.wing, 0x18980155, .addpc 19 341),
  (.wing, 0x1A994683, .agen 19 10 13 3),
  (.wing, 0x2051A002, .beq 10 13 2),
  (.wing, 0x2251A002, .bne 10 13 2),
  (.wing, 0x2451A002, .blt 10 13 2),
  (.wing, 0x2651A002, .bge 10 13 2),
  (.wing, 0x2851A002, .bltu 10 13 2),
  (.wing, 0x2A51A002, .bgeu 10 13 2),
  (.wing, 0x2DFFFFF0, .jmp 33554416),
  (.wing, 0x2E000055, .jal 85),
  (.wing, 0x30014155, .jr 10 341),
  (.wing, 0x32840040, .loop 1 2 64),
  (.wing, 0x34812040, .loopi 1 9 64),
  (.wing, 0x362AA000, .rep 341),
  (.wing, 0x38800000, .lexit 1),
  (.wing, 0x40980008, .mfs 19 8),
  (.wing, 0x42014008, .mts 10 8),
  (.wing, 0x44000003, .tokw 3),
  (.wing, 0x46000002, .toks 2),
  (.wing, 0x48000000, .nop),
  (.wing, 0x4A000000, .endOp),
  (.wing, 0x4C000155, .trap 341),
  (.wing, 0x4E994009, .waitev 19 10 9)] = true := by decide

/-- Words written out from the encodings of R50–R60 (the match bits of the table with the fields in their places): the wings' half. -/
theorem test_decode_wing1 : reads [
  (.wing, 0xB02994A5, .ldb 1 2 19 10 165),
  (.wing, 0xB04994A5, .ldh 1 2 19 10 165),
  (.wing, 0xB06994A5, .ldw 1 2 19 10 165),
  (.wing, 0xB08994A5, .ldd 1 2 19 10 165),
  (.wing, 0xB0A994A5, .ldbu 1 2 19 10 165),
  (.wing, 0xB0C994A5, .ldhu 1 2 19 10 165),
  (.wing, 0xB0E994A5, .ldwu 1 2 19 10 165),
  (.wing, 0xB10994A5, .lda 1 2 19 10 165),
  (.wing, 0xB12994A5, .ldc 1 2 19 10 165),
  (.wing, 0xB14994A5, .stb 1 2 19 10 165),
  (.wing, 0xB16994A5, .sth 1 2 19 10 165),
  (.wing, 0xB18994A5, .stw 1 2 19 10 165),
  (.wing, 0xB1A994A5, .std 1 2 19 10 165),
  (.wing, 0xB1C994A5, .stl 1 2 19 10 165),
  (.wing, 0xB2499468, .amoAdd 1 2 2 19 10 13),
  (.wing, 0xB2499469, .amoAnd 1 2 2 19 10 13),
  (.wing, 0xB249946A, .amoOr 1 2 2 19 10 13),
  (.wing, 0xB249946B, .amoXor 1 2 2 19 10 13),
  (.wing, 0xB249946C, .amoMin 1 2 2 19 10 13),
  (.wing, 0xB249946D, .amoMax 1 2 2 19 10 13),
  (.wing, 0xB249946E, .amoSwap 1 2 2 19 10 13),
  (.wing, 0xB289946A, .cas 1 2 19 10 13 2),
  (.wing, 0xB2A28002, .fence 1 2 5 2),
  (.wing, 0xB2C28000, .qfence 1 2 5),
  (.wing, 0xB2E99468, .mwait 1 2 19 10 13),
  (.wing, 0xB30A22AB, .enq 1 2 20 2 85 3),
  (.wing, 0xB324AA00, .mark 1 2 9 21),
  (.wing, 0xB3438000, .rdv 1 2 7),
  (.wing, 0xB3602A00, .notify 1 2 21),
  (.wing, 0xB3801400, .join 1 2 10)] = true := by decide

/-- Words written out from the encodings of R50–R60 (the match bits of the table with the fields in their places): the wings' half. -/
theorem test_decode_wing2 : reads [
  (.wing, 0xB3A01400, .leave 1 2 10),
  (.wing, 0xB3C01400, .bar 1 2 10),
  (.wing, 0xB3E00000, .wlock 1 2),
  (.wing, 0xB4000000, .wfree 1 2),
  (.wing, 0xB4298000, .sstep 1 2 19),
  (.wing, 0xB4401468, .probe 1 2 10 13),
  (.wing, 0xB4601468, .unpin 1 2 10 13),
  (.wing, 0xB4800005, .phswap 1 2 5),
  (.wing, 0xB4E99400, .eret 1 2 19 10),
  (.wing, 0xB5099400, .ctxsv 1 2 19 10),
  (.wing, 0xB5299468, .ctxld 1 2 19 10 13),
  (.wing, 0xB5401400, .pgate 1 2 10),
  (.wing, 0xB5699468, .clkdiv 1 2 19 10 13),
  (.wing, 0x858004CA, .swpt 153 2),
  (.wing, 0xB5A99400, .boost 1 2 19 10),
  (.wing, 0xB1E99468, .seqclm 1 2 19 10 13),
  (.wing, 0xB5C99468, .seqadv 1 2 19 10 13),
  (.wing, 0xB5E99468, .sxqry 1 2 19 10 13),
  (.wing, 0xB6099468, .hnew 1 2 19 10 13),
  (.wing, 0xB6299400, .hfree 1 2 19 10),
  (.wing, 0xB6499468, .hldw 1 2 19 10 13),
  (.wing, 0xB66091A0, .bgone 1 2 4660),
  (.wing, 0xB6899400, .hupg 1 2 19 10),
  (.wing, 0xB6A99400, .hdng 1 2 19 10),
  (.wing, 0xB6C99468, .hpri 1 2 19 10 13),
  (.wing, 0xB6E99400, .winopen 1 2 19 10),
  (.wing, 0xB7099468, .winpub 1 2 19 10 13),
  (.wing, 0xB7299400, .winacq 1 2 19 10),
  (.wing, 0xB7401400, .winclose 1 2 10),
  (.wing, 0xB7699468, .sxapp 1 2 19 10 13)] = true := by decide

/-- Words written out from the encodings of R50–R60 (the match bits of the table with the fields in their places): the wings' half. -/
theorem test_decode_wing3 : reads [
  (.wing, 0xB7899468, .sxsav 1 2 19 10 13),
  (.wing, 0xB7A99468, .sxld 1 2 19 10 13),
  (.wing, 0xB7C99468, .sxrst 1 2 19 10 13)] = true := by decide

/-- Words written out from the encodings of R50–R60 (the match bits of the table with the fields in their places): the vector half. -/
theorem test_decode_vector1 : reads [
  (.vector, 0xB033536C, .vadd 1 2 19 10 13 2 1 1),
  (.vector, 0xB053536C, .vsub 1 2 19 10 13 2 1 1),
  (.vector, 0xB073536C, .vmul 1 2 19 10 13 2 1 1),
  (.vector, 0xB093536C, .vfma 1 2 19 10 13 2 1 1),
  (.vector, 0xB0B3536C, .vmin 1 2 19 10 13 2 1 1),
  (.vector, 0xB0D3536C, .vmax 1 2 19 10 13 2 1 1),
  (.vector, 0xB0F35028, .vabs 1 2 19 10 2 1),
  (.vector, 0xB113536D, .vcmp 1 2 19 10 13 2 1 1 1),
  (.vector, 0xB133536C, .vsel 1 2 19 10 13 2 1 1),
  (.vector, 0xB153536C, .vand 1 2 19 10 13 2 1 1),
  (.vector, 0xB173536C, .vor 1 2 19 10 13 2 1 1),
  (.vector, 0xB193536C, .vxor 1 2 19 10 13 2 1 1),
  (.vector, 0xB1B3536C, .vshl 1 2 19 10 13 2 1 1),
  (.vector, 0xB1D3536C, .vshr 1 2 19 10 13 2 1 1),
  (.vector, 0xB2135029, .vcvt 1 2 19 10 2 1 1),
  (.vector, 0xB233536D, .vqnt 1 2 19 10 13 2 1 1 1),
  (.vector, 0xB253536D, .vdq 1 2 19 10 13 2 1 1 1),
  (.vector, 0xB2735368, .vbpk 1 2 19 10 13 2 1),
  (.vector, 0xB2935368, .vbun 1 2 19 10 13 2 1),
  (.vector, 0xB2B35028, .vrcp 1 2 19 10 2 1),
  (.vector, 0xB2D35028, .vrsq 1 2 19 10 2 1),
  (.vector, 0xB2F35028, .vexp2 1 2 19 10 2 1),
  (.vector, 0xB3135028, .vlog2 1 2 19 10 2 1),
  (.vector, 0xB333502A, .vred 1 2 19 10 2 1 2),
  (.vector, 0xB353502A, .vscan 1 2 19 10 2 1 2),
  (.vector, 0xB373536C, .vperm 1 2 19 10 13 2 1 1),
  (.vector, 0xB3935368, .vbcsElement 1 2 19 10 13 2 1),
  (.vector, 0xB3930361, .vbcsScalar 1 2 19 13 2),
  (.vector, 0xB3B30155, .vimm 1 2 19 341),
  (.vector, 0xB3D35028, .vmov 1 2 19 10 2 1)] = true := by decide

/-- Words written out from the encodings of R50–R60 (the match bits of the table with the fields in their places): the vector half. -/
theorem test_decode_vector2 : reads [
  (.vector, 0xB3D35029, .vmovA 1 2 19 10 2 1),
  (.vector, 0xB3F30155, .vaddi 1 2 19 341),
  (.vector, 0xB4115008, .vspsh 1 2 17 10 1),
  (.vector, 0xB4339000, .vspop 1 2 19 18),
  (.vector, 0xB4530000, .vsbal 1 2 19),
  (.vector, 0xB4795000, .gcfg 1 2 25 10),
  (.vector, 0xB49A0000, .grst 1 2 26),
  (.vector, 0xB4B35369, .vnoise 1 2 19 10 13 2 1 1)] = true := by decide

/-- Words written out from the encodings of R50–R60 (the match bits of the table with the fields in their places): the other engines. -/
theorem test_decode_other1 : reads [
  (.matrix, 0xB0205340, .mnest 1 2 10 13),
  (.matrix, 0xB0405021, .mrun 1 2 10 2 1),
  (.matrix, 0xB0605000, .mzero 1 2 10),
  (.matrix, 0xB0805020, .mldc 1 2 10 2),
  (.matrix, 0xB0A05360, .mdrain 1 2 10 13 2),
  (.matrix, 0xB0C05000, .mkat 1 2 10),
  (.matrix, 0xB0F35000, .msig 1 2 19 10),
  (.matrix, 0xB1000000, .mwt 1 2),
  (.copy, 0xB0205340, .xcopy 1 2 10 13),
  (.copy, 0xB0405340, .xfill 1 2 10 13),
  (.copy, 0xB0605340, .xgath 1 2 10 13),
  (.copy, 0xB0805340, .xscat 1 2 10 13),
  (.copy, 0xB0A05341, .xfeed 1 2 10 13 1),
  (.copy, 0xB0C05000, .xtrw 1 2 10),
  (.copy, 0xB0E05340, .xtru 1 2 10 13),
  (.copy, 0xB1005340, .xtrd 1 2 10 13),
  (.copy, 0xB1205340, .xtbld 1 2 10 13),
  (.copy, 0xB1405340, .xtdef 1 2 10 13),
  (.copy, 0xB1935340, .xcrc 1 2 19 10 13),
  (.copy, 0xB1C05000, .xws 1 2 10),
  (.copy, 0xB1F35340, .xref 1 2 19 10 13),
  (.collective, 0xB0205000, .csend 1 2 10),
  (.collective, 0xB0405000, .crecv 1 2 10),
  (.collective, 0xB0605000, .cred 1 2 10),
  (.collective, 0xB0805000, .cbcast 1 2 10),
  (.collective, 0xB0A05000, .ca2a 1 2 10),
  (.collective, 0xB0C05000, .cgath 1 2 10),
  (.collective, 0xB0E05000, .csamp 1 2 10),
  (.collective, 0xB1005340, .cflag 1 2 10 13),
  (.swallowtail, 0xB0205340, .sscfg 1 2 10 13)] = true := by decide

/-- Words written out from the encodings of R50–R60 (the match bits of the table with the fields in their places): the other engines. -/
theorem test_decode_other2 : reads [
  (.swallowtail, 0xB0405000, .ssfeed 1 2 10)] = true := by decide
/-! ## Witnesses: the hypotheses of each statement can be met -/

/-- The w0 of a system core, running with these registers. -/
def sysWing (rs : Sparse Word) (x : PartyState := {}) : State :=
  State.reset.setParty ⟨16, 0, .w0⟩ { x with run := .running, regs := rs }

/-- A task that uses matrix, trellis and vertical FIFOs. -/
def job : Task :=
  ⟨0, 0, 1, 5, 0, [], 0, 0, 0, 0, false, { flags := 15, vregs := 20, scratch := 65536, sections := List.replicate 7 ⟨0, 4096, 0, 0⟩ },
    [], false, 0, []⟩

/-- A party of a task on core 0, running. -/
def atWork (p : Party) (x : PartyState := {}) (c : Ctx := {}) (t : Task := job) : State :=
  (({ State.reset with cur := ⟨0, 0, p⟩ } : State).setCtx 0 0 { c with task := some t }).setParty ⟨0, 0, p⟩ { x with run := .running }

theorem ready0 {s : State} {k : Kind} (h : s.cur.party.map = k) : Ready s k 0 0 := ⟨h, rfl, rfl, rfl, rfl, fun h => absurd rfl h⟩

/-- Whether an outcome is a next state. -/
def isNext : Host.Outcome State Fault Refusal → Bool
  | .next _ => true
  | _ => false

theorem next_of {o : Host.Outcome State Fault Refusal} (h : isNext o = true) : ∃ t, o = .next t := by
  cases o with
  | next t => exact ⟨t, rfl⟩
  | fault _ => cases h
  | refused _ => cases h

/-- The scratchpad window as a register value. -/
def pad : Word := 0x0FF0000000000000

theorem witness_registers : namesRegs (sysWing []) [63, 63, 63] ∧ namesRegs (atWork .m) [31, 31, 31] :=
  ⟨Or.inl rfl, Or.inr (by decide)⟩

theorem witness_scalar_frame : scalarDest (.add 1 2 3) = some 1 ∧ (∃ t, exec (.add 1 2 3) (sysWing []) = .next t) ∧
    scalarDest (.add 40 2 3) = some 40 ∧ ∃ t, exec (.add 40 2 3) (atWork .m) = .next t := ⟨rfl, ⟨_, rfl⟩, rfl, ⟨_, rfl⟩⟩

/-- Retiring in a repetition, past a loop end with and without iterations left. -/
theorem witness_retiring :
    let s := sysWing [] { repc := 2 }
    let l := fun (n : Nat) => sysWing [] { pc := 8, ls := [(1, lsMake 1 2 n)], order := [1] }
    (s.inLock = false ∧ s.me.pc.toNat + 4 < 2 ^ 64 ∧ 2 ≤ s.me.repc.toNat) ∧
    ((l 2).inLock = false ∧ (l 2).me.repc.toNat < 2 ∧ (l 2).me.order = 1 :: [] ∧
      lsEnd (look 0 (l 2).me.ls 1) = (l 2).me.pc.toNat / 4 ∧ 2 ≤ lsLeft (look 0 (l 2).me.ls 1)) ∧
    lsLeft (look 0 (l 1).me.ls 1) = 1 := by decide

theorem witness_loops : (let s := sysWing [(2, 3)]
    s.inLock = false ∧ s.me.pc.toNat + 4 * 2 < imemSize s.cur ∧ (s.reg 2).toNat < 2 ^ 32) ∧
    (let s := sysWing []; decode s.cur.party.map (wordAt s s.cur (s.me.pc.toNat + 4)) = .error .allZero) := by decide

/-- Two active loops and one that has ended between their starts: leaving the ended one turns off the one started after it. -/
theorem witness_lexit : let s := sysWing [] { order := [2, 1], began := [2, 0, 1], ls := [(1, lsMake 1 8 2), (2, lsMake 2 6 2)] }
    s.inLock = false ∧ startedLater s.me (0 : B2).toNat 2 ∧ ¬startedLater s.me (0 : B2).toNat 1 ∧
    ∃ t, exec (.lexit 0) s = .next t ∧ t.me.order = [1] ∧ lsActive (look 0 t.me.ls 2) = false ∧ lsActive (look 0 t.me.ls 1) = true := by
  refine ⟨by decide, ⟨[2], [1], rfl, by decide, by decide⟩, ?_, _, rfl, by decide⟩
  rintro ⟨a, b, h, ha, hk⟩
  change [2, 0, 1] = a ++ 0 :: b at h
  match a with
  | [] => simp at hk
  | [x] => simp only [List.cons_append, List.nil_append, List.cons.injEq] at h; simp [← h.1] at hk
  | [x, y] => simp only [List.cons_append, List.nil_append, List.cons.injEq] at h; simp [← h.2.1] at ha
  | x :: y :: z :: a => have := congrArg List.length h; simp at this

/-- Branches at both ends of the instruction memory. -/
theorem witness_branches : (let s := sysWing [(1, 5), (2, 5)]
    s.inLock = false ∧ s.reg 1 = s.reg 2 ∧ s.reg 1 ≠ s.reg 3 ∧ (0 : Int) ≤ s.me.pc.toNat + 4 * (4 : BitVec 13).toInt) ∧
    (let s := sysWing [(1, 0xFFFC)] { pc := 0xFFFC }
     (s.me.pc.toNat : Int) + 4 * (-1 : BitVec 13).toInt < imemSize s.cur ∧ (s.reg 1 + 0).toNat < imemSize s.cur) := by decide

/-- A jump from inside a loop out of it, and a branch that is not taken there. -/
theorem witness_transfer : let s := sysWing [] { pc := 8, ls := [(1, lsMake 1 3 2)], order := [1] }
    mayTransfer (.jmp 4) = true ∧ (∃ t, exec (.jmp 4) s = .next t ∧ t.last = .transferred ∧ t.me.order = []) ∧
    mayTransfer (.bne 0 0 4) = true ∧ ∃ t, exec (.bne 0 0 4) s = .next t ∧ t.last = .retired ∧ t.me.order = [1] :=
  ⟨rfl, ⟨_, rfl, rfl, by decide⟩, rfl, _, rfl, rfl, by decide⟩

theorem witness_tokens : (let s := sysWing [] { peers := [(1, .w1)], tkc := 1 }
    peerOf s.me 1 = some .w1 ∧ tokens s.me 1 ≠ 0 ∧ tokens (s.party ⟨16, 0, .w1⟩) 1 < 15 ∧
    partyKey ⟨16, 0, .w1⟩ ≠ partyKey s.cur ∧ s.inLock = false ∧ scratchLate s s.cur = false ∧ drainsOut s = false ∧
    s.me.busy = none) ∧
    (∀ o ∈ ((atWork .m).core 0).ops, o.slot ≠ 0) ∧ (atWork .m).cur.party.isWing = false := by
  refine ⟨by decide, fun o h => ?_, rfl⟩
  cases h

/-- R34: a command that starts pops its token, is not held up by the empty queue afterwards, and gives the token back where it traps
(R49). -/
theorem test_start_pops : let x := startPop { tkc := 0x21 } 1
    x.tkc = 0x20 ∧ hasToken x 1 = true ∧ hasToken { tkc := 0x20 } 1 = false ∧ (giveBack x).tkc = 0x21 := by decide

/-- WAITEV with an event pending, and past its deadline with none. -/
theorem witness_waitev : (let s := sysWing [(2, 0)] { evp := 5 }
    s.me.evp &&& (4 : BitVec 5) ≠ 0) ∧
    (let s : State := { sysWing [(2, 7)] with time := 9 }
     s.me.evp &&& (4 : BitVec 5) = 0 ∧ s.reg 2 ≠ 0 ∧ (s.reg 2).toNat ≤ s.time ∧ alive s s.cur = true) := by decide

theorem witness_trap : (sysWing []).cur.slot < 2 ∧ ¬(isSystem (sysWing []).cur.core = true ∧ (sysWing []).cur.party = .w0 ∧
    ((sysWing []).die (dieOf (sysWing []).cur.core)).inh = true) := by decide

theorem witness_sysregs : regTrap (sysWing []) 8 = none ∧ regTrap (sysWing []) 0x1C4 = none ∧
    (∃ t, writeReg (sysWing []) 0x200 7 = some t) ∧ (∃ t, writeReg (atWork .v) 0x84 7 = some t) ∧
    (atWork .w0).supervisor = false ∧ markedSv 0x290 ∧ markedSv 0x294 ∧ ¬markedSv 0x295 ∧ markedSv 0x333 :=
  ⟨rfl, rfl, ⟨_, rfl⟩, ⟨_, rfl⟩, rfl, by unfold markedSv; decide, by unfold markedSv; decide, by unfold markedSv; decide,
    by unfold markedSv; decide⟩

theorem witness_supervisor_writes : (let s := sysWing []
    s.supervisor = true ∧ s.cur.party.isWing = true ∧ (s.core s.me.csel.toNat).part ≠ (3 : Word).setWidth 7 ∧
    s.me.csel.toNat % 17 ≠ 16 ∧ (∀ k < 2, (s.ctx 0 k).task = none ∧ (s.ctx 17 k).task = none) ∧ s.prstat.getLsbD 7 = false ∧
    look 64 (s.die (s.me.rsel.toNat / 256)).rslots (s.me.rsel.toNat % 256) = 64) ∧
    (let s : State := { sysWing [] with owners := [(6, 0)] }
     6 < framesOf 0 ∧ frameHome 0 0 6 = dieOf s.cur.core ∧ ownerOf s (frameCode 0 0 6) = s.me.psel.toNat ∧
     ownerOf s (frameCode 0 0 8) ≠ s.me.psel.toNat) ∧
    (∃ c, frselFrame (sysWing []) = some c ∧ frownOf (sysWing []) c ≠ 3 ∧ frameBusy (sysWing []) c = false) :=
  ⟨by decide, by decide, _, rfl, by decide, by decide⟩

theorem witness_windows : ({ State.reset with mgmt := { mstat := 7 } } : State).mgmt.mstat.toNat % 16 = 7 := rfl

/-- A word of the wing's own scratchpad, at its first byte. -/
theorem witness_loads : let s := sysWing [(2, pad)]
    Ready s .wing 0 0 ∧ Present s ∧ releaseOut s s.cur = false ∧ ∃ p u bs, reach s pad.toNat false = .place p ∧ reach s pad.toNat true = .place p ∧
      p.home = dieOf s.cur.core ∧ owed s p.home (clockOf s p.home) = false ∧ held s p = false ∧ p.readOnly = false ∧
      hitsControl p 8 = false ∧ readPlace s s.cur s.myPart false p 8 = (u, some bs) ∧ revokedPlace s p = false ∧ s.Inv ∧
      ∃ v, performWrite s s.cur p (bytesOfNat 8 5) = some v :=
  ⟨ready0 rfl, ⟨rfl, rfl, rfl⟩, rfl, _, _, _, rfl, rfl, rfl, rfl, rfl, rfl, rfl, rfl, rfl, rfl, _, rfl⟩

theorem witness_memory_frames : (∃ t, exec (.std 0 0 1 2 0) (sysWing [(2, pad)]) = .next t) ∧
    (∃ t, exec (.ldd 0 0 1 2 0) (sysWing [(2, pad)]) = .next t) ∧ atomicForm (.amoAdd 0 0 0 1 2 3) = some (1, 2) ∧
    (∃ t, exec (.amoAdd 0 0 0 1 2 3) (sysWing [(2, pad)]) = .next t) ∧ (sysWing [(2, pad)]).Inv :=
  ⟨⟨_, rfl⟩, ⟨_, rfl⟩, rfl, ⟨_, rfl⟩, rfl⟩

/-- A misaligned load, and atomics with an old value that equals the comparand and one that does not. -/
theorem witness_atomics : (pad + 1).toNat % 2 ^ 1 ≠ 0 ∧ reach (sysWing [(2, pad + 1)]) (pad + 1).toNat false ≠ .privilege ∧
    ¬(weightBase ≤ pad.toNat ∧ pad.toNat < weightEnd) ∧
    mustWait (sysWing []) 0 false true = false ∧ BitVec.ofNat 64 0 = (sysWing []).reg 1 ∧
    BitVec.ofNat 64 0 ≠ (sysWing [(1, 3)]).reg 1 := by decide

theorem witness_fences : settled (sysWing []) 0 = true ∧ (sysWing [(2, pad)]).inLock = false ∧ Present (sysWing []) ∧
    mustWait (sysWing []) 0 true false = false := by unfold Present; decide

/-- A wing asleep at a word of its scratchpad, for the value `v`. -/
def sleeper (v : Word) (now : Nat) : State :=
  { sysWing [(2, pad), (3, v)] { wait := .asleep (phys (tagScratch 16) 0 / 64) 1000 } with
    time := now, mem := writeBytes [] (imemPhys State.reset ⟨16, 0, .w0⟩ 0) (bytesOfWord ((encode (.mwait 0 0 1 2 3)).getD 0)) }

theorem witness_sleepers : ∀ e ∈ [((5 : Word), 0), (0, 0), (0, 2000)],
    let s := sleeper e.1 e.2
    let s1 := (s.modParty ⟨16, 0, .w0⟩ (fun x => { x with wait := .no })).setCur ⟨16, 0, .w0⟩
    alive s ⟨16, 0, .w0⟩ = true ∧ (s.party ⟨16, 0, .w0⟩).wait = .asleep (phys (tagScratch 16) 0 / 64) 1000 ∧
    instrAt s ⟨16, 0, .w0⟩ (s.party ⟨16, 0, .w0⟩).pc.toNat = some (.mwait 0 0 1 2 3) ∧
    Ready s1 .wing 0 0 ∧ Present s1 ∧ s1.inLock = false ∧ s1.reg 3 = e.1 ∧
    ∃ p u, reach s1 (s1.reg 2).toNat false = .place p ∧ mustWait s1 p.home true false = false ∧
      readPlace s1 ⟨16, 0, .w0⟩ s1.myPart false p 8 = (u, some (List.replicate 8 0)) := by
  intro e he
  have hd : instrAt (sleeper 0 0) ⟨16, 0, .w0⟩ 0 = some (.mwait 0 0 1 2 3) := by decide
  simp only [List.mem_cons, List.not_mem_nil, or_false] at he
  obtain rfl | rfl | rfl := he <;>
    exact ⟨by decide, rfl, hd, ready0 rfl, ⟨rfl, rfl, rfl⟩, rfl, rfl, _, _, rfl, rfl, rfl⟩

/-- A wing of a task on core 0, with other parties of its slot. -/
def wing (rs : Sparse Word) (x : PartyState := {}) (c : Ctx := {}) (t : Task := job) : State :=
  atWork .w0 { x with regs := rs } c t

/-- A write on its way, and a load with the same home. -/
def away : Flight := ⟨1, 3, 0, 1, [], ⟨0, 0, .w0⟩, 0, 5, false, 0, [7], none, false⟩

theorem witness_flights : let s : State := { wing [] with flights := [away, { away with copy := true }] }
    s.flights[0]? = some away ∧ mayApply s away = true ∧
    (writePlace { s with flights := s.flights.eraseIdx 0 } away.agent away.part away.clock
      (placeOf away.phys away.home away.slot) away.bytes).isSome = true ∧
    (writePlace { s with flights := s.flights.set 0 { away with copy := true } } away.agent away.part away.clock
      (placeOf away.phys away.home away.slot) away.bytes).isSome = true := by decide

theorem witness_remote_loads : let q : LoadReq := ⟨⟨0, 0, .w0⟩, 3, [], 0, 8, false, false, false, 1, none, 0, 0, 0⟩
    let s : State := { wing [] { wait := .load } with loads := [q] }
    s.loads[0]? = some q ∧ (s.party q.agent).wait = .load ∧ alive s q.agent = true ∧ owed s q.home q.clock = false ∧
    held s (placeOf q.phys q.home q.slot) = false ∧
    signalWaits (s.setCur q.agent) q.g = false ∧
    (readPlace (withLag { s with loads := s.loads.eraseIdx 0 } q.agent q.lag) q.agent s.myPart q.acquires
      (placeOf q.phys q.home q.slot) q.size).2.isSome = true := by decide

/-- A write whose merge meets two flipped bits. -/
theorem witness_dropped_write : let s : State := { wing [] with flights := [away], flips := [(0, 3)] }
    s.flights[0]? = some away ∧ mayApply s away = true ∧
    writePlace { s with flights := s.flights.eraseIdx 0 } away.agent away.part away.clock
      (placeOf away.phys away.home away.slot) away.bytes = none := by decide

/-- A slot whose queue 0 begins with these items. -/
def queued (is : List Item) (x : PartyState := {}) : State :=
  wing [] x { sh := { queues := [(0, is)] } }

theorem witness_enq : Ready (queued [.notify]) .wing 0 0 ∧ (let s := queued [.notify]
    s.supervisor = false ∧ s.myCtx.sh.notified.getLsbD 0 = false ∧ 64 * 63 < sectionSize s 1 ∧ (myQueue s 0).length < 16) ∧
    (let s := sysWing []
     s.supervisor = true ∧ s.myCtx.sh.notified.getLsbD 2 = false ∧ (myQueue s 2).length < 16 ∧ scratchLate s s.cur = false) ∧
    scratchLate (sysWing [] { view := { late := [⟨phys (tagScratch 16) 0, 0, none, [1], false, 0, none⟩] } }) ⟨16, 0, .w0⟩ = true :=
  ⟨ready0 rfl, by decide, by decide, by decide⟩

theorem witness_marks : let s := queued [.notify]
    Ready s .wing 0 0 ∧ (∀ q < 6, Nat.testBit 63 q = true →
      (s.supervisor = true → 2 ≤ q) ∧ s.myCtx.sh.notified.getLsbD q = false ∧ (myQueue s q).length < 16) ∧
    look 0 s.myCtx.sh.rv 15 = 0 ∧ 2 ≤ (maskQueues 3).length := ⟨ready0 rfl, by decide, by decide, by decide⟩

/-- An entry, a mark and a notify at the head of the matrix engine's queue. -/
theorem witness_queue_heads : queueOf .m = 0 ∧
    (let s := queued [.entry 64 [1, 2, 3, 4]]; queueAt s 0 0 0 = [.entry 64 [1, 2, 3, 4]] ∧ mayBegin s ⟨0, 0, .m⟩ = true) ∧
    (let s := queued [.mark 0]; slotAlive s 0 0 = true ∧ engineIdle s 0 0 .m = true) := by decide

theorem witness_joins : let s := wing [] {} { sh := { queues := [(0, [.join 3]), (1, [.join 3, .notify])] } }
    (∀ q < 6, (3 : BitVec 6).toNat.testBit q = true →
      (queueAt s 0 0 q).head? = some (.join 3) ∧ engineIdle s 0 0 (engineOf q) = true) ∧
    (∀ i < 4, (3 : BitVec 6).toNat.testBit i = false → queueAt s 0 0 i = []) ∧ slotAlive s 0 0 = true := by decide

/-- Groups at both ends of their range, and a barrier that has completed. -/
theorem witness_groups : Ready (wing [(1, 4095)]) .wing 0 0 ∧ (let s := wing [(1, 4095)] { groups := [0] }
    (s.reg 1).toNat ≤ 4095 ∧ (s.reg 1).toNat ∉ s.me.groups ∧ s.me.groups.length < 8) ∧
    (let s := wing [] { groups := [0], wait := .bar 0 true }
     (s.reg 1).toNat ∈ s.me.groups ∧ s.me.wait = .bar 0 true) := ⟨ready0 rfl, by decide, by decide⟩

theorem witness_lone_barrier : let s := wing [(1, 2)] { groups := [2] }
    (s.reg 1).toNat ∈ s.me.groups ∧ s.cur.slot < 2 ∧ settled s (dieOf s.cur.core) = true ∧
    s.me.view.late = [] ∧ s.me.wait ≠ .bar 2 true ∧ s.inLock = false ∧
    (members (s.modMe (fun x => { x with wait := .bar 2 false })) (groupSpace s s.cur) 2).map (·.1) = [s.cur] ∧
    memberAway s (groupSpace s s.cur) 2 = false := by decide

/-- Three wings at a WLOCK, and four in lock-step. -/
theorem witness_lock_step : (let s := (((wing []).setParty ⟨0, 0, .w1⟩ { run := .running, wait := .lock 0 0 0 }).setParty
      ⟨0, 0, .w2⟩ { run := .running, wait := .lock 0 0 0 }).setParty ⟨0, 0, .w3⟩ { run := .running, wait := .lock 0 0 0 }
    s.inLock = false ∧ ∀ p ∈ wings, p ≠ s.cur.party → lockAddr (s.party ⟨s.cur.core, s.cur.slot, p⟩) = some s.me.pc) ∧
    (let s := wing [] {} { sh := { lock := true } }; s.inLock = true ∧ s.cur.party = .w0) := by decide

theorem witness_supersteps : (let t : Task := { job with superstep := true }
    let s := wing [] { wait := .step true } {} t
    s.myCtx.task = some t ∧ t.superstep = true ∧ s.me.wait = .step true) ∧
    (let t : Task := { job with superstep := true }
     let l : Launch := ⟨1, 0, 0, 0, true, 1, 0, [1], 0, 0, 0, 0, {}, 0, 1, 0, 0, none, 0⟩
     let w := (wing [] { wait := .step false } {} t)
     let s := (((w.setParty ⟨0, 0, .w1⟩ { run := .ended }).setParty ⟨0, 0, .w2⟩ { run := .ended }).setParty ⟨0, 0, .w3⟩
       { run := .ended }).setQueue 0 0 { head := some l }
     mayAdvance s 0 0 = true ∧ (launchSlots s 0 0).Nodup ∧ launchSlots s 0 0 = [(0, 0)]) := by decide

theorem witness_waitev_deadline : let s : State := { sysWing [(3, 5)] with
      time := 5
      mem := writeBytes [] (imemPhys State.reset ⟨16, 0, .w0⟩ 0) (bytesOfNat 4 (encode (.waitev 0 3 31)).get!.toNat) }
    instrAt s ⟨16, 0, .w0⟩ 0 = some (.waitev 0 3 31) ∧ alive s ⟨16, 0, .w0⟩ = true ∧
    s.inLock = false ∧ s.reg 3 ≠ 0 ∧ (s.reg 3).toNat ≤ s.time ∧
    (∃ t, exec (.waitev 0 3 31) (s.setCur ⟨16, 0, .w0⟩) = .next t) :=
  ⟨by decide, by decide, by decide, by decide, by decide, _, rfl⟩

/-- Row page 0 belongs to partition 0. -/
def rowed (s : State) : State := { s with pages := [(1, .rowPage 0), (2, .rowPage 31)] }

/-- The walk meets a free row in the phase asked for. -/
theorem witness_seqclm : let s := rowPut (rowed (wing [(2, 0x0103)])) 3 9 1 3
    s.flips = [] ∧ (s.reg 1).toNat % 2 = 0 ∧ (s.reg 2).toNat = 0x0103 ∧ inScratch s.cur.core 0 2 = true ∧
    settled s (dieOf s.cur.core) = true ∧ s.me.view.late = [] ∧ s.myPart = 0 ∧
    (let r := claimRows false 3 1 0 (fromCursor (rowsOf s 0) (look 0 (s.part 0).cursor 3))
       (learn s (dieOf s.cur.core) (allKnown s)) [] 0 (look 0 (s.part 0).cursor 3)
     r.2 = ([3], 0, 4) ∧ (writeScratch (r.1.modPart 0 (fun q => { q with cursor := put q.cursor 3 4 })) s.cur.core s.cur.slot 0
       (bytesOfNat 2 3)).isSome = true) := by decide +kernel

theorem witness_claimed_rows : let s := rowPut (rowed (wing [])) 16383 9 1 3
    Memory.wf s.mem = true ∧ [16383].Nodup ∧ rowPhase s 16383 = 3 ∧ rowClaimed s 16383 = false ∧
    (claimRows true 3 1 0 [16383] s [] 0 0).2 = ([16383], 0, 0) := by decide +kernel

/-- Behind the gate: a row without a ready mask whose deadline is now, one whose deadline is to come, and one that is ready. -/
theorem witness_overdue_rows : let f := fun (s : State) (r : Nat) => rowPut (rowPut s r 9 1 3) r 0x30 8 1
    let s : State := { rowPut (rowPut (rowPut (f (f (rowed (wing [])) 0) 1) 0 0x38 8 7) 1 0x38 8 8) 2 9 1 3 with time := 7 }
    Memory.wf s.mem = true ∧ (claimRows true 3 1 0 [0, 1, 2] s [] 0 0).2 = ([2], 1, 3) ∧ 0 ∈ examined [0, 1, 2] [2] 1 ∧
    rowGet s 0 0x30 8 ≠ rowGet s 0 0x10 4 ∧ rowGet s 0 0x38 8 ≠ 0 ∧ rowGet s 0 0x38 8 ≤ s.time ∧ s.time < rowGet s 1 0x38 8 := by
  decide +kernel

/-- A VOID row, a row of the task that is voiding or not, and a row that another task has claimed. -/
theorem witness_seqadv : let s := rowed (wing [(1, 511), (2, 255)])
    let c := fun (flags serial : Nat) => rowPut (rowPut s 511 10 1 flags) 511 12 4 (serial * 1024)
    s.flips = [] ∧ rowOwner s 511 = some s.myPart ∧ mustWait s (rowHome 511) false true = false ∧ (s.reg 1).toNat = 511 ∧
    rowPhase s 511 = 0 ∧ rowClaimed s 511 = false ∧ Memory.wf s.mem = true ∧
    (rowClaimed (c 1 5) 511 = true ∧ rowSerial (c 1 5) 511 = (c 1 5).mySerial.toNat ∧ rowVoiding (c 1 5) 511 = false) ∧
    rowVoiding (c 3 5) 511 = true ∧ rowClaimed (c 1 6) 511 = true ∧
    rowSerial (c 1 6) 511 ≠ (c 1 6).mySerial.toNat := by decide +kernel

/-- A suffix index of partition 0 with its quota used up, and one with room. -/
def suffixed (x : Suffix) (rs : Sparse Word) : State := { wing rs with suffixes := [(65535, x)] }

theorem witness_suffixes : let s := wing [(1, 65535), (2, 256)]
    writeWaits s (suffixHome 65535) false false = false ∧ (suffix s 65535).owner = none ∧
    ((wing [(1, 65535)]).reg 2).toNat = 0 ∧ quotaOk s 65535 256 = true ∧
    (let s := suffixed { owner := some 0, q := 256, n := 1, toks := [7] } [(1, 65535), (2, 2 ^ 32 + 9)]
     (suffix s 65535).owner = some s.myPart ∧ (s.reg 2).toNat / 2 ^ 32 = (suffix s 65535).n ∧
     (suffix s 65535).n - (suffix s 65535).e ≠ (suffix s 65535).q) ∧
    (let x : Suffix := { owner := some 0, q := 256, n := 256, toks := List.replicate 256 7 }
     let s := suffixed x [(1, 65535), (2, 2 ^ 32 * 256)]
     (s.reg 2).toNat / 2 ^ 32 = (suffix s 65535).n ∧ (suffix s 65535).n - (suffix s 65535).e = (suffix s 65535).q) := by
  decide +kernel

/-- The last token has occurred before: one token follows it. -/
theorem witness_sxqry : let x : Suffix := { owner := some 0, q := 256, n := 3, toks := [7, 9, 7] }
    let s := suffixed x [(1, 65535), (2, 16 * 2 ^ 32)]
    x.owner = some s.myPart ∧ inScratch s.cur.core 0 64 = true ∧ mustWait s (suffixHome 65535) false false = false ∧
    scratchLate s s.cur = false ∧
    bestMatch x.toks.reverse (x.toks.reverse.drop 1) 1 (0, 0) = (1, 2) ∧
    (writeScratch s s.cur.core s.cur.slot 0 (bytesOfNat 4 9 ++ bytesOfNat 4 7)).isSome = true := by decide +kernel

/-- Pages 0 and 1 of partition 0 lie in its frames 0 and 1 of stacked DRAM. -/
def paged2 (rs : Sparse Word) : State :=
  { (wing rs).setPart 0 { frg := 2, keyn := 2, created := true } with
    pages := [(0, .frame 0 0), (1, .frame 0 1)], owners := [(0, 0), (1, 0)] }

theorem witness_probe : let s := paged2 [(1, 65535), (2, 2)]
    (s.reg 1).toNat + (s.reg 2).toNat ≤ 2 ^ 60 ∧ (s.reg 2).toNat ≠ 0 ∧ drained s s.cur.core 0 = true ∧
    drained s s.cur.core 1 = true ∧ (∃ ps, checkPages s (strongFrames s s.myPart) (pagesOf 65535 2) 0 [] = .ok ps ∧
      overGuarantee s s.myPart ps (strongFrames s s.myPart) = none) ∧
    privilegedPage s 65535 2 = none ∧
    (let u := { s with pins := [⟨5, 0, 0, 2⟩, ⟨5, 0, 1, 1⟩, ⟨6, 0, 1, 1⟩] }
     let off := fun (f : Nat) => pagesTo u u.myPart 0 (pagesOf 65535 2) f
     u.mySerial = 5 ∧ off 0 = 1 ∧ off 1 = 1) :=
  ⟨by decide, by decide, by decide, by decide, ⟨[(0, 0), (65536, 1)], by decide +kernel, by decide +kernel⟩, by decide,
    by decide +kernel⟩

/-- A page of another partition's, in a window, beyond the guarantee, and one that is not mapped. -/
theorem witness_bad_probes : (let s : State := { (wing []).setPart 0 { created := true } with
      pages := [(2 ^ 44, .frame 0 0)], owners := [(0, 1)], windows := [(0, ⟨1, 0, 0, 65536, 1, false, 0, 0, true, [], []⟩)] }
    privilegedPage s windowBase 1 = none ∧ ∃ ps, checkPages s (strongFrames s s.myPart) (pagesOf windowBase 1) (windowBase / 65536) [] = .ok ps ∧
      overGuarantee s s.myPart ps (strongFrames s s.myPart) = some windowBase) ∧
    (let s := paged2 [(1, 131072), (2, 1)]
     privilegedPage s 131072 1 = none ∧ checkPages s (strongFrames s s.myPart) (pagesOf 131072 1) 2 [] = .error (.bad 131072)) :=
  ⟨⟨by decide, [(windowBase, 0)], by decide +kernel, by decide +kernel⟩, by decide, rfl⟩

/-- A pin that the task has, and one that another has. -/
theorem witness_pins : let pins : List Pin := [⟨5, 0, 0, 2⟩, ⟨6, 0, 0, 1⟩]
    (∃ p ∈ pins, p.serial = 5 ∧ p.frame = 0) ∧ (∃ p ∈ pins, ¬(p.serial = 5 ∧ p.frame = 0)) ∧
    ∀ p ∈ pins, ¬(p.serial = 5 ∧ p.frame = 1) := by decide

/-- An object of partition 0 with one frame and these counts, and a handle of it. -/
def thing (n : Nat) (live := true) (draining := false) : Obj := ⟨3, n, 1, live, draining, 65536, 0, [1], 0, []⟩
def holder (n : Nat) (weak : Bool) (rs : Sparse Word := []) : State :=
  { paged2 ((1, makeHandle (thing n) 9 weak) :: rs) with objects := [(9, thing n)] }

theorem witness_handles : (let s := holder 2 false [(2, 15)]
    homeReady s (s.reg 1) true = true ∧ liveObj s (s.reg 1) = some (thing 2) ∧ handleWeak (s.reg 1) = false ∧ 1 < (thing 2).count ∧
    frs s s.myPart + 0 ≤ (s.part s.myPart).frg.toNat ∧ (thing 2).count ≠ 2 ^ 32 - 1 ∧ (s.reg 2).toNat < 16) ∧
    (let s := holder 1 true; handleWeak (s.reg 1) = true ∧ liveObj s (s.reg 1) = some (thing 1)) ∧
    (let s := holder 1 false; handleWeak (s.reg 1) = false ∧ objPinned s (thing 1) = false) ∧
    (let s := holder 0 true; handleWeak (s.reg 1) = true ∧ liveObj s (s.reg 1) = some (thing 0)) := by decide +kernel

theorem witness_gone : (let s : State := { holder 1 true [(2, 65528)] with tags := [(2, 2)] }
    (s.reg 2).toNat % 8 = 0 ∧ homeReady s (s.reg 1) false = true ∧ (thing 1).frames[(s.reg 2).toNat / 65536]? = some 1 ∧
    (readPlace (readLife s (s.reg 1)) s.cur s.myPart false ⟨framePhys 0 0 0 1 65528, objHome (thing 1), some 0, none, false, true⟩ 8).2.isSome = true ∧
      s.me.view.lag = 0 ∧ s.me.view.late = [] ∧ lateParties s s.cur.core = []) ∧
    (let s := wing [(1, 9)]; homeReady s (s.reg 1) false = true ∧ liveObj s (s.reg 1) = none) ∧
    (wing []).me.gone = false ∧ (wing [] { gone := true }).me.gone = true ∧ (wing []).inLock = false := by decide +kernel

theorem witness_destruction : let s : State := { paged2 [] with objects := [(9, thing 0 false true)] }
    seek s.objects (0 * 2 ^ 24 + 9) = some (thing 0 false true) ∧ (thing 0 false true).draining = true ∧
    (thing 0 false true).frames.any (fun f => frameInFlight s 0 f) = false := by decide +kernel

/-- Window 255, of partition 0 to partition 1 or from it. -/
def windowed (x : Window) (rs : Sparse Word) : State := { paged2 rs with windows := [(255, x)] }

theorem witness_windows_close : (let x : Window := ⟨0, 1, 0, 65536, 1, false, 3, 0, true, [], []⟩
    let s := windowed x [(1, 255), (2, 1)]
    sharedWindow s (s.reg 1).toNat = some x ∧ isWriter s x = true ∧ isWriter s { x with importerWrites := true } = false ∧
    sharedWindow s 254 = none ∧ mustWait s x.home false true = false ∧
    mustWait s x.home true false = false ∧ commandInto s s.myPart x = false ∧ regionBusy s x = false) := by decide +kernel

theorem firstFrom_some (l : List Nat) (i n : Nat) (ok : Nat → Bool) (hn : n ∈ l) (h : ok n = true) :
    ∃ m, firstFrom l i ok = some m := by
  refine Option.isSome_iff_exists.mp (List.find?_isSome.mpr ⟨n, ?_, h⟩)
  rw [← List.take_append_drop (i % (l.length + 1)) l, List.mem_append] at hn
  exact List.mem_append.mpr hn.symm

/-- The record of a window of one page to partition 1, in the scratchpad. -/
def opening : List Byte := bytesOfNat 8 65536 ++ bytesOfNat 8 65536 ++ bytesOfNat 16 1
def opener : State := { paged2 [] with mem := writeBytes [] (scratchPhys (paged2 []) 0 0 0) opening }

/-- WINOPEN of it: whichever number and key slot are drawn. -/
theorem witness_winopen : let s := opener
    (scratchLate s s.cur = false ∧ (s.reg 1).toNat = 0 ∧ inScratch s.cur.core 0 32 = true ∧
      readScratch s s.cur.core s.cur.slot 0 32 = some (s, opening) ∧ recField opening 16 1 = 1 ∧ recField opening 17 1 = 0 ∧
      recField opening 18 14 = 0 ∧ s.myPart = 0 ∧ frameAt s 0 65536 = some 1 ∧ (1 : Nat) ∈ strongFrames s 0) ∧
    (∀ x : Window, x.exporter = 0 → x.base = 65536 → x.length = 65536 → regionBusy s x = false) ∧
    (∀ i, ∃ n, firstFrom (List.range 256) i (fun k => (seek s.windows k).isNone) = some n) ∧
    (∀ i, ∃ n, firstFrom ((List.range (s.part 0).keyn.toNat).map (fun k => (s.part 0).keyb.toNat + k)) i
      (fun k => !(s.key k).loaded && !(namedSlots s 0).contains k) = some n) :=
  ⟨by decide +kernel, fun x h1 h2 h3 => by
      have : regionFrames opener 0 65536 65536 = [(0, 1)] := by decide +kernel
      simp only [regionBusy, h1, h2, h3, this]; decide,
    fun i => firstFrom_some _ i 0 _ (by simp) (by decide), fun i => firstFrom_some _ i 0 _ (by decide) (by decide +kernel)⟩

theorem freeId_empty (s : State) (p k i : Nat) (h : s.objects = []) (hk : k ≠ 0) : ∃ n, freeId s p k i = some n := by
  obtain ⟨m, rfl⟩ := Nat.exists_eq_succ_of_ne_zero hk
  exact ⟨_, by simp [freeId, h, seek]; rfl⟩

/-- HNEW of 64 KB of stacked DRAM: whichever frame and number are drawn. -/
theorem witness_hnew : let s := (wing [(1, 65536), (2, 0)]).setPart 0 { frg := 2, keyn := 2, created := true }
    ((s.reg 1).toNat ≠ 0 ∧ (s.reg 2).toNat / 2 ^ 28 = 0 ∧ mayName s s.myPart 0 = true ∧
      frs s s.myPart + 1 ≤ (s.part s.myPart).frg.toNat ∧ frw s s.myPart = 0) ∧
    (pickHome s.draw.2 0 1 s.draw.1 16 s.draw.1).isSome = true ∧ (∃ n, freeId s.draw.2 0 (2 ^ 24 - 1) s.draw.1 = some n) :=
  ⟨by decide, by decide +kernel, freeId_empty _ _ _ _ rfl (by decide)⟩

/-- HNEW of 4 GB, beyond the guarantee. -/
theorem witness_hnew_beyond : let s := (wing [(1, 2 ^ 32), (2, 0)]).setPart 0 { frg := 2, keyn := 2, created := true }
    (s.reg 1).toNat ≤ 2 ^ 32 ∧ mayName s s.myPart 0 = true ∧
      ¬(frs s s.myPart + ((s.reg 1).toNat + 65535) / 65536 ≤ (s.part s.myPart).frg.toNat) := by decide

/-- A switch point 255 whose three variants have word offsets 0, 8 and 16. -/
theorem witness_switch_points : let t : Task := { job with hdr := { job.hdr with switches := [(255, 0, 8, 16)] } }
    let s := wing [] {} {} t
    taskFlag s 0 = true ∧ switchAt s 255 0 = some 0 ∧ switchAt s 255 2 = some 64 ∧ s.inLock = false ∧
    variantOf (s.part s.myPart) = 2 ∧ 64 + 4 < imemSize s.cur := by decide +kernel

theorem witness_clocks : (let s := wing [(1, 3), (2, 12)]
    (s.reg 1).toNat ≤ 3 ∧ 12 ≤ (s.reg 2).toNat ∧ (s.reg 2).toNat ≤ 48 ∧ s.supervisor = false) ∧
    (let s := sysWing [(1, 0), (2, 48)]; s.supervisor = true ∧ s.reg 1 ≠ 1 ∧ s.reg 1 ≠ 2) ∧
    (let s := wing [(1, 1)]; s.reg 1 = 1 ∧ (s.core (upperOf s.cur.core)).gated = false) ∧
    (let s := wing [(1, 31)]; (s.reg 1).toNat < 32 ∧ (s.reg 1).toNat % 16 ≠ 0) := by decide

theorem witness_gates : (let s := (wing []).setCore 17 { gatePending := true }; mayGate s 17 = true) ∧
    (((wing []).setCore 17 { gated := true, waking := true }).core 17).waking = true := by decide

theorem witness_accounts : let s : State := { (wing []).setPart 0 { created := true, ecap := 5, granted := true } with time := 1000000 }
    seek s.parts 0 = some { created := true, ecap := 5, granted := true } ∧ s.due.energy ≤ s.time ∧ s.due.refill ≤ s.time ∧
    s.due.grant ≤ s.time ∧ (s.part 0).spent = false ∧ { s.due with energy := 200000 }.grant < 200000 ∧
    (s.ctx 0 0).task = some job ∧ job.part = 0 := by decide

theorem witness_boost_pools : ({ wing [] with time := 4000 } : State).due.interval ≤ 4000 ∧
    State.reset.due.interval < State.reset.due.pool ∧ ({ wing [] with time := 32000 } : State).due.pool ≤ 32000 := by decide

/-! ### Launches -/

/-- A launch of partition 0 with two iterations. -/
def twice : Launch := ⟨1, 0, 0, 0, false, 1, 0xFFFFF0, [2], 0, 0, 0, 0, {}, 0, 0, 0, 0, none, 0⟩

/-- Core 0 belongs to partition 0, whose queue 0 has the head `l`. -/
def launching (l : Launch) (f : LQueue → LQueue := id) (s : State := State.reset) : State :=
  ((s.setPart 0 { frg := 200, keyn := 2, created := true }).setCore 0 { part := 0 }).setQueue 0 0
    (f { qcfg := 0xA0000004, head := some l })

/-- A record, and at address 0 of its partition the header of a kernel with nothing in it. -/
def record : List Byte := bytesOfNat 4 0x0100 ++ bytesOfNat 8 0xFFFFF000000001 ++ bytesOfNat 28 0 ++ bytesOfNat 24 2

def withKernel (s : State) : State :=
  { s with pages := [(0, .frame 0 0)], owners := [(0, 0)], tags := [(0, 2)], mem := writeBytes [] 0 (bytesOfNat 192 0x1004B585649) }

theorem witness_records : let f := fun (r : Option (List Byte)) (x : LQueue) => { x with head := none, recs := [(7, r)] }
    (let s := withKernel (launching twice (f (some record)))
     queueMoves s 0 0 = true ∧ ((copyIn s 0 0).queue 0 0).head = none ∧ ((copyIn s 0 0).queue 0 0).recs = [(7, some record)] ∧
     (match checkRecord s 0 7 record with | .ok l => decide (iterations l = 2) | .error _ => false) = true ∧
     (match checkRecord s 0 7 (record.take 40 ++ bytesOfNat 24 0) with | .ok l => decide (iterations l = 0) | .error _ => false) = true) ∧
    (let s := launching twice (f (some []))
     queueMoves s 0 0 = true ∧ (match checkRecord s 0 7 [] with | .ok _ => false | .error c => decide (c = 1)) = true) ∧
    ((copyIn (launching twice (f none)) 0 0).queue 0 0).recs = [(7, none)] := by decide +kernel

/-- A small task in slot 1 of core 0. -/
def beside (s : State) : State := s.setCtx 0 1 { task := some { job with hdr := {}, serial := 6, launch := 9 } }

theorem witness_hand_out : let s := beside (launching twice)
    (s.core 0).part.toNat = 0 ∧ chosen s 0 0 = some (0, twice) ∧ resumable s 0 twice = none ∧ freeSlot s 0 = some 0 ∧
    (s.queue 0 0).head = some twice ∧ twice.superstep = false ∧ (cocoonFor s.draw.2 0 0 twice.hdr s.draw.1).isSome = true ∧
    (handOut s 0 0 0).isSome = true := by decide +kernel

/-- A superstep launch of one iteration, with a free core. -/
theorem witness_superstep_launch : let l : Launch := { twice with superstep := true, bounds := [1] }
    let s := launching l
    let cores := ((startCores s 0 l).filter (givenTo s 0 0)).take (iterations l)
    chosen s 0 0 = some (0, l) ∧ resumable s 0 l = none ∧ l.superstep = true ∧ cores.length = iterations l ∧
    (handAll s 0 0 cores).isSome = true := by decide +kernel

/-- A task saved, not parked. -/
def saved (parked : Bool := false) : Cocoon := ⟨job, [], {}, none, [], [], [], [], [], [], parked, false, 0, [], false⟩

theorem witness_resume : let s : State := { beside (launching twice) with cocoons := [saved] }
    chosen s 0 0 = some (0, twice) ∧ resumable s 0 twice = some saved ∧
    (match resumeAt s 0 saved with | some (.ok _) => true | _ => false) = true ∧
    (∀ k ∈ resumeCores s 0 saved, givenTo s 0 0 k = true) := by decide +kernel

/-- Four wings at their ends. -/
def ended4 (c : Ctx := {}) (t : Task := job) : State :=
  wings.foldl (fun s p => s.setParty ⟨0, 0, p⟩ { run := .ended }) (launching twice id ((State.reset).setCtx 0 0 { c with task := some t }))

theorem witness_completion : let s := ended4
    (s.ctx 0 0).task = some job ∧ taskDone s 0 0 job = true ∧ (s.queue 0 0).head = some twice ∧ twice.id = job.launch ∧
    twice.next < iterations twice := by decide +kernel

/-- The last task of the last iteration. -/
theorem witness_last_completion : let l : Launch := { twice with next := 2, done := 1 }
    let s := ended4.setQueue 0 0 { head := some l }
    taskDone s 0 0 job = true ∧ (s.queue 0 0).head = some l ∧ l.id = job.launch ∧ l.next = iterations l ∧
    l.done + 1 + l.failed = iterations l ∧ l.cause = none ∧ (s.queue 0 0).closing = [] := by decide +kernel

/-- A task whose launch is no longer head; the last task of a launch in which another has met an error. -/
theorem witness_other_completions : (let s := ended4.setQueue 0 0 { head := some { twice with id := 7 } }
    taskDone s 0 0 job = true ∧ ({ twice with id := 7 } : Launch).id ≠ job.launch) ∧
    (let l : Launch := { twice with next := 2, failed := 1, cause := some 0x102 }
     taskDone (ended4.setQueue 0 0 { head := some l }) 0 0 job = true ∧ l.id = job.launch ∧
     l.done + 1 + l.failed = iterations l ∧ l.cause ≠ none) := by decide +kernel

/-- A launch that waits behind two tasks of another, on the only core of the partition. -/
theorem witness_preempt_wait : let t : Task := { job with launch := 9 }
    let s : State := { (launching { twice with waited := 50000 } id ((State.reset.setCtx 0 0 { task := some t }).setCtx 0 1
      { task := some { t with serial := 6 } })) with time := 60000 }
    (starved s 0).isSome = true ∧ (∀ e, starved s 0 = some e → (victims s 0 e).length = 2) ∧
    (∀ x ∈ slotsOf s 0, (s.ctx x.1 x.2.1).halting = false) := by decide +kernel

theorem witness_preemption : (let s := (wing []).setPart 0 { spent := true }
    (s.part 0).spent = true ∧ preemptGroup s 0 0 = [(0, 0)] ∧ (s.ctx 0 0).halting = false) ∧
    (let s := wing [] {} { halting := true }
     (s.ctx 0 0).halting = true ∧ preemptGroup s 0 0 = [(0, 0)] ∧ groupSaveable s [(0, 0)] = true ∧ s.flips = [] ∧ spoilt s 0 0 true true = false ∧
     (saveSlots s (mateSerial s) (fun _ => false) [(0, 0)]).2 = none) := by decide +kernel

theorem witness_completions : (let x := (launching twice).queue 0 0; x.qcfg.getLsbD 29 = true ∧ x.lastInt = none) ∧
    (let s : State := { launching twice (fun x => { x with deferred := true, lastInt := some 0, qcfg := 0xA0010004 }) with time := 1000 }
     (s.queue 0 0).deferred = true ∧ 0 + (s.queue 0 0).qcfg.toNat / 2 ^ 16 % 256 * 1000 ≤ s.time) ∧
    (State.reset.queue 0 0).qcfg.getLsbD 29 = false := by decide

/-- A completion record that the mapping takes, and one that it does not. -/
theorem witness_completion_records : (let s := withKernel (launching twice)
    (s.queue 0 0).qcpl = 0 ∧ (∃ p, paged s 0 0 = .place p ∧ p.readOnly = false ∧ p.isRow = false ∧ revokedPlace s p = false) ∧
      s.Inv ∧ (partWrite s 0 0 (allKnown s) (List.replicate 16 1)).isSome = true) ∧
    (partWrite (launching twice) 0 0 (allKnown (launching twice)) (List.replicate 16 1)).isSome = false :=
  ⟨⟨rfl, ⟨_, rfl, rfl, rfl, by decide⟩, by unfold State.Inv; decide +kernel, by decide +kernel⟩, by decide⟩


/-! ### Host link and fabric -/

/-- In phase 7. -/
def seven (s : State) : State := { s with mgmt := { s.mgmt with mstat := 7 } }

theorem witness_queue_registers : let s := seven State.reset
    let on := fun (c : BitVec 32) => s.setQueue 63 31 { qcfg := c }
    s.mgmt.mstat.toNat % 16 = 7 ∧ (s.queue 63 31).qcfg.getLsbD 31 = false ∧
    (0x8000000F : BitVec 32).getLsbD 31 = true ∧ (0x80000003 : BitVec 32).toNat % 32 < 4 ∧ 16 < (0x80000011 : BitVec 32).toNat % 32 ∧
    ((on 0x80000004).queue 63 31).qcfg.getLsbD 31 = true ∧ ((on 0x80000004).queue 63 31).qcfg.getLsbD 30 = false ∧
    ((16 : BitVec 32) - ((on 0x80000004).queue 63 31).qrp).toNat ≤ 2 ^ (((on 0x80000004).queue 63 31).qcfg.toNat % 32) ∧
    2 ^ (((on 0x80000004).queue 63 31).qcfg.toNat % 32) < ((17 : BitVec 32) - ((on 0x80000004).queue 63 31).qrp).toNat ∧
    ((on 0xC0000004).queue 63 31).qcfg.getLsbD 30 = true ∧ (0xC0000004 : BitVec 32).getLsbD 30 = true ∧
    (0x00000004 : BitVec 32).getLsbD 31 = false := by decide

/-- Reads that the mapping takes and does not take, and a store at the end of a line of a page that it takes. -/
theorem witness_host : let s := seven (withKernel (launching twice))
    linkUp State.reset = false ∧ linkUp s = true ∧
    (match hostRead s 0 0 4 with | .ok (_, bs) => decide (bs = [0x49, 0x56, 0x58, 0x4B]) | .error _ => false) = true ∧
    (match hostRead s 0 65536 4 with | .ok _ => false | .error _ => true) = true ∧
    hostReady s 0 56 8 = true ∧ hostReady s 0 0 4 = true ∧ hostReady { s with hostClock := [(1, 1)], flights := [⟨1, 0, 1, 1, [], ⟨0, 0, .w0⟩, 0, 5, false, 0, [7], none, false⟩] } 0 0 4 = false ∧
    (∃ p, paged s 0 56 = .place p ∧ p.readOnly = false ∧ hitsControl p 8 = false ∧ revokedPlace s p = false ∧
      (writePlace s thePart 0 s.hostClock p (List.replicate 8 1)).isSome = true) ∧ s.Inv ∧
    pageFree s 0 0 = true ∧ pageFree { s with pins := [⟨5, 0, 0, 1⟩] } 0 0 = false ∧
    pageFree { s with pages := [(7, .rowPage 0)] } 0 7 = false :=
  ⟨by decide, by decide, by decide +kernel, by decide +kernel, by decide, by decide, by decide, ⟨_, rfl, rfl, by decide, by decide, by decide +kernel⟩,
    by unfold State.Inv; decide +kernel, by decide, by decide, by decide⟩

/-- The host maps a frame of function 63 at its last page: within the guarantee, and above it. -/
theorem witness_host_mapping : let s := fun (g : BitVec 32) =>
      { State.reset with owners := [(5, 63)], parts := [(63, { frg := g })] }
    let t := fun g => { s g with pages := put (s g).pages (63 * 2 ^ 44 + (2 ^ 44 - 1)) (.frame 0 5) }
    pageFree (s 1) 63 (2 ^ 44 - 1) = true ∧ frs (t 1) 63 ≤ ((s 1).part 63).frg.toNat ∧ ((s 0).part 63).frg.toNat < frs (t 0) 63 ∧ frs (s 0) 63 < frs (t 0) 63 := by
  decide +kernel

/-- A packet from the scheduler 0x25 for queue 0 of partition 0, and one that is refused. -/
theorem witness_packets : let s0 := withKernel (launching twice (fun x => { x with qcfg := 0xC0000004 }))
    let s := s0.setPart 0 { frg := 200, keyn := 2, created := true, schedulers := [0x25] }
    packetFault s ⟨0x25, 0, 0, 0, record⟩ = 0 ∧ (partWrite s 0 0 [] record).isSome = true ∧
    packetFault s ⟨0x26, 0, 0, 0, record⟩ = 1 := by decide +kernel

theorem witness_reports : let s : State := { seven (State.reset.setPart 3 { schedulers := [0x25] }) with time := 100000 }
    s.due.report ≤ s.time ∧ s.mgmt.mstat.toNat % 16 = 7 ∧ State.reset.mgmt.mstat.toNat % 16 ≠ 7 ∧
    (3, { schedulers := [0x25] }) ∈ s.parts := by decide

theorem witness_images : let i : Image := ⟨1, some 15, 8, true, true, [1]⟩
    let k : KeyManifest := ⟨[(511, 4), (0, 9), (512, 1)], true, [2]⟩
    (seven State.reset).mgmt.mstat.toNat % 16 = 7 ∧ imageFault 1 i = none ∧ i.die = some 15 ∧ k.verifies = true ∧
    imageFault 2 i = some 2 ∧ linkUp (seven State.reset) = true ∧ linkUp State.reset = false ∧
    (511, 4) ∈ k.keys ∧ (0, 9) ∈ k.keys ∧ State.reset.mgmt.ataddr.toNat % 64 = 0 := by decide

/-- Bring-up without a failure, and one whose manifest does not verify. -/
theorem witness_bring_up : let m : Manifest := ⟨4095, 3, [], [(63, 7)], true, [2]⟩
    let b : BringUp := ⟨(List.range 16).map (fun d => ⟨3, some d, 8 * d, true, true, [1]⟩), m, [(1, 2), (2, 0)], [(1, 0)], [(1, 9)], none⟩
    firstFailure b = none ∧ firstFailure { b with manifest := { m with verifies := false } } = some (2, 2, 0) ∧
    firstFailure { b with images := b.images.take 15 } = some (5, 1, 15) ∧
    firstFailure { b with command := [(2, 0)] } = some (3, 1, 3) := by decide

/-! ### Recovery -/

/-- A trap record of w1 of system core 16. -/
def trapOf (cause : BitVec 16) : Record := ⟨cause, 8, 0, 0, some ⟨16, 0, .w1⟩, 0, 0, 0⟩

theorem witness_take_record : let s := (sysWing []).setDie 0 { pend := [trapOf 3] }
    (s.die 0).pend = trapOf 3 :: [] ∧ mayTake s 0 = true := by decide

theorem witness_eret : let s := (sysWing [(1, 1)]).setDie 0 { inh := true, held := some (trapOf 9) }
    (isSystem s.cur.core = true ∧ s.cur = w0Of (dieOf s.cur.core) ∧ s.cur.core < 272 ∧ (s.die 0).inh = true ∧
      (s.die 0).held = some (trapOf 9) ∧ (trapOf 9).party = some ⟨16, 0, .w1⟩ ∧ s.inLock = false ∧
      (s.ctx 16 0).sh.lock = false ∧ s.reg 1 = 1 ∧ (trapOf 9).cause = 9) ∧
    (s.party ⟨16, 0, .w1⟩).repc = 0 ∧ (s.party ⟨16, 0, .w1⟩).order = [] ∧ (sysWing []).reg 1 = 0 := by decide

/-- A record of a task's party, which is still resident; what ERET is given for acts 2 and 3; a record that no party holds. -/
theorem witness_eret_task : let r : Record := ⟨9, 8, 0, word (5 * 2 ^ 32), some ⟨0, 0, .w2⟩, 0, 0, 0⟩
    let s := ((sysWing [(1, 1), (2, word (2 + 0x8000 * 2 ^ 16)), (3, 3)]).setDie 0 { inh := true, held := some r }).setCtx 0 0 { task := some job }
    Ready s .wing 0 0 ∧ ((s.die 0).inh = true ∧ (s.die 0).held = some r ∧ isSystem 0 = false ∧
      slotOfSerial s (recSerial r) = some (0, 0, job) ∧ partyKey ⟨0, 0, .w2⟩ ≠ partyKey s.cur ∧ (s.ctx 0 0).sh.lock = false ∧
      underReset s r.part = false ∧ (s.ctx 0 0).dying = none ∧ (s.reg 2).toNat = 2 + 0x8000 * 2 ^ 16 ∧ (s.reg 3).toNat % 4 = 3 ∧
      ({ r with party := none } : Record).party = none ∧ (wing []).supervisor = false ∧ (sysWing []).supervisor = true ∧
      ((sysWing []).die 0).inh = false) := ⟨ready0 rfl, by decide⟩

/-- w0's own trap, and a hang record of launch 1, whose task is resident, for acts 0 and 2. -/
theorem witness_eret_own : (let r : Record := ⟨3, 8, 0, 0, some ⟨16, 0, .w0⟩, 0, 0, 0⟩
    let s := (sysWing []).setDie 0 { inh := true, held := some r }
    (s.die 0).inh = true ∧ (s.die 0).held = some r ∧ r.party = some s.cur ∧ s.reg 1 = 0 ∧ s.inLock = false) ∧
    (let h : Record := ⟨0x10, 0, 0, 0, none, 0, 0, 1⟩
     let s := ((sysWing [(2, word (2 + 0x101 * 2 ^ 16))]).setDie 0 { inh := true, held := some h }).setCtx 0 0 { task := some job }
     (s.die 0).inh = true ∧ (s.die 0).held = some h ∧ h.party = none ∧ h.cause = 0x10 ∧ s.reg 1 = 0 ∧ s.inLock = false ∧
     (s.reg 2).toNat = 2 + 0x101 * 2 ^ 16 ∧ legalCode 0x101 ∧ underReset s h.part = false ∧ s.cocoons = [] ∧
     s.ctxs.Pairwise (fun x y => x.1 < y.1) ∧ slotOfSerial s job.serial.toNat = some (0, 0, job) ∧ job.launch = h.launch ∧
     (s.ctx 0 0).dying = none) := by unfold legalCode; decide

theorem witness_double_trap : let s := (sysWing []).setDie 0 { inh := true }
    s.cur = w0Of 0 ∧ (s.die 0).inh = true := by decide

/-- A double trap with a record of a task held and one of another task pending. -/
theorem witness_restart : let i : Image := ⟨1, some 15, 8, true, true, [1]⟩
    let r : Record := ⟨9, 8, 0, word (5 * 2 ^ 32), some ⟨0, 0, .w2⟩, 0, 0, 0⟩
    let e : Record := { r with tstat := word (6 * 2 ^ 32), party := some ⟨0, 1, .w1⟩ }
    let s := ((wing []).setCtx 0 1 { task := some { job with serial := 6 } }).setDie 15 { double := true, image := some i, held := some r, pend := [e] }
    (s.die 15).double = true ∧ (s.die 15).image = some i ∧ (s.die 15).held.toList ++ (s.die 15).pend = [r, e] ∧
    s.ctxs.Pairwise (fun x y => x.1 < y.1) ∧ cocoonOfSerial s (recSerial r) = none ∧ cocoonOfSerial s (recSerial e) = none ∧
    slotOfSerial s (recSerial r) = some (0, 0, job) ∧ slotOfSerial s (recSerial e) = some (0, 1, { job with serial := 6 }) ∧
    (s.ctx 0 0).dying = none ∧ (s.ctx 0 1).dying = none ∧ (State.reset.die 15).double = false := by decide

/-- At both ends of the codes of which a notice is posted, and below them. -/
theorem witness_context_error : ∀ c ∈ [0x100, 0x101, 0x108], let s := (wing [] {} { dying := some (c, 0) }).setQueue 0 0 { head := some twice }
    (s.ctx 0 0).dying = some (c, 0) ∧ (s.ctx 0 0).task = some job ∧ columnMate s 0 0 = none ∧ storesDone s 0 0 job = true ∧
    (s.queue 0 0).head = some twice ∧ twice.id = job.launch ∧ twice.next < iterations twice := by decide

/-- A pair in use with its halves at 0 and 4096 and the other three wings at their ends. -/
def paired (x : PartyState := {}) (c : Ctx := {}) : State :=
  [Party.w1, .w2, .w3].foldl (fun s p => s.setParty ⟨0, 0, p⟩ { run := .ended })
    (wing [] x { c with sh := { c.sh with phb := [(7, 0x8000000000100001)] } })

theorem witness_phase_swap : (let s := paired
    phbOk s (look 0 s.myCtx.sh.phb 7) = true ∧ s.me.wait ≠ .phase 7 true ∧ s.supervisor = false ∧
    (∀ q ∈ wings, q ≠ s.cur.party → (s.party ⟨s.cur.core, s.cur.slot, q⟩).run = .ended) ∧
    drained (s.modMe (fun x => { x with wait := .phase 7 false })) 0 0 = true ∧ s.inLock = false ∧
    (∀ q ∈ allParties, (s.party ⟨0, 0, q⟩).view.late = []) ∧ job.frames = []) ∧
    (paired { wait := .phase 7 true }).me.wait = .phase 7 true ∧
    phbOk (wing []) (look 0 (wing []).myCtx.sh.phb 7) = false := by decide +kernel

/-- The supervisor asks for the task of serial 5, which does not exist, has been pre-empted, or is parked. -/
theorem witness_parking : let s := sysWing [(1, 5 * 1024), (2, BitVec.allOnes 64)]
    let t := fun (parked : Bool) => ({ s with cocoons := [saved parked] } : State)
    s.supervisor = true ∧ s.reg 1 < BitVec.ofNat 64 (2 ^ 32) ∧ bits (s.reg 1).toNat 31 10 = 5 ∧ slotOfSerial s 5 = none ∧
    cocoonOfSerial s 5 = none ∧ cocoonOfSerial (t false) 5 = some (saved false) ∧ cocoonOfSerial (t true) 5 = some (saved true) ∧
    (saved true).mate = 0 ∧ (saved true).lost = false ∧ s.reg 2 = BitVec.allOnes 64 ∧
    ¬(sysWing [(1, 2 ^ 32 + 5 * 1024)]).reg 1 < BitVec.ofNat 64 (2 ^ 32) := by decide

/-- Saved, parked and resident tasks whose contexts are lost. -/
theorem witness_lost : let s := sysWing [(1, 5 * 1024)]
    let t := fun (parked : Bool) => ({ s with cocoons := [{ saved parked with lost := true }] } : State)
    let u := s.setCtx 0 0 { task := some job, lost := true }
    cocoonOfSerial (t false) 5 = some { saved false with lost := true } ∧ slotOfSerial (t false) 5 = none ∧
    cocoonOfSerial (t true) 5 = some { saved true with lost := true } ∧ slotOfSerial u 5 = some (0, 0, job) ∧
    (u.ctx 0 0).lost = true := by decide

/-- A saved task with a column mate, a resident one that may be saved and one that may not, a core that takes the parked one and
one that does not. -/
theorem witness_parking_more : let s := sysWing [(1, 5 * 1024)]
    let k : Cocoon := { saved with upper := true, mate := 6 }
    let m : Cocoon := { saved with task := { job with serial := 6 }, mate := 5 }
    let t := fun (x : PartyState) => (s.setCtx 0 0 { task := some job }).setParty ⟨0, 0, .m⟩ x
    let u : State := { beside (launching twice id s) with cocoons := [saved true] }
    mateOf { s with cocoons := [k, m] } k = some m ∧ slotOfSerial (t {}) 5 = some (0, 0, job) ∧
    groupSaveable (haltSlots (t {}) (preemptGroup (t {}) 0 0)) (preemptGroup (t {}) 0 0) = true ∧
    groupSaveable (haltSlots (t { run := .running }) (preemptGroup (t {}) 0 0)) (preemptGroup (t {}) 0 0) = false ∧
    (saveSlots (haltSlots (t {}) [(0, 0)]) (mateSerial (t {})) (fun _ => true) [(0, 0)]).2 = none ∧
    (match restoreAt u 0 (saved true) with | some (.ok _) => true | _ => false) = true ∧
    (restoreAt u 1 (saved true)).isNone = true := by decide +kernel

theorem witness_checks : (let s := State.reset.setCore 3 { katb := 1900 }
    1900 ≤ (s.core 3).katb.toNat ∧ isSystem 3 = false) ∧
    (let s := State.reset.setCore 3 { katpend := true }
     (s.core 3).katpend = true ∧ (∀ o ∈ (s.core 3).ops, o.kind ≠ 0) ∧ s.flips = []) ∧
    (State.reset.core 3).katb.toNat < 1900 ∧ (State.reset.core 3).katpend = false ∧
    (let s : State := { State.reset with flips := [(8, 4), (16, 5)] }
     look 0 s.flips (15 / protectedSize 15 * protectedSize 15) = 4 ∧ popCount 64 4 = 1 ∧
     look 0 s.flips (16 / protectedSize 16 * protectedSize 16) = 5 ∧ popCount 64 5 ≠ 1) := by decide

theorem witness_lookout : let r : Record := ⟨0x10, 0, 0, word (5 * 2 ^ 32 + 15), none, 0, 0, 1⟩
    let s : State := { launching twice (fun x => { x with expiring := [some r, none] })
      ((wing []).setPart 0 {}) with time := 1000000, due := { energy := 2000 } }
    s.due.lookout ≤ s.time ∧ s.due.lookout < s.due.energy ∧ (0, 0, job) ∈ residents s ∧ job.launch = twice.id ∧
    (s.ctx 0 0).disturbed = false ∧ ineligible s 0 0 = false ∧ (s.queue 0 0).lkcnt.toNat < (s.queue 0 0).lklim.toNat ∧
    s.due.publish ≤ s.time ∧ (s.queue 0 0).expiring = some r :: [none] ∧ hangRecord s 0 0 = some r ∧ (s.queue 0 0).head = some twice ∧
    lowestTask s twice.id = some (0, 0, job) := by decide +kernel

/-- A column under scrub; a frame whose owner changes twice, and a frame of a weight store of a task that runs. -/
theorem witness_scrub : let r : Reassign := ⟨0, 15, 7, 63⟩
    let w : Reassign := ⟨3, 0, 7, 0⟩
    let s : State := { (wing []).setCore 3 { scrub := true } with reassigns := [r, { r with owner := 64 }, w] }
    isSystem 3 = false ∧ (s.core 3).scrub = true ∧ s.reassigns[0]? = some r ∧ s.reassigns.take 0 = [] ∧ r.space ≠ 3 ∧
    s.reassigns[1]? = some { r with owner := 64 } ∧ r ∈ s.reassigns.take 1 ∧ s.reassigns[2]? = some w ∧
    (0, 0, job) ∈ residents s ∧ dieOf 0 = w.die ∧ job.part = w.owner := by decide

theorem witness_partition_reset : (let s : State := { wing [] with resetting := some ⟨0, 2, 0⟩, time := 10000 }
    s.resetting = some ⟨0, 2, 0⟩ ∧ partRuns s 0 = false ∧ 0 + 10000 ≤ s.time ∧ (0, 0, job) ∈ slotsOf s 0) ∧
    (let s : State := { (wing []).setParty ⟨0, 0, .m⟩ { run := .running } with resetting := some ⟨0, 2, 0⟩, time := 9999 }
     partRuns s 0 = true ∧ s.time < 0 + 10000) ∧
    (let s : State := { wing [] with resetting := some ⟨63, 3, 0⟩ }
     s.resetting = some ⟨63, 3, 0⟩ ∧ windowsQuiet (endTasks s 63) 63 = true ∧ s.resetDue = []) ∧
    (let s : State := { windowed ⟨0, 1, 65536, 65536, 1, false, 3, 0, true, [], []⟩ [] with
       resetting := some ⟨1, 3, 0⟩, loads := [⟨⟨0, 0, .w1⟩, 0, [], framePhys 0 0 0 1 8, 8, false, false, false, 2, none, 0, 0, 0⟩] }
     windowsQuiet (endTasks s 1) 1 = false) := by
  decide +kernel

theorem witness_phase_cancel : let k : Checkpoint := ⟨allParties.map (fun p => (p.num, { regs := [(p.num, 1)] })), {}, [], [], [], []⟩
    (let s := wing [] {} { checkpoint := some k, cancel := true, sh := { phst := 1 } }
     (s.ctx 0 0).task = some job ∧ (s.ctx 0 0).checkpoint = some k ∧ k.parties = allParties.map (fun p => (p.num, { regs := [(p.num, 1)] })) ∧
     (s.ctx 0 0).cancel = true ∧ (s.ctx 0 0).dying = none ∧
     storesDone s 0 0 job = true ∧ settled s (dieOf 0) = true ∧ (s.ctx 0 0).sh.phst.toNat % 256 ≠ 0 ∧ underReset s 0 = false) ∧
    underReset { wing [] {} { checkpoint := some k, cancel := true } with resetting := some ⟨0, 2, 0⟩ } 0 = true ∧
    (let t : Task := { job with frames := [0] }
     let s : State := { wing [] {} { checkpoint := some k, cancel := true } t with flips := [(framePhys 0 64 0 0 65528, 5)] }
     (s.ctx 0 0).task = some t ∧ framesChecked s ((cocoonParts t).take 1) = none) ∧
    (let s := wing [] {} { checkpoint := some k, cancel := true }
     (s.ctx 0 0).sh.phst.toNat % 256 = 0 ∧ (∀ n < 8, (s.ctx 0 0).sh.short.getLsbD n = false) ∧ inCollective s 0 0 = false ∧
     (∀ n < 8, look [] (s.ctx 0 0).sh.front n = []) ∧ (s.ctx 0 0).checkpoint = some k ∧ framesChecked s ((cocoonParts job).take 1) ≠ none) := by
  decide +kernel

/-! ### Vector engine -/

/-- A vector party whose CW0 is `cw`, with a vector in each of v0, v1 and v2. -/
def lanes (cw : BitVec 32) (rs : Sparse Word := []) (p : Sparse Port := []) : State :=
  atWork .v { cw := [(0, cw)], regs := rs, v := [(0, [⟨3, false⟩]), (1, [⟨5, false⟩]), (2, [⟨7, false⟩])], ports := p }

/-- The operands of each shape are there: two sources, one, none, the destination as the only source or the third. -/
theorem operands_two (cw : BitVec 32) (rs : Sparse Word) :
    operandsRead (lanes cw rs) [(0, false), (1, true)] 2 ⟨[(0, []), (1, [⟨5, false⟩]), (2, [⟨7, false⟩])], [], []⟩ (lanes cw rs) [3, 5] :=
  ⟨by intro e he; fin_cases he <;> rfl, rfl, rfl, ⟨_, rfl, by simp, rfl⟩, by intro h; exact absurd h (by decide),
    fun _ => rfl⟩

theorem operands_one (cw : BitVec 32) (rs : Sparse Word) :
    operandsRead (lanes cw rs) [(0, true)] 19 ⟨[(0, [⟨3, false⟩]), (1, [⟨5, false⟩]), (2, [⟨7, false⟩])], [], []⟩ (lanes cw rs) [3] :=
  ⟨by intro e he; fin_cases he <;> rfl, rfl, rfl, ⟨_, rfl, by simp, rfl⟩, by intro h; exact absurd h (by decide),
    fun _ => rfl⟩

theorem operands_none (cw : BitVec 32) (rs : Sparse Word) :
    operandsRead (lanes cw rs) [] 0 ⟨[(0, [⟨3, false⟩]), (1, [⟨5, false⟩]), (2, [⟨7, false⟩])], [], []⟩ (lanes cw rs) [] :=
  ⟨by simp, rfl, rfl, ⟨_, rfl, by simp, rfl⟩, by intro h; exact absurd h (by decide), fun _ => rfl⟩

theorem operands_fma (cw : BitVec 32) (rs : Sparse Word) :
    operandsRead (lanes cw rs) [(0, false), (1, true), (2, false)] 2 ⟨[(0, []), (1, [⟨5, false⟩]), (2, [])], [], []⟩ (lanes cw rs)
      [3, 5, 7] :=
  ⟨by intro e he; fin_cases he <;> rfl, rfl, rfl, ⟨_, rfl, by simp, rfl⟩, by intro h; exact absurd h (by decide),
    fun _ => rfl⟩

theorem operands_own (cw : BitVec 32) (rs : Sparse Word) :
    operandsRead (lanes cw rs) [(2, false)] 2 ⟨[(0, [⟨3, false⟩]), (1, [⟨5, false⟩]), (2, [])], [], []⟩ (lanes cw rs) [7] :=
  ⟨by intro e he; fin_cases he <;> rfl, rfl, rfl, ⟨_, rfl, by simp, rfl⟩, by intro h; exact absurd h (by decide),
    fun _ => rfl⟩

/-- A vector to vz and one to a write port. -/
theorem operands_port : let q : Port := ⟨0, 1, [2], [256], 0⟩
    operandsRead (lanes 0 [] [(7, q)]) [(0, true)] 31 ⟨[(0, [⟨3, false⟩]), (1, [⟨5, false⟩]), (2, [⟨7, false⟩])], [], [(7, q)]⟩ (lanes 0 [] [(7, q)]) [3] ∧
    (∀ y, seek (lanes 0 [] [(7, q)]).me.ports 7 = some y → portAddr y y.pos % 16 = 0) :=
  ⟨⟨by intro e he; fin_cases he <;> rfl, rfl, rfl, ⟨_, rfl, by simp, rfl⟩, by intro h; exact absurd h (by decide), fun _ => rfl⟩,
    by intro y hy; cases hy; rfl⟩

theorem witness_vector_types : Ready (lanes 0) .vector 0 0 ∧
    sameFamily [cwTa (cwOf (lanes 0x777) 0), cwTb (cwOf (lanes 0x777) 0), cwTd (cwOf (lanes 0x777) 0)] = true ∧
    sameFamily [cwTa (cwOf (lanes 0) 0), cwTb (cwOf (lanes 0) 0), cwTd (cwOf (lanes 0) 0)] = true ∧ isV 2 = true ∧
    isInt (cwTa (cwOf (lanes 0x777) 0)) = true ∧ cwTd (cwOf (lanes 0x777) 0) = cwTa (cwOf (lanes 0x777) 0) ∧
    vType (cwTa (cwOf (lanes 0x777) 0)) = true :=
  ⟨ready0 rfl, by decide, by decide, by decide, by decide, by decide, by decide⟩

/-- Conversions of FP32 to FP16 at slice 1, to B4 codes and back. -/
theorem witness_conversions : sliceOf 0 1 (countOf [0, 1]) 1 = some (0, 128) ∧ sliceOf 0 1 64 1 = some (0, 128) ∧
    sliceOf 3 0 64 3 = some (192, 0) ∧ cwTa (cwOf (lanes 0x009) 0) = 9 ∧ cwTd (cwOf (lanes 0x900) 0) = 9 ∧
    ((lanes 0 [(1, 511)]).reg 1).toNat < 512 ∧ (immLane (cwOf (lanes 0) 0) 0xBF80).isSome = true := by decide

theorem witness_vector_queues : (let s := atWork .v { v := [(1, List.replicate 4 ⟨1, false⟩), (2, [⟨1, true⟩])] }
    19 < min 20 (vregs s) ∧ look [] s.me.v 19 = [] ∧ look [] s.me.v 2 = [⟨1, true⟩] ∧ (look [] s.me.v 1).length = 4 ∧
    (writeDest s 2 false ⟨0, 0, none⟩).isSome = true) ∧ (0 + 1 * (List.replicate 256 1).length ≤ 256) := by decide +kernel

/-- A stream with 65 records in its only generation, with one record behind which its generation is closed, and with a generation
closed while it is empty. -/
theorem witness_streams : (let s : State := { lanes 0 with streams := put [] (streamKey 0 0 31) [List.replicate 65 1] }
    streamOf s 31 = List.replicate 65 1 :: []) ∧
    (let s : State := { lanes 0 with streams := put [] (streamKey 0 0 31) [[1], []] }; streamOf s 31 = [1] :: [[]]) ∧
    (let s : State := { lanes 0 with streams := put [] (streamKey 0 0 31) [[], []] }; streamOf s 31 = [] :: [[]]) ∧
    (((streamOf (lanes 0) 31).map List.length).sum + ((List.range 64).filter (fun i => (lanes 0).me.vm.getLsbD i)).length
      ≤ 262144) ∧
    operandsRead (lanes 0) [(0, false)] 21 ⟨[(0, []), (1, [⟨5, false⟩]), (2, [⟨7, false⟩])], [], []⟩ (lanes 0) [3] :=
  ⟨by decide +kernel, by decide +kernel, by decide +kernel, by decide +kernel,
    ⟨by intro e he; fin_cases he <;> rfl, rfl, rfl, ⟨_, rfl, by simp, rfl⟩, by intro h; exact absurd h (by decide), fun _ => rfl⟩⟩

/-- A legal record of a port of two steps, a configured port, and a vector on its way. -/
theorem witness_ports : (let r := bytesOfNat 8 0x100000000 ++ bytesOfNat 4 2 ++ bytesOfNat 12 0 ++ bytesOfNat 4 256 ++ bytesOfNat 20 0
    let s0 := lanes 0
    let s : State := { s0 with mem := writeBytes [] (scratchPhys s0 0 0 0) r }
    scratchLate s s.cur = false ∧ s.me.view.lag = 0 ∧ readScratch s s.cur.core s.cur.slot (s.reg 1).toNat 48 = some (s, r) ∧
    portOf (scratchSize s.cur.core) r = some ⟨0, 0, [2], [256], 0⟩) ∧
    seek (lanes 0 [] [(0, ⟨0, 0, [2], [256], 1⟩)]).me.ports 0 = some ⟨0, 0, [2], [256], 1⟩ ∧
    ((State.reset.setCore 17 { vfly := [⟨1, false⟩] }).core 17).vfly = ⟨1, false⟩ :: [] := by decide +kernel

theorem witness_vector_frame : vectorForm (.vadd 0 0 31 0 1 0 0 0) = some (some 31) ∧ vectorForm (.gcfg 0 0 24 1) = some none ∧
    (lanes 0).Inv ∧ (∃ t, exec (.vadd 0 0 2 0 1 0 0 0) (lanes 0) = .next t) ∧
    portBytes (lanes 0 [] [(7, ⟨0, 1, [2], [256], 0⟩)]) (some 31) ≠ [] := ⟨rfl, rfl, rfl, ⟨_, rfl⟩, by decide⟩

/-! ### Matrix engine -/

theorem witness_nests : let s := atWork .m { regs := [(1, 255), (2, 5)] }
    Ready s .matrix 0 0 ∧ taskFlag s 1 = true ∧ (s.reg 1).toNat < 256 ∧ (s.reg 2).toNat < 6 ∧ flying s = [] :=
  ⟨ready0 rfl, rfl, by decide, by decide, rfl⟩

/-- A run of two passes over tiles 6 and 7; a load; a drain. -/
theorem witness_matrix_starts : (let s := atWork .m { regs := [(1, 6)] } { sh := { ns := [(0, 128), (1, 2 + 2 ^ 32)] } }
    flying s = [] ∧ bits (look 0 s.myCtx.sh.ns 0).toNat 23 0 = 128 ∧ bits (look 0 s.myCtx.sh.ns 0).toNat 39 32 = 0 ∧
    runTypes 1 1 0 = true ∧ runTypes 5 6 7 = true ∧
    (List.range 5).map (fun l => nestLevel (look 0 s.myCtx.sh.ns (l + 1))) = [(2, 1)] ++ [(0, 0), (0, 0), (0, 0), (0, 0)] ∧
    (∀ x ∈ reachTiles [(2, 1)] 6, 0 ≤ x ∧ x ≤ 7)) ∧ loadTypes 0 = true ∧ drainTypes 0 0 = true ∧
    0 + 16384 * typeSize 0 ≤ scratchSize 0 := by decide +kernel

/-- An operation of each kind that has what it needs. -/
def flown (o : MatOp) : State := State.reset.setCore 3 { ops := [o] }
def opOf (kind : Nat) (nest : List (Nat × Int)) (a b : List FEntry) : MatOp :=
  ⟨kind, 0, 0x000, 7, nest, false, false, [7], a.length, b.length, a, b, 0, true, 0⟩

theorem witness_matrix_ends : let e : FEntry := ⟨1, List.replicate 128 0, [], false⟩
    let run := opOf 0 [(2, 0), (3, 0)] (List.replicate 6 e) (List.replicate 6 e)
    let load := opOf 1 [] (List.replicate 128 e) []
    let drain := opOf 2 [] [] []
    (opMayEnd (flown run) 3 run = true ∧ (firstOp 0 (flown run |>.core 3).ops).isSome = true ∧ run.nest = (2, 0) :: [(3, 0)] ∧
      (walkTiles [(3, 0)].reverse (run.tile : Int)).map Int.toNat = [7, 7, 7] ∧ run.gotA.length = 2 * 3 ∧
      (∀ t ∈ run.tiles, t < 8)) ∧
    (opMayEnd (flown load) 3 load = true ∧ (firstOp 1 (flown load |>.core 3).ops).isSome = true ∧
      (∀ e ∈ load.gotA, e.elems.length = 128)) ∧
    (opMayEnd (flown drain) 3 drain = true ∧ (firstOp 2 (flown drain |>.core 3).ops).isSome = true) ∧
    (∀ x ∈ run.gotA ++ run.gotB, x.bad = false) ∧ (∀ x ∈ load.gotA ++ load.gotB, x.bad = false) ∧
    (flown run).flips = [] ∧ ((flown drain).party ⟨3, 0, .m⟩).view.lag = 0 := by decide +kernel

/-- A run and a load with an entry that holds an uncorrectable error. -/
theorem witness_bad_entries : let e : FEntry := ⟨1, List.replicate 128 0, [], true⟩
    let run := opOf 0 [(1, 0)] [e] [e]
    let load := opOf 1 [] (List.replicate 128 e) []
    (opMayEnd (flown run) 3 run = true ∧ (firstOp 0 (flown run |>.core 3).ops).isSome = true ∧
      ¬∀ x ∈ run.gotA ++ run.gotB, x.bad = false) ∧
    opMayEnd (flown load) 3 load = true ∧ (firstOp 1 (flown load |>.core 3).ops).isSome = true ∧
    ¬∀ x ∈ load.gotA ++ load.gotB, x.bad = false := by decide +kernel

theorem witness_passes : (List.replicate 32 (1 : Int)).length = 32 ∧ ([3] : List Int).length = ([4] : List Int).length ∧
    (let d : FEntry := ⟨1, [0x3F80], [], false⟩
     let e : FEntry := ⟨9, [5], [32], false⟩
     d.type ∈ [1, 2, 3, 4, 9] ∧ e.type ∈ [1, 2, 3, 4, 9] ∧ (match entryReal d 0, entryReal e 0 with
       | .fin _ _, .fin _ _ => true | _, _ => false) = true) := by decide +kernel

theorem witness_signatures : let s := atWork .m { regs := [(1, 7)] }
    flying s = [] ∧ (s.reg 1).toNat < 8 ∧ s.flips = [] ∧ s.me.pc.toNat + 12 ≤ imemSize s.cur ∧
    endsLoop s.me s.me.pc.toNat = false ∧ endsLoop s.me (s.me.pc.toNat + 4) = false := by decide

theorem witness_matrix_frame : isMatrix (.mzero 0 0 1) = true ∧ matrixDest (.msig 0 0 1 2) = some 1 ∧
    (∃ t, exec (.mzero 0 0 1) (atWork .m { regs := [(1, 255)] }) = .next t) ∧
    (∃ t, exec (.msig 0 0 1 2) (atWork .m) = .next t) ∧ ∃ t, exec (.mnest 0 0 1 2) (atWork .m { regs := [(1, 7)] }) = .next t :=
  ⟨rfl, rfl, ⟨_, rfl⟩, ⟨_, rfl⟩, _, rfl⟩

/-! ### Copy engines -/

/-- A copy party with bytes at the start of its scratchpad. -/
def copying (bs : List Byte) (rs : Sparse Word := []) (f : State → State := id) : State :=
  let s := f (atWork .x { regs := rs })
  { s with mem := writeBytes s.mem (scratchPhys s 0 0 0) bs }

/-- A record over the scratchpad on both sides: n dimensions, box 128 × 2, type 6. -/
def copyRecord (n : Nat) (src dst : Nat) (box : List Nat) : List Byte :=
  bytesOfNat 1 n ++ bytesOfNat 1 src ++ bytesOfNat 1 dst ++ bytesOfNat 5 (6 * 256) ++ box.flatMap (bytesOfNat 4) ++
  bytesOfNat (200 - 4 * box.length) 0

/-- A command over the scratchpad passes its checks at issue. -/
theorem order_of (op n src dst : Nat) (box : List Nat) (b : Word) (s : State) (hs : s = copying (copyRecord n src dst box) [(2, b)])
    (h1 : (readScratch s s.cur.core s.cur.slot 0 208) = some (s, copyRecord n src dst box))
    (h2 : recordOk s op (copyRecord n src dst box) = true)
    (h3 : (srcScratch op (copyRecord n src dst box) || decide (op = 2)) = true)
    (h4 : (dstScratch op (copyRecord n src dst box) || decide (op = 5)) = true) (cmd : CopyCmd)
    (hc : cmd = ⟨op, copyRecord n src dst box ++ List.replicate 128 0 ++ List.replicate 128 0, b⟩)
    (h5 : typesOk op (copyRecord n src dst box) (copyOf cmd) = true) (h6 : placesOk s op (copyRecord n src dst box) (copyOf cmd) = true)
    (list : List Byte) (h7 : readScratch s 0 0 (copyOf cmd).list (copyOf cmd).listSize = some (s, list))
    (h8 : (copyOf cmd).dst = none) (h9 : settled s (myDie s) = true) : copyOrder s op 1 2 s cmd := by
  have ho : (s.reg 1).toNat = 0 := by subst hs; rfl
  have hz : s.cur.core = 0 := by subst hs; rfl
  refine ⟨by subst hs; rfl, h9, by simp [ho], by simp [ho, hz]; decide, by subst hs; rfl,
    s, _, s, List.replicate 128 0, s, List.replicate 128 0, list, ?_, h2, ?_, ?_,
    ?_, h5, h6, ?_, ?_⟩
  · rw [← h1]; simp [ho]
  · simp [sideTensor, h3]
  · simp [sideTensor, h4]
  · subst hs; rw [hc]; rfl
  · rw [← h7]; subst hs; rfl
  · intro x hx; rw [h8] at hx; cases hx

/-- XCOPY, XFILL, XGATH, XSCAT and XFEED over the scratchpad; and a record that is not aligned. -/
def orderOk (op n src dst : Nat) (box : List Nat) (b : Word) : Prop :=
  copyOrder (copying (copyRecord n src dst box) [(2, b)]) op 1 2 (copying (copyRecord n src dst box) [(2, b)])
    ⟨op, copyRecord n src dst box ++ List.replicate 128 0 ++ List.replicate 128 0, b⟩

theorem witness_copies : orderOk 1 1 255 255 [16] 0 ∧ orderOk 2 1 0 255 [16] 9 ∧ orderOk 3 2 255 255 [4, 2] 4096 ∧
    orderOk 4 2 255 255 [4, 2] 4096 ∧ orderOk 5 1 255 0 [128] 0 ∧ (1 : Word).toNat % 16 ≠ 0 := by
  refine ⟨order_of _ _ _ _ _ _ _ rfl ?_ ?_ ?_ ?_ _ rfl ?_ ?_ [] ?_ ?_ ?_,
    order_of _ _ _ _ _ _ _ rfl ?_ ?_ ?_ ?_ _ rfl ?_ ?_ [] ?_ ?_ ?_,
    order_of _ _ _ _ _ _ _ rfl ?_ ?_ ?_ ?_ _ rfl ?_ ?_ (List.replicate 8 0) ?_ ?_ ?_,
    order_of _ _ _ _ _ _ _ rfl ?_ ?_ ?_ ?_ _ rfl ?_ ?_ (List.replicate 8 0) ?_ ?_ ?_,
    order_of _ _ _ _ _ _ _ rfl ?_ ?_ ?_ ?_ _ rfl ?_ ?_ [] ?_ ?_ ?_, by decide⟩ <;> decide +kernel

/-- A copy of 16 bytes from the start of the scratchpad to byte 8, one chunk of it left, and a copy of two chunks. -/
theorem witness_chunks : let r := copyRecord 1 255 255 [16]
    let cmd : CopyCmd := ⟨1, r ++ List.replicate 256 0, 0⟩
    let s := wing []
    let t := s.setParty ⟨0, 0, .x⟩ { run := .running, busy := some (.copy cmd, 0, 0) }
    (t.party ⟨0, 0, .x⟩).busy = some (.copy cmd, 0, 0) ∧ goesOn t ⟨0, 0, .x⟩ = true ∧ (t.ctx 0 0).halting = false ∧
    settled t 0 = true ∧ sourceGone (readWeak (t.setCur ⟨0, 0, .x⟩) (copyOf cmd)) (copyOf cmd) = false ∧
    (match moveChunk (readWeak (t.setCur ⟨0, 0, .x⟩) (copyOf cmd)) (copyOf cmd) 0 with | .ok (_, d) => !d | .error _ => false) = true ∧
    (copyOf cmd).chunks ≤ 0 + 1 ∧ 1 < (copyOf ⟨1, copyRecord 1 255 255 [65537] ++ List.replicate 256 0, 0⟩).chunks := by
  decide +kernel

theorem witness_overlap : let c : Copy := ⟨1, 1, [4], [0], [2], none, none, 6, 0, 0, 0⟩
    let s := copying [1, 2, 3, 4]
    Memory.wf s.mem = true ∧ s.me.view.lag = 0 ∧ (match moveChunk s c 0 with | .ok (_, d) => !d | .error _ => false) = true ∧
    0 + 4 ≤ scratchSize s.cur.core := by decide +kernel

theorem witness_checksums : (let s := copying [] [(1, 4194300), (2, 4)]
    (s.reg 1).toNat + (s.reg 2).toNat ≤ scratchSize s.cur.core ∧ scratchLate s s.cur = false ∧ s.me.view.lag = 0 ∧
    readScratch s 0 0 4194300 4 = some (s, [0, 0, 0, 0])) ∧
    (let s : State := { copying [] [(1, 4096), (2, 3939)] with time := 101 }
     (s.reg 1).toNat < 402653184 ∧ (s.reg 2).toNat ≤ 3939 ∧ inRefresh s 4096 = false ∧
     3939 ≤ (40 * (4096 / 4096 % 96) + 4000 - 101 % 4000) % 4000) ∧
    ((40 * (4096 / 4096 % 96) + 4000 - 0 % 4000) % 4000 = 40 ∧ inRefresh State.reset 4096 = false) := by decide +kernel

/-! ### Trellis-coded tensors -/

/-- A descriptor of one dimension under key slot 0. -/
def desc (type log extent tiles : Nat) : List Byte :=
  bytesOfNat 8 (type + 2 ^ 8 + 0xFF * 2 ^ 40) ++ bytesOfNat 8 tiles ++ bytesOfNat 8 0 ++ bytesOfNat 8 log ++
  bytesOfNat 4 extent ++ bytesOfNat 92 0

/-- A task on core 0 with three tensors: bytes (tile in frame 1), FP32 values (frame 2), bytes (frame 3). -/
def withTensors (p : Party) (rs : Sparse Word) : State :=
  let s := atWork p { regs := rs } {} { job with tensors := 4096, tcount := 3 }
  let t : State := { s.setPart 0 { frg := 9, keyn := 2, created := true } with
    pages := [(0, .frame 0 0)]
    owners := [(0, 0), (1, 0), (2, 0), (3, 0)]
    tags := [(0, 2), (2, 2), (4, 2), (6, 2)] }
  let table := bytesOfNat 8 (2 ^ 63 + 1) ++ bytesOfNat 8 (2 ^ 63 + 2) ++ bytesOfNat 8 (2 ^ 63 + 3)
  { t with mem := writeBytes (writeBytes [] 4096 (desc 6 16 64 8192 ++ desc 0 14 64 8200 ++ desc 6 16 64 8208)) 8192 table }

/-- The code of slot 3, and a command on it over the three tensors. -/
def code : Trellis := ⟨2, 1, 1, 3, 1, [0, 0x3C00, 0x4000, 0x4200, 0x4400, 0x4500, 0x4600, 0x4700]⟩
def trellisRecord : List Byte := [3, 0, 1, 2] ++ bytesOfNat 4 0 ++ bytesOfNat 8 4 ++ bytesOfNat 16 0

/-- The header of its definition, and the codebook. -/
def header : List Byte := [2, 1, 1, 3] ++ bytesOfNat 4 1 ++ bytesOfNat 8 0
def book : List Byte := code.book.flatMap (fun x => bytesOfNat 2 x.toNat)

def coding (search : Option (Nat × Party) := none) (b : Word := 0) (c : Trellis := code) : State :=
  let s := (withTensors .x [(2, b)]).setCore 0 { trellis := [(3, c)], search := search }
  { s with mem := writeBytes (writeBytes s.mem (scratchPhys s 0 0 0) trellisRecord) (scratchPhys s 0 0 64) (header ++ book) }

/-- The definition record of a command, if it passes. -/
def definitionFor (s : State) (op : Nat) (b : Word) : Option (State × List Byte) :=
  if op = 9 then
    match readScratch s s.cur.core s.cur.slot b.toNat 16 with
    | some (t, d) => if b.toNat % 16 = 0 ∧ b.toNat + 16 ≤ scratchSize s.cur.core ∧ definitionOk d = true ∧ recField d 2 1 = 1 ∧
        b.toNat + definitionSize d ≤ scratchSize s.cur.core then some (t, d) else none
    | none => none
  else some (s, [])

theorem definition_at_of {s t : State} {op : Nat} {b : Word} {d : List Byte} (h : definitionFor s op b = some (t, d)) :
    definitionAt s op b t d := by
  unfold definitionFor at h
  unfold definitionAt
  split at h
  · rename_i ho
    simp only [ho, if_true]
    split at h
    · rename_i e
      split at h
      · rename_i hk
        cases h
        exact ⟨hk.1, hk.2.1, e, hk.2.2⟩
      · cases h
    · cases h
  · rename_i ho
    cases h
    simp [ho]

/-- Whether the checks at issue pass, as `checkTrellis` runs them. -/
def trellisPasses (s : State) (op : Nat) (b : Word) (c : Trellis) (r : List Byte) : Bool :=
  match readScratch s s.cur.core s.cur.slot 0 32 with
  | some (s0, r0) => decide (cmdSlot r0 < 16) && decide (trellisSlot s0 (cmdSlot r0) = some c) && commandOk s0 op r0 c b &&
    (match definitionFor s0 op b with
     | some (sd, d) => (match nameTensor sd (recField r0 1 1) false with
       | .ok (s1, st) => (match nameValues s1 r0 (valuesUsed op r0 b) with
         | .ok (s2, v) => (match nameWork s2 op r0 with
           | .ok (t, wk) => decide (r = r0 ++ st ++ v ++ wk ++ d) && tensorsOk op r0 c b (describe st) (valuesOf r) (workOf r) &&
               (writtenFault t op r0 c b (describe st) (valuesOf r) (workOf r)).isNone && decide (searchFree t = searchFree s)
           | .error _ => false)
         | .error _ => false)
       | .error _ => false)
     | none => false)
  | none => false

theorem trellis_order_of {s : State} {op : Nat} {b : Word} {c : Trellis} {r : List Byte} (ho : (s.reg 1).toNat = 0)
    (hw : foreignWindows s = false) (hd : settled s (myDie s) = true)
    (hh : holdsTrellis s = true) (hc : s.cur.core = 0) (hl : scratchLate s s.cur = false) (h : trellisPasses s op b c r = true) :
    ∃ t, trellisOrder s op 1 b t r c ∧ searchFree t = searchFree s := by
  unfold trellisPasses at h
  split at h <;> [skip; simp at h]
  rename_i s0 r0 h0
  simp only [Bool.and_eq_true, decide_eq_true_eq] at h
  obtain ⟨⟨⟨h1, h2⟩, h3⟩, h4⟩ := h
  split at h4 <;> [skip; simp at h4]
  rename_i sd d ed
  split at h4 <;> [skip; simp at h4]
  rename_i s1 st e1
  split at h4 <;> [skip; simp at h4]
  rename_i s2 v e2
  split at h4 <;> [skip; simp at h4]
  rename_i t wk e3
  simp only [Bool.and_eq_true, decide_eq_true_eq, Option.isNone_iff_eq_none] at h4
  obtain ⟨⟨⟨h5, h6⟩, h7⟩, h8⟩ := h4
  have ho' : (s.reg (1 : B5).toNat).toNat = 0 := ho
  exact ⟨t, ⟨by simp [trellisForeign, hw], hd, hh, by rw [ho'], by rw [ho', hc]; decide, hl,
    s0, r0, sd, d, s1, st, s2, v, wk, by rw [ho']; exact h0, h1, h2, h3,
    definition_at_of ed, e1, e2, e3, h5, h6, h7⟩, h8⟩

/-- The descriptors that the commands name, and the definition record of XTBLD. -/
def named (op : Nat) : List Byte :=
  trellisRecord ++ desc 6 16 64 8192 ++ (if op = 7 then List.replicate 128 0 else desc 0 14 64 8200) ++
  (if op ≤ 7 then desc 6 16 64 8208 else List.replicate 128 0) ++ (if op = 9 then header else [])

theorem witness_trellis : (∃ t, trellisOrder (coding) 6 1 0 t (named 6) code ∧ searchFree t = true) ∧
    (∃ t, trellisOrder (coding (some (1, .y))) 6 1 0 t (named 6) code ∧ searchFree t = false) ∧
    (∃ t, trellisOrder (coding) 7 1 0 t (named 7) code ∧ searchFree t = true) ∧
    (∃ t, trellisOrder (coding none 4) 8 1 4 t (named 8) code) ∧ (∃ t, trellisOrder (coding) 8 1 0 t (named 8) code) ∧
    (∃ t, trellisOrder (coding none 64) 9 1 64 t (named 9) code ∧ searchFree t = true) := by
  refine ⟨?_, ?_, ?_, ?_, ?_, ?_⟩
  · exact trellis_order_of (by decide) rfl rfl (by decide) rfl rfl (by decide +kernel)
  · exact trellis_order_of (by decide) rfl rfl (by decide) rfl rfl (by decide +kernel)
  · exact trellis_order_of (by decide) rfl rfl (by decide) rfl rfl (by decide +kernel)
  · obtain ⟨t, h, -⟩ := trellis_order_of (s := coding none 4) (op := 8) (b := 4) (c := code) (r := named 8) (by decide) rfl rfl
      (by decide) rfl rfl (by decide +kernel)
    exact ⟨t, h⟩
  · obtain ⟨t, h, -⟩ := trellis_order_of (s := coding) (op := 8) (b := 0) (c := code) (r := named 8) (by decide) rfl rfl
      (by decide) rfl rfl (by decide +kernel)
    exact ⟨t, h⟩
  · exact trellis_order_of (by decide) rfl rfl (by decide) rfl rfl (by decide +kernel)

/-- A definition with its codebook at the start of the scratchpad, and a slot that a command in flight names. -/
theorem witness_definitions : let s := copying (header ++ book) [(2, 15)]
    holdsTrellis s = true ∧ scratchLate s s.cur = false ∧ readScratch s 0 0 0 16 = some (s, header) ∧ definitionOk header = true ∧
    0 + definitionSize header ≤ scratchSize 0 ∧ readScratch s 0 0 0 (definitionSize header) = some (s, header ++ book) ∧
    definitionOf (header ++ book) = some code ∧ slotInUse s 0 15 none = false ∧
    slotInUse (s.setParty ⟨0, 0, .y⟩ { busy := some (.trellis 6 [15] 0, 0, 0) }) 0 15 none = true := by decide +kernel

/-- An XTRD of one element that has its result. -/
theorem witness_trellis_end : let x : PartyState := { run := .running, busy := some (.trellis 8 (named 8) 1, 0, 0) }
    let s := (coding).setParty ⟨0, 0, .x⟩ x
    (s.party ⟨0, 0, .x⟩).busy = some (.trellis 8 (named 8) 1, 0, 0) ∧ goesOn s ⟨0, 0, .x⟩ = true ∧ settled s 0 = true ∧
    slotInUse s 0 3 (some ⟨0, 0, .x⟩) = false ∧
    (match trellisResult (s.setCur ⟨0, 0, .x⟩) 8 (named 8) 1 with | .ok (_, d) => !d | .error _ => false) = true := by
  decide +kernel

theorem witness_traces : (3 : Nat) < 2 ^ code.m ∧ (∀ p ∈ [some 1, none], ∀ k, p = some k → k < 2 ^ code.b) ∧
    0 < [true, false].length ∧ 5 < 2 ^ 3 := by
  refine ⟨by decide, ?_, by decide, by decide⟩
  intro p hp k hk; subst hk; simp at hp; subst hp; decide

/-- XWS of 256 bytes to a page of partition 3, and its end. -/
theorem witness_weights : let r := bytesOfNat 4 256 ++ bytesOfNat 4 256 ++ bytesOfNat 4 65536 ++ bytesOfNat 4 3
    let s0 : State := ({ State.reset with cur := ⟨16, 0, .x⟩ }).setParty ⟨16, 0, .x⟩ { run := .running, busy := some (.weights 256 256 65536 3 2, 0, 0) }
    let s1 : State := { s0 with mem := writeBytes [] (scratchPhys s0 16 0 0) r, owners := [(frameCode 0 3 1, 3)] }
    let s := s1.setCtx 17 0 { task := some { job with part := 3, begun := 1 } }
    ((s.ctx 17 0).task.map Task.begun) = some 1 ∧ s.supervisor = true ∧ s.cur.party.map = .copy ∧ s.flips = [] ∧ weightsOk s (peekScratch s 16 0 0 16) = true ∧
    scratchLate s ⟨16, 0, .x⟩ = false ∧ (s.party ⟨16, 0, .x⟩).view.lag = 0 ∧
    goesOn s ⟨16, 0, .x⟩ = true ∧ settled s (dieOf 16) = true ∧ tasksOn s (dieOf 16) 3 = false ∧ isSystem 16 = true ∧
    Memory.wf s.mem = true ∧ (copying []).supervisor = false ∧
    tasksOn (s.setCtx 3 0 { task := some { job with part := 3 } }) (dieOf 16) 3 = true ∧
    dieOf 3 ∈ ({ saved with task := { job with stale := [0] } } : Cocoon).task.stale ∧
    ({ saved with task := { job with part := 3, begun := 1 } } : Cocoon).task.begun < 2 ∧ dieOf 3 = dieOf 16 := by decide +kernel

theorem witness_copy_frame : isCopy (.xtdef 0 0 1 2) = true ∧ copyDest (.xcrc 0 0 1 2 3) = some 1 ∧
    (∃ t, exec (.xcrc 0 0 1 2 3) (copying [1, 2] [(3, 2)]) = .next t) ∧ (∃ t, exec (.xcopy 0 0 1 2) (copying [] [(1, 1)]) = .next t) ∧
    ∃ t, exec (.xtdef 0 0 1 2) (copying (header ++ book) [(2, 15)]) = .next t := ⟨rfl, rfl, ⟨_, rfl⟩, ⟨_, rfl⟩, _, rfl⟩

/-- One byte of the first tensor, and the byte behind it, which the write leaves. -/
theorem witness_tensor_writes : let t := describe (desc 6 16 64 8192)
    (coding).Inv ∧ t.find [0] = some (0, 0) ∧ (match tilePlace (coding) t 0 0 with
      | .ok (_, p) => decide (p.phys = framePhys 0 0 0 1 0) | .error _ => false) = true ∧
    ¬inDirtyLog (coding) (coding).myPart (framePhys 0 0 0 1 1) ∧ (match writeUnits (coding) t [([0], [7])] with | .ok (_, b) => !b | .error _ => false) = true := by
  unfold State.Inv inDirtyLog; decide +kernel

/-! ### Collectives and stop strings -/

/-- A record over the scratchpad (source at 256, destination at 512) with the list of endpoints at 1024. -/
def collRecord (dst type peers root : Nat) : List Byte :=
  bytesOfNat 1 255 ++ bytesOfNat 1 dst ++ bytesOfNat 1 type ++ bytesOfNat 1 0 ++ bytesOfNat 2 7 ++ bytesOfNat 2 peers ++
  bytesOfNat 8 1024 ++ bytesOfNat 8 1 ++ bytesOfNat 8 256 ++ bytesOfNat 8 512 ++ bytesOfNat 8 root

def gathering (dst type : Nat) (es : List Nat) (root : Nat := 0) : State :=
  let s := (atWork .c).setPart 0 { created := true, endpoints := [0, 1] }
  let m := writeBytes [] (scratchPhys s 0 0 0) (collRecord dst type es.length root)
  { s with mem := writeBytes m (scratchPhys s 0 0 1024) (es.flatMap (bytesOfNat 2)) }

def collPasses (s : State) (kind : Nat) (r : List Byte) (es : List Nat) : Bool :=
  match readScratch s s.cur.core s.cur.slot 0 48 with
  | some (s0, r0) => collFields s0 kind r0 &&
    (match readScratch s0 s0.cur.core s0.cur.slot (recField r0 8 4) (2 * recField r0 6 2) with
     | some (s1, bytes) => decide (es = (List.range (recField r0 6 2)).map (fun i => recField bytes (2 * i) 2)) && listOk s1 kind es &&
       (match nameSide s1 r0 (sendsData kind) (recField r0 0 1) (recSfirst r0) (sourceSpan kind r0) with
        | .ok (s2, src) => (match nameSide s2 r0 (takesData kind) (recField r0 1 1) (recDfirst r0) (destSpan kind r0) with
          | .ok (t, dst) => decide (r = r0 ++ src ++ dst) && decide (collDest r = none) &&
            (match readSide t kind r with | .ok _ => true | .error _ => false)
          | .error _ => false)
        | .error _ => false)
     | none => false)
  | none => false

theorem coll_order_of {s : State} {kind : Nat} {r : List Byte} {es : List Nat} (ho : (s.reg 1).toNat = 0) (hc : s.cur.core = 0)
    (hw : foreignWindows s = false) (hd : settled s (myDie s) = true) (hl : scratchLate s s.cur = false) (h : collPasses s kind r es = true) :
    ∃ t, collOrder s kind 1 t r es ∧ ∃ u bs, readSide t kind r = .ok (u, bs) := by
  unfold collPasses at h
  split at h <;> [skip; simp at h]
  rename_i s0 r0 h0
  simp only [Bool.and_eq_true] at h
  obtain ⟨h1, h⟩ := h
  split at h <;> [skip; simp at h]
  rename_i s1 bytes e1
  simp only [Bool.and_eq_true, decide_eq_true_eq] at h
  obtain ⟨⟨h2, h3⟩, h⟩ := h
  split at h <;> [skip; simp at h]
  rename_i s2 src e2
  split at h <;> [skip; simp at h]
  rename_i t dst e3
  simp only [Bool.and_eq_true, decide_eq_true_eq] at h
  obtain ⟨⟨h5, h6⟩, h8⟩ := h
  split at h8 <;> [skip; simp at h8]
  rename_i x e4
  have ho' : (s.reg (1 : B5).toNat).toNat = 0 := ho
  exact ⟨t, ⟨by simp [collForeign, hw], hd, by rw [ho'], by rw [ho', hc]; decide, hl,
    s0, r0, s1, bytes, s2, src, dst, by rw [ho']; exact h0, h1, e1, h2, h3, e2,
    e3, h5, by rw [h6]; simp⟩, x.1, x.2, e4⟩

def collFull (dst type peers root : Nat) : List Byte := collRecord dst type peers root ++ List.replicate 256 0

/-- CSEND and CRECV, the collectives of two ranks, CBCAST at its root and elsewhere, and CFLAG. -/
theorem witness_collectives :
    (∃ t, collOrder (gathering 255 0 [1]) 1 1 t (collFull 255 0 1 0) [1] ∧ ∃ u bs, readSide t 1 (collFull 255 0 1 0) = .ok (u, bs)) ∧
    (∃ t, collOrder (gathering 255 0 [1]) 2 1 t (collFull 255 0 1 0) [1] ∧ ∃ u bs, readSide t 2 (collFull 255 0 1 0) = .ok (u, bs)) ∧
    (∃ t, collOrder (gathering 255 0 [0, 1]) 3 1 t (collFull 255 0 2 0) [0, 1] ∧ ∃ u bs, readSide t 3 (collFull 255 0 2 0) = .ok (u, bs)) ∧
    (∃ t, collOrder (gathering 255 0 [0, 1]) 4 1 t (collFull 255 0 2 0) [0, 1] ∧ ∃ u bs, readSide t 4 (collFull 255 0 2 0) = .ok (u, bs)) ∧
    (∃ t, collOrder (gathering 255 0 [0, 1] 1) 4 1 t (collFull 255 0 2 1) [0, 1] ∧ ∃ u bs, readSide t 4 (collFull 255 0 2 1) = .ok (u, bs)) ∧
    (∃ t, collOrder (gathering 255 0 [0, 1]) 5 1 t (collFull 255 0 2 0) [0, 1] ∧ ∃ u bs, readSide t 5 (collFull 255 0 2 0) = .ok (u, bs)) ∧
    (∃ t, collOrder (gathering 255 0 [1, 0]) 6 1 t (collFull 255 0 2 0) [1, 0] ∧ ∃ u bs, readSide t 6 (collFull 255 0 2 0) = .ok (u, bs)) ∧
    (∃ t, collOrder (gathering 255 8 [0, 1]) 7 1 t (collFull 255 8 2 0) [0, 1] ∧ ∃ u bs, readSide t 7 (collFull 255 8 2 0) = .ok (u, bs)) ∧
    (∃ t, collOrder (gathering 254 8 [0, 1]) 8 1 t (collFull 254 8 2 0) [0, 1] ∧ ∃ u bs, readSide t 8 (collFull 254 8 2 0) = .ok (u, bs)) := by
  refine ⟨?_, ?_, ?_, ?_, ?_, ?_, ?_, ?_, ?_⟩ <;> exact coll_order_of (by decide) rfl rfl (by decide) rfl (by decide +kernel)

/-- The root of a broadcast writes its own destination. -/
theorem witness_broadcast : let s := gathering 255 0 [0, 1]
    (match writeSide (handedOver (sendShares s 4 (collFull 255 0 2 0) [0, 1] 0 (fun _ => [1, 2, 3, 4])) 2) (collFull 255 0 2 0)
      (received 0 4 (collFull 255 0 2 0) [(0, [1, 2, 3, 4])]) with | .ok (_, d) => !d | .error _ => false) = true := by
  decide +kernel

/-- Alone in its set: each of the instructions that share passes its checks and writes its own contribution. -/
theorem witness_alone : ∀ e ∈ [(3, 0), (5, 0), (6, 0), (7, 8)], let s := gathering 255 e.2 [0]
    (∃ t, collOrder s e.1 1 t (collFull 255 e.2 1 0) [0] ∧ ∃ u bs, readSide t e.1 (collFull 255 e.2 1 0) = .ok (u, bs)) ∧
    (match writeSide (handedOver (sendShares s e.1 (collFull 255 e.2 1 0) [0] 0 (fun _ => List.replicate 8 0)) 1) (collFull 255 e.2 1 0)
      (received 0 e.1 (collFull 255 e.2 1 0) [(0, List.replicate 8 0)]) with | .ok (_, d) => !d | .error _ => false) = true := by
  intro e he
  refine ⟨coll_order_of ?_ rfl rfl ?_ rfl ?_, ?_⟩ <;> revert e he <;> decide +kernel

/-- A flag whose page is closed, and the last of two flags. -/
theorem witness_flags : let m : Msg := ⟨0, 1, 0, true, 0, 8, 8, 1, [], 0, 0, bytesOfNat 8 5, [], 0, some ⟨0, 0, .c⟩, 5, 0, none⟩
    let c := fun (n : Nat) => (⟨8, collFull 254 8 2 0, [0, 1], 0, 5, [], n, false, 0, false⟩ : Coll)
    let s := fun (n : Nat) (q : Partition) => ({ (atWork .c { busy := some (.coll (c n), 0, 0) }).setPart 0 q with
      msgs := [m], pages := [(0, .frame 0 0)], owners := [(0, 0)] } : State)
    ((s 0 {}).msgs[0]? = some m ∧ inOrder (s 0 {}) m none = true ∧ contextDone (s 0 {}) m none = true ∧
      m.flag = true ∧ ((s 1 {}).ctx 0 0).dying = none ∧ m.agent = some ⟨0, 0, .c⟩ ∧ (c 0).kind = 8 ∧ (c 0).since = m.since ∧
      (look 0 ((s 0 {}).part 0).flpg 1).getLsbD 63 = false ∧ (c 0).answered + 1 < (c 0).list.length) ∧
    (let t := s 1 { flpg := [(1, 2 ^ 63)], keyn := 2 }
     (storeFlag (heardMsg { t with msgs := [] } m) m).isSome = true ∧ inOrder t m none = true ∧ contextDone t m none = true ∧ (c 1).refused = false ∧
     (c 1).answered + 1 = (c 1).list.length) ∧
    (let n : Msg := { m with clock := [(2 ^ 16 + 37, 1)] }; contextDone { s 0 {} with msgs := [n] } n none = false) := by decide +kernel

/-- A message of a kind and count, an instruction of a kind and a number of peers, and the two together. -/
def msgOf (kind count : Nat) : Msg :=
  ⟨1, 0, 0, false, 7, kind, 0, count, if kind = 1 then [] else [0, 1], 1, 0, [1, 2, 3, 4], [], 0, none, 0, 0, none⟩
def collOf (kind peers : Nat) : Coll :=
  ⟨kind, collFull 255 0 peers 0, if kind = 2 then [1] else [0, 1], 0, 0, if kind = 2 then [] else [(0, [5, 6, 7, 8])], 0, false, 0, false⟩
def meeting (x : Coll) (y : Msg) : State :=
  { ((gathering 255 0 [0, 1]).setParty ⟨0, 0, .c⟩ { run := .running, busy := some (.coll x, 0, 0) }).setPart 0
      { endpoints := [0, 1], peers := [(0, 0)] } with msgs := [y] }
def meets (x : Coll) (y : Msg) : Bool :=
  inOrder (meeting x y) y (some ⟨0, 0, .c⟩) && contextDone (meeting x y) y (some ⟨0, 0, .c⟩) && y.holder.isNone && settled (meeting x y) 0 &&
  decide (receiverOf (meeting x y) y = some (⟨0, 0, .c⟩, x, 0, 0)) && goesOn (meeting x y) ⟨0, 0, .c⟩

/-- A CRECV, and a CGATH of two ranks whose own contribution is there, with a message for each; a message of another count and
one of another list; and one that must wait for an earlier one. -/
theorem witness_messages : (meets (collOf 2 1) (msgOf 1 1) = true ∧ meets (collOf 2 1) (msgOf 1 2) = true ∧
      meets (collOf 6 2) (msgOf 6 1) = true ∧ meets (collOf 6 2) { msgOf 6 1 with list := [0, 2] } = true ∧
      meets { collOf 6 2 with kept := true } { msgOf 6 1 with list := [0, 2] } = true) ∧
    cocoonOfSerial (meeting (collOf 2 1) (msgOf 1 2)) 5 = none ∧
    (msgOf 1 2).count ≠ recCount (collOf 2 1).record ∧ (msgOf 6 1).list = (collOf 6 2).list ∧ ([0, 2] : List Nat) ≠ (collOf 6 2).list ∧
    (let y := { msgOf 6 1 with num := 2 }
     inOrder { meeting (collOf 6 2) y with msgs := [{ y with num := 1 }, y] } y (some ⟨0, 0, .c⟩) = false) ∧
    wanted (collOf 2 1) ≤ 1 ∧ wanted (collOf 6 2) ≤ 2 ∧
    1 < wanted { collOf 6 3 with list := [0, 1, 2] } ∧
    (let s := meeting (collOf 6 2) (msgOf 6 1)
     match writeSide (handedOver ({ s with msgs := [{ msgOf 6 1 with holder := some ⟨0, 0, .c⟩ }] }.setCur ⟨0, 0, .c⟩) 2)
       (collOf 6 2).record (received 0 6 (collOf 6 2).record
       [(0, [5, 6, 7, 8]), (1, [1, 2, 3, 4])]) with | .ok (_, d) => !d | .error _ => false) = true := by decide +kernel

/-- A record of the strings 'a' and 'bc', and one of a feed of five bytes of row 7. -/
theorem witness_stops : (let r := bytesOfNat 16 (2 + 3 * 2 ^ 16) ++ [1, 97, 2, 98, 99]
    let s0 := atWork .s { regs := [(2, 15)] }
    let s : State := { s0 with mem := writeBytes [] (scratchPhys s0 0 0 0) r }
    Ready s .swallowtail 0 0 ∧ s.flips = [] ∧ scratchLate s s.cur = false ∧ s.me.view.lag = 0 ∧ recField (peekScratch s 0 0 0 16) 0 2 = 2 ∧ recField (peekScratch s 0 0 0 16) 2 2 = 3 ∧
    (stopSlot s 15).owner = 64 ∧ parseStops 2 (peekScratch s 0 0 16 5) = some [[97], [98, 99]] ∧
    (([[97], [98, 99]] : List (List Byte)).map List.length).sum = 3 ∧ ([[97], [98, 99]] : List (List Byte)).Nodup) :=
  ⟨ready0 rfl, rfl, rfl, rfl, by decide +kernel, by decide +kernel, by decide, by decide +kernel, by decide, by decide⟩

theorem witness_feeds : let r := bytesOfNat 4 (7 + 2 * 2 ^ 16) ++ bytesOfNat 4 5 ++ bytesOfNat 4 64 ++ bytesOfNat 20 128
    let s0 := (atWork .s).setHamper 0 { stops := [(2, ⟨0, 1, [[98, 99]]⟩)] }
    let s1 : State := { s0 with mem := writeBytes (writeBytes [] (scratchPhys s0 0 0 0) r) (scratchPhys s0 0 0 64) [97, 98, 97, 97, 98] }
    let s := rowPut (rowPut s1 7 10 1 1) 7 12 4 (5 * 1024)
    rowClaimed s 7 = true ∧ rowSerial s 7 = s.mySerial.toNat ∧ s.mySerial ≠ 0 ∧ (stopSlot s 2).owner = stopOwner s ∧
    recField (peekScratch s 0 0 0 32) 0 2 = 7 ∧ recField (peekScratch s 0 0 0 32) 16 16 = 0 ∧
    mustWait s (rowHome 7) false true = false ∧ rowGet s 7 0x63 1 ≤ 27 ∧ Memory.wf s.mem = true ∧
    (∀ y ∈ (stopSlot s 2).strings, y.length ≤ 28) ∧ 128 + 5 + 27 ≤ scratchSize s.cur.core := by decide +kernel

/-- A row that holds a byte from the feed before, of the slot's generation and of another. -/
theorem witness_held_bytes : let base := rowPut (rowPut (rowPut State.reset 7 0x62 1 1) 7 0x63 1 1) 7 0x64 1 98
    let f := fun (gen : Nat) => rowPut base 7 0x60 2 (2 + 16 * gen)
    rowGet (f 1) 7 0x62 1 % 2 = 1 ∧ rowGet (f 1) 7 0x60 2 = 2 + 16 * (1 : BitVec 12).toNat ∧ rowHeld (f 1) 7 = [98] ∧
    rowGet (f 2) 7 0x60 2 ≠ 2 + 16 * (1 : BitVec 12).toNat ∧ rowGet (f 2) 7 0x63 1 ≤ 27 ∧
    (feedStream [[98, 99]] ([98] ++ [99]) [] 0 []).2.2 = true := by decide +kernel

theorem witness_strings : (∀ x ∈ ([[98, 99]] : List (List Byte)), 0 < x.length ∧ x.length ≤ 28) ∧
    (feedStream [[98, 99]] [97, 98, 99, 1] [] 0 []).2.2 = true ∧ (feedStream [[98, 99]] [97, 98] [] 0 []).2.2 = false := by decide

/-- No byte of system DRAM is in a scratchpad. -/
theorem not_stored (t : State) (kind : Nat) (r : List Byte) (h : collDest r = none) : ¬collStores t kind r 70000 := by
  unfold collStores
  rw [h]
  rintro ⟨k, -, hk⟩
  unfold scratchPhys phys tagScratch at hk
  dsimp only at hk
  split at hk <;> [skip; split at hk] <;> omega

/-- Alone in its set a CRED writes its destination; a CSEND sends; a CRECV is in progress. A byte elsewhere. -/
theorem witness_collective_frames : (let s := gathering 255 0 [0]
      let r := collFull 255 0 1 0
      collForm (.cred 0 0 1) = some (3, 1) ∧ (∃ t, exec (.cred 0 0 1) s = .next t) ∧ s.Inv ∧
      (∃ u, collOrder s 3 1 u r [0] ∧ ¬collStores u 3 r 70000) ∧ ¬inDirtyLog s s.myPart 70000) ∧
    (∃ t, exec (.csend 0 0 1) (gathering 255 0 [1]) = .next t) ∧ (∃ t, exec (.crecv 0 0 1) (gathering 255 0 [1]) = .next t) ∧
    (∃ t, exec (.sscfg 0 0 1 2) (atWork .s) = .next t) ∧ (∃ t, exec (.ssfeed 0 0 1) (atWork .s) = .next t) ∧
    (atWork .s).Inv ∧ (atWork .s).me.view.lag = 0 ∧ scratchLate (atWork .s) (atWork .s).cur = false :=
  ⟨⟨rfl, next_of (by decide +kernel), by unfold State.Inv; decide +kernel,
      (witness_alone (3, 0) (by decide)).1.imp (fun u h => ⟨h.1, not_stored u 3 _ (by decide +kernel)⟩), by unfold inDirtyLog; decide +kernel⟩,
    next_of (by decide +kernel), next_of (by decide +kernel), ⟨_, rfl⟩, ⟨_, rfl⟩, rfl, rfl, rfl⟩

/-- An index without tokens, saved into the first tensor, and the image of one with a token loaded into a free index. -/
theorem witness_suffix_images : let x : Suffix := { owner := some 0, q := 256, n := 1, toks := [7] }
    let e : Suffix := { owner := some 0, q := 256 }
    let s : State := { withTensors .w0 [(1, 9), (2, 2)] with suffixes := [(9, e)] }
    let u : State := { (withTensors .w0 [(1, 9), (2, 2)]) with mem := writeBytes (withTensors .w0 []).mem (3 * 65536) (suffixImage x) }
    let big := fun (s : State) => ({ s with mem := writeBytes s.mem (4096 + 256 + 32) (bytesOfNat 4 68) } : State)
    ownIndex s 1 = some 9 ∧ mustWait s (suffixHome 9) false true = false ∧
    (match imageTensor (big s) 2 with
     | .ok (v, t) => decide ((suffixImage e).length ≤ t.extent 0) && (destFault v t (rowTiles t (suffixImage e).length)).isNone &&
        (match writeUnits v t (((List.range (suffixImage e).length).zip (suffixImage e)).map (fun e => ([(e.1 : Int)], [e.2]))) with
         | .ok (_, d) => !d | .error _ => false)
     | .error _ => false) = true ∧
    (suffix u 9).owner = none ∧ u.supervisor = false ∧
    (match imageTensor (big u) 2 with
     | .ok (v, t) => (match readRow t 64 0 v with
        | .ok (y, h) => (match suffixFrom u 9 h (t.extent 0) with
          | some z => (match readRow t (4 * (z.n - z.e)) 64 y with | .ok (_, bs) => decide (bs = [7, 0, 0, 0]) | .error _ => false)
          | none => false)
        | .error _ => false)
     | .error _ => false) = true := by decide +kernel

/-! ### Decoding and steps -/

/-- Operands at both ends of their ranges. -/
theorem witness_encodings : (Instr.addi 63 0 (-1)).wf = true ∧ (encode (.addi 63 0 (-1))).isSome = true ∧
    (Instr.addi 63 0 (-1)).fits .wing = true ∧ (Instr.vimm 3 3 31 0xFFFF).wf = true ∧ (encode (.vimm 3 3 31 0xFFFF)).isSome = true ∧
    (Instr.vimm 3 3 31 0xFFFF).fits .vector = true ∧
    (match encode (.addi 63 0 (-1)) with | some x => decode .wing x | none => .error .allZero) = .ok (.addi 63 0 (-1)) := by decide

/-- It is w0's turn; the word at its pc is ADDI, or zero. -/
theorem witness_step : let s : State := { sysWing [(2, 5)] with plan := [.issue ⟨16, 0, .w0⟩] }
    let t : State := { s with mem := writeBytes [] (imemPhys s ⟨16, 0, .w0⟩ 0) (bytesOfNat 4 0x04514400) }
    let turn : State := { grantGates t with plan := [], tick := t.tick + 1 }
    (isParty ⟨16, 0, .w0⟩ = true ∧ alive turn ⟨16, 0, .w0⟩ = true ∧ takesRecord turn 0 = false ∧
      parked (t.party ⟨16, 0, .w0⟩) = false ∧ (t.ctx 16 0).sh.lock = false ∧ (t.party ⟨16, 0, .w0⟩).push = none ∧
      (t.party ⟨16, 0, .w0⟩).busy = none ∧ Party.w0.isWing = true ∧ t.flips = []) ∧
    decode .wing (wordAt t ⟨16, 0, .w0⟩ 0) = .ok (.addi 10 10 0x400) ∧
    decode .wing (wordAt s ⟨16, 0, .w0⟩ 0) = .error .allZero := by decide +kernel

/-- Four wings in lock-step at words of zeros. -/
def locked : State :=
  wings.foldl (fun s p => s.modParty ⟨16, 0, p⟩ (fun x => { x with run := .running, pc := BitVec.ofNat 64 (4 * p.num) }))
    (State.reset.setCtx 16 0 { sh := { lock := true } })

theorem witness_bundle : (match issueBundle locked 16 0 with | .next t => decide (t.last = .trapped) | _ => false) = true := by
  decide +kernel

theorem witness_step_inv : let s : State := { sysWing [] with plan := [.issue ⟨16, 0, .w0⟩] }
    Memory.wf s.mem = true ∧ isNext (step s) = true := by decide +kernel

/-- A wing that holds four vectors and has joined eight groups is within its bounds, as is all else. -/
def bounded : State :=
  { sysWing [] { v := [(0, List.replicate 4 default)], groups := [0, 1, 2, 3, 4, 5, 6, 7] } with plan := [.issue ⟨16, 0, .w0⟩] }

theorem witness_step_bounds : bounded.Bounded ∧ isNext (step bounded) = true := by
  refine ⟨⟨?_, ?_, ?_⟩, by decide +kernel⟩
  · intro e h
    rcases List.mem_singleton.mp h with rfl
    exact ⟨fun n => by show (look [] [(0, List.replicate 4 (default : VEntry))] n).length ≤ 4; unfold look; split <;> simp [look], by decide, by decide⟩
  · intro e h; cases h
  · intro c h; cases h

/-- A wing of a task of partition 0, which owns no frame; the first frame is partition 1's. -/
theorem witness_guest : let s : State := { wing [(1, 2), (2, 3)] with owners := [(frameCode 0 0 0, 1)] }
    (encode (.add 0 1 2)).isSome = true ∧ s.supervisor = false ∧ Memory.wf s.mem = true ∧
    isNext (exec (.add 0 1 2) s) = true ∧ s.myPart = 0 ∧ ownerOf s (frameCode 0 0 0) = 1 ∧ s.windows = [] ∧
    0 < framesOf 0 ∧ ownerOf s (frameCode 0 1 (framesOf 1 - 1)) = 64 := by decide +kernel

/-- One step: ADDI adds, and s2 is read before s2 is written. -/
theorem test_step_addi : let s : State := { sysWing [(10, 5)] with plan := [.issue ⟨16, 0, .w0⟩] }
    let t : State := { s with mem := writeBytes [] (imemPhys s ⟨16, 0, .w0⟩ 0) (bytesOfNat 4 0x04514400) }
    (match step t with
     | .next u => decide ((u.party ⟨16, 0, .w0⟩).regs = [(10, 0x405)]) && decide ((u.party ⟨16, 0, .w0⟩).pc = 4)
     | _ => false) = true := by decide +kernel

/-- The host's question: a word placed where the first step fetches runs. -/
theorem test_fetch_word : (match step (State.reset.withFetchWord 32 0x04514400) with
    | .next u => decide (look 0 (u.party u.cur).regs 10 = 0x400)
    | _ => false) = true := by decide +kernel

end Sys2Proof.Tests
end

section
/-! PROOFS. System registers (O9): what a write of each register leaves alone, and what MFS and MTS do by the traps of R61. -/

namespace Sys2Proof.Machine

/-! ## States that differ in no party's registers -/

/-- `t` has the executing party of `s`, and in every party the scalar registers and the pc of `s`. -/
structure KeepsRegs (s t : State) : Prop where
  cur : t.cur = s.cur
  regs : ∀ q, (t.party q).regs = (s.party q).regs
  pc : ∀ q, (t.party q).pc = (s.party q).pc

/-- The same, and the memory of `s`. -/
structure KeepsRegsAndMem (s t : State) : Prop extends KeepsRegs s t where
  mem : t.mem = s.mem

/-- A write that may trap instead: what it makes, if it makes anything, keeps registers and memory. -/
def SomeKeeps (s : State) (o : Option State) : Prop := ∀ t, o = some t → KeepsRegsAndMem s t

namespace KeepsRegs

variable {s t u : State}

theorem of_parties (hc : t.cur = s.cur) (hp : t.parties = s.parties) : KeepsRegs s t :=
  ⟨hc, fun q => by simp only [State.party, hp], fun q => by simp only [State.party, hp]⟩

theorem refl (s : State) : KeepsRegs s s := of_parties rfl rfl

theorem trans (h : KeepsRegs s t) (k : KeepsRegs t u) : KeepsRegs s u :=
  ⟨k.cur.trans h.cur, fun q => (k.regs q).trans (h.regs q), fun q => (k.pc q).trans (h.pc q)⟩

/-- An update of one party that leaves its own registers and pc alone. -/
theorem modParty (s : State) (p : PartyId) {f : PartyState → PartyState} (hr : ∀ x, (f x).regs = x.regs) (hpc : ∀ x, (f x).pc = x.pc) :
    KeepsRegs s (s.modParty p f) := by
  have h : ∀ q, (s.modParty p f).party q = if partyKey q = partyKey p then f (s.party q) else s.party q := by
    intro q
    split
    · rename_i hq; simp [State.party, State.modParty, State.setParty, hq]
    · rename_i hq; exact State.party_modParty_other s p q f hq
  refine ⟨rfl, fun q => ?_, fun q => ?_⟩ <;> rw [h q] <;> split
  · exact hr _
  · rfl
  · exact hpc _
  · rfl

/-- A fold of steps each of which keeps the registers. -/
theorem foldl {α : Type} {f : State → α → State} (hf : ∀ t e, KeepsRegs t (f t e)) (l : List α) (s : State) :
    KeepsRegs s (l.foldl f s) :=
  List.foldlRecOn l f (refl s) (fun t h e _ => h.trans (hf t e))

theorem me_regs (h : KeepsRegs s t) : t.me.regs = s.me.regs := by rw [State.me, h.cur]; exact h.regs s.cur

theorem me_pc (h : KeepsRegs s t) : t.me.pc = s.me.pc := by rw [State.me, h.cur]; exact h.pc s.cur

end KeepsRegs

namespace KeepsRegsAndMem

variable {s t u : State}

theorem of_parties (hc : t.cur = s.cur) (hp : t.parties = s.parties) (hm : t.mem = s.mem) : KeepsRegsAndMem s t :=
  ⟨.of_parties hc hp, hm⟩

@[simp] theorem refl (s : State) : KeepsRegsAndMem s s := of_parties rfl rfl rfl

theorem trans (h : KeepsRegsAndMem s t) (k : KeepsRegsAndMem t u) : KeepsRegsAndMem s u :=
  ⟨h.toKeepsRegs.trans k.toKeepsRegs, k.mem.trans h.mem⟩

theorem foldl {α : Type} {f : State → α → State} (hf : ∀ t e, KeepsRegsAndMem t (f t e)) (l : List α) (s : State) :
    KeepsRegsAndMem s (l.foldl f s) :=
  List.foldlRecOn l f (refl s) (fun t h e _ => h.trans (hf t e))

@[simp] theorem modMe (s : State) {f : PartyState → PartyState} (hr : ∀ x, (f x).regs = x.regs) (hpc : ∀ x, (f x).pc = x.pc) :
    KeepsRegsAndMem s (s.modMe f) := ⟨.modParty s s.cur hr hpc, rfl⟩

@[simp] theorem setMe (s : State) {x : PartyState} (hr : x.regs = s.me.regs) (hpc : x.pc = s.me.pc) :
    KeepsRegsAndMem s (s.setMe x) := by
  have h : s.setMe x = s.modMe (fun y => { x with regs := y.regs, pc := y.pc }) := by
    simp only [State.modMe, ← hr, ← hpc]
  rw [h]
  exact modMe s (fun _ => rfl) (fun _ => rfl)

/-- A choice of which each branch keeps the registers. -/
theorem ite (c : Prop) [Decidable c] (ht : KeepsRegsAndMem s t) (hu : KeepsRegsAndMem s u) :
    KeepsRegsAndMem s (if c then t else u) := by
  split
  · exact ht
  · exact hu

@[simp] theorem modSh (s : State) (f : Shared → Shared) : KeepsRegsAndMem s (s.modSh f) := of_parties rfl rfl rfl
@[simp] theorem setPart (s : State) (p : Nat) (q : Partition) : KeepsRegsAndMem s (s.setPart p q) := of_parties rfl rfl rfl
@[simp] theorem modPart (s : State) (p : Nat) (f : Partition → Partition) : KeepsRegsAndMem s (s.modPart p f) :=
  of_parties rfl rfl rfl
@[simp] theorem modDie (s : State) (d : Nat) (f : DieState → DieState) : KeepsRegsAndMem s (s.modDie d f) := of_parties rfl rfl rfl
@[simp] theorem setKey (s : State) (k : Nat) (x : KeySlot) : KeepsRegsAndMem s (s.setKey k x) := of_parties rfl rfl rfl
@[simp] theorem modSel (s : State) (f : Partition → Partition) : KeepsRegsAndMem s (modSel s f) := of_parties rfl rfl rfl
@[simp] theorem refuse (s : State) (i : Nat) : KeepsRegsAndMem s (refuse s i) := modMe s (fun _ => rfl) (fun _ => rfl)

theorem haltSlot (s : State) (c k : Nat) : KeepsRegsAndMem s (haltSlot s c k) := ite _ (refl s) (of_parties rfl rfl rfl)

theorem haltPart (s : State) (p : Nat) : KeepsRegsAndMem s (haltPart s p) := by
  refine foldl (fun t e => ?_) _ s
  exact haltSlot t e.1 e.2.1

end KeepsRegsAndMem

@[simp] theorem someKeeps_some {s t : State} : SomeKeeps s (some t) ↔ KeepsRegsAndMem s t := by simp [SomeKeeps]

@[simp] theorem someKeeps_none {s : State} : SomeKeeps s none := by simp [SomeKeeps]

/-! ## Writes that keep registers and memory -/

@[simp] theorem writeFrg_keeps (s : State) (v : Word) : KeepsRegsAndMem s (writeFrg s v) :=
  .ite _ (.refuse s _) (.modSel s _)
@[simp] theorem writeKeyb_keeps (s : State) (v : Word) : KeepsRegsAndMem s (writeKeyb s v) :=
  .ite _ (.refuse s _) (.modSel s _)
@[simp] theorem writeKeyn_keeps (s : State) (v : Word) : KeepsRegsAndMem s (writeKeyn s v) :=
  .ite _ (.refuse s _) (.modSel s _)
@[simp] theorem writeRslot_keeps (s : State) (v : Word) : KeepsRegsAndMem s (writeRslot s v) :=
  .ite _ (.refuse s _) (.modDie s _ _)
@[simp] theorem writeFlpg_keeps (s : State) (v : Word) : KeepsRegsAndMem s (writeFlpg s v) :=
  .ite _ (.refuse s _) (.modSel s _)
@[simp] theorem writeEcap_keeps (s : State) (v : Word) : KeepsRegsAndMem s (writeEcap s v) :=
  .ite _ (.refuse s _) (.modSel s _)
@[simp] theorem writePlmaps_keeps (s : State) (v : Word) : KeepsRegsAndMem s (writePlmaps s v) :=
  .ite _ (.refuse s _) (.modSel s _)
@[simp] theorem writePwsh_keeps (s : State) (v : Word) : KeepsRegsAndMem s (writePwsh s v) :=
  .ite _ (.refuse s _) (.modSel s _)
@[simp] theorem writeDlbase_keeps (s : State) (v : Word) : KeepsRegsAndMem s (writeDlbase s v) := .modSel s _
@[simp] theorem writeDltail_keeps (s : State) (v : Word) : KeepsRegsAndMem s (writeDltail s v) := .modSel s _
@[simp] theorem writeLklim_keeps (s : State) (p q : Nat) (v : BitVec 32) : KeepsRegsAndMem s (writeLklim s p q v) :=
  .of_parties rfl rfl rfl
@[simp] theorem writeLs_keeps (s : State) (l : Nat) (v : Word) : KeepsRegsAndMem s (writeLs s l v) :=
  .modMe s (fun _ => rfl) (fun _ => rfl)

@[simp] theorem writeFrown_keeps (s : State) (v : Word) : KeepsRegsAndMem s (writeFrown s v) := by
  unfold writeFrown
  dsimp only
  split
  · simp
  · split_ifs
    · simp
    · simp
    · simp
    · exact .of_parties rfl rfl rfl

@[simp] theorem writeEadj_keeps (s : State) (v : Word) : KeepsRegsAndMem s (writeEadj s v) :=
  .ite _ ((KeepsRegsAndMem.setPart s _ _).trans (.haltPart _ _)) (.setPart s _ _)

@[simp] theorem writeCpart_keeps (s : State) (v : Word) : SomeKeeps s (writeCpart s v) := by
  unfold writeCpart
  dsimp only
  split_ifs <;> simp
  all_goals exact .of_parties rfl rfl rfl

@[simp] theorem writeCstat_keeps (s : State) (v : Word) : SomeKeeps s (writeCstat s v) := by
  unfold writeCstat
  dsimp only
  split_ifs
  · simp
  · simp
  · rw [someKeeps_some]
    refine KeepsRegsAndMem.trans (t := (s.modCore _ _).modCore _ _) (.of_parties rfl rfl rfl) (.foldl (fun t e => ?_) _ _)
    exact .ite _ (.of_parties rfl rfl rfl) (.refl t)

/-- No write but that of PRST changes a byte of memory, and none changes a register or the pc of a party (R62). -/
theorem writeReg_keeps {s : State} {n : Nat} {v : Word} (hn : n ≠ 0x218) : SomeKeeps s (writeReg s n v) := by
  revert hn
  unfold writeReg
  dsimp only
  split_ifs
  · simp
  · simp
  · simp
  · simp
  · split <;> simp

/-! ## PRST: the tasks that a partition has parked are discarded, the registers of parties stay (R369) -/

namespace KeepsRegs

variable (s : State)

theorem eventFor (c k i : Nat) (ps : List Party) : KeepsRegs s (eventFor s c k i ps) := by
  induction ps generalizing s with
  | nil => exact refl s
  | cons p ps ih =>
    have marked : KeepsRegs s (s.modParty ⟨c, k, p⟩ (fun x => setEvent x i)) := modParty s _ (fun _ => rfl) (fun _ => rfl)
    exact marked.trans (ih _)

theorem eventSeq (part r : Nat) : KeepsRegs s (eventSeq s part r) := by
  refine foldl (fun t e => ?_) _ s
  exact eventFor t e.1 e.2.1 4 allParties

theorem endClaim (r phase : Nat) : KeepsRegs s (endClaim s r phase) := by
  unfold Machine.endClaim
  dsimp only
  generalize (if rowVoiding s r = true then 0 else phase) = p
  have ended : KeepsRegs s (rowPut (rowPut (rowPut s r 9 1 p) r 10 1 0) r 12 4 0) := of_parties rfl rfl
  split
  · exact ended
  · split
    · exact ended.trans (eventSeq _ _ _)
    · exact ended

theorem stampRow (c : Sparse Nat) (r : Nat) (rs : List (Nat × Nat)) : KeepsRegs s (stampRow s c r rs) := by
  obtain ⟨m, h⟩ := stampRow_spec s c r rs
  rw [h]
  exact of_parties rfl rfl

theorem endClaims (serial : Nat) (c : Sparse Nat) : KeepsRegs s (endClaims s serial c) :=
  foldl (fun t _ => (endClaim t _ _).trans (stampRow _ _ _ _)) _ s

theorem zeroFrame (die space f num : Nat) : KeepsRegs s (zeroFrame s die space f num) := by
  have h : KeepsRegs s (forget s (framePhys die 64 space f 0) 65536) := by
    unfold forget
    split
    · exact refl s
    · exact of_parties rfl rfl
  unfold Machine.zeroFrame
  dsimp only
  split
  · exact h.trans (of_parties rfl rfl)
  · exact h.trans (of_parties rfl rfl)

theorem freeFrames (codes : List Nat) : KeepsRegs s (freeFrames s codes) :=
  foldl (fun t c => trans (t := { t with owners := drop t.owners c }) (of_parties rfl rfl) (zeroFrame _ _ _ _ _)) codes s

theorem orderPoint (p : PartyId) : KeepsRegs s (orderPoint s p) := modParty s p (fun _ => rfl) (fun _ => rfl)

theorem passBarrier (g : Nat) (c : Sparse Nat) (ms : List (PartyId × PartyState)) : KeepsRegs s (passBarrier s g c ms) := by
  induction ms generalizing s with
  | nil => exact refl s
  | cons m ms ih =>
    have go : KeepsRegs s (s.modParty m.1 (fun x => { setEvent x 2 with wait := .bar g true })) :=
      modParty s m.1 (fun _ => rfl) (fun _ => rfl)
    have told : ∀ t, KeepsRegs t (learn t (dieOf m.1.core) c) := fun _ => of_parties rfl rfl
    exact go.trans ((told _).trans ((orderPoint _ m.1).trans (ih _)))

theorem checkBarrier (space g : Nat) : KeepsRegs s (checkBarrier s space g) := by
  unfold Machine.checkBarrier
  dsimp only
  split
  · exact passBarrier s _ _ _
  · exact refl s

theorem releaseCocoon (c : Cocoon) : KeepsRegs s (releaseCocoon s c) := by
  unfold Machine.releaseCocoon
  extract_lets serial ended s1 s2 s3
  have unclaimed : KeepsRegs s s1 := (endClaims s serial c.clock).trans (of_parties rfl rfl)
  have closed : KeepsRegs s1 (leaveWindows s1 serial) := of_parties rfl rfl
  have freed : KeepsRegs s1 s2 := closed.trans (freeFrames _ c.task.frames)
  have discarded : KeepsRegs s2 s3 := of_parties rfl rfl
  refine (unclaimed.trans (freed.trans discarded)).trans (foldl (fun t g => ?_) _ s3)
  exact checkBarrier t _ g

theorem stopWings (c k : Nat) : KeepsRegs s (stopWings s c k) := by
  refine foldl (fun t w => ?_) wings s
  exact modParty t _ (fun _ => rfl) (fun _ => rfl)

theorem beginReset (p : Nat) : KeepsRegs s (beginReset s p) := by
  unfold Machine.beginReset
  extract_lets s1 s2 s3 s4
  have begun : KeepsRegs s s1 := of_parties rfl rfl
  have stopped : KeepsRegs s1 s2 := by
    refine foldl (fun t e => ?_) _ s1
    exact stopWings t e.1 e.2.1
  have released : KeepsRegs s2 s3 := foldl releaseCocoon _ s2
  have dismissed : KeepsRegs s3 s4 := of_parties rfl rfl
  exact (begun.trans stopped).trans ((released.trans dismissed).trans (of_parties rfl rfl))

theorem writePrst (v : Word) : KeepsRegs s (writePrst s v) := by
  unfold Machine.writePrst
  dsimp only
  split
  · exact (KeepsRegsAndMem.refuse s 5).toKeepsRegs
  · exact beginReset s _

end KeepsRegs

/-- No write changes a scalar register or the pc of a party (R62). -/
theorem writeReg_keepsRegs {s t : State} {n : Nat} {v : Word} (h : writeReg s n v = some t) : KeepsRegs s t := by
  by_cases hn : n = 0x218
  · subst hn
    obtain rfl : writePrst s v = t := Option.some.inj h
    exact .writePrst s v
  · exact (writeReg_keeps hn t h).toKeepsRegs

/-! ## Which writes there are -/

/-- Whether a task is resident in the column of core `c`. -/
def ColumnOccupied (s : State) (c : Nat) : Prop := ∃ k < 2, (s.ctx c k).task ≠ none ∨ (s.ctx (partnerOf c) k).task ≠ none

theorem columnOccupied_iff (s : State) (c : Nat) :
    ([c, partnerOf c].any (fun c => [0, 1].any (fun k => (s.ctx c k).task.isSome)) = true) ↔ ColumnOccupied s c := by
  simp only [ColumnOccupied, List.any_cons, List.any_nil, Bool.or_false, Bool.or_eq_true, Option.isSome_iff_ne_none]
  constructor
  · rintro ((h | h) | (h | h))
    · exact ⟨0, by decide, .inl h⟩
    · exact ⟨1, by decide, .inl h⟩
    · exact ⟨0, by decide, .inr h⟩
    · exact ⟨1, by decide, .inr h⟩
  · rintro ⟨k, hk, h⟩
    obtain rfl | rfl : k = 0 ∨ k = 1 := by omega
    · exact h.imp .inl .inl
    · exact h.imp .inr .inr

/-- CPART is not written while a task is resident in its column (R318). -/
theorem writeCpart_occupied {s : State} (h : ColumnOccupied s s.me.csel.toNat) (v : Word) : writeCpart s v = none := by
  rw [← columnOccupied_iff] at h
  unfold writeCpart
  dsimp only
  rw [if_pos h, ite_self]

theorem writeCpart_isSome {s : State} (hc : cselOk s = true) (h : ¬ColumnOccupied s s.me.csel.toNat) (v : Word) :
    (writeCpart s v).isSome = true := by
  rw [← columnOccupied_iff] at h
  unfold writeCpart
  dsimp only
  rw [if_neg (by simp [hc]), if_neg h]
  split_ifs <;> rfl

theorem writeCstat_isSome {s : State} (hc : cselOk s = true) (v : Word) : (writeCstat s v).isSome = true := by
  unfold writeCstat
  dsimp only
  rw [if_neg (by simp [hc])]
  split_ifs <;> rfl

/-- What CPART and CSTAT ask of CSEL (R317). -/
theorem cselOk_of_regTrap {s : State} {n : Nat} (h : regTrap s n = none) (hn : n = 0x209 ∨ n = 0x20D) : cselOk s = true := by
  by_contra hc
  rw [Bool.not_eq_true] at hc
  have hb : ((n == 0x209 || n == 0x20D) && !cselOk s) = true := by simp [hc, hn]
  unfold regTrap at h
  rw [if_pos hb] at h
  split_ifs at h

/-- A register that no trap forbids has a write of its own, CPART in an occupied column apart (R62). -/
theorem writeReg_isSome {s : State} {n : Nat} (h : regTrap s n = none) (hcol : n = 0x209 → ¬ColumnOccupied s s.me.csel.toNat)
    (v : Word) : (writeReg s n v).isSome = true := by
  by_cases hp : n = 0x209
  · subst hp
    exact writeCpart_isSome (cselOk_of_regTrap h (.inl rfl)) (hcol rfl) v
  by_cases hs : n = 0x20D
  · subst hs
    exact writeCstat_isSome (cselOk_of_regTrap h (.inr rfl)) v
  revert hp hs
  unfold writeReg
  dsimp only
  split_ifs
  · simp
  · simp
  · simp
  · simp
  · split <;> simp

/-! ## MFS and MTS by their traps -/

theorem exec_mfs_trap {s : State} {d : B6} {r : BitVec 13} {c : Nat} {v : Word} (h : regTrap s r.toNat = some (c, v)) :
    exec (.mfs d r) s = .next (takeTrap s s.cur c v) := by
  show execMfs d r s = _
  simp only [execMfs, h, control_eq, conclude_trap]

theorem exec_mts_trap {s : State} {a : B6} {r : BitVec 13} {c : Nat} {v : Word} (h : regTrap s r.toNat = some (c, v)) :
    exec (.mts a r) s = .next (takeTrap s s.cur c v) := by
  show execMts a r s = _
  simp only [execMts, h, control_eq, conclude_trap]

theorem exec_mfs_reads {s : State} {d : B6} {r : BitVec 13} (h : regTrap s r.toNat = none) (hd : regOk s d = true) :
    exec (.mfs d r) s = writes s d (readReg s r.toNat) false := by
  show execMfs d r s = _
  simp only [execMfs, h, control_eq, hd, if_true, conclude_done_zero, popToken_zero, writes]

theorem exec_mts_writes {s t : State} {a : B6} {r : BitVec 13} (h : regTrap s r.toNat = none) (ha : regOk s a = true)
    (hr : r ≠ 0x1C4) (ht : writeReg s r.toNat (s.reg a.toNat) = some t) : exec (.mts a r) s = .next (retire t 0 1) := by
  show execMts a r s = _
  simp only [execMts, h, control_eq, ha, hr, ht, Bool.not_true, Bool.false_eq_true, if_false, conclude_done_zero, popToken_zero]

theorem exec_mts_none {s : State} {a : B6} {r : BitVec 13} (h : regTrap s r.toNat = none) (ha : regOk s a = true)
    (hr : r ≠ 0x1C4) (ht : writeReg s r.toNat (s.reg a.toNat) = none) :
    exec (.mts a r) s = .next (takeTrap s s.cur causeOperand s.curWord) := by
  show execMts a r s = _
  simp only [execMts, h, control_eq, ha, hr, ht, Bool.not_true, Bool.false_eq_true, if_false, badOperand, conclude_trap]

/-- A write of REPC governs from the next word on (R62). -/
theorem exec_mts_repc {s : State} {a : B6} (h : regTrap s 0x1C4 = none) (ha : regOk s a = true) :
    exec (.mts a 0x1C4) s =
      .next (((advance s 1).modMe (fun x => { x with repc := (s.reg a.toNat).setWidth 10 })).setLast .transferred) := by
  replace h : regTrap s (0x1C4 : BitVec 13).toNat = none := h
  show execMts a 0x1C4 s = _
  simp only [execMts, h, control_eq, ha, Bool.not_true, Bool.false_eq_true, if_false, if_true, conclude_moved]

/-! ## The three claims -/

theorem systemRegisterMoves : Claims.SystemRegisterMoves := by
  intro s d a r hreg htrap
  have hd : regOk s d = true := regOk_of hreg (by simp)
  have ha : regOk s a = true := regOk_of hreg (by simp)
  refine ⟨exec_mfs_reads htrap hd, fun hr hcol => ?_, fun hr => ?_, fun hr hcol => ?_⟩
  · have hsome : (writeReg s r.toNat (s.reg a.toNat)).isSome = true :=
      writeReg_isSome htrap (fun hn => hcol (BitVec.eq_of_toNat_eq hn)) _
    obtain ⟨t, ht⟩ := Option.isSome_iff_exists.mp hsome
    have hk := writeReg_keepsRegs ht
    exact ⟨t, ht, fun hp => (writeReg_keeps (fun hn => hp (BitVec.eq_of_toNat_eq hn)) t ht).mem, hk.me_regs, hk.me_pc,
      exec_mts_writes htrap ha hr ht⟩
  · subst hr
    exact ⟨_, exec_mts_repc htrap ha, by simp, by simp [regs_advance], by simp⟩
  · subst hr
    exact exec_mts_none htrap ha (by decide) (writeCpart_occupied hcol _)

theorem writtenRegistersReadBack : Claims.WrittenRegistersReadBack := by
  intro s t n v hn h
  have hmem : t.mem = s.mem := (writeReg_keeps (by rintro rfl; simp at hn) t h).mem
  refine ⟨?_, hmem⟩
  simp only [List.mem_cons, List.not_mem_nil, or_false] at hn
  rcases hn with rfl | rfl | rfl | rfl | rfl | rfl | rfl | rfl | rfl <;> cases h <;> simp [readReg, inRange]

/-- Outside supervisor context a supervisor register traps first (R61). -/
theorem regTrap_privilege {s : State} {n : Nat} (hs : s.supervisor = false) (hn : regSv n = true) :
    regTrap s n = some (causePrivilege, word n) := by
  simp [regTrap, hs, hn]

theorem regSv_of_guarded {n : Nat} (h : (0x200 ≤ n ∧ n ≤ 0x27F) ∨ markedSv n) : regSv n = true := by
  simp only [markedSv] at h
  simp only [regSv, inRange, Bool.or_eq_true, Bool.and_eq_true, decide_eq_true_eq, beq_iff_eq]
  omega

/-- EADJ is not held outside supervisor context, and no number above 0x3FF is assigned (R61, R334). -/
theorem regTrap_operand {s : State} {n : Nat} (hs : s.supervisor = false) (hn : n = 0x295 ∨ 0x3FF < n) :
    regTrap s n = some (causeOperand, s.curWord) := by
  have hsv : regSv n = false := by
    simp only [regSv, inRange, Bool.or_eq_false_iff, Bool.and_eq_false_iff, decide_eq_false_iff_not, beq_eq_false_iff_ne]
    omega
  have hno : (decide (n ≤ 0x3FF) && regAssigned n && regHeld s n) = false := by
    rcases hn with rfl | hn
    · simp [regHeld, inRange, hs]
    · simp [hn]
  simp [regTrap, hsv, hno]

theorem supervisorRegistersAreGuarded : Claims.SupervisorRegistersAreGuarded := by
  intro s d a r hs
  refine ⟨fun h => ?_, fun h => ?_⟩
  · have ht : regTrap s r.toNat = some (causePrivilege, r.setWidth 64) := by
      rw [regTrap_privilege hs (regSv_of_guarded h), word, BitVec.ofNat_toNat]
    exact ⟨exec_mfs_trap ht, exec_mts_trap ht⟩
  · have ht : regTrap s r.toNat = some (causeOperand, s.curWord) :=
      regTrap_operand hs (h.imp (fun hr => by rw [hr]; rfl) id)
    exact ⟨exec_mfs_trap ht, exec_mts_trap ht⟩

/-- Settles O9: the moves of MFS and MTS, what a write is read back as, and the guards of supervisor registers. -/
theorem systemRegisters : Obligations.SystemRegisters :=
  ⟨systemRegisterMoves, writtenRegistersReadBack, supervisorRegistersAreGuarded⟩

end Sys2Proof.Machine
end

section
/-! PROOFS. Reset (O60): its memory and maps list nothing, so every part of the machine reads as the default of its kind, which is
where the reset values of the spec stand. -/

namespace Sys2Proof.Machine

/-! ## What the parts of the machine are at reset -/

@[simp] theorem State.reset_party (p : PartyId) : State.reset.party p = {} := look_nil _ _
@[simp] theorem State.reset_core (c : Nat) : State.reset.core c = {} := look_nil _ _
@[simp] theorem State.reset_die (d : Nat) : State.reset.die d = {} := look_nil _ _
@[simp] theorem State.reset_hamper (h : Nat) : State.reset.hamper h = {} := look_nil _ _
@[simp] theorem State.reset_part (p : Nat) : State.reset.part p = {} := look_nil _ _

/-! ## The two invariants -/

/-- A memory that lists nothing has the canonical form. -/
theorem State.inv_of_mem_nil {s : State} (h : s.mem = []) : s.Inv := by
  rw [State.Inv, h]; exact wf_empty

/-- Only listed parties, checkpoints and Cocoons are bounded, so a state that lists none keeps the bounds. -/
theorem State.bounded_of_nil {s : State} (hp : s.parties = []) (hx : s.ctxs = []) (hc : s.cocoons = []) : s.Bounded := by
  refine ⟨?_, ?_, ?_⟩
  · rw [hp]; exact List.forall_mem_nil _
  · rw [hx]; exact List.forall_mem_nil _
  · rw [hc]; exact List.forall_mem_nil _

theorem State.reset_inv : State.reset.Inv := inv_of_mem_nil rfl

theorem State.reset_bounded : State.reset.Bounded := bounded_of_nil rfl rfl rfl

/-! ## The reset values -/

/-- Records may be taken, no handler runs, no correction is counted (TCTL and CECNT of R350). -/
theorem State.reset_die_errors (d : Nat) :
    (State.reset.die d).en = true ∧ (State.reset.die d).inh = false ∧ (State.reset.die d).cecnt = 0 := by
  rw [reset_die]; exact ⟨rfl, rfl, rfl⟩

/-- PLMAP (R337) and PLCAP (R334) of a partition. -/
theorem State.reset_part_levels (p : Nat) : (State.reset.part p).plmaps = 0x015A ∧ (State.reset.part p).plcap = 7 := by
  rw [reset_part]; exact ⟨rfl, rfl⟩

/-- Permits fill the pool of each Hamper (R340). -/
theorem State.reset_hamper_pool (h : Nat) : (State.reset.hamper h).pool = 64 := by
  rw [reset_hamper]

/-- No refused write is marked in IREF (R386), and every control word reads its reset value because none is listed (R91). -/
theorem State.reset_party_words (p : PartyId) :
    (State.reset.party p).iref = 0 ∧ ∀ k, look 0x00070000 (State.reset.party p).cw k = 0x00070000 := by
  rw [reset_party]; exact ⟨rfl, look_nil _⟩

/-- The divisors of a core's domains (R22). -/
theorem State.reset_core_divisors (c : Nat) :
    (State.reset.core c).div0 = 12 ∧ (State.reset.core c).div1 = 12 ∧ (State.reset.core c).div2 = 12 ∧
      (State.reset.core c).div3 = 14 := by
  rw [reset_core]; exact ⟨rfl, rfl, rfl, rfl⟩

/-- Settles O60: nothing is listed at reset, so the invariants hold and every part has its default. -/
theorem resetLeaves : Obligations.ResetLeaves :=
  ⟨State.reset_inv, State.reset_bounded, rfl, rfl, rfl, State.reset_die_errors, State.reset_part_levels,
    State.reset_hamper_pool, State.reset_party_words, State.reset_core_divisors⟩

end Sys2Proof.Machine
end

section
/-! PROOFS. The bounds of vector registers and groups (O59): what they say of a state's parties, residency slots and Cocoons, the
updates of a state that keep them, and what it means that a result, an act or an outcome keeps them. A function that moves parties from
one place to another keeps the bounds of the new state by those of the old; most others leave them alone, which an equivalence says. -/

namespace Sys2Proof.Machine

/-! ## The bounds of parties, residency slots and Cocoons -/

/-- `PartyState.Bounded`, of the two fields that it speaks of. -/
def FilesBounded (v : Sparse (List VEntry)) (groups : List Nat) : Prop :=
  (∀ n, (look [] v n).length ≤ 4) ∧ groups.length ≤ 8 ∧ groups.Nodup

/-- Every party of a map keeps its bounds. -/
def PartiesBounded (m : Sparse PartyState) : Prop := ∀ e ∈ m, PartyState.Bounded e.2

/-- Every party of a checkpoint, if there is one, keeps its bounds. -/
def KeptBounded (o : Option Checkpoint) : Prop := ∀ k, o = some k → PartiesBounded k.parties

/-- Every checkpoint of the residency slots keeps its bounds. -/
def CtxsBounded (m : Sparse Ctx) : Prop := ∀ e ∈ m, KeptBounded e.2.checkpoint

def Cocoon.Bounded (c : Cocoon) : Prop := PartiesBounded c.parties ∧ KeptBounded c.checkpoint

def CocoonsBounded (l : List Cocoon) : Prop := ∀ c ∈ l, c.Bounded

/-- `State.Bounded`, of the three fields that it speaks of. -/
def Bounds (parties : Sparse PartyState) (ctxs : Sparse Ctx) (cocoons : List Cocoon) : Prop :=
  PartiesBounded parties ∧ CtxsBounded ctxs ∧ CocoonsBounded cocoons

/-- A map keeps a property of its values when one of them is replaced by one that has the property if the old value has. -/
theorem forall_mem_put_iff {α : Type} {P : α → Prop} {d v : α} (hd : P d) :
    ∀ {m : Sparse α} {k : Nat}, (P v ↔ P (look d m k)) → ((∀ e ∈ put m k v, P e.2) ↔ ∀ e ∈ m, P e.2)
  | [], k, h => by simpa [put, hd] using h
  | (k', v') :: m, k, h => by
    have hl : (∀ e ∈ (k', v') :: m, P e.2) → P (look d ((k', v') :: m) k) := by
      intro hm
      generalize (k', v') :: m = l at hm
      induction l with
      | nil => exact hd
      | cons a l ih =>
        rw [List.forall_mem_cons] at hm
        simp only [look]
        split
        · exact hm.1
        · exact ih hm.2
    by_cases h1 : k < k'
    · rw [put, if_pos h1, List.forall_mem_cons]
      exact ⟨And.right, fun hm => ⟨h.2 (hl hm), hm⟩⟩
    · by_cases h2 : k = k'
      · rw [put, if_neg h1, if_pos h2, List.forall_mem_cons, List.forall_mem_cons]
        simp only [look, if_pos h2] at h
        rw [h]
      · simp only [look, if_neg h2] at h
        rw [put, if_neg h1, if_neg h2, List.forall_mem_cons, List.forall_mem_cons, forall_mem_put_iff hd h]

theorem forall_mem_put {α : Type} {P : α → Prop} {v : α} (hv : P v) :
    ∀ {m : Sparse α} {k : Nat}, (∀ e ∈ m, P e.2) → ∀ e ∈ put m k v, P e.2
  | [], k, _ => by simpa [put] using hv
  | (k', v') :: m, k, h => by
    have ⟨h1, h2⟩ := List.forall_mem_cons.1 h
    simp only [put]
    split
    · exact List.forall_mem_cons.2 ⟨hv, h⟩
    · split
      · exact List.forall_mem_cons.2 ⟨hv, h2⟩
      · exact List.forall_mem_cons.2 ⟨h1, forall_mem_put hv h2⟩

theorem prop_look {α : Type} {P : α → Prop} {d : α} (hd : P d) :
    ∀ {m : Sparse α}, (∀ e ∈ m, P e.2) → ∀ k, P (look d m k)
  | [], _, _ => hd
  | (k', v') :: m, h, k => by
    have ⟨h1, h2⟩ := List.forall_mem_cons.1 h
    rw [look]
    split
    · exact h1
    · exact prop_look hd h2 k

/-! ### One party -/

namespace PartyState

theorem bounded_default : Bounded {} := ⟨fun _ => Nat.zero_le 4, Nat.zero_le 8, .nil⟩

theorem bounded_iff (x : PartyState) : x.Bounded ↔ FilesBounded x.v x.groups := .rfl

theorem bounded_of_nil {x : PartyState} (hv : x.v = []) (hg : x.groups = []) : x.Bounded := by
  rw [bounded_iff, hv, hg]
  exact bounded_default

@[simp] theorem bounded_mk {
    run pc regs taint spoilt ls order began repc tcause tpc tval tstat held evp wait push busy peers tkc popped gone ml
    cp groups cw vm v ports xstat xprog view psel csel ksel rsel frsel lksel iref} :
    PartyState.Bounded ⟨
    run, pc, regs, taint, spoilt, ls, order, began, repc, tcause, tpc, tval, tstat, held, evp, wait, push, busy, peers,
    tkc, popped, gone, ml, cp, groups, cw, vm, v, ports, xstat, xprog, view, psel, csel, ksel, rsel, frsel, lksel, iref⟩ ↔
      FilesBounded v groups := .rfl

@[simp] theorem bounded_ite {c : Prop} [Decidable c] {x y : PartyState} :
    (if c then x else y).Bounded ↔ if c then x.Bounded else y.Bounded := by split <;> rfl

end PartyState

@[simp] theorem filesBounded_fields (x : PartyState) : FilesBounded x.v x.groups ↔ x.Bounded := .rfl

/-! ### The states -/

namespace State

variable (s : State)

/-- A state with the parties, residency slots and Cocoons of another. -/
theorem bounded_congr {s t : State} (hp : t.parties = s.parties) (hx : t.ctxs = s.ctxs) (hc : t.cocoons = s.cocoons) :
    t.Bounded ↔ s.Bounded := and_congr (by rw [hp]) (and_congr (by rw [hx]) (by rw [hc]))

@[simp] theorem bounded_mk {
    plan tick fresh last cur due time mem tags flips stamps delivered hostClock seq past parties ctxs cores dies
    hampers parts queues keys moved moduleDraw owners aside reassigns pages pins objects windows streams suffixes
    cocoons flights loads msgs heard out prstat resetting resetDue fabric reclaim mgmt serial launches keynum} :
    State.Bounded ⟨
    plan, tick, fresh, last, cur, due, time, mem, tags, flips, stamps, delivered, hostClock, seq, past, parties, ctxs,
    cores, dies, hampers, parts, queues, keys, moved, moduleDraw, owners, aside, reassigns, pages, pins, objects,
    windows, streams, suffixes, cocoons, flights, loads, msgs, heard, out, prstat, resetting, resetDue, fabric,
    reclaim, mgmt, serial, launches, keynum⟩ ↔ Bounds parties ctxs cocoons := .rfl

@[simp] theorem bounded_ite {c : Prop} [Decidable c] {t u : State} :
    (if c then t else u).Bounded ↔ if c then t.Bounded else u.Bounded := by split <;> rfl

end State

@[simp] theorem bounds_fields (s : State) : Bounds s.parties s.ctxs s.cocoons ↔ s.Bounded := .rfl

namespace State

variable (s : State) (p : PartyId) (c k n : Nat)

/-- A write of a party whose bounds are those of the party that it replaces. -/
theorem bounded_setParty {x : PartyState} (h : x.Bounded ↔ (s.party p).Bounded) : (s.setParty p x).Bounded ↔ s.Bounded :=
  and_congr_left' (forall_mem_put_iff PartyState.bounded_default h)

@[simp] theorem bounded_modParty {f : PartyState → PartyState} (h : ∀ x, (f x).Bounded ↔ x.Bounded) :
    (s.modParty p f).Bounded ↔ s.Bounded := bounded_setParty s p (h _)

@[simp] theorem bounded_setMe {x : PartyState} (h : x.Bounded ↔ s.me.Bounded) : (s.setMe x).Bounded ↔ s.Bounded :=
  bounded_setParty s s.cur h

@[simp] theorem bounded_modMe {f : PartyState → PartyState} (h : ∀ x, (f x).Bounded ↔ x.Bounded) :
    (s.modMe f).Bounded ↔ s.Bounded := bounded_modParty s s.cur h

/-- A write of a residency slot that keeps the checkpoint. -/
theorem bounded_setCtx {x : Ctx} (h : x.checkpoint = (s.ctx c k).checkpoint) : (s.setCtx c k x).Bounded ↔ s.Bounded := by
  refine and_congr_right' (and_congr_left' (forall_mem_put_iff (P := fun x : Ctx => KeptBounded x.checkpoint) (d := {}) ?_ ?_))
  · exact fun _ h => nomatch h
  · rw [h]; rfl

@[simp] theorem bounded_modCtx {f : Ctx → Ctx} (h : ∀ x, (f x).checkpoint = x.checkpoint) :
    (s.modCtx c k f).Bounded ↔ s.Bounded := bounded_setCtx s c k (h _)

@[simp] theorem bounded_modMyCtx {f : Ctx → Ctx} (h : ∀ x, (f x).checkpoint = x.checkpoint) :
    (s.modMyCtx f).Bounded ↔ s.Bounded := bounded_modCtx s _ _ h

@[simp] theorem bounded_modSh (f : Shared → Shared) : (s.modSh f).Bounded ↔ s.Bounded := bounded_modMyCtx s fun _ => rfl

@[simp] theorem bounded_setLast (e : Ending) : (s.setLast e).Bounded ↔ s.Bounded := .rfl
@[simp] theorem bounded_setCur : (s.setCur p).Bounded ↔ s.Bounded := .rfl
@[simp] theorem bounded_setCore (x : CoreState) : (s.setCore c x).Bounded ↔ s.Bounded := .rfl
@[simp] theorem bounded_modCore (f : CoreState → CoreState) : (s.modCore c f).Bounded ↔ s.Bounded := .rfl
@[simp] theorem bounded_setDie (x : DieState) : (s.setDie n x).Bounded ↔ s.Bounded := .rfl
@[simp] theorem bounded_modDie (f : DieState → DieState) : (s.modDie n f).Bounded ↔ s.Bounded := .rfl
@[simp] theorem bounded_setHamper (x : HamperState) : (s.setHamper n x).Bounded ↔ s.Bounded := .rfl
@[simp] theorem bounded_modHamper (f : HamperState → HamperState) : (s.modHamper n f).Bounded ↔ s.Bounded := .rfl
@[simp] theorem bounded_setPart (x : Partition) : (s.setPart n x).Bounded ↔ s.Bounded := .rfl
@[simp] theorem bounded_modPart (f : Partition → Partition) : (s.modPart n f).Bounded ↔ s.Bounded := .rfl
@[simp] theorem bounded_setQueue (x : LQueue) : (s.setQueue n k x).Bounded ↔ s.Bounded := .rfl
@[simp] theorem bounded_modQueue (f : LQueue → LQueue) : (s.modQueue n k f).Bounded ↔ s.Bounded := .rfl
@[simp] theorem bounded_setKey (x : KeySlot) : (s.setKey k x).Bounded ↔ s.Bounded := .rfl
@[simp] theorem bounded_post (r : Record) : (s.post n r).Bounded ↔ s.Bounded := .rfl
@[simp] theorem bounded_setReg (d : Nat) (v : Word) (taint : Bool) : (s.setReg d v taint).Bounded ↔ s.Bounded :=
  bounded_modMe s fun _ => .rfl

end State

/-! A field of a state under an update of its parties or slots is that of the state before, where `simp` knows it. -/

@[simp] theorem bounds_modMe (s : State) (f : PartyState → PartyState) :
    Bounds (s.modMe f).parties s.ctxs s.cocoons ↔ (s.modMe f).Bounded := .rfl

/-- A fold of steps each of which keeps the bounds. -/
@[simp] theorem bounded_foldl {α : Type} {f : State → α → State} (hf : ∀ t e, (f t e).Bounded ↔ t.Bounded) (l : List α)
    (s : State) : (l.foldl f s).Bounded ↔ s.Bounded := by
  induction l generalizing s with
  | nil => rfl
  | cons e l ih => rw [List.foldl_cons, ih, hf]

/-! ### Results that carry a state -/

/-- A state that may not be there, and has the bounds if `s` has. -/
def SomeBounded (s : State) (o : Option State) : Prop := ∀ t, o = some t → (t.Bounded ↔ s.Bounded)

/-- The same of a state with a value. -/
def SomeFstBounded {α : Type} (s : State) (o : Option (State × α)) : Prop := ∀ r, o = some r → (r.1.Bounded ↔ s.Bounded)

/-- The same of a computation whose reads may fail. -/
def OkBounded {α ε : Type} (s : State) (o : Except ε (State × α)) : Prop := ∀ r, o = .ok r → (r.1.Bounded ↔ s.Bounded)

/-- A computation whose result, if it does not miss, keeps the bounds. -/
def GotBounded {α ε : Type} (o : Except ε (State × α)) : Prop := ∀ r, o = .ok r → r.1.Bounded

section
variable {α ε : Type} {s t : State} {c : Prop} [Decidable c]

@[simp] theorem someBounded_none : SomeBounded s none := by simp [SomeBounded]
@[simp] theorem someBounded_some : SomeBounded s (some t) ↔ (t.Bounded ↔ s.Bounded) := by simp [SomeBounded]
@[simp] theorem someBounded_ite {a b : Option State} :
    SomeBounded s (if c then a else b) ↔ if c then SomeBounded s a else SomeBounded s b := by split <;> rfl
theorem SomeBounded.congr {a : Option State} (ha : SomeBounded t a) (h : t.Bounded ↔ s.Bounded) : SomeBounded s a :=
  fun u hu => (ha u hu).trans h
@[simp] theorem someFstBounded_none : SomeFstBounded s (none : Option (State × α)) := by simp [SomeFstBounded]
@[simp] theorem someFstBounded_some {r : State × α} : SomeFstBounded s (some r) ↔ (r.1.Bounded ↔ s.Bounded) := by
  simp [SomeFstBounded]
@[simp] theorem okBounded_error {e : ε} : OkBounded s (.error e : Except ε (State × α)) := by simp [OkBounded]
@[simp] theorem okBounded_ok {r : State × α} : OkBounded s (.ok r : Except ε (State × α)) ↔
    (r.1.Bounded ↔ s.Bounded) := by
  simp [OkBounded]
@[simp] theorem gotBounded_error {e : ε} : GotBounded (.error e : Except ε (State × α)) := nofun
@[simp] theorem gotBounded_ok {r : State × α} : GotBounded (.ok r : Except ε (State × α)) ↔ r.1.Bounded := by
  simp [GotBounded]
/-- A computation goes on with a change of the state that keeps the bounds. -/
theorem GotBounded.mapOf {β : Type} {a : Except ε (State × α)} (ha : GotBounded a) {f : State × α → State × β}
    (hf : ∀ r, r.1.Bounded → (f r).1.Bounded) : GotBounded (a.map f) := by
  cases a with
  | error e => exact gotBounded_error
  | ok r => exact gotBounded_ok.2 (hf r (gotBounded_ok.1 ha))
theorem GotBounded.map {β : Type} {a : Except ε (State × α)} (ha : GotBounded a) {f : State × α → State × β}
    (hf : ∀ r, (f r).1 = r.1) : GotBounded (a.map f) := ha.mapOf fun r hr => (hf r).symm ▸ hr
@[simp] theorem okBounded_ite {a b : Except ε (State × α)} :
    OkBounded s (if c then a else b) ↔ if c then OkBounded s a else OkBounded s b := by split <;> rfl

end

/-! ### What a bounded state's parts are, and states made of bounded parts -/

theorem partiesBounded_put {m : Sparse PartyState} {k : Nat} {x : PartyState} (h : PartiesBounded m) (hx : x.Bounded) :
    PartiesBounded (put m k x) := forall_mem_put hx h

theorem keptBounded_none : KeptBounded none := fun _ h => nomatch h

theorem keptBounded_some {k : Checkpoint} : KeptBounded (some k) ↔ PartiesBounded k.parties := by simp [KeptBounded]

theorem PartiesBounded.look {m : Sparse PartyState} (h : PartiesBounded m) (k : Nat) : (look {} m k).Bounded :=
  prop_look PartyState.bounded_default h k

namespace State.Bounded

variable {s : State} (h : s.Bounded)
include h

theorem parties : PartiesBounded s.parties := h.1
theorem ctxs : CtxsBounded s.ctxs := h.2.1
theorem cocoons : CocoonsBounded s.cocoons := h.2.2

theorem party (p : PartyId) : (s.party p).Bounded := h.parties.look (partyKey p)

theorem me : s.me.Bounded := h.party s.cur

theorem kept (c k : Nat) : KeptBounded (s.ctx c k).checkpoint :=
  prop_look (P := fun x : Ctx => KeptBounded x.checkpoint) keptBounded_none h.ctxs (c * 2 + k)

theorem setParty {x : PartyState} (p : PartyId) (hx : x.Bounded) : (s.setParty p x).Bounded :=
  ⟨partiesBounded_put h.parties hx, h.ctxs, h.cocoons⟩

theorem setMe {x : PartyState} (hx : x.Bounded) : (s.setMe x).Bounded := h.setParty s.cur hx

theorem modParty {f : PartyState → PartyState} (p : PartyId) (hf : ∀ x, x.Bounded → (f x).Bounded) :
    (s.modParty p f).Bounded :=
  h.setParty p (hf _ (h.party p))

theorem setCtx {x : Ctx} (c k : Nat) (hx : KeptBounded x.checkpoint) : (s.setCtx c k x).Bounded :=
  ⟨h.parties, forall_mem_put (P := fun x : Ctx => KeptBounded x.checkpoint) hx h.ctxs, h.cocoons⟩

theorem foldl {α : Type} {f : State → α → State} (hf : ∀ t e, t.Bounded → (f t e).Bounded) (l : List α) :
    (l.foldl f s).Bounded :=
  List.foldlRecOn l f h fun t ht e _ => hf t e ht

end State.Bounded

/-! ### How an instruction ends -/

/-- The states that an act carries keep the bounds. -/
def Act.Bounded : Act → Prop
  | .done t _ | .jump t _ | .moved t | .wait t | .issued t _ | .ends t _ _ | .lost t | .raw t => t.Bounded
  | .trap _ _ | .stop _ => True

/-- The state that follows, if one does, keeps the bounds. -/
def NextBounded : Host.Outcome State Fault Refusal → Prop
  | .next t => t.Bounded
  | .fault _ | .refused _ => True

section
variable (t : State) (n : Nat) (v : Word)

@[simp] theorem Act.bounded_done : (Act.done t n).Bounded ↔ t.Bounded := .rfl
@[simp] theorem Act.bounded_jump : (Act.jump t n).Bounded ↔ t.Bounded := .rfl
@[simp] theorem Act.bounded_moved : (Act.moved t).Bounded ↔ t.Bounded := .rfl
@[simp] theorem Act.bounded_wait : (Act.wait t).Bounded ↔ t.Bounded := .rfl
@[simp] theorem Act.bounded_issued (c : Cmd) : (Act.issued t c).Bounded ↔ t.Bounded := .rfl
@[simp] theorem Act.bounded_ends : (Act.ends t n v).Bounded ↔ t.Bounded := .rfl
@[simp] theorem Act.bounded_lost : (Act.lost t).Bounded ↔ t.Bounded := .rfl
@[simp] theorem Act.bounded_raw : (Act.raw t).Bounded ↔ t.Bounded := .rfl
@[simp] theorem Act.bounded_trap : (Act.trap n v).Bounded := trivial
@[simp] theorem Act.bounded_stop (f : Fault) : (Act.stop f).Bounded := trivial
@[simp] theorem Act.bounded_ite {c : Prop} [Decidable c] {a b : Act} :
    (if c then a else b).Bounded ↔ if c then a.Bounded else b.Bounded := by split <;> rfl
theorem Act.Bounded.ite {c : Prop} {_ : Decidable c} {a b : Act} (ha : a.Bounded) (hb : ¬c → b.Bounded) :
    (if c then a else b).Bounded := by
  split
  · exact ha
  · exact hb ‹_›
@[simp] theorem nextBounded_next : NextBounded (.next t) ↔ t.Bounded := .rfl
@[simp] theorem nextBounded_fault (f : Fault) : NextBounded (.fault f) := trivial
@[simp] theorem nextBounded_refused (f : Refusal) : NextBounded (.refused f) := trivial
@[simp] theorem nextBounded_ite {c : Prop} [Decidable c] {a b : Host.Outcome State Fault Refusal} :
    NextBounded (if c then a else b) ↔ if c then NextBounded a else NextBounded b := by split <;> rfl
theorem NextBounded.ite {c : Prop} {_ : Decidable c} {a b : Host.Outcome State Fault Refusal} (ha : NextBounded a)
    (hb : ¬c → NextBounded b) : NextBounded (if c then a else b) := by
  split
  · exact ha
  · exact hb ‹_›

end

end Sys2Proof.Machine
end

section
/-! PROOFS. Every function of the machine keeps the bounds (O59), file by file of the model: one lemma for each, by those for what it
calls. Vector registers grow in `writeDest` alone, groups in JOIN alone; checkpoints and Cocoons take their parties from the state. -/

namespace Sys2Proof.Machine

/-! ### Ops -/

@[simp] theorem bounded_setHeld (s : State) (b : Bool) (l : List PartyId) : (setHeld s b l).Bounded ↔ s.Bounded := by
  fun_induction setHeld <;> simp_all

@[simp] theorem bounded_takeTrap (s : State) (p : PartyId) (cause : Nat) (tval : Word) :
    (takeTrap s p cause tval).Bounded ↔ s.Bounded := by
  unfold takeTrap
  dsimp only
  split <;> simp [State.bounded_setParty]

@[simp] theorem bounded_passWord (x : PartyState) (e step : Nat) : (passWord x e step).Bounded ↔ x.Bounded := .rfl
@[simp] theorem bounded_goTo (x : PartyState) (t : Nat) : (goTo x t).Bounded ↔ x.Bounded := .rfl
@[simp] theorem bounded_setTokens (x : PartyState) (k : B2) (n : Nat) : (setTokens x k n).Bounded ↔ x.Bounded := .rfl
@[simp] theorem bounded_orderPoint (s : State) (p : PartyId) : (orderPoint s p).Bounded ↔ s.Bounded := by simp [orderPoint]
@[simp] theorem bounded_settle (s : State) (p : PartyId) : (settle s p).Bounded ↔ s.Bounded := by simp [settle]
@[simp] theorem bounded_startPop (x : PartyState) (k : B2) : (startPop x k).Bounded ↔ x.Bounded := by simp [startPop]
@[simp] theorem bounded_giveBack (x : PartyState) : (giveBack x).Bounded ↔ x.Bounded := by simp [giveBack]
@[simp] theorem bounded_popToken (s : State) (k : B2) : (popToken s k).Bounded ↔ s.Bounded := by
  simp [popToken]

@[simp] theorem bounded_fenceLate (s : State) (p : PartyId) : (fenceLate s p).Bounded ↔ s.Bounded := by simp [fenceLate]
@[simp] theorem bounded_setEvent (x : PartyState) (i : Nat) : (setEvent x i).Bounded ↔ x.Bounded := .rfl
@[simp] theorem bounded_pushToken (s : State) (k : B2) : (pushToken s k).Bounded ↔ s.Bounded := by simp [pushToken]
@[simp] theorem bounded_markDying (s : State) (core slot cause : Nat) (tval : Word) :
    (markDying s core slot cause tval).Bounded ↔ s.Bounded := by simp [markDying]
@[simp] theorem bounded_consume (s : State) (core slot : Nat) : (consume s core slot).Bounded ↔ s.Bounded := by simp [consume]
@[simp] theorem bounded_advance (s : State) (n : Nat) : (advance s n).Bounded ↔ s.Bounded := by
  simp [advance]

@[simp] theorem bounded_syncWings (s : State) (core slot : Nat) : (syncWings s core slot).Bounded ↔ s.Bounded := by simp [syncWings]
@[simp] theorem bounded_returnTo (s : State) (p : PartyId) (tpc : Word) (act n : Nat) :
    (returnTo s p tpc act n).Bounded ↔ s.Bounded := by
  simp [returnTo]

@[simp] theorem bounded_retire (s : State) (g : B2) (n : Nat) : (retire s g n).Bounded ↔ s.Bounded := by simp [retire]
@[simp] theorem bounded_finishPush (s : State) : (finishPush s).Bounded ↔ s.Bounded := by
  unfold finishPush
  split <;> simp

@[simp] theorem conclude_bounded {s : State} (h : s.Bounded) (w g : B2) {a : Act} (ha : a.Bounded) :
    NextBounded (conclude s w g a) := by
  cases a <;> simp_all [conclude]

@[simp] theorem control_bounded {s : State} (h : s.Bounded) {body : State → Act} (hb : (body s).Bounded) :
    NextBounded (control s body) :=
  conclude_bounded h 0 0 hb

@[simp] theorem bounded_unboundTrap (s : State) (a : Act) : (unboundTrap s a).Bounded := by
  unfold unboundTrap
  split <;> simp

@[simp] theorem tokened_bounded {s : State} (h : s.Bounded) (k : Kind) (w g : B2) {body : State → Act}
    (hb : s.Bounded → (body s).Bounded) :
    NextBounded (tokened s k w g body) := by
  unfold tokened
  split_ifs
  · exact conclude_bounded h w g trivial
  · exact conclude_bounded h w g (bounded_unboundTrap s _)
  · exact conclude_bounded h w g h
  · exact conclude_bounded h w g (hb h)

@[simp] theorem supervised_bounded {s : State} (h : s.Bounded) (w g : B2) {body : State → Act} (hb : s.Bounded → (body s).Bounded) :
    NextBounded (supervised s w g body) := by
  unfold supervised
  split_ifs
  · exact conclude_bounded h w g trivial
  · exact conclude_bounded h w g trivial
  · exact tokened_bounded h .wing w g hb

@[simp] theorem bounded_badOperand (s : State) : (badOperand s).Bounded := trivial
@[simp] theorem asParty_bounded {s : State} (p : PartyId) {f : State → Host.Outcome State Fault Refusal}
    (hf : NextBounded (f (s.setCur p))) : NextBounded (asParty s p f) := by
  unfold asParty
  split
  next t e => rw [e] at hf; exact hf
  next => trivial
  next => trivial

@[simp] theorem occurs_bounded {s : State} (h : s.Bounded) (enabled : Bool) {t : State} (ht : t.Bounded) :
    NextBounded (occurs s enabled t) := by
  simp [occurs, h, ht]

/-! ### Order -/

@[simp] theorem bounded_tickClock (s : State) (die : Nat) : (tickClock s die).Bounded ↔ s.Bounded := .rfl
@[simp] theorem bounded_learn (s : State) (die : Nat) (clock : Sparse Nat) : (learn s die clock).Bounded ↔ s.Bounded := .rfl
@[simp] theorem bounded_orderAll (s : State) (p : PartyId) : (orderAll s p).Bounded ↔ s.Bounded := by simp [orderAll]
@[simp] theorem bounded_learnPublished (s : State) (die part : Nat) (clock : Sparse Nat) :
    (learnPublished s die part clock).Bounded ↔ s.Bounded := .rfl
@[simp] theorem bounded_madeBy (s : State) (who : PartyId) (gs : List Nat) : (madeBy s who gs).Bounded ↔ s.Bounded := by
  simp [madeBy]
@[simp] theorem bounded_wrote (s : State) : (wrote s).Bounded ↔ s.Bounded := by simp [wrote]
@[simp] theorem bounded_remember (s : State) (who : PartyId) (t : Sight) (num : Nat) (us : List (List Nat)) :
    (remember s who t num us).Bounded ↔ s.Bounded := by simp [remember]
@[simp] theorem bounded_forget (s : State) (a n : Nat) : (forget s a n).Bounded ↔ s.Bounded := by simp [forget]
@[simp] theorem bounded_sawBy (s : State) (who : PartyId) (t : Sight) (firm : Nat) (gs : List Nat) :
    (sawBy s who t firm gs).Bounded ↔ s.Bounded := by simp [sawBy]
@[simp] theorem bounded_mergeRead (s : State) (who : PartyId) (t : Sight) (firm : Nat) (gs : List Nat) :
    (mergeRead s who t firm gs).Bounded ↔ s.Bounded := by simp [mergeRead]
@[simp] theorem bounded_stampRange (s : State) (t : Sight) (clock : Sparse Nat) (a n : Nat) :
    (stampRange s t clock a n).Bounded ↔ s.Bounded := by simp [stampRange]
@[simp] theorem bounded_firmUp (s : State) (p : PartyId) : (firmUp s p).Bounded ↔ s.Bounded := by simp [firmUp]

/-! ### Space -/

@[simp] theorem bounded_tagLines (s : State) (num : Nat) (lines : List Nat) : (tagLines s num lines).Bounded ↔ s.Bounded := by
  simp [tagLines]
@[simp] theorem bounded_checkWords (s : State) (die : Nat) (as : List Nat) : SomeBounded s (checkWords s die as) := by
  induction as generalizing s with
  | nil => simp [checkWords]
  | cons a as ih =>
    simp only [checkWords]
    split_ifs
    · exact ih s
    · exact ih _
    · simp

@[simp] theorem bounded_setKrev (s : State) (p : PartyId) : (setKrev s p).Bounded ↔ s.Bounded := by simp [setKrev]
@[simp] theorem bounded_setWclosed (s : State) (p : PartyId) : (setWclosed s p).Bounded ↔ s.Bounded := by simp [setWclosed]
@[simp] theorem bounded_countMoved (s : State) (part k n : Nat) : (countMoved s part k n).Bounded ↔ s.Bounded := by
  simp [countMoved]
@[simp] theorem bounded_countAccess (s : State) (part a n : Nat) : (countAccess s part a n).Bounded ↔ s.Bounded := by
  simp [countAccess]
@[simp] theorem bounded_readSeen (s : State) (who : PartyId) (part payer : Nat) (acquires : Bool) (p : Place) (n : Nat) :
    (readSeen s who part payer acquires p n).1.Bounded ↔ s.Bounded := by
  unfold readSeen
  split
  · simp
  split
  · rfl
  split
  · rfl
  next t ht => simp [bounded_checkWords s _ _ t ht]

@[simp] theorem bounded_readPlace (s : State) (who : PartyId) (part : Nat) (acquires : Bool) (p : Place) (n : Nat) :
    (readPlace s who part acquires p n).1.Bounded ↔ s.Bounded := by simp [readPlace]
@[simp] theorem bounded_logDirty (s : State) (frame : Option Nat) : (logDirty s frame).Bounded ↔ s.Bounded := by
  unfold logDirty
  split <;> simp

@[simp] theorem bounded_mergeBytes (s : State) (who : PartyId) (part : Nat) (clock : Sparse Nat) (p : Place) (kept : List Nat)
    (bs : List Byte) : SomeBounded s (mergeBytes s who part clock p kept bs) := by
  unfold mergeBytes
  dsimp only
  split
  · simp
  split
  · simp
  split
  · simp
  split
  · simp
  next t ht =>
    have h := bounded_checkWords s _ _ t ht
    cases p.slot <;> simp [h]

@[simp] theorem bounded_rememberPlace (s : State) (who : PartyId) (part : Nat) (clock : Sparse Nat) (p : Place) (n : Nat) :
    (rememberPlace s who part clock p n).Bounded ↔ s.Bounded := by simp [rememberPlace]
@[simp] theorem bounded_writePlace (s : State) (who : PartyId) (part : Nat) (clock : Sparse Nat) (p : Place) (bs : List Byte) :
    SomeBounded s (writePlace s who part clock p bs) := (bounded_mergeBytes _ _ _ _ _ _ _).congr (by simp)

@[simp] theorem bounded_performWrite (s : State) (who : PartyId) (p : Place) (bs : List Byte) :
    SomeBounded s (performWrite s who p bs) := (bounded_writePlace _ _ _ _ _ _).congr (by simp)

@[simp] theorem bounded_zeroFrame (s : State) (die space f num : Nat) : (zeroFrame s die space f num).Bounded ↔ s.Bounded := by
  simp [zeroFrame]

/-! ### Operands -/

@[simp] theorem transfer_bounded (s : State) (t : ℤ) (hs : s.Bounded) : (transfer s t).Bounded := by simp [transfer, hs]

/-! ### Flags -/

@[simp] theorem bounded_setGone (s : State) (b : Bool) : (setGone s b).Bounded ↔ s.Bounded := by simp [setGone]
@[simp] theorem bounded_eventFor (s : State) (core slot i : Nat) (l : List Party) :
    (eventFor s core slot i l).Bounded ↔ s.Bounded := by
  fun_induction eventFor <;> simp_all

@[simp] theorem bounded_eventAll (s : State) (core slot i : Nat) : (eventAll s core slot i).Bounded ↔ s.Bounded := by
  simp [eventAll]
@[simp] theorem bounded_progress (s : State) (core slot : Nat) : (progress s core slot).Bounded ↔ s.Bounded := by
  unfold progress
  split <;> simp

/-! ### Integer -/

@[simp] theorem arith2_bounded (s : State) (d a b : B6) (f : Word → Word → Word) (hs : s.Bounded) : (arith2 s d a b f).Bounded := by
  simp [arith2, hs]
@[simp] theorem arith1_bounded (s : State) (d a : B6) (f : Word → Word) (hs : s.Bounded) : (arith1 s d a f).Bounded := by
  simp [arith1, hs]
@[simp] theorem arith0_bounded (s : State) (d : B6) (v : Word) (hs : s.Bounded) : (arith0 s d v).Bounded := by simp [arith0, hs]
@[simp] theorem execAdd_bounded (d a b : B6) (s : State) (hs : s.Bounded) : NextBounded (execAdd d a b s) :=
  control_bounded hs (by simp [hs])
@[simp] theorem execSub_bounded (d a b : B6) (s : State) (hs : s.Bounded) : NextBounded (execSub d a b s) :=
  control_bounded hs (by simp [hs])
@[simp] theorem execAnd_bounded (d a b : B6) (s : State) (hs : s.Bounded) : NextBounded (execAnd d a b s) :=
  control_bounded hs (by simp [hs])
@[simp] theorem execOr_bounded (d a b : B6) (s : State) (hs : s.Bounded) : NextBounded (execOr d a b s) :=
  control_bounded hs (by simp [hs])
@[simp] theorem execXor_bounded (d a b : B6) (s : State) (hs : s.Bounded) : NextBounded (execXor d a b s) :=
  control_bounded hs (by simp [hs])
@[simp] theorem execShl_bounded (d a b : B6) (s : State) (hs : s.Bounded) : NextBounded (execShl d a b s) :=
  control_bounded hs (by simp [hs])
@[simp] theorem execShr_bounded (d a b : B6) (s : State) (hs : s.Bounded) : NextBounded (execShr d a b s) :=
  control_bounded hs (by simp [hs])
@[simp] theorem execSar_bounded (d a b : B6) (s : State) (hs : s.Bounded) : NextBounded (execSar d a b s) :=
  control_bounded hs (by simp [hs])
@[simp] theorem execMul_bounded (d a b : B6) (s : State) (hs : s.Bounded) : NextBounded (execMul d a b s) :=
  control_bounded hs (by simp [hs])
@[simp] theorem execMulh_bounded (d a b : B6) (s : State) (hs : s.Bounded) : NextBounded (execMulh d a b s) :=
  control_bounded hs (by simp [hs])
@[simp] theorem execMulhu_bounded (d a b : B6) (s : State) (hs : s.Bounded) : NextBounded (execMulhu d a b s) :=
  control_bounded hs (by simp [hs])
@[simp] theorem execDiv_bounded (d a b : B6) (s : State) (hs : s.Bounded) : NextBounded (execDiv d a b s) :=
  control_bounded hs (by simp [hs])
@[simp] theorem execDivu_bounded (d a b : B6) (s : State) (hs : s.Bounded) : NextBounded (execDivu d a b s) :=
  control_bounded hs (by simp [hs])
@[simp] theorem execRem_bounded (d a b : B6) (s : State) (hs : s.Bounded) : NextBounded (execRem d a b s) :=
  control_bounded hs (by simp [hs])
@[simp] theorem execRemu_bounded (d a b : B6) (s : State) (hs : s.Bounded) : NextBounded (execRemu d a b s) :=
  control_bounded hs (by simp [hs])
@[simp] theorem execMin_bounded (d a b : B6) (s : State) (hs : s.Bounded) : NextBounded (execMin d a b s) :=
  control_bounded hs (by simp [hs])
@[simp] theorem execMax_bounded (d a b : B6) (s : State) (hs : s.Bounded) : NextBounded (execMax d a b s) :=
  control_bounded hs (by simp [hs])
@[simp] theorem execMinu_bounded (d a b : B6) (s : State) (hs : s.Bounded) : NextBounded (execMinu d a b s) :=
  control_bounded hs (by simp [hs])
@[simp] theorem execMaxu_bounded (d a b : B6) (s : State) (hs : s.Bounded) : NextBounded (execMaxu d a b s) :=
  control_bounded hs (by simp [hs])
@[simp] theorem execSlt_bounded (d a b : B6) (s : State) (hs : s.Bounded) : NextBounded (execSlt d a b s) :=
  control_bounded hs (by simp [hs])
@[simp] theorem execSltu_bounded (d a b : B6) (s : State) (hs : s.Bounded) : NextBounded (execSltu d a b s) :=
  control_bounded hs (by simp [hs])
@[simp] theorem execClz_bounded (d a : B6) (s : State) (hs : s.Bounded) : NextBounded (execClz d a s) :=
  control_bounded hs (by simp [hs])
@[simp] theorem execPopc_bounded (d a : B6) (s : State) (hs : s.Bounded) : NextBounded (execPopc d a s) :=
  control_bounded hs (by simp [hs])
@[simp] theorem execAddi_bounded (d a : B6) (i : BitVec 13) (s : State) (hs : s.Bounded) : NextBounded (execAddi d a i s) :=
  control_bounded hs (by simp [hs])
@[simp] theorem execAndi_bounded (d a : B6) (i : BitVec 13) (s : State) (hs : s.Bounded) : NextBounded (execAndi d a i s) :=
  control_bounded hs (by simp [hs])
@[simp] theorem execOri_bounded (d a : B6) (i : BitVec 13) (s : State) (hs : s.Bounded) : NextBounded (execOri d a i s) :=
  control_bounded hs (by simp [hs])
@[simp] theorem execXori_bounded (d a : B6) (i : BitVec 13) (s : State) (hs : s.Bounded) : NextBounded (execXori d a i s) :=
  control_bounded hs (by simp [hs])
@[simp] theorem execSlti_bounded (d a : B6) (i : BitVec 13) (s : State) (hs : s.Bounded) : NextBounded (execSlti d a i s) :=
  control_bounded hs (by simp [hs])
@[simp] theorem execSltiu_bounded (d a : B6) (i : BitVec 13) (s : State) (hs : s.Bounded) : NextBounded (execSltiu d a i s) :=
  control_bounded hs (by simp [hs])
@[simp] theorem execShli_bounded (d a : B6) (n : BitVec 6) (s : State) (hs : s.Bounded) : NextBounded (execShli d a n s) :=
  control_bounded hs (by simp [hs])
@[simp] theorem execShri_bounded (d a : B6) (n : BitVec 6) (s : State) (hs : s.Bounded) : NextBounded (execShri d a n s) :=
  control_bounded hs (by simp [hs])
@[simp] theorem execSari_bounded (d a : B6) (n : BitVec 6) (s : State) (hs : s.Bounded) : NextBounded (execSari d a n s) :=
  control_bounded hs (by simp [hs])
@[simp] theorem execLui_bounded (d : B6) (i : BitVec 19) (s : State) (hs : s.Bounded) : NextBounded (execLui d i s) :=
  control_bounded hs (by simp [hs])
@[simp] theorem execAddpc_bounded (d : B6) (i : BitVec 19) (s : State) (hs : s.Bounded) : NextBounded (execAddpc d i s) :=
  control_bounded hs (by simp [hs])
@[simp] theorem execAgen_bounded (d a b : B6) (h : BitVec 4) (s : State) (hs : s.Bounded) : NextBounded (execAgen d a b h s) :=
  control_bounded hs (by simp [hs])

/-! ### Flow -/

@[simp] theorem bounded_passBarrier (s : State) (g : Nat) (clock : Sparse Nat) (ms : List (PartyId × PartyState)) :
    (passBarrier s g clock ms).Bounded ↔ s.Bounded := by
  induction ms generalizing s with
  | nil => rfl
  | cons m ms ih => simp [passBarrier, ih]

@[simp] theorem bounded_checkBarrier (s : State) (space g : Nat) : (checkBarrier s space g).Bounded ↔ s.Bounded := by
  simp [checkBarrier]
theorem PartyState.Bounded.leave {x : PartyState} (h : x.Bounded) (g : Nat) :
    ({ x with groups := x.groups.filter (fun k => k != g) } : PartyState).Bounded := by
  obtain ⟨hv, hl, hn⟩ := h
  exact ⟨hv, (List.length_filter_le _ _).trans hl, hn.filter _⟩

@[simp] theorem leaveGroups_bounded {s : State} (hs : s.Bounded) (p : PartyId) (gs : List Nat) : (leaveGroups s p gs).Bounded := by
  induction gs generalizing s with
  | nil => exact hs
  | cons g gs ih => exact ih ((bounded_checkBarrier _ _ _).2 (hs.modParty p fun x hx => hx.leave g))

@[simp] theorem branch_bounded (s : State) (a b : B6) (o : BitVec 13) (taken : Word → Word → Bool) (hs : s.Bounded) :
    (branch s a b o taken).Bounded := by simp [branch, hs]
@[simp] theorem execBeq_bounded (a b : B6) (o : BitVec 13) (s : State) (hs : s.Bounded) : NextBounded (execBeq a b o s) :=
  control_bounded hs (by simp [hs])
@[simp] theorem execBne_bounded (a b : B6) (o : BitVec 13) (s : State) (hs : s.Bounded) : NextBounded (execBne a b o s) :=
  control_bounded hs (by simp [hs])
@[simp] theorem execBlt_bounded (a b : B6) (o : BitVec 13) (s : State) (hs : s.Bounded) : NextBounded (execBlt a b o s) :=
  control_bounded hs (by simp [hs])
@[simp] theorem execBge_bounded (a b : B6) (o : BitVec 13) (s : State) (hs : s.Bounded) : NextBounded (execBge a b o s) :=
  control_bounded hs (by simp [hs])
@[simp] theorem execBltu_bounded (a b : B6) (o : BitVec 13) (s : State) (hs : s.Bounded) : NextBounded (execBltu a b o s) :=
  control_bounded hs (by simp [hs])
@[simp] theorem execBgeu_bounded (a b : B6) (o : BitVec 13) (s : State) (hs : s.Bounded) : NextBounded (execBgeu a b o s) :=
  control_bounded hs (by simp [hs])
@[simp] theorem execJmp_bounded (o : BitVec 25) (s : State) (hs : s.Bounded) : NextBounded (execJmp o s) :=
  control_bounded hs (by simp [hs])
@[simp] theorem execJal_bounded (o : BitVec 25) (s : State) (hs : s.Bounded) : NextBounded (execJal o s) :=
  control_bounded hs (by simp [hs])
@[simp] theorem execJr_bounded (a : B6) (i : BitVec 13) (s : State) (hs : s.Bounded) : NextBounded (execJr a i s) :=
  control_bounded hs (by simp [hs])
@[simp] theorem startLoop_bounded (s : State) (l n body : Nat) (hs : s.Bounded) : (startLoop s l n body).Bounded := by
  simp [startLoop, hs]
@[simp] theorem execLoop_bounded (l : B2) (c : B6) (n : BitVec 13) (s : State) (hs : s.Bounded) : NextBounded (execLoop l c n s) :=
  control_bounded hs (by simp [hs])
@[simp] theorem execLoopi_bounded (l : B2) (i : BitVec 10) (n : BitVec 13) (s : State) (hs : s.Bounded) :
    NextBounded (execLoopi l i n s) := control_bounded hs (by simp [hs])
@[simp] theorem execRep_bounded (i : BitVec 10) (s : State) (hs : s.Bounded) : NextBounded (execRep i s) :=
  control_bounded hs (by simp [hs])
@[simp] theorem execLexit_bounded (l : B2) (s : State) (hs : s.Bounded) : NextBounded (execLexit l s) :=
  control_bounded hs (by simp [hs])
@[simp] theorem execTokw_bounded (k : B2) {s : State} (hs : s.Bounded) : NextBounded (execTokw k s) := by
  unfold execTokw
  split_ifs
  · exact conclude_bounded hs _ _ trivial
  · exact conclude_bounded hs _ _ hs
  · exact conclude_bounded hs _ _ hs

@[simp] theorem execToks_bounded (k : B2) {s : State} (hs : s.Bounded) : NextBounded (execToks k s) := by
  unfold execToks
  split_ifs
  · exact conclude_bounded hs _ _ trivial
  · exact conclude_bounded hs _ _ hs

@[simp] theorem execNop_bounded (s : State) (hs : s.Bounded) : NextBounded (execNop s) := control_bounded hs (by simp [hs])
@[simp] theorem execEndOp_bounded (s : State) (hs : s.Bounded) : NextBounded (execEndOp s) := control_bounded hs (by simp [hs])
@[simp] theorem execTrap_bounded (i : BitVec 19) (s : State) (hs : s.Bounded) : NextBounded (execTrap i s) :=
  control_bounded hs (by simp [hs])
@[simp] theorem execWaitev_bounded (d a : B6) (m : BitVec 5) (s : State) (hs : s.Bounded) : NextBounded (execWaitev d a m s) :=
  control_bounded hs (by simp [hs])

/-! ### Tasks -/

@[simp] theorem bounded_rowPut (s : State) (r o len v : Nat) : (rowPut s r o len v).Bounded ↔ s.Bounded := .rfl
@[simp] theorem bounded_stampRow (s : State) (clock : Sparse Nat) (r : Nat) (rs : List (Nat × Nat)) :
    (stampRow s clock r rs).Bounded ↔ s.Bounded := by simp [stampRow]
@[simp] theorem bounded_signRow (s : State) (r : Nat) (rs : List (Nat × Nat)) : (signRow s r rs).Bounded ↔ s.Bounded := by
  simp [signRow]
@[simp] theorem bounded_rowChecked (s : State) (r o n : Nat) : SomeBounded s (rowChecked s r o n) := by simp [rowChecked]
@[simp] theorem bounded_eventSeq (s : State) (part r : Nat) : (eventSeq s part r).Bounded ↔ s.Bounded := by simp [eventSeq]
@[simp] theorem bounded_endClaim (s : State) (r phase : Nat) : (endClaim s r phase).Bounded ↔ s.Bounded := by
  unfold endClaim
  dsimp only
  repeat' split
  all_goals simp

@[simp] theorem bounded_endClaims (s : State) (serial : Nat) (clock : Sparse Nat) :
    (endClaims s serial clock).Bounded ↔ s.Bounded := by simp [endClaims]
@[simp] theorem bounded_voidRow (s : State) (r : Nat) : (voidRow s r).Bounded ↔ s.Bounded := by
  unfold voidRow
  split
  · simp
  · split <;> simp

@[simp] theorem bounded_voidRows (s : State) (tenant : Nat) (rs : List Nat) : (voidRows s tenant rs).Bounded ↔ s.Bounded := by
  induction rs generalizing s with
  | nil => rfl
  | cons r rs ih => simp [voidRows, ih]

@[simp] theorem bounded_dropClaims (s : State) (core slot : Nat) : (dropClaims s core slot).Bounded ↔ s.Bounded := .rfl
theorem stopParties_bounded {s : State} (hs : s.Bounded) (core slot : Nat) (ps : List Party) :
    (stopParties s core slot ps).Bounded := by
  induction ps generalizing s with
  | nil => exact hs
  | cons p ps ih =>
    refine ih ((leaveGroups_bounded hs _ _).modParty _ fun x hx => ?_)
    exact ⟨hx.1, Nat.zero_le 8, .nil⟩

@[simp] theorem bounded_dropHeld (s : State) (core slot : Nat) : (dropHeld s core slot).Bounded ↔ s.Bounded := by simp [dropHeld]
@[simp] theorem bounded_vacate (s : State) (core slot : Nat) : (vacate s core slot).Bounded ↔ s.Bounded := by simp [vacate]
@[simp] theorem bounded_dropSends (s : State) (core slot : Nat) : (dropSends s core slot).Bounded ↔ s.Bounded := by
  unfold dropSends
  split <;> simp

@[simp] theorem bounded_leaveWindows (s : State) (serial : Nat) : (leaveWindows s serial).Bounded ↔ s.Bounded := .rfl
@[simp] theorem bounded_freeFrames (s : State) (codes : List Nat) : (freeFrames s codes).Bounded ↔ s.Bounded := by simp [freeFrames]
theorem releaseTask_bounded {s : State} (hs : s.Bounded) (core slot : Nat) (t : Task) : (releaseTask s core slot t).Bounded := by
  refine State.Bounded.setCtx ?_ core slot keptBounded_none
  simp [stopParties_bounded, hs]

theorem releaseCocoon_bounded {s : State} (hs : s.Bounded) (c : Cocoon) : (releaseCocoon s c).Bounded := by
  unfold releaseCocoon
  dsimp only
  generalize ht : freeFrames _ _ = t
  have h : t.Bounded := by rw [← ht]; simp [hs]
  rw [bounded_foldl fun _ _ => bounded_checkBarrier _ _ _]
  exact ⟨h.parties, h.ctxs, fun d hd => h.cocoons d (List.mem_of_mem_filter hd)⟩

@[simp] theorem bounded_rekeyFrames (s : State) (old new : Nat) (l : List (Nat × Nat)) :
    (rekeyFrames s old new l).Bounded ↔ s.Bounded := by
  fun_induction rekeyFrames <;> simp_all

@[simp] theorem bounded_closeWindow (s : State) (n : Nat) (w : Window) : (closeWindow s n w).Bounded ↔ s.Bounded := by
  simp [closeWindow]
@[simp] theorem bounded_haltSlot (s : State) (core slot : Nat) : (haltSlot s core slot).Bounded ↔ s.Bounded := by simp [haltSlot]
@[simp] theorem bounded_haltPart (s : State) (part : Nat) : (haltPart s part).Bounded ↔ s.Bounded := by simp [haltPart]

/-! ### SysRegs -/

@[simp] theorem bounded_refuse (s : State) (i : Nat) : (refuse s i).Bounded ↔ s.Bounded := by simp [refuse]
@[simp] theorem bounded_modSel (s : State) (f : Partition → Partition) : (modSel s f).Bounded ↔ s.Bounded := .rfl
@[simp] theorem bounded_writeFrg (s : State) (v : Word) : (writeFrg s v).Bounded ↔ s.Bounded := by simp [writeFrg]
@[simp] theorem bounded_writeKeyb (s : State) (v : Word) : (writeKeyb s v).Bounded ↔ s.Bounded := by simp [writeKeyb]
@[simp] theorem bounded_writeKeyn (s : State) (v : Word) : (writeKeyn s v).Bounded ↔ s.Bounded := by simp [writeKeyn]
@[simp] theorem bounded_writeRslot (s : State) (v : Word) : (writeRslot s v).Bounded ↔ s.Bounded := by simp [writeRslot]
@[simp] theorem bounded_writeFlpg (s : State) (v : Word) : (writeFlpg s v).Bounded ↔ s.Bounded := by simp [writeFlpg]
@[simp] theorem bounded_writeCpart (s : State) (v : Word) : SomeBounded s (writeCpart s v) := by simp [writeCpart]
@[simp] theorem bounded_writeCstat (s : State) (v : Word) : SomeBounded s (writeCstat s v) := by simp [writeCstat]
@[simp] theorem bounded_writeFrown (s : State) (v : Word) : (writeFrown s v).Bounded ↔ s.Bounded := by
  unfold writeFrown
  split <;> simp

@[simp] theorem bounded_writeEcap (s : State) (v : Word) : (writeEcap s v).Bounded ↔ s.Bounded := by simp [writeEcap]
@[simp] theorem bounded_writePlmaps (s : State) (v : Word) : (writePlmaps s v).Bounded ↔ s.Bounded := by simp [writePlmaps]
@[simp] theorem bounded_writePwsh (s : State) (v : Word) : (writePwsh s v).Bounded ↔ s.Bounded := by simp [writePwsh]
@[simp] theorem bounded_writeEadj (s : State) (v : Word) : (writeEadj s v).Bounded ↔ s.Bounded := by simp [writeEadj]
@[simp] theorem bounded_writeDlbase (s : State) (v : Word) : (writeDlbase s v).Bounded ↔ s.Bounded := .rfl
@[simp] theorem bounded_writeDltail (s : State) (v : Word) : (writeDltail s v).Bounded ↔ s.Bounded := .rfl
@[simp] theorem bounded_stopWings (s : State) (core slot : Nat) : (stopWings s core slot).Bounded ↔ s.Bounded := by simp [stopWings]
@[simp] theorem bounded_dismiss (s : State) (p : Nat) : (dismiss s p).Bounded ↔ s.Bounded := .rfl
theorem beginReset_bounded {s : State} (hs : s.Bounded) (p : Nat) : (beginReset s p).Bounded := by
  unfold beginReset
  dsimp only
  generalize hu : List.foldl (fun t (e : Nat × Nat × Task) => stopWings t e.1 e.2.1) _ _ = u
  have h : u.Bounded := by rw [← hu, bounded_foldl fun _ _ => bounded_stopWings _ _ _]; exact hs
  exact (bounded_dismiss _ p).2 (h.foldl (fun t c ht => releaseCocoon_bounded ht c) _)

theorem writePrst_bounded {s : State} (hs : s.Bounded) (v : Word) : (writePrst s v).Bounded := by
  simp [writePrst, hs, beginReset_bounded]

@[simp] theorem bounded_writeLklim (s : State) (part queue : Nat) (v : BitVec 32) :
    (writeLklim s part queue v).Bounded ↔ s.Bounded := .rfl
@[simp] theorem bounded_writeLs (s : State) (l : Nat) (v : Word) : (writeLs s l v).Bounded ↔ s.Bounded := by simp [writeLs]
/-- Of the writes of system registers PRST alone changes what the bounds speak of: it discards Cocoons (R369). -/
theorem writeReg_bounded {s t : State} (hs : s.Bounded) {n : Nat} {v : Word} (h : writeReg s n v = some t) : t.Bounded := by
  revert h
  unfold writeReg
  dsimp only
  split_ifs
  · rintro ⟨⟩
    simp [hs]
  · rintro ⟨⟩
    simp [hs]
  · rintro ⟨⟩
    simp [hs]
  · rintro ⟨⟩
    simp [hs]
  · split
    case h_15 => exact fun h => (bounded_writeCpart s v t h).2 hs
    case h_18 => exact fun h => (bounded_writeCstat s v t h).2 hs
    all_goals
      rintro ⟨⟩
      simp [hs, writePrst_bounded]

theorem execMfs_bounded (d : B6) (r : BitVec 13) {s : State} (hs : s.Bounded) : NextBounded (execMfs d r s) := by
  refine control_bounded hs ?_
  split
  · trivial
  · simp [hs]

theorem execMts_bounded (a : B6) (r : BitVec 13) {s : State} (hs : s.Bounded) : NextBounded (execMts a r s) := by
  refine control_bounded hs ?_
  split
  · trivial
  split
  · trivial
  split
  · simp [hs]
  split
  next t ht => exact writeReg_bounded hs ht
  next => trivial

/-- A register write as an event: it leaves the state as it is, or makes of it what the write does. -/
theorem regEvent_bounded {s : State} {o : Option State} (hs : s.Bounded) (ho : ∀ t, o = some t → t.Bounded) :
    NextBounded (regEvent s o) := by
  cases o with
  | none => simp [regEvent, hs]
  | some t => simp [regEvent, hs, ho t rfl]

theorem execPrst_bounded (v : Word) {s : State} (hs : s.Bounded) : NextBounded (execPrst v s) :=
  regEvent_bounded hs (by simp [writePrst_bounded, hs])

theorem execCpart_bounded (v : Word) {s : State} (hs : s.Bounded) : NextBounded (execCpart v s) :=
  regEvent_bounded hs fun t ht => (bounded_writeCpart s v t ht).2 hs

@[simp] theorem execFrown_bounded (v : Word) (s : State) (hs : s.Bounded) : NextBounded (execFrown v s) :=
  occurs_bounded hs _ (by simp [hs])
@[simp] theorem execFrg_bounded (v : Word) (s : State) (hs : s.Bounded) : NextBounded (execFrg v s) :=
  occurs_bounded hs _ (by simp [hs])
@[simp] theorem execKeyb_bounded (v : Word) (s : State) (hs : s.Bounded) : NextBounded (execKeyb v s) :=
  occurs_bounded hs _ (by simp [hs])
@[simp] theorem execKeyn_bounded (v : Word) (s : State) (hs : s.Bounded) : NextBounded (execKeyn v s) :=
  occurs_bounded hs _ (by simp [hs])
@[simp] theorem execRslot_bounded (v : Word) (s : State) (hs : s.Bounded) : NextBounded (execRslot v s) :=
  occurs_bounded hs _ (by simp [hs])
@[simp] theorem execFlpg_bounded (v : Word) (s : State) (hs : s.Bounded) : NextBounded (execFlpg v s) :=
  occurs_bounded hs _ (by simp [hs])
@[simp] theorem execEcap_bounded (v : Word) (s : State) (hs : s.Bounded) : NextBounded (execEcap v s) :=
  occurs_bounded hs _ (by simp [hs])
@[simp] theorem execPlmaps_bounded (v : Word) (s : State) (hs : s.Bounded) : NextBounded (execPlmaps v s) :=
  occurs_bounded hs _ (by simp [hs])
@[simp] theorem execPwsh_bounded (v : Word) (s : State) (hs : s.Bounded) : NextBounded (execPwsh v s) :=
  occurs_bounded hs _ (by simp [hs])
@[simp] theorem execEadj_bounded (v : Word) (s : State) (hs : s.Bounded) : NextBounded (execEadj v s) :=
  occurs_bounded hs _ (by simp [hs])
theorem execCstat_bounded (v : Word) {s : State} (hs : s.Bounded) : NextBounded (execCstat v s) :=
  regEvent_bounded hs fun t ht => (bounded_writeCstat s v t ht).2 hs

@[simp] theorem execDlbase_bounded (v : Word) (s : State) (hs : s.Bounded) : NextBounded (execDlbase v s) :=
  occurs_bounded hs _ (by simp [hs])
@[simp] theorem execDltail_bounded (v : Word) (s : State) (hs : s.Bounded) : NextBounded (execDltail v s) :=
  occurs_bounded hs _ (by simp [hs])
theorem execRegisterWrite_bounded (target : RegTarget) (v : Nat) {s : State} (hs : s.Bounded) :
    NextBounded (execRegisterWrite target v s) := by
  cases target with
  | sysreg n =>
    cases h : writeReg s n (word v) with
    | none => simp [execRegisterWrite, h, hs]
    | some t => simp [execRegisterWrite, h, hs, writeReg_bounded hs h]
  | qiv p q => simp [execRegisterWrite, hs]
  | atnonce => exact occurs_bounded hs _ hs
  | ataddr => exact occurs_bounded hs _ hs

/-! ### WingMemory -/

/-- A read that goes on keeps the bounds if what goes on does. -/
@[simp] theorem readNow_bounded {s : State} (hs : s.Bounded) (p : Place) (n : Nat) {k : State → List Byte → Act}
    (hk : ∀ t bs, t.Bounded → (k t bs).Bounded) : (readNow s p n k).Bounded := by
  have h := bounded_readPlace s s.cur s.myPart false p n
  unfold readNow
  split
  next t bs ht => rw [ht] at h; exact hk t bs (h.2 hs)
  next t ht => rw [ht] at h; exact h.2 hs

@[simp] theorem bounded_noteRead (s : State) (a n : Nat) : (noteRead s a n).Bounded ↔ s.Bounded := by
  unfold noteRead
  split <;> simp

@[simp] theorem bounded_leaveLate (s : State) (p : Place) (bs : List Byte) (fenced : Bool) :
    (leaveLate s p bs fenced).Bounded ↔ s.Bounded := by simp [leaveLate]
@[simp] theorem bounded_withLag (s : State) (p : PartyId) (n : Nat) : (withLag s p n).Bounded ↔ s.Bounded := by simp [withLag]
@[simp] theorem bounded_acquire (s : State) (t : Nat) : (acquire s t).Bounded ↔ s.Bounded := by simp [acquire]
@[simp] theorem bounded_released (s : State) (p : PartyId) : (released s p).Bounded ↔ s.Bounded := by simp [released]
@[simp] theorem noPlace_bounded (s : State) (va : Word) (hs : s.Bounded) : (noPlace s va).Bounded := by simp [noPlace, hs]
@[simp] theorem loadPlace_bounded {s : State} (hs : s.Bounded) (p : Place) (d : B6) (size : Nat) (signed consumes acquires : Bool) :
    (loadPlace s p d size signed consumes acquires).Bounded := by
  have h := bounded_readPlace s s.cur s.myPart acquires p size
  unfold loadPlace
  split
  next t ht => rw [ht] at h; exact h.2 hs
  next t bs ht => rw [ht] at h; simp [h.2 hs]

@[simp] theorem load_bounded {s : State} (hs : s.Bounded) (w g : B2) (d a : B6) (f : BitVec 9) (size : Nat)
    (signed consumes acquires : Bool) :
    (load s w g d a f size signed consumes acquires).Bounded := by
  unfold load
  dsimp only
  split
  · trivial
  split
  · trivial
  split
  · split
    · exact hs
    · split
      · exact hs
      · simp [hs]
      · split
        · split
          · exact hs
          · exact loadPlace_bounded (by simp [hs]) _ _ _ _ _ _
        · simp [hs]
  · simp [hs]
  · simp [hs]

@[simp] theorem execLdb_bounded (w g : B2) (d a : B6) (f : BitVec 9) (s : State) (hs : s.Bounded) :
    NextBounded (execLdb w g d a f s) := tokened_bounded hs _ _ _ fun hs => by simp [hs]
@[simp] theorem execLdh_bounded (w g : B2) (d a : B6) (f : BitVec 9) (s : State) (hs : s.Bounded) :
    NextBounded (execLdh w g d a f s) := tokened_bounded hs _ _ _ fun hs => by simp [hs]
@[simp] theorem execLdw_bounded (w g : B2) (d a : B6) (f : BitVec 9) (s : State) (hs : s.Bounded) :
    NextBounded (execLdw w g d a f s) := tokened_bounded hs _ _ _ fun hs => by simp [hs]
@[simp] theorem execLdd_bounded (w g : B2) (d a : B6) (f : BitVec 9) (s : State) (hs : s.Bounded) :
    NextBounded (execLdd w g d a f s) := tokened_bounded hs _ _ _ fun hs => by simp [hs]
@[simp] theorem execLdbu_bounded (w g : B2) (d a : B6) (f : BitVec 9) (s : State) (hs : s.Bounded) :
    NextBounded (execLdbu w g d a f s) := tokened_bounded hs _ _ _ fun hs => by simp [hs]
@[simp] theorem execLdhu_bounded (w g : B2) (d a : B6) (f : BitVec 9) (s : State) (hs : s.Bounded) :
    NextBounded (execLdhu w g d a f s) := tokened_bounded hs _ _ _ fun hs => by simp [hs]
@[simp] theorem execLdwu_bounded (w g : B2) (d a : B6) (f : BitVec 9) (s : State) (hs : s.Bounded) :
    NextBounded (execLdwu w g d a f s) := tokened_bounded hs _ _ _ fun hs => by simp [hs]
@[simp] theorem execLda_bounded (w g : B2) (d a : B6) (f : BitVec 9) (s : State) (hs : s.Bounded) :
    NextBounded (execLda w g d a f s) := tokened_bounded hs _ _ _ fun hs => by simp [hs]
@[simp] theorem execLdc_bounded (w g : B2) (d a : B6) (f : BitVec 9) (s : State) (hs : s.Bounded) :
    NextBounded (execLdc w g d a f s) := tokened_bounded hs _ _ _ fun hs => by simp [hs]
@[simp] theorem bounded_storeNow (s : State) (p : Place) (bs : List Byte) : (storeNow s p bs).Bounded ↔ s.Bounded := by
  unfold storeNow
  split
  next t ht => exact bounded_performWrite s _ _ _ t ht
  next => simp

@[simp] theorem bounded_sendWrite (s : State) (p : Place) (bs : List Byte) (release : Bool) :
    (sendWrite s p bs release).Bounded ↔ s.Bounded := by simp [sendWrite]
@[simp] theorem storePlace_bounded (s : State) (p : Place) (bs : List Byte) (releases : Bool) (hs : s.Bounded) :
    (storePlace s p bs releases).Bounded := by simp [storePlace, hs]
@[simp] theorem store_bounded (s : State) (d a : B6) (f : BitVec 9) (size : Nat) (releases : Bool) (hs : s.Bounded) :
    (store s d a f size releases).Bounded := by
  unfold store
  dsimp only
  repeat' split
  all_goals simp [hs]

@[simp] theorem execStb_bounded (w g : B2) (d a : B6) (f : BitVec 9) (s : State) (hs : s.Bounded) :
    NextBounded (execStb w g d a f s) := tokened_bounded hs _ _ _ fun hs => by simp [hs]
@[simp] theorem execSth_bounded (w g : B2) (d a : B6) (f : BitVec 9) (s : State) (hs : s.Bounded) :
    NextBounded (execSth w g d a f s) := tokened_bounded hs _ _ _ fun hs => by simp [hs]
@[simp] theorem execStw_bounded (w g : B2) (d a : B6) (f : BitVec 9) (s : State) (hs : s.Bounded) :
    NextBounded (execStw w g d a f s) := tokened_bounded hs _ _ _ fun hs => by simp [hs]
@[simp] theorem execStd_bounded (w g : B2) (d a : B6) (f : BitVec 9) (s : State) (hs : s.Bounded) :
    NextBounded (execStd w g d a f s) := tokened_bounded hs _ _ _ fun hs => by simp [hs]
@[simp] theorem execStl_bounded (w g : B2) (d a : B6) (f : BitVec 9) (s : State) (hs : s.Bounded) :
    NextBounded (execStl w g d a f s) := tokened_bounded hs _ _ _ fun hs => by simp [hs]
@[simp] theorem bounded_ordered (s : State) (acquires releases : Bool) : (ordered s acquires releases).Bounded ↔ s.Bounded := by
  simp [ordered]
@[simp] theorem atomic_bounded {s : State} (hs : s.Bounded) (d a : B6) (o : B2) (f : Word → Option Word) :
    (atomic s d a o f).Bounded := by
  unfold atomic
  dsimp only
  split
  · trivial
  split
  · trivial
  · split_ifs
    · trivial
    · trivial
    · exact hs
    · refine readNow_bounded hs _ _ fun t bs ht => ?_
      split
      next u hu =>
        split at hu
        · obtain rfl := Option.some.inj hu; simp [ht]
        · simp [(bounded_performWrite t _ _ _ u hu).2 ht]
      next => exact ht
  · split
    · trivial
    · split <;> simp [hs]

@[simp] theorem execAmoAdd_bounded (w g o : B2) (d a b : B6) (s : State) (hs : s.Bounded) :
    NextBounded (execAmoAdd w g o d a b s) := tokened_bounded hs _ _ _ fun hs => by simp [hs]
@[simp] theorem execAmoAnd_bounded (w g o : B2) (d a b : B6) (s : State) (hs : s.Bounded) :
    NextBounded (execAmoAnd w g o d a b s) := tokened_bounded hs _ _ _ fun hs => by simp [hs]
@[simp] theorem execAmoOr_bounded (w g o : B2) (d a b : B6) (s : State) (hs : s.Bounded) : NextBounded (execAmoOr w g o d a b s) :=
  tokened_bounded hs _ _ _ fun hs => by simp [hs]
@[simp] theorem execAmoXor_bounded (w g o : B2) (d a b : B6) (s : State) (hs : s.Bounded) :
    NextBounded (execAmoXor w g o d a b s) := tokened_bounded hs _ _ _ fun hs => by simp [hs]
@[simp] theorem execAmoMin_bounded (w g o : B2) (d a b : B6) (s : State) (hs : s.Bounded) :
    NextBounded (execAmoMin w g o d a b s) := tokened_bounded hs _ _ _ fun hs => by simp [hs]
@[simp] theorem execAmoMax_bounded (w g o : B2) (d a b : B6) (s : State) (hs : s.Bounded) :
    NextBounded (execAmoMax w g o d a b s) := tokened_bounded hs _ _ _ fun hs => by simp [hs]
@[simp] theorem execAmoSwap_bounded (w g o : B2) (d a b : B6) (s : State) (hs : s.Bounded) :
    NextBounded (execAmoSwap w g o d a b s) := tokened_bounded hs _ _ _ fun hs => by simp [hs]
@[simp] theorem execCas_bounded (w g : B2) (d a b : B6) (o : B2) (s : State) (hs : s.Bounded) :
    NextBounded (execCas w g d a b o s) := tokened_bounded hs _ _ _ fun hs => by simp [hs]
@[simp] theorem fence_bounded (s : State) (sets scope : Nat) (hs : s.Bounded) : (fence s sets scope).Bounded := by simp [fence, hs]
@[simp] theorem execFence_bounded (w g : B2) (p : BitVec 4) (c : B2) {s : State} (hs : s.Bounded) :
    NextBounded (execFence w g p c s) := by
  unfold execFence
  split
  · exact conclude_bounded hs w g trivial
  · exact tokened_bounded hs _ _ _ fun hs => fence_bounded s _ _ hs

@[simp] theorem mwait_bounded {s : State} (hs : s.Bounded) (d a b : B6) : (mwait s d a b).Bounded := by
  unfold mwait
  dsimp only
  split
  · trivial
  split
  · trivial
  split
  · trivial
  split
  · split
    · exact hs
    · refine readNow_bounded hs _ _ fun t bs ht => ?_
      split_ifs <;> simp [ht]
  · split <;> simp [hs]
  · simp [hs]

@[simp] theorem execMwait_bounded (w g : B2) (d a b : B6) (s : State) (hs : s.Bounded) : NextBounded (execMwait w g d a b s) :=
  tokened_bounded hs _ _ _ fun hs => by simp [hs]
@[simp] theorem execMwaitWake_bounded (p : PartyId) {s : State} (hs : s.Bounded) : NextBounded (execMwaitWake p s) := by
  unfold execMwaitWake
  split
  next w g d a b _ _ =>
    have h : NextBounded (asParty (s.modParty p fun x => { x with wait := .no }) p (execMwait w g d a b)) :=
      asParty_bounded p (execMwait_bounded _ _ _ _ _ _ (by simp [hs]))
    split
    · exact hs
    split
    next t ht =>
      rw [ht] at h
      split
      · exact h
      · exact hs
    next => exact h
  · exact hs

@[simp] theorem bounded_applyFlight (s : State) (f : Flight) : (applyFlight s f).Bounded ↔ s.Bounded := by
  unfold applyFlight
  split
  next t ht =>
    have h := bounded_writePlace s _ _ _ _ _ t ht
    split <;> simp [h]
  next => split <;> simp

@[simp] theorem execRemoteWriteArrival_bounded (k : Nat) {s : State} (hs : s.Bounded) :
    NextBounded (execRemoteWriteArrival k s) := by
  unfold execRemoteWriteArrival
  split
  · dsimp only
    split_ifs <;> simp [hs]
  · exact hs

@[simp] theorem execLinkFailure_bounded (k : Nat) {s : State} (hs : s.Bounded) : NextBounded (execLinkFailure k s) := by
  unfold execLinkFailure
  split
  · split_ifs <;> simp [hs]
  · exact hs

@[simp] theorem execRemoteLoadArrival_bounded (k : Nat) {s : State} (hs : s.Bounded) : NextBounded (execRemoteLoadArrival k s) := by
  unfold execRemoteLoadArrival
  dsimp only
  split
  next q _ =>
    split
    · exact hs
    split
    · exact hs
    · have h : NextBounded (asParty (withLag { s with loads := s.loads.eraseIdx k } q.agent q.lag) q.agent fun s =>
          conclude s q.w q.g (loadPlace s (placeOf q.phys q.home q.slot) q.d q.size q.signed q.consume q.acquires)) := by
        have ht : ((withLag { s with loads := s.loads.eraseIdx k } q.agent q.lag).setCur q.agent).Bounded := by simp [hs]
        exact asParty_bounded _ (conclude_bounded ht _ _ (loadPlace_bounded ht _ _ _ _ _ _))
      split
      next t ht => rw [ht] at h; exact (bounded_withLag _ _ _).2 h
      next => exact h
  next => exact hs

/-! ### Queues -/

@[simp] theorem bounded_pushItem (s : State) (q : Nat) (i : Item) : (pushItem s q i).Bounded ↔ s.Bounded := by simp [pushItem]
@[simp] theorem bounded_pushAll (s : State) (i : Item) (qs : List Nat) : (pushAll s i qs).Bounded ↔ s.Bounded := by simp [pushAll]
@[simp] theorem bounded_useQueues (s : State) (qs : List Nat) : (useQueues s qs).Bounded ↔ s.Bounded := by simp [useQueues]
@[simp] theorem execEnq_bounded (w g : B2) (f : B6) (n : BitVec 3) (e : BitVec 9) (q : BitVec 3) {s : State} (hs : s.Bounded) :
    NextBounded (execEnq w g f n e q s) := by
  unfold execEnq
  split
  · exact conclude_bounded hs w g trivial
  · exact tokened_bounded hs _ _ _ fun hs => by simp [hs]

@[simp] theorem execMark_bounded (w g : B2) (n : BitVec 4) (m : BitVec 6) (s : State) (hs : s.Bounded) :
    NextBounded (execMark w g n m s) := tokened_bounded hs _ _ _ fun hs => by simp [hs]
@[simp] theorem execRdv_bounded (w g : B2) (n : BitVec 4) (s : State) (hs : s.Bounded) : NextBounded (execRdv w g n s) :=
  tokened_bounded hs _ _ _ fun hs => by simp [hs]
@[simp] theorem execNotify_bounded (w g : B2) (m : BitVec 6) (s : State) (hs : s.Bounded) : NextBounded (execNotify w g m s) :=
  tokened_bounded hs _ _ _ fun hs => by simp [hs]
@[simp] theorem execQfence_bounded (w g : B2) (m : BitVec 4) (s : State) (hs : s.Bounded) : NextBounded (execQfence w g m s) :=
  tokened_bounded hs _ _ _ fun hs => by simp [hs]
/-- JOIN takes a ninth group for no wing and a group that the wing has joined not again (R277). -/
@[simp] theorem execJoin_bounded (w g : B2) (a : B6) {s : State} (hs : s.Bounded) : NextBounded (execJoin w g a s) := by
  refine tokened_bounded hs _ _ _ fun hs => ?_
  dsimp only
  split_ifs with hbig hin hfull
  · trivial
  · exact hs
  · trivial
  · refine hs.setMe ⟨hs.me.1, ?_, ?_⟩
    · simp only [List.length_append, List.length_singleton]
      omega
    · rw [List.nodup_append]
      refine ⟨hs.me.2.2, List.nodup_singleton _, fun x hx y hy hxy => hin ?_⟩
      rw [List.mem_singleton.1 hy] at hxy
      exact List.contains_iff_mem.2 (hxy ▸ hx)

@[simp] theorem execLeave_bounded (w g : B2) (a : B6) (s : State) (hs : s.Bounded) : NextBounded (execLeave w g a s) :=
  tokened_bounded hs _ _ _ fun hs => by simp [hs]
@[simp] theorem execBar_bounded (w g : B2) (a : B6) (s : State) (hs : s.Bounded) : NextBounded (execBar w g a s) :=
  tokened_bounded hs _ _ _ fun hs => by simp [hs]
@[simp] theorem bounded_retireWings (s : State) (w g : B2) (l : List PartyId) : (retireWings s w g l).Bounded ↔ s.Bounded := by
  fun_induction retireWings <;> simp_all

@[simp] theorem bounded_placeWings (s : State) (base : Nat) : (placeWings s base).Bounded ↔ s.Bounded := by simp [placeWings]
@[simp] theorem bounded_trapWings (s : State) (l : List PartyId) : (trapWings s l).Bounded ↔ s.Bounded := by
  fun_induction trapWings <;> simp_all

@[simp] theorem execWlock_bounded (w g : B2) (s : State) (hs : s.Bounded) : NextBounded (execWlock w g s) :=
  tokened_bounded hs _ _ _ fun hs => by simp [hs]
@[simp] theorem execWfree_bounded (w g : B2) (s : State) (hs : s.Bounded) : NextBounded (execWfree w g s) :=
  tokened_bounded hs _ _ _ fun hs => by simp [hs]
@[simp] theorem execSstep_bounded (w g : B2) (d : B6) {s : State} (hs : s.Bounded) : NextBounded (execSstep w g d s) := by
  refine tokened_bounded hs _ _ _ fun hs => ?_
  split
  · split_ifs <;> simp [hs]
  · trivial

@[simp] theorem bounded_stepSlot (clock : Sparse Nat) (s : State) (core slot : Nat) :
    (stepSlot clock s core slot).Bounded ↔ s.Bounded := by simp [stepSlot]
@[simp] theorem execSuperstepAdvance_bounded (part queue : Nat) (s : State) (hs : s.Bounded) :
    NextBounded (execSuperstepAdvance part queue s) := occurs_bounded hs _ (by simp [hs])
@[simp] theorem bounded_popItem (s : State) (core slot q : Nat) : (popItem s core slot q).Bounded ↔ s.Bounded := by simp [popItem]
@[simp] theorem bounded_loadArgs (x : PartyState) (i : Nat) (vs : List Word) : (loadArgs x i vs).Bounded ↔ x.Bounded := by
  induction vs generalizing x i with
  | nil => rfl
  | cons v vs ih => simp [loadArgs, ih]

@[simp] theorem bounded_withheldAt (s : State) (p : PartyId) : (withheldAt s p).Bounded ↔ s.Bounded := by
  unfold withheldAt
  split <;> simp

@[simp] theorem bounded_beginEntry (s : State) (p : PartyId) (o : Word) (args : List Word) :
    (beginEntry s p o args).Bounded ↔ s.Bounded := by simp [beginEntry]
@[simp] theorem execEntryBegin_bounded (p : PartyId) (s : State) (hs : s.Bounded) : NextBounded (execEntryBegin p s) := by
  unfold execEntryBegin
  split <;> simp [hs]

@[simp] theorem bounded_retireMark (s : State) (p : PartyId) (n : Nat) : (retireMark s p n).Bounded ↔ s.Bounded := by
  simp [retireMark]
@[simp] theorem execMarkRetire_bounded (p : PartyId) (s : State) (hs : s.Bounded) : NextBounded (execMarkRetire p s) := by
  unfold execMarkRetire
  split <;> simp [hs]

@[simp] theorem bounded_retireNotify (s : State) (p : PartyId) : (retireNotify s p).Bounded ↔ s.Bounded := by simp [retireNotify]
@[simp] theorem execNotifyRetire_bounded (p : PartyId) (s : State) (hs : s.Bounded) : NextBounded (execNotifyRetire p s) := by
  unfold execNotifyRetire
  split <;> simp [hs]

@[simp] theorem execQfenceJoinRelease_bounded (core slot : Nat) {s : State} (hs : s.Bounded) :
    NextBounded (execQfenceJoinRelease core slot s) := by
  unfold execQfenceJoinRelease
  split
  · exact occurs_bounded hs _ (by simp [hs])
  · exact hs

@[simp] theorem execWaitevTimeout_bounded (p : PartyId) {s : State} (hs : s.Bounded) : NextBounded (execWaitevTimeout p s) := by
  unfold execWaitevTimeout
  split
  · split
    · exact asParty_bounded p (execWaitev_bounded _ _ _ _ hs)
    · exact hs
  · exact hs

/-! ### Scratch -/

@[simp] theorem bounded_readScratch (s : State) (core slot o n : Nat) : SomeFstBounded s (readScratch s core slot o n) := by
  unfold readScratch
  dsimp only
  split
  next t ht => simp [bounded_checkWords s _ _ t ht]
  next => simp

@[simp] theorem bounded_writeCellsNow (s : State) (core size : Nat) (cells : List (Nat × Byte)) :
    SomeBounded s (writeCellsNow s core size cells) := by
  unfold writeCellsNow
  dsimp only
  split
  next t ht => simp [bounded_checkWords s _ _ t ht, State.bounded_congr (s := remember t _ _ _ _) rfl rfl rfl]
  next => simp

@[simp] theorem bounded_getD_writeCellsNow (s : State) (core size : Nat) (cells : List (Nat × Byte)) {t : State}
    (ht : t.Bounded ↔ s.Bounded) : ((writeCellsNow s core size cells).getD t).Bounded ↔ s.Bounded := by
  cases h : writeCellsNow s core size cells with
  | none => exact ht
  | some u => exact bounded_writeCellsNow s _ _ _ u h

@[simp] theorem bounded_putCells (s : State) (core size : Nat) (cells : List (Nat × Byte)) :
    SomeBounded s (putCells s core size cells) := by
  unfold putCells
  split
  · simp
  · dsimp only
    cases h : writeCellsNow s core size _ with
    | none => simp
    | some t => simp [bounded_writeCellsNow s _ _ _ t h]

@[simp] theorem bounded_writeScratch (s : State) (core slot o : Nat) (bs : List Byte) :
    SomeBounded s (writeScratch s core slot o bs) := by simp [writeScratch]
@[simp] theorem withScratch_bounded {s : State} (hs : s.Bounded) (o n : Nat) {k : State → List Byte → Act}
    (hk : ∀ t bs, t.Bounded → (k t bs).Bounded) : (withScratch s o n k).Bounded := by
  unfold withScratch
  split
  · exact hs
  split
  next t bs ht => exact hk t bs ((bounded_readScratch s _ _ _ _ _ ht).2 hs)
  next => exact hs

@[simp] theorem thenWrite_bounded {s : State} (hs : s.Bounded) (o : Nat) (bs : List Byte) {k : State → Act}
    (hk : ∀ t, t.Bounded → (k t).Bounded) : (thenWrite s o bs k).Bounded := by
  unfold thenWrite
  split
  next t ht => exact hk t ((bounded_writeScratch s _ _ _ _ t ht).2 hs)
  next => exact hs

@[simp] theorem bounded_performLate (s : State) (p : PartyId) (k : Nat) : (performLate s p k).Bounded ↔ s.Bounded := by
  unfold performLate
  dsimp only
  split
  · rfl
  split
  · rfl
  · simp

/-! ### Generation -/

@[simp] theorem bounded_claimRows (gated : Bool) (f n part : Nat) (rs : List Nat) (s : State) (got : List Nat) (late cur : Nat) :
    (claimRows gated f n part rs s got late cur).1.Bounded ↔ s.Bounded := by
  induction rs generalizing s got late cur with
  | nil => rfl
  | cons r rs ih =>
    unfold claimRows
    split_ifs <;> simp [ih]

@[simp] theorem bounded_checkRows (gated : Bool) (f : Nat) (rs : List Nat) (s : State) :
    SomeBounded s (checkRows gated f rs s) := by
  induction rs generalizing s with
  | nil => simp [checkRows]
  | cons r rs ih =>
    unfold checkRows
    split
    next t ht => exact (ih t).congr (bounded_checkWords s _ _ t ht)
    next => simp

@[simp] theorem execSeqclm_bounded (w g : B2) (d a b : B6) {s : State} (hs : s.Bounded) : NextBounded (execSeqclm w g d a b s) := by
  refine tokened_bounded hs _ _ _ fun hs => ?_
  dsimp only
  split_ifs
  · trivial
  · trivial
  · trivial
  · exact hs
  · simp [hs]
  · split
    next => exact hs
    next t ht => simp [(bounded_checkRows _ _ _ _ t ht).2 hs]

@[simp] theorem execSeqadv_bounded (w g : B2) (d a b : B6) {s : State} (hs : s.Bounded) : NextBounded (execSeqadv w g d a b s) := by
  refine tokened_bounded hs _ _ _ fun hs => ?_
  dsimp only
  split_ifs
  · trivial
  · exact hs
  · split
    next => exact hs
    next t ht =>
      have h := (bounded_rowChecked s _ _ _ t ht).2 hs
      split_ifs <;> simp [h]

@[simp] theorem bounded_setSuffix (s : State) (id : Nat) (x : Suffix) : (setSuffix s id x).Bounded ↔ s.Bounded := .rfl
@[simp] theorem execSxrst_bounded (w g : B2) (d a b : B6) (s : State) (hs : s.Bounded) : NextBounded (execSxrst w g d a b s) :=
  tokened_bounded hs _ _ _ fun hs => by simp [hs]
@[simp] theorem execSxapp_bounded (w g : B2) (d a b : B6) (s : State) (hs : s.Bounded) : NextBounded (execSxapp w g d a b s) :=
  tokened_bounded hs _ _ _ fun hs => by
  dsimp only
  repeat' split
  all_goals simp [hs]

@[simp] theorem execSxqry_bounded (w g : B2) (d a b : B6) {s : State} (hs : s.Bounded) : NextBounded (execSxqry w g d a b s) := by
  refine tokened_bounded hs _ _ _ fun hs => ?_
  dsimp only
  split
  · trivial
  · split_ifs <;> simp [hs]

/-! ### Isolation -/

@[simp] theorem execProbe_bounded (w g : B2) (a b : B6) (s : State) (hs : s.Bounded) : NextBounded (execProbe w g a b s) :=
  tokened_bounded hs _ _ _ fun hs => by
  dsimp only
  repeat' split
  all_goals simp [hs]

@[simp] theorem execUnpin_bounded (w g : B2) (a b : B6) (s : State) (hs : s.Bounded) : NextBounded (execUnpin w g a b s) :=
  tokened_bounded hs _ _ _ fun hs => by simp [hs]
@[simp] theorem bounded_setObj (s : State) (part id : Nat) (o : Obj) : (setObj s part id o).Bounded ↔ s.Bounded := .rfl
@[simp] theorem bounded_writeLife (s : State) (die part id : Nat) (o : Obj) : (writeLife s die part id o).Bounded ↔ s.Bounded := by
  simp [writeLife]
@[simp] theorem bounded_ownLife (s : State) (h : Word) (o : Obj) : (ownLife s h o).Bounded ↔ s.Bounded := by simp [ownLife]
@[simp] theorem bounded_readLife (s : State) (h : Word) : (readLife s h).Bounded ↔ s.Bounded := by
  unfold readLife
  split <;> simp

@[simp] theorem bounded_destroy (s : State) (die part id : Nat) (o : Obj) : (destroy s die part id o).Bounded ↔ s.Bounded := by
  simp [destroy]
@[simp] theorem bounded_destroyVictim (s : State) (v : Nat × Nat × Obj) : (destroyVictim s v).Bounded ↔ s.Bounded := by
  simp [destroyVictim]
@[simp] theorem bounded_reclaimOne (s : State) (part : Nat) (burst : Bool) : SomeBounded s (reclaimOne s part burst) := by
  unfold reclaimOne
  cases victim s part burst <;> simp

@[simp] theorem bounded_makeObj (s : State) (part id size space slot prio : Nat) (fs : List Nat) :
    (makeObj s part id size space slot prio fs).Bounded ↔ s.Bounded := by
  simp [makeObj]

@[simp] theorem execHnew_bounded (w g : B2) (d a b : B6) {s : State} (hs : s.Bounded) : NextBounded (execHnew w g d a b s) := by
  refine tokened_bounded hs _ _ _ fun hs => ?_
  dsimp only
  split
  · trivial
  split
  · trivial
  split
  · simp [hs]
  split
  next fs _ =>
    have hd : s.draw.2.Bounded := hs
    split <;> simp [hs, hd]
  next =>
    split
    · exact hs
    split
    next t ht => exact (bounded_reclaimOne s _ _ t ht).2 hs
    next => split <;> simp [hs]

@[simp] theorem execHfree_bounded (w g : B2) (d a : B6) (s : State) (hs : s.Bounded) : NextBounded (execHfree w g d a s) :=
  tokened_bounded hs _ _ _ fun hs => by
  dsimp only
  repeat' split
  all_goals simp [hs]

@[simp] theorem execHldw_bounded (w g : B2) (d a b : B6) (s : State) (hs : s.Bounded) : NextBounded (execHldw w g d a b s) :=
  tokened_bounded hs _ _ _ fun hs => by
  dsimp only
  repeat' split
  all_goals simp [hs]

@[simp] theorem execBgone_bounded (w g : B2) (o : BitVec 18) (s : State) (hs : s.Bounded) : NextBounded (execBgone w g o s) :=
  tokened_bounded hs _ _ _ fun hs => by simp [hs]
@[simp] theorem execHupg_bounded (w g : B2) (d a : B6) (s : State) (hs : s.Bounded) : NextBounded (execHupg w g d a s) :=
  tokened_bounded hs _ _ _ fun hs => by
  dsimp only
  repeat' split
  all_goals simp [hs]

@[simp] theorem execHdng_bounded (w g : B2) (d a : B6) (s : State) (hs : s.Bounded) : NextBounded (execHdng w g d a s) :=
  tokened_bounded hs _ _ _ fun hs => by
  dsimp only
  repeat' split
  all_goals simp [hs]

@[simp] theorem execHpri_bounded (w g : B2) (d a b : B6) (s : State) (hs : s.Bounded) : NextBounded (execHpri w g d a b s) :=
  tokened_bounded hs _ _ _ fun hs => by
  dsimp only
  repeat' split
  all_goals simp [hs]

@[simp] theorem execObjectDestruction_bounded (part id : Nat) (s : State) (hs : s.Bounded) :
    NextBounded (execObjectDestruction part id s) := by
  unfold execObjectDestruction
  split <;> simp [hs]

@[simp] theorem bounded_openWindow (s : State) (n slot : Nat) (w : Window) : (openWindow s n slot w).Bounded ↔ s.Bounded := by
  unfold openWindow
  extract_lets s1 s2 s3
  have h3 : s3.Bounded ↔ s2.Bounded := by
    refine bounded_foldl (fun t i => ?_) _ _
    split
    · simp
    · rfl
  exact h3

@[simp] theorem execWinopen_bounded (w g : B2) (d a : B6) {s : State} (hs : s.Bounded) : NextBounded (execWinopen w g d a s) := by
  refine tokened_bounded hs _ _ _ fun hs => ?_
  dsimp only
  split
  · trivial
  · refine withScratch_bounded hs _ _ fun t r ht => ?_
    have hd : t.draw.2.Bounded := ht
    split
    · trivial
    split
    · trivial
    split
    · split <;> simp [ht, hd]
    · simp [ht]

@[simp] theorem execWinpub_bounded (w g : B2) (d a b : B6) (s : State) (hs : s.Bounded) : NextBounded (execWinpub w g d a b s) :=
  tokened_bounded hs _ _ _ fun hs => by
  dsimp only
  repeat' split
  all_goals simp [hs]

@[simp] theorem execWinacq_bounded (w g : B2) (d a : B6) (s : State) (hs : s.Bounded) : NextBounded (execWinacq w g d a s) :=
  tokened_bounded hs _ _ _ fun hs => by
  dsimp only
  repeat' split
  all_goals simp [hs]

@[simp] theorem execWinclose_bounded (w g : B2) (a : B6) (s : State) (hs : s.Bounded) : NextBounded (execWinclose w g a s) :=
  tokened_bounded hs _ _ _ fun hs => by
  dsimp only
  repeat' split
  all_goals simp [hs]

/-! ### Budgets -/

@[simp] theorem execSwpt_bounded (k : BitVec 8) (v : BitVec 3) {s : State} (hs : s.Bounded) : NextBounded (execSwpt k v s) := by
  unfold execSwpt
  split
  · exact conclude_bounded hs 0 0 trivial
  · refine control_bounded hs ?_
    dsimp only
    split
    · trivial
    split
    · exact hs
    · split <;> simp [hs]

@[simp] theorem execClkdiv_bounded (w g : B2) (d a b : B6) (s : State) (hs : s.Bounded) : NextBounded (execClkdiv w g d a b s) :=
  tokened_bounded hs _ _ _ fun hs => by simp [hs]
@[simp] theorem execPgate_bounded (w g : B2) (a : B6) (s : State) (hs : s.Bounded) : NextBounded (execPgate w g a s) :=
  tokened_bounded hs _ _ _ fun hs => by simp [hs]
@[simp] theorem execGateGrant_bounded (core : Nat) (s : State) (hs : s.Bounded) : NextBounded (execGateGrant core s) :=
  occurs_bounded hs _ (by simp [hs])
@[simp] theorem bounded_grantGates (s : State) : (grantGates s).Bounded ↔ s.Bounded := by simp [grantGates]
@[simp] theorem execCoreWake_bounded (core : Nat) (s : State) (hs : s.Bounded) : NextBounded (execCoreWake core s) :=
  occurs_bounded hs _ (by simp [hs])
@[simp] theorem bounded_stepDomain (won : List Nat) (s : State) (d : Nat) : (stepDomain won s d).Bounded ↔ s.Bounded := by
  simp [stepDomain]
@[simp] theorem bounded_boostHamper (s : State) (h : Nat) : (boostHamper s h).Bounded ↔ s.Bounded := by simp [boostHamper]
@[simp] theorem execBoostInterval_bounded (s : State) (hs : s.Bounded) : NextBounded (execBoostInterval s) :=
  occurs_bounded hs _ (by simp [hs])
@[simp] theorem bounded_refillPool (s : State) (h : Nat) : (refillPool s h).Bounded ↔ s.Bounded := .rfl
@[simp] theorem execBoostRefill_bounded (s : State) (hs : s.Bounded) : NextBounded (execBoostRefill s) :=
  occurs_bounded hs _ (by simp [hs])
@[simp] theorem execBoost_bounded (w g : B2) (d a : B6) {s : State} (hs : s.Bounded) : NextBounded (execBoost w g d a s) := by
  refine tokened_bounded hs _ _ _ fun hs => ?_
  have hd : s.draw.2.Bounded := hs
  dsimp only
  split
  · trivial
  · simp [hs, hd]

@[simp] theorem bounded_countOut (s : State) : (countOut s).Bounded ↔ s.Bounded := by simp [countOut]
@[simp] theorem execEnergyTick_bounded (used : List (Nat × Nat × Nat × Nat)) (s : State) (hs : s.Bounded) :
    NextBounded (execEnergyTick used s) := occurs_bounded hs _ (by simp [hs])
@[simp] theorem execEnergyRefill_bounded (s : State) (hs : s.Bounded) : NextBounded (execEnergyRefill s) :=
  occurs_bounded hs _ (by simp [hs])
@[simp] theorem execLevelGrant_bounded (rest : Nat) (s : State) (hs : s.Bounded) : NextBounded (execLevelGrant rest s) :=
  occurs_bounded hs _ (by simp [hs])

/-! ### Launches -/

theorem quietly_bounded {s t : State} (hs : s.Bounded) (ht : t.Bounded) : (quietly s t).Bounded := ⟨ht.parties, hs.ctxs, ht.cocoons⟩
@[simp] theorem bounded_partBytes (s : State) (part : Nat) (rows : Bool) (fuel va n : Nat) :
    OkBounded s (partBytes s part rows fuel va n) := by
  induction fuel generalizing s va n with
  | zero => simp [partBytes]
  | succ fuel ih =>
    unfold partBytes
    dsimp only
    split
    · simp
    split
    · simp
    split
    next p _ =>
      split
      · simp
      have h := bounded_readSeen s thePart part (if rows then 64 else part) false p (min n (65536 - va % 65536))
      split
      next t bs ht =>
        rw [ht] at h
        split
        next u cs hu => simpa using (ih t _ _ _ hu).trans h
        next => simp
      next => simp
    next =>
      split
      next u cs hu => simpa using ih s _ _ _ hu
      next => simp
    next => simp

theorem partRead_bounded {s : State} (hs : s.Bounded) {part va n : Nat} {r : State × List Byte} (h : partRead s part va n = .ok r) :
    r.1.Bounded := by
  revert h
  unfold partRead
  split
  next t bs ht =>
    rintro ⟨⟩
    exact quietly_bounded hs ((bounded_partBytes s _ _ _ _ _ _ ht).2 hs)
  next => rintro ⟨⟩

theorem partWrite_bounded {s t : State} (hs : s.Bounded) {part va : Nat} {clock : Sparse Nat} {bs : List Byte}
    (h : partWrite s part va clock bs = some t) : t.Bounded := by
  revert h
  unfold partWrite
  split
  · rintro ⟨⟩
  split
  next p _ =>
    split
    · rintro ⟨⟩
    · intro h
      obtain ⟨u, hu, rfl⟩ := Option.map_eq_some_iff.1 h
      exact quietly_bounded hs ((bounded_writePlace _ _ _ _ _ _ u hu).2 ((bounded_countAccess _ _ _ _).2 hs))
  next => rintro ⟨⟩; exact hs
  next => rintro ⟨⟩

@[simp] theorem bounded_signalHost (s : State) (p q : Nat) : (signalHost s p q).Bounded ↔ s.Bounded := by simp [signalHost]
@[simp] theorem completeRecord_bounded {s : State} (hs : s.Bounded) (p q : Nat) (index tag : BitVec 32) (status cause tasks : Nat) :
    (completeRecord s p q index tag status cause tasks).Bounded := by
  unfold completeRecord
  dsimp only
  rw [bounded_signalHost]
  split
  next t ht => exact partWrite_bounded hs ht
  next => exact hs

@[simp] theorem cancelRecords_bounded {s : State} (hs : s.Bounded) (p q status : Nat) : (cancelRecords s p q status).Bounded :=
  State.Bounded.foldl (s := s.setQueue p q _) hs (fun _ _ ht => completeRecord_bounded ht _ _ _ _ _ _ _) _

@[simp] theorem closeRecords_bounded {s : State} (hs : s.Bounded) (p q : Nat) : (closeRecords s p q).Bounded :=
  State.Bounded.foldl (s := s.setQueue p q _) hs (fun _ _ ht => completeRecord_bounded ht _ _ _ _ _ _ _) _

@[simp] theorem endHead_bounded {s : State} (hs : s.Bounded) (p q status cause : Nat) : (endHead s p q status cause).Bounded := by
  unfold endHead
  split
  · exact closeRecords_bounded (completeRecord_bounded (s := s.modQueue p q _) hs _ _ _ _ _ _ _) _ _
  · exact hs

@[simp] theorem checkLaunch_bounded {s : State} (hs : s.Bounded) (p q : Nat) : (checkLaunch s p q).Bounded := by
  unfold checkLaunch
  split
  · split
    · split <;> exact endHead_bounded hs _ _ _ _
    · exact hs
  · exact hs

@[simp] theorem taskEnded_bounded {s : State} (hs : s.Bounded) (t : Task) (cause : Option Nat) : (taskEnded s t cause).Bounded := by
  unfold taskEnded
  dsimp only
  split
  · split
    · exact hs
    · exact checkLaunch_bounded (s := s.setQueue _ _ _) hs _ _
  · exact hs

@[simp] theorem bounded_layCode (s : State) (a n o : Nat) (code : List Byte) : (layCode s a n o code).Bounded ↔ s.Bounded := .rfl
@[simp] theorem bounded_loadSection (s : State) (core slot k size keep : Nat) (code : List Byte) :
    (loadSection s core slot k size keep code).Bounded ↔ s.Bounded := by simp [loadSection]
theorem loadSections_bounded {s u : State} (hs : s.Bounded) {core slot : Nat} {t : Task} {ks : List Nat}
    (h : loadSections core slot t ks s = .ok u) : u.Bounded := by
  induction ks generalizing s with
  | nil => rw [loadSections] at h; cases h; exact hs
  | cons k ks ih =>
    rw [loadSections] at h
    split at h
    next v code hv => exact ih ((bounded_loadSection _ _ _ _ _ _ _).2 (partRead_bounded hs hv)) h
    next => cases h

theorem freshParty_bounded (t : Task) (js : List (Party × Nat × Party)) (p : Party) : (freshParty t js p).Bounded := by
  unfold freshParty
  split <;> exact PartyState.bounded_default

@[simp] theorem clearParties_bounded {s : State} (hs : s.Bounded) (core slot : Nat) : (clearParties s core slot).Bounded :=
  ⟨fun e he => hs.parties e (List.mem_of_mem_filter he), hs.ctxs, hs.cocoons⟩

@[simp] theorem startTask_bounded {s : State} (hs : s.Bounded) (core slot : Nat) (t : Task) :
    (startTask s core slot t).Bounded := by
  unfold startTask
  extract_lets js alone s1 s2 s3 s4
  have h1 : s1.Bounded := (clearParties_bounded hs core slot).foldl (fun _ p hu => hu.setParty _ (freshParty_bounded t js p)) _
  have h2 : s2.Bounded := (bounded_foldl (fun _ _ => bounded_orderAll _ _) _ _).2 (h1.setCtx core slot keptBounded_none)
  clear_value s2
  have h4 : s4.Bounded := h2
  split
  · exact (bounded_markDying _ _ _ _ _).2 h4
  next s5 h =>
    have h5 := loadSections_bounded h4 h
    split
    · exact (bounded_markDying _ _ _ _ _).2 h5
    next s6 image h =>
      have h6 := partRead_bounded h5 h
      split
      next s7 h => exact (bounded_writeScratch _ _ _ _ _ s7 h).2 h6
      next => exact (bounded_markDying _ _ _ _ _).2 h6

@[simp] theorem bounded_cocoonWritten (s : State) (parts : List (Nat × Nat)) : (cocoonWritten s parts).Bounded ↔ s.Bounded := by
  simp [cocoonWritten]
@[simp] theorem bounded_framesChecked (s : State) (es : List (Nat × Nat)) : SomeBounded s (framesChecked s es) := by
  induction es generalizing s with
  | nil => simp [framesChecked]
  | cons e es ih =>
    unfold framesChecked
    split
    next t ht => exact (ih t).congr (bounded_checkWords s _ _ t ht)
    next => simp

@[simp] theorem bounded_abandon (x : PartyState) : (abandon x).Bounded ↔ x.Bounded := by
  unfold abandon
  split <;> simp

theorem savedParties_bounded {s : State} (hs : s.Bounded) (core slot : Nat) : PartiesBounded (savedParties s core slot) := by
  intro e he
  obtain ⟨p, -, rfl⟩ := List.mem_map.1 he
  exact (bounded_abandon _).2 (hs.party _)

theorem saveTask_bounded {s u : State} (hs : s.Bounded) {core slot mate : Nat} {parked : Bool}
    (h : saveTask s core slot mate parked = some u) : u.Bounded := by
  revert h
  unfold saveTask
  split
  · rintro ⟨⟩; exact hs
  next t _ =>
    extract_lets x base acc mset flips pops
    split
    · rintro ⟨⟩
    split
    · rintro ⟨⟩
    next s0 h0 =>
      extract_lets s1 c trellis accum fifos vin k s2 s3 s4
      have hs0 : s0.Bounded := (bounded_checkWords s _ _ s0 h0).2 hs
      have h3 : s3.Bounded := by simp [s3, s2, s1, hs0]
      have h4 : s4.Bounded := (clearParties_bounded h3 core slot).setCtx core slot keptBounded_none
      have hk : k.Bounded := ⟨savedParties_bounded hs core slot, hs.kept core slot⟩
      rintro ⟨⟩
      exact ⟨h4.parties, h4.ctxs, List.forall_mem_append.2 ⟨h4.cocoons, List.forall_mem_singleton.2 hk⟩⟩

theorem layParties_bounded {s : State} (hs : s.Bounded) (core slot : Nat) {m : Sparse PartyState} (hm : PartiesBounded m) :
    (layParties s core slot m).Bounded := by
  induction m generalizing s with
  | nil => exact hs
  | cons e m ih =>
    obtain ⟨he, hm⟩ := List.forall_mem_cons.1 hm
    exact ih (hs.setParty _ he) hm

@[simp] theorem bounded_forgetCore (s : State) (core : Nat) : (forgetCore s core).Bounded ↔ s.Bounded := by simp [forgetCore]
theorem restoreTask_bounded {s u : State} (hs : s.Bounded) {core slot : Nat} {k : Cocoon} (hk : k.Bounded)
    (h : restoreTask s core slot k = some u) : u.Bounded := by
  revert h
  unfold restoreTask
  extract_lets t mset base acc
  split
  · rintro ⟨⟩
  next v hv =>
    extract_lets s0 s1 m1 m2 gone s2 s3 s4 s5
    have h0 : s0.Bounded := by simp [s0, (bounded_framesChecked s _ v hv).2 hs]
    have h1 : s1.Bounded := ⟨h0.parties, h0.ctxs, fun c hc => h0.cocoons c (List.mem_of_mem_filter hc)⟩
    have h2 : s2.Bounded := (bounded_forgetCore _ _).2 h1
    clear_value s2
    have h3 : s3.Bounded := (bounded_foldl (fun _ _ => bounded_orderPoint _ _) _ _).2
      (layParties_bounded (clearParties_bounded h2 core slot) core slot hk.1)
    clear_value s3
    have h5 : s5.Bounded := (State.bounded_modCore _ _ _).2 (h3.setCtx core slot hk.2)
    split
    next s6 h6 => rintro ⟨⟩; exact loadSections_bounded h5 h6
    next => rintro ⟨⟩
    next => rintro ⟨⟩; exact (bounded_markDying _ _ _ _ _).2 h5

@[simp] theorem bounded_notice (s : State) (die serial core slot part cause : Nat) (tval : Word) :
    (notice s die serial core slot part cause tval).Bounded ↔ s.Bounded := by simp [notice]
theorem cocoonOfSerial_bounded {s : State} (hs : s.Bounded) {serial : Nat} {c : Cocoon} (h : cocoonOfSerial s serial = some c) :
    c.Bounded := hs.cocoons c (List.mem_of_find?_eq_some h)

theorem mateOf_bounded {s : State} (hs : s.Bounded) {c d : Cocoon} (h : mateOf s c = some d) : d.Bounded := by
  revert h
  unfold mateOf
  split
  · rintro ⟨⟩
  · exact cocoonOfSerial_bounded hs

@[simp] theorem endSaved_bounded {s : State} (hs : s.Bounded) (die cause : Nat) (tval : Word) (cs : List Cocoon) :
    (endSaved s die cause tval cs).Bounded := by
  induction cs generalizing s with
  | nil => exact hs
  | cons c cs ih =>
    exact ih (taskEnded_bounded ((bounded_notice _ _ _ _ _ _ _ _).2 (releaseCocoon_bounded hs c)) _ _)

@[simp] theorem endCocoon_bounded {s : State} (hs : s.Bounded) (die cause : Nat) (tval : Word) (c : Cocoon) :
    (endCocoon s die cause tval c).Bounded := endSaved_bounded hs _ _ _ _

@[simp] theorem endSerial_bounded {s : State} (hs : s.Bounded) (die core serial cause : Nat) :
    (endSerial s die core serial cause).Bounded := by
  unfold endSerial
  split
  · simp [hs]
  · split <;> simp [hs]

@[simp] theorem markLost_bounded {s : State} (hs : s.Bounded) (t : Task) : (markLost s t).Bounded := by
  refine ⟨hs.parties, fun e he => ?_, fun c hc => ?_⟩
  · obtain ⟨x, hx, rfl⟩ := List.mem_map.1 he
    have h := hs.ctxs x hx
    split <;> exact h
  · obtain ⟨x, hx, rfl⟩ := List.mem_map.1 hc
    have h := hs.cocoons x hx
    split <;> exact h

@[simp] theorem loseContext_bounded {s : State} (hs : s.Bounded) (e : Nat × Nat) (t : Task) : (loseContext s e t).Bounded := by
  unfold loseContext
  extract_lets s1
  have h1 : s1.Bounded := by simp [s1, hs]
  split
  · exact h1
  · exact beginReset_bounded h1 _

/-! ### Recovery -/

@[simp] theorem bounded_enterHandler (s : State) (die : Nat) (r : Record) (rest : List Record) :
    (enterHandler s die r rest).Bounded ↔ s.Bounded := by
  unfold enterHandler
  extract_lets p x s1 s2 s3
  have h3 : s3.Bounded ↔ s.Bounded := s.bounded_setParty p .rfl
  split <;> simp [h3]

@[simp] theorem bounded_takeRecord (s : State) (die : Nat) : (takeRecord s die).Bounded ↔ s.Bounded := by
  unfold takeRecord
  split <;> simp

@[simp] theorem execTakeRecord_bounded (die : Nat) (s : State) (hs : s.Bounded) : NextBounded (execTakeRecord die s) :=
  occurs_bounded hs _ (by simp [hs])
@[simp] theorem bounded_returnSaved (x : PartyState) (tpc : Word) (act n : Nat) : (returnSaved x tpc act n).Bounded ↔ x.Bounded := by
  simp [returnSaved]
theorem returnCocoon_bounded {c : Cocoon} (hc : c.Bounded) (p : Party) (tpc : Word) (act n : Nat) :
    (returnCocoon c p tpc act n).Bounded := by
  unfold returnCocoon
  split
  · refine ⟨fun e he => ?_, hc.2⟩
    obtain ⟨x, hx, rfl⟩ := List.mem_map.1 he
    have hw : (look {} c.parties 0).Bounded := hc.1.look 0
    clear he
    generalize look {} c.parties 0 = w0 at hw ⊢
    split_ifs <;> simp [hw, hc.1 x hx]
  · exact ⟨partiesBounded_put hc.1 ((bounded_returnSaved _ _ _ _).2 (hc.1.look _)), hc.2⟩

@[simp] theorem resumeRecord_bounded {s : State} (hs : s.Bounded) (r : Record) (act : Nat) : (resumeRecord s r act).Bounded := by
  unfold resumeRecord
  dsimp only
  split
  · exact hs
  split
  · simp [hs]
  split
  · simp [hs]
  · refine ⟨hs.parties, hs.ctxs, fun c hc => ?_⟩
    obtain ⟨x, hx, rfl⟩ := List.mem_map.1 hc
    split
    · exact returnCocoon_bounded (hs.cocoons x hx) _ _ _ _
    · exact hs.cocoons x hx

@[simp] theorem endTasksOf_bounded {s : State} (hs : s.Bounded) (die core launch cause : Nat) :
    (endTasksOf s die core launch cause).Bounded :=
  hs.foldl (fun _ _ ht => endSerial_bounded ht _ _ _ _) _

@[simp] theorem leaveHandler_bounded (s : State) (die : Nat) (d : B6) (own : Bool) (hs : s.Bounded) :
    (leaveHandler s die d own).Bounded := by simp [leaveHandler, hs]
@[simp] theorem eret_bounded {s : State} (hs : s.Bounded) (d a : B6) : (eret s d a).Bounded := by
  unfold eret
  extract_lets die v act code bad s1
  split
  · trivial
  split
  · trivial
  split
  · trivial
  have h1 : s1.Bounded := by simp [s1, hs]
  clear_value s1
  split
  · simp [h1]
  split
  · dsimp only
    split
    · refine Act.Bounded.ite trivial fun _ => ?_
      split <;> simp [h1]
    · refine Act.Bounded.ite trivial fun _ => ?_
      simp [h1]
  · split_ifs <;> simp [h1]

@[simp] theorem execEret_bounded (w g : B2) (d a : B6) (s : State) (hs : s.Bounded) : NextBounded (execEret w g d a s) :=
  supervised_bounded hs _ _ fun hs => by simp [hs]
@[simp] theorem startSupervisor_bounded {s : State} (hs : s.Bounded) (die : Nat) (i : Image) :
    (startSupervisor s die i).Bounded := by
  unfold startSupervisor
  extract_lets core secs js s1 left s2 s3
  have h1 : s1.Bounded := (bounded_foldl (fun _ _ => bounded_loadSection _ _ _ _ _ _ _) _ _).2 hs
  clear_value s1
  have h2 : s2.Bounded := (bounded_foldl (fun _ _ => bounded_checkBarrier _ _ _) _ _).2
    ((clearParties_bounded h1 core 0).setCtx core 0 keptBounded_none)
  clear_value s2
  have h3 : s3.Bounded := h2.foldl (fun _ _ ht => ht.setParty _ (PartyState.bounded_of_nil rfl rfl)) _
  exact (State.bounded_modDie _ _ _).2 h3

@[simp] theorem execSupervisorRestart_bounded (die : Nat) {s : State} (hs : s.Bounded) :
    NextBounded (execSupervisorRestart die s) := by
  unfold execSupervisorRestart
  extract_lets d all recs s1 s2
  have h2 : s2.Bounded := by
    refine State.Bounded.foldl (s := s1) hs (fun t r ht => ?_) recs
    split
    · split <;> simp [ht]
    · exact ht
  clear_value s2
  split
  · exact occurs_bounded hs _ (startSupervisor_bounded h2 _ _)
  · exact hs

@[simp] theorem endWithError_bounded {s : State} (hs : s.Bounded) (core slot cause : Nat) (tval : Word) :
    (endWithError s core slot cause tval).Bounded := by
  unfold endWithError
  split
  · exact taskEnded_bounded ((bounded_notice _ _ _ _ _ _ _ _).2 (releaseTask_bounded hs _ _ _)) _ _
  · exact hs

@[simp] theorem bounded_emptyColumn (s : State) (core : Nat) : (emptyColumn s core).Bounded ↔ s.Bounded := .rfl
@[simp] theorem execContextError_bounded (core slot : Nat) {s : State} (hs : s.Bounded) :
    NextBounded (execContextError core slot s) := by
  unfold execContextError
  split
  next cause tval t _ _ =>
    extract_lets mate done s1 s2
    have h1 : s1.Bounded := endWithError_bounded hs _ _ _ _
    clear_value mate
    have h2 : s2.Bounded := by
      unfold s2
      split
      · exact endWithError_bounded h1 _ _ _ _
      · exact h1
    clear_value s2
    refine occurs_bounded hs _ ?_
    split <;> simp [h2]
  next => exact hs

@[simp] theorem swapPhase_bounded {s : State} (hs : s.Bounded) (n : Nat) : (swapPhase s n).Bounded := by
  unfold swapPhase
  extract_lets core slot s1 s2 c flags bound trellis fifos vin k s3
  have h1 : s1.Bounded := (State.bounded_modSh _ _).2 hs
  have h2 : s2.Bounded := by
    refine (bounded_foldl (fun t p => State.bounded_modParty t _ fun x => ?_) _ _).2 h1
    split <;> rfl
  clear_value s2
  have h3 : s3.Bounded := by
    unfold s3
    split <;> simp [h2]
  refine h3.setCtx _ _ (keptBounded_some.2 fun e he => ?_)
  obtain ⟨p, -, rfl⟩ := List.mem_map.1 he
  exact h2.party _

@[simp] theorem phswap_bounded {s : State} (hs : s.Bounded) (n : Nat) (g : B2) : (phswap s n g).Bounded := by
  unfold phswap
  split
  · exact hs
  split
  · trivial
  extract_lets t there
  have ht : t.Bounded := by simp [t, hs]
  clear_value t
  split
  · exact ht
  split
  · simp [ht]
  · exact ht

@[simp] theorem execPhswap_bounded (w g : B2) (n : BitVec 3) (s : State) (hs : s.Bounded) : NextBounded (execPhswap w g n s) :=
  tokened_bounded hs _ _ _ fun hs => by simp [hs]
@[simp] theorem bounded_haltSlots (s : State) (es : List (Nat × Nat)) : (haltSlots s es).Bounded ↔ s.Bounded := by simp [haltSlots]
theorem saveSlots_bounded {s : State} (hs : s.Bounded) (mate : Nat × Nat → Nat) (park : Nat × Nat → Bool) (es : List (Nat × Nat)) :
    (saveSlots s mate park es).1.Bounded := by
  induction es generalizing s with
  | nil => exact hs
  | cons e es ih =>
    unfold saveSlots
    split
    next t ht => exact ih (saveTask_bounded hs ht)
    next => exact hs

@[simp] theorem setParked_bounded {s : State} (hs : s.Bounded) (on : Bool) (c : Cocoon) : (setParked s on c).Bounded := by
  refine ⟨hs.parties, hs.ctxs, fun d hd => ?_⟩
  obtain ⟨x, hx, rfl⟩ := List.mem_map.1 hd
  have h := hs.cocoons x hx
  split <;> exact h

@[simp] theorem ctxsv_bounded {s : State} (hs : s.Bounded) (d a : B6) : (ctxsv s d a).Bounded := by
  unfold ctxsv
  extract_lets id serial fate
  have hf : ∀ t n, t.Bounded → (fate t n).Bounded := fun t n ht => by simp [fate, ht]
  split
  · exact hf _ _ hs
  split
  next core slot _ _ =>
    extract_lets es s1 mates
    have h1 : s1.Bounded := (bounded_haltSlots _ _).2 hs
    split
    · exact hf _ _ hs
    split
    · have h := saveSlots_bounded h1 (mateSerial s) (fun e => mates.contains e) es
      split
      next s2 h2 => rw [h2] at h; exact hf _ _ h
      next s2 e u h2 => rw [h2] at h; exact hf _ _ (loseContext_bounded h _ _)
    · exact h1
  next =>
    split
    · split_ifs
      · exact hf _ _ hs
      · exact hf _ _ hs
      · exact hf _ _ (setParked_bounded hs _ _)
    · exact hf _ _ hs

@[simp] theorem execCtxsv_bounded (w g : B2) (d a : B6) (s : State) (hs : s.Bounded) : NextBounded (execCtxsv w g d a s) :=
  supervised_bounded hs _ _ fun hs => by simp [hs]
theorem restoreAt_bounded {s u : State} (hs : s.Bounded) {core : Nat} {c : Cocoon} (hc : c.Bounded)
    (h : restoreAt s core c = some (.ok u)) : u.Bounded := by
  revert h
  unfold restoreAt
  split
  · split
    · intro h
      replace h := Option.some.inj h
      split at h
      next t ht =>
        cases h
        have hb := restoreTask_bounded hs hc ht
        exact hb
      next => cases h
    · rintro ⟨⟩
  split
  · rintro ⟨⟩
  split
  next lo hi hlohi =>
    extract_lets up ok place
    have hplace : ∀ x at_ r, (∀ k, x = some k → k.Bounded) → (∀ t, r = .ok t → t.Bounded) →
        ∀ t, place x at_ r = .ok t → t.Bounded := by
      intro x at_ r hx hr t
      cases x with
      | none => exact hr t
      | some k =>
        cases r with
        | error e => exact hr t
        | ok v =>
          dsimp only [place]
          split
          · split
            next w hw =>
              rintro ⟨⟩
              have hb := restoreTask_bounded (hr _ rfl) (hx k rfl) hw
              exact hb
            next => rintro ⟨⟩
          · rintro ⟨⟩
            exact hr _ rfl
    have hm : ∀ k, mateOf s c = some k → k.Bounded := fun _ => mateOf_bounded hs
    have hs' : ∀ k, some c = some k → k.Bounded := by rintro _ ⟨⟩; exact hc
    have hlo : (∀ k, lo = some k → k.Bounded) ∧ ∀ k, hi = some k → k.Bounded := by
      split at hlohi <;> cases hlohi
      · exact ⟨hm, hs'⟩
      · exact ⟨hs', hm⟩
    split
    · intro h
      refine hplace _ _ _ hlo.2 (hplace _ _ _ hlo.1 ?_) u (Option.some.inj h)
      rintro _ ⟨⟩
      exact hs
    · rintro ⟨⟩

@[simp] theorem ctxld_bounded {s : State} (hs : s.Bounded) (d a b : B6) : (ctxld s d a b).Bounded := by
  unfold ctxld
  extract_lets id target fate
  have hf : ∀ t n, t.Bounded → (fate t n).Bounded := fun t n ht => by simp [fate, ht]
  split
  · exact hf _ _ hs
  next c hc =>
    have hb : c.Bounded := by
      split at hc
      · cases hc
      · exact cocoonOfSerial_bounded hs hc
    split
    · exact hf _ _ hs
    split
    · exact hf _ _ hs
    split
    · exact hf _ _ (setParked_bounded hs _ _)
    split
    · exact hf _ _ hs
    next t ht => exact hf _ _ (restoreAt_bounded hs hb ht)
    next => exact hf _ _ (loseContext_bounded hs _ _)

@[simp] theorem execCtxld_bounded (w g : B2) (d a b : B6) (s : State) (hs : s.Bounded) : NextBounded (execCtxld w g d a b s) :=
  supervised_bounded hs _ _ fun hs => by simp [hs]
@[simp] theorem execKatbThreshold_bounded (core : Nat) (s : State) (hs : s.Bounded) : NextBounded (execKatbThreshold core s) :=
  occurs_bounded hs _ (by simp [hs])
@[simp] theorem bounded_failColumn (s : State) (core : Nat) : (failColumn s core).Bounded ↔ s.Bounded :=
  bounded_foldl (fun _ _ => by simp) _ _
@[simp] theorem execKatCheck_bounded (core : Nat) (pass : Bool) (s : State) (hs : s.Bounded) :
    NextBounded (execKatCheck core pass s) := occurs_bounded hs _ (by simp [hs])
@[simp] theorem execPatrolRead_bounded (addr : Nat) {s : State} (hs : s.Bounded) : NextBounded (execPatrolRead addr s) := by
  unfold execPatrolRead
  split
  next t ht => exact (bounded_checkWords s _ _ t ht).2 hs
  next => exact hs

@[simp] theorem execLookoutTick_bounded {s : State} (hs : s.Bounded) : NextBounded (execLookoutTick s) := by
  refine occurs_bounded hs _ ⟨hs.parties, fun e he => ?_, hs.cocoons⟩
  obtain ⟨x, hx, rfl⟩ := List.mem_map.1 he
  exact hs.ctxs x hx

@[simp] theorem execLookoutExpiry_bounded (part queue : Nat) (s : State) (hs : s.Bounded) :
    NextBounded (execLookoutExpiry part queue s) := by
  unfold execLookoutExpiry
  dsimp only
  repeat' split
  all_goals simp [hs]

@[simp] theorem bounded_wipe (s : State) (tag n : Nat) : (wipe s tag n).Bounded ↔ s.Bounded := .rfl
@[simp] theorem zeroParties_bounded {s : State} (hs : s.Bounded) (core slot : Nat) : (zeroParties s core slot).Bounded :=
  (clearParties_bounded hs core slot).foldl (fun _ _ ht => ht.setParty _ (PartyState.bounded_of_nil rfl rfl)) _

@[simp] theorem scrubCore_bounded {s : State} (hs : s.Bounded) (core : Nat) : (scrubCore s core).Bounded := by
  refine (State.bounded_modCore _ _ _).2 (zeroParties_bounded (zeroParties_bounded ?_ _ _) _ _)
  simp [hs]

@[simp] theorem bounded_scrubWeights (s : State) (p die : Nat) : (scrubWeights s p die).Bounded ↔ s.Bounded := by
  simp [scrubWeights]

@[simp] theorem execScrubComplete_bounded (core : Nat) (s : State) (hs : s.Bounded) : NextBounded (execScrubComplete core s) :=
  occurs_bounded hs _ (by simp [hs])
@[simp] theorem execResetDrainExpiry_bounded {s : State} (hs : s.Bounded) : NextBounded (execResetDrainExpiry s) := by
  unfold execResetDrainExpiry
  split
  next r _ =>
    extract_lets stop quit s1 s2
    have hq : ∀ t core slot, (quit t core slot).Bounded ↔ t.Bounded := fun t core slot => by simp [quit]
    have hp : ∀ x, (stop x).Bounded ↔ x.Bounded := fun x => .rfl
    have h1 : s1.Bounded :=
      (bounded_foldl (fun t e => (bounded_foldl (fun u p => State.bounded_modParty u _ hp) _ _).trans (hq t _ _)) _ _).2
        ((bounded_dismiss _ _).2 hs)
    exact occurs_bounded hs _ h1
  next => exact hs

@[simp] theorem bounded_noteError (s : State) (core slot : Nat) (t : Task) : (noteError s core slot t).Bounded ↔ s.Bounded := by
  unfold noteError
  split <;> simp

@[simp] theorem endTasks_bounded {s : State} (hs : s.Bounded) (p : Nat) : (endTasks s p).Bounded :=
  hs.foldl (fun _ _ ht => releaseTask_bounded ((bounded_noteError _ _ _ _).2 ht) _ _ _) _

@[simp] theorem stripPart_bounded {s : State} (hs : s.Bounded) (p : Nat) : (stripPart s p).Bounded := by
  unfold stripPart
  extract_lets s1 s2 s3 q s4 hs' s5
  have h1 : s1.Bounded := endTasks_bounded hs p
  have h4 : s4.Bounded := by simp [s4, s3, s2, h1]
  clear_value s4
  have h5 : s5.Bounded := h4
  exact (bounded_foldl (fun t e => by split <;> simp) _ _).2 h5

@[simp] theorem endLaunches_bounded {s : State} (hs : s.Bounded) (p : Nat) : (endLaunches s p).Bounded := by
  refine hs.foldl (fun t q ht => ?_) _
  split
  · refine cancelRecords_bounded ?_ _ _ _
    split <;> simp [ht]
  · split <;> simp [ht]

@[simp] theorem execPartitionResetComplete_bounded {s : State} (hs : s.Bounded) : NextBounded (execPartitionResetComplete s) := by
  unfold execPartitionResetComplete
  split
  next r _ =>
    extract_lets p s1 s2 s3 s4 s5 s6
    have h2 : s2.Bounded := State.Bounded.foldl (stripPart_bounded hs p) (fun _ _ ht => scrubCore_bounded ht _) _
    clear_value s2
    have h3 : s3.Bounded := endLaunches_bounded h2 p
    clear_value s3
    have h5 : s5.Bounded := h3
    have h6 : s6.Bounded := by
      unfold s6
      split
      · refine beginReset_bounded ?_ _
        exact h5
      · exact h5
    exact occurs_bounded hs _ h6
  next => exact hs

@[simp] theorem execFrameReassignComplete_bounded (k : Nat) (s : State) (hs : s.Bounded) :
    NextBounded (execFrameReassignComplete k s) := by
  unfold execFrameReassignComplete
  split <;> simp [hs]

@[simp] theorem execCounterPublish_bounded (s : State) (hs : s.Bounded) : NextBounded (execCounterPublish s) :=
  occurs_bounded hs _ (by simp [hs])

/-! ### Trailhead -/

@[simp] theorem copyRecords_bounded {s : State} (hs : s.Bounded) (p q n : Nat) : (copyRecords s p q n).Bounded := by
  induction n generalizing s with
  | zero => exact hs
  | succ n ih =>
    unfold copyRecords
    dsimp only
    split
    next t bs ht => exact ih (s := t.setQueue p q _) (partRead_bounded hs ht)
    next => exact ih (s := s.setQueue p q _) hs

@[simp] theorem copyIn_bounded {s : State} (hs : s.Bounded) (p q : Nat) : (copyIn s p q).Bounded := by
  unfold copyIn
  dsimp only
  split
  · exact copyRecords_bounded hs _ _ _
  · exact hs

@[simp] theorem execLaunchHead_bounded (part queue : Nat) {s : State} (hs : s.Bounded) :
    NextBounded (execLaunchHead part queue s) := by
  unfold execLaunchHead
  extract_lets s1 x
  have h1 : s1.Bounded := copyIn_bounded hs _ _
  clear_value s1
  split
  next index r rest _ _ =>
    extract_lets s2 reject t
    have h2 : s2.Bounded := h1
    have hr : ∀ c, (reject c).Bounded := fun c => completeRecord_bounded h2 _ _ _ _ _ _ _
    refine occurs_bounded hs _ ?_
    unfold t
    split
    · exact hr 7
    · split
      · exact hr _
      · refine checkLaunch_bounded ?_ _ _
        clear_value s2
        exact h2
  next => exact hs

@[simp] theorem execInterruptCoalesceExpiry_bounded (part queue : Nat) (s : State) (hs : s.Bounded) :
    NextBounded (execInterruptCoalesceExpiry part queue s) := occurs_bounded hs _ (by simp [hs])
theorem resumeAt_bounded {s u : State} (hs : s.Bounded) {core : Nat} {c : Cocoon} (hc : c.Bounded)
    (h : resumeAt s core c = some (.ok u)) : u.Bounded := restoreAt_bounded hs hc h

theorem resumable_bounded {s : State} (hs : s.Bounded) {core : Nat} {l : Launch} {c : Cocoon} (h : resumable s core l = some c) :
    c.Bounded := hs.cocoons c (List.mem_of_mem_filter (List.mem_of_find?_eq_some h))

theorem handOut_bounded {s u : State} (hs : s.Bounded) {core p q : Nat} (h : handOut s core p q = some u) : u.Bounded := by
  revert h
  unfold handOut
  dsimp only [State.draw]
  split
  · split
    · rintro ⟨⟩
    · rintro ⟨⟩
      refine startTask_bounded ?_ _ _ _
      exact hs
  · rintro ⟨⟩

theorem handAll_bounded {s u : State} (hs : s.Bounded) {p q : Nat} {cs : List Nat} (h : handAll s p q cs = some u) : u.Bounded := by
  induction cs generalizing s with
  | nil => cases h; exact hs
  | cons c cs ih =>
    rw [handAll] at h
    split at h
    next t ht => exact ih (handOut_bounded hs ht) h
    next => cases h

@[simp] theorem bounded_reclaimFor (s : State) (p : Nat) : (reclaimFor s p).Bounded ↔ s.Bounded := by
  unfold reclaimFor
  cases h : reclaimOne s p false with
  | none => simp
  | some t => simp [bounded_reclaimOne s _ _ t h]

@[simp] theorem execTaskStart_bounded (core : Nat) {s : State} (hs : s.Bounded) : NextBounded (execTaskStart core s) := by
  unfold execTaskStart
  dsimp only
  split
  · split
    next t ht => exact occurs_bounded hs _ (handAll_bounded hs ht)
    next => exact occurs_bounded hs _ ((bounded_reclaimFor _ _).2 hs)
  · exact hs

@[simp] theorem bounded_handedBack (s : State) (t : Task) : (handedBack s t).Bounded ↔ s.Bounded := .rfl
@[simp] theorem execTaskResume_bounded (core : Nat) {s : State} (hs : s.Bounded) : NextBounded (execTaskResume core s) := by
  unfold execTaskResume
  dsimp only
  split
  · split
    next c hc =>
      split
      next t ht =>
        refine occurs_bounded hs _ ((bounded_foldl (fun _ _ => bounded_handedBack _ _) _ _).2 ?_)
        exact resumeAt_bounded hs (resumable_bounded hs hc) ht
      next => exact occurs_bounded hs _ (loseContext_bounded hs _ _)
      next => exact hs
    next => exact hs
  · exact hs

@[simp] theorem execTaskCompletion_bounded (core slot : Nat) {s : State} (hs : s.Bounded) :
    NextBounded (execTaskCompletion core slot s) := by
  unfold execTaskCompletion
  split
  · exact occurs_bounded hs _ (taskEnded_bounded (releaseTask_bounded hs _ _ _) _ _)
  · exact hs

@[simp] theorem execPreemptWaitExpiry_bounded (part : Nat) {s : State} (hs : s.Bounded) :
    NextBounded (execPreemptWaitExpiry part s) := by
  have hd : s.draw.2.Bounded := hs
  unfold execPreemptWaitExpiry
  split
  · dsimp only
    split
    · exact occurs_bounded hs _ ((bounded_haltSlots _ _).2 hd)
    · exact hs
  · exact hs

@[simp] theorem execPreemption_bounded (core slot : Nat) {s : State} (hs : s.Bounded) :
    NextBounded (execPreemption core slot s) := by
  unfold execPreemption
  split
  · extract_lets es asked
    split
    · exact hs
    split
    · exact (bounded_haltSlots _ _).2 hs
    split
    · have h := saveSlots_bounded hs (mateSerial s) (fun _ => false) es
      split
      next u hu => rw [hu] at h; exact h
      next u e v hu => rw [hu] at h; exact loseContext_bounded h _ _
    · exact hs
  · exact hs

/-! ### HostLink -/

@[simp] theorem execQwp_bounded (fn queue : Nat) (v : BitVec 32) (s : State) (hs : s.Bounded) :
    NextBounded (execQwp fn queue v s) := occurs_bounded hs _ (by simp [hs])
@[simp] theorem execQcfg_bounded (fn queue : Nat) (v : BitVec 32) {s : State} (hs : s.Bounded) :
    NextBounded (execQcfg fn queue v s) := by
  unfold execQcfg
  extract_lets x new k on refused u t
  refine occurs_bounded hs _ ?_
  unfold t
  split
  · exact hs
  split
  · exact hs
  split
  · split
    · refine closeRecords_bounded ?_ _ _
      exact hs
    · exact hs
  · exact hs

@[simp] theorem execQbase_bounded (fn queue : Nat) (v : Word) (s : State) (hs : s.Bounded) :
    NextBounded (execQbase fn queue v s) := occurs_bounded hs _ (by simp [hs])
@[simp] theorem execQcpl_bounded (fn queue : Nat) (v : Word) (s : State) (hs : s.Bounded) : NextBounded (execQcpl fn queue v s) :=
  occurs_bounded hs _ (by simp [hs])
@[simp] theorem execQstat_bounded (fn queue : Nat) (v : BitVec 8) (s : State) (hs : s.Bounded) :
    NextBounded (execQstat fn queue v s) := occurs_bounded hs _ (by simp [hs])
theorem hostRead_bounded {s : State} (hs : s.Bounded) {part va n : Nat} {r : State × List Byte} (h : hostRead s part va n = .ok r) :
    r.1.Bounded := by
  revert h
  unfold hostRead
  split
  next t bs ht =>
    rintro ⟨⟩
    have hq := quietly_bounded hs ((bounded_partBytes s _ _ _ _ _ _ ht).2 hs)
    exact hq
  next => rintro ⟨⟩

@[simp] theorem hostPiece_bounded {s : State} (hs : s.Bounded) (part va : Nat) (bs : List Byte) :
    (hostPiece s part va bs).Bounded := by
  unfold hostPiece
  split
  · exact hs
  split
  · split
    · exact hs
    extract_lets put1
    have hput : ∀ t q cs, t.Bounded → (put1 t q cs).Bounded := by
      intro t q cs ht
      unfold put1
      cases hw : writePlace t thePart part t.hostClock q cs with
      | none => exact ht
      | some u => exact quietly_bounded ht ((bounded_writePlace _ _ _ _ _ _ u hw).2 ht)
    split
    · refine hs.foldl (fun t e ht => ?_) _
      dsimp only
      split
      · exact ht
      · exact hput _ _ _ ht
    · exact hput _ _ _ hs
  · exact hs

@[simp] theorem hostStore_bounded (part fuel va : Nat) (bs : List Byte) {s : State} (hs : s.Bounded) :
    (hostStore part fuel va bs s).Bounded := by
  induction fuel generalizing va bs s with
  | zero => exact hs
  | succ fuel ih =>
    unfold hostStore
    split
    · exact hs
    · exact ih _ _ (hostPiece_bounded hs _ _ _)

@[simp] theorem bounded_hostMap (s : State) (part page : Nat) (target : PageTarget) :
    (hostMap s part page target).Bounded ↔ s.Bounded := by
  unfold hostMap
  split <;> simp

@[simp] theorem execHostAccess_bounded (fn : Nat) (op : HostOp) {s : State} (hs : s.Bounded) :
    NextBounded (execHostAccess fn op s) := by
  unfold execHostAccess
  split
  · exact hs
  cases op with
  | register o => dsimp only; split <;> exact hs
  | load va size =>
    dsimp only
    split
    · exact hs
    split
    next t bs ht =>
      have hb := hostRead_bounded hs ht
      exact hb
    next => exact hs
  | store va bytes => simp [hs]
  | mapPage page target => simp [hs]
  | unmapPage page => simp [hs]

@[simp] theorem execFlitCrcError_bounded (s : State) (hs : s.Bounded) : NextBounded (execFlitCrcError s) := by
  simp [execFlitCrcError, hs]
@[simp] theorem execFabricMemoryRequest_bounded (device : Nat) (_r : FabricRequest) (s : State) (hs : s.Bounded) :
    NextBounded (execFabricMemoryRequest device _r s) := by simp [execFabricMemoryRequest, hs]
@[simp] theorem execFabricLaunchPacket_bounded (k : LaunchPacket) {s : State} (hs : s.Bounded) :
    NextBounded (execFabricLaunchPacket k s) := by
  unfold execFabricLaunchPacket
  extract_lets x t refuse
  have hr : ∀ n, (refuse n).Bounded := by
    intro n
    dsimp only [refuse, t]
    split <;> exact hs
  split
  · split
    next t ht =>
      have hb := partWrite_bounded hs ht
      have hu := copyIn_bounded (s := t.setQueue k.partition k.queue { x with qwp := x.qwp + 1 }) hb k.partition k.queue
      exact hu
    next => exact hr 3
  · exact hr _

@[simp] theorem execResidencyReport_bounded (s : State) (hs : s.Bounded) : NextBounded (execResidencyReport s) :=
  occurs_bounded hs _ (by simp [hs])
@[simp] theorem execFirmwareImageLoad_bounded (i : Image) (s : State) (hs : s.Bounded) :
    NextBounded (execFirmwareImageLoad i s) := by
  unfold execFirmwareImageLoad
  dsimp only
  repeat' split
  all_goals simp [hs]

@[simp] theorem bounded_loadKeys (s : State) (l : List (Nat × Nat)) : (loadKeys s l).Bounded ↔ s.Bounded := by
  fun_induction loadKeys <;> simp_all

@[simp] theorem execKeyManifestLoad_bounded (k : KeyManifest) (s : State) (hs : s.Bounded) :
    NextBounded (execKeyManifestLoad k s) := occurs_bounded hs _ (by simp [hs])
@[simp] theorem execAtgo_bounded (v : BitVec 1) (s : State) (hs : s.Bounded) : NextBounded (execAtgo v s) :=
  occurs_bounded hs _ (by simp [hs])
@[simp] theorem bounded_loadFabric (s : State) (l : List FabricSet) : (loadFabric s l).Bounded ↔ s.Bounded := by
  fun_induction loadFabric <;> simp_all

@[simp] theorem bounded_loadLimits (s : State) (l : List (Nat × Nat)) : (loadLimits s l).Bounded ↔ s.Bounded := by
  fun_induction loadLimits <;> simp_all

@[simp] theorem bounded_zeroAll (s : State) : (zeroAll s).Bounded ↔ s.Bounded := .rfl
@[simp] theorem phaseStep_bounded {s : State} (hs : s.Bounded) (b : BringUp) (n : Nat) : (phaseStep s b n).Bounded := by
  unfold phaseStep
  split
  · exact ⟨hs.parties, hs.ctxs, hs.cocoons⟩
  · simp [hs]
  · exact ⟨hs.parties, hs.ctxs, hs.cocoons⟩
  · simp [hs]
  · refine hs.foldl (fun t i ht => ?_) _
    split
    · split
      · exact startSupervisor_bounded ht _ _
      · exact ht
    · exact ht
  · exact ⟨hs.parties, hs.ctxs, hs.cocoons⟩
  · exact hs

@[simp] theorem bringUp_bounded {s : State} (hs : s.Bounded) : (bringUp s).Bounded := by
  have hn : ∀ b, (bringUp.nextPhase s b).Bounded := by
    intro b
    have h := phaseStep_bounded hs b (phaseOf s)
    exact ⟨h.parties, h.ctxs, h.cocoons⟩
  unfold bringUp
  split
  · exact hs
  split
  · split
    · exact ⟨hs.parties, hs.ctxs, hs.cocoons⟩
    · exact hn _
  · exact hn _

@[simp] theorem execPowerGood_bounded (b : BringUp) (s : State) : NextBounded (execPowerGood b s) := State.reset_bounded

/-! ### Vector -/

/-- The bound of the vector registers, as an instruction's reads leave them (R36). -/
def VFiles.Bounded (x : VFiles) : Prop := ∀ n, (look [] x.v n).length ≤ 4

theorem filesOf_bounded {s : State} (hs : s.Bounded) : (filesOf s).Bounded := hs.me.1
/-- A read takes an entry from a register at most (R115). -/
theorem readSource_bounded {x y : VFiles} (hx : x.Bounded) {src : VSource} {g : VGot} (h : readSource x src = some (y, g)) :
    y.Bounded := by
  revert h
  unfold readSource
  split
  next n _ =>
    split
    next e es he =>
      rintro ⟨⟩
      split
      · exact hx
      · intro k
        have hn := hx n
        rw [he, List.length_cons] at hn
        rw [look_put]
        split
        · omega
        · exact hx k
    next => rintro ⟨⟩
  · split
    · rintro ⟨⟩
      split <;> exact hx
    · rintro ⟨⟩
      exact hx
  · split
    · split
      · rintro ⟨⟩
        split <;> exact hx
      · rintro ⟨⟩
    · rintro ⟨⟩
  · rintro ⟨⟩
    exact hx

theorem readSources_bounded {x y : VFiles} (hx : x.Bounded) {srcs : List VSource} {gs : List VGot}
    (h : readSources x srcs = .ok (y, gs)) : y.Bounded := by
  induction srcs generalizing x gs with
  | nil => cases h; exact hx
  | cons src srcs ih =>
    rw [readSources] at h
    split at h
    next => cases h
    next z g hz =>
      split at h
      next w hs hw =>
        cases h
        exact ih (readSource_bounded hx hz) hw
      next => cases h

@[simp] theorem bounded_fetchAll (s : State) (gs : List VGot) : SomeFstBounded s (fetchAll s gs) := by
  induction gs generalizing s with
  | nil => simp [fetchAll]
  | cons g gs ih =>
    intro r hr
    cases g with
    | vec x =>
      rw [fetchAll] at hr
      split at hr
      · cases hr
      · obtain ⟨q, hq, rfl⟩ := Option.map_eq_some_iff.1 hr
        exact ih s q hq
    | scratch o =>
      rw [fetchAll] at hr
      split at hr
      next t bs ht =>
        obtain ⟨q, hq, rfl⟩ := Option.map_eq_some_iff.1 hr
        exact (ih t q hq).trans (bounded_readScratch s _ _ _ _ _ ht)
      next => cases hr
    | stall => exact ih s r hr

@[simp] theorem bounded_bindColumn (s : State) : (bindColumn s).Bounded ↔ s.Bounded := by simp [bindColumn]
@[simp] theorem bounded_writeSome (s : State) (size : Nat) (ps : List (Nat × Byte)) : SomeBounded s (writeSome s size ps) := by
  simp [writeSome]
/-- A result goes to a register that holds fewer than four vectors, if it goes to one (R116, R117). -/
theorem writeDest_bounded {s u : State} (hs : s.Bounded) {d : B5} {whole : Bool} {o : VOut}
    (hd : ∀ n, voperand d = .v n → (look [] s.me.v n).length < 4) (h : writeDest s d whole o = some u) : u.Bounded := by
  revert h
  unfold writeDest
  dsimp only
  split
  next n hn =>
    rintro ⟨⟩
    refine hs.setMe ⟨fun k => ?_, hs.me.2⟩
    have hk := hs.me.1 k
    have hlt := hd n hn
    rw [look_put]
    split
    · rw [List.length_append, List.length_singleton]
      omega
    · exact hk
  · rintro ⟨⟩
    simp [hs]
  · split
    · intro h
      obtain ⟨t, ht, rfl⟩ := Option.map_eq_some_iff.1 h
      simp [(bounded_writeSome s _ _ t ht).2 hs]
    · rintro ⟨⟩
  · rintro ⟨⟩
    exact hs

theorem takeFiles_bounded {s : State} (hs : s.Bounded) {x : VFiles} (hx : x.Bounded) (vq : Bool) : (takeFiles s x vq).Bounded := by
  have h : (s.modMe fun p => { p with v := x.v, ports := x.ports }).Bounded := hs.setMe ⟨hx, hs.me.2⟩
  unfold takeFiles
  dsimp only
  split
  · simp only [bounded_bindColumn, State.bounded_modCore, h]
  · exact h

theorem me_v_takeFiles (s : State) (x : VFiles) (vq : Bool) : (takeFiles s x vq).me.v = x.v := by
  have h : (s.modMe fun p => { p with v := x.v, ports := x.ports }).me.v = x.v := by rw [State.me_modMe]
  unfold takeFiles
  split <;> exact h

@[simp] theorem vop_bounded {s : State} (hs : s.Bounded) (srcs : List VSource) (d : B5) (ok aligned : Bool) (f : List Vec → VOut) :
    (vop s srcs d ok aligned f).Bounded := by
  unfold vop
  refine Act.Bounded.ite trivial fun _ => Act.Bounded.ite trivial fun _ => ?_
  split
  · trivial
  next x gs hx =>
    have hfx := readSources_bounded (filesOf_bounded hs) hx
    split
    · trivial
    next hover =>
      split
      · exact hs
      split
      · exact hs
      split
      · exact hs
      next t vs ht =>
        have htb := (bounded_fetchAll s gs _ ht).2 hs
        dsimp only
        split
        · exact hs
        next u hu =>
          have hub : u.Bounded := by
            refine writeDest_bounded (takeFiles_bounded htb hfx _) (fun n hn => ?_) hu
            rw [me_v_takeFiles]
            simpa [overflows, hn] using hover
          split <;> simp [hub]

@[simp] theorem varith_bounded (s : State) (d a b : B5) (c : B2) (p q : BitVec 1) (fo : Nat → FV → FV → FV) (io : ℤ → ℤ → ℤ)
    (hs : s.Bounded) :
    (varith s d a b c p q fo io).Bounded := by simp [varith, hs]
@[simp] theorem execVadd_bounded (w g : B2) (d a b : B5) (c : B2) (p q : BitVec 1) (s : State) (hs : s.Bounded) :
    NextBounded (execVadd w g d a b c p q s) := tokened_bounded hs _ _ _ fun hs => by simp [hs]
@[simp] theorem execVsub_bounded (w g : B2) (d a b : B5) (c : B2) (p q : BitVec 1) (s : State) (hs : s.Bounded) :
    NextBounded (execVsub w g d a b c p q s) := tokened_bounded hs _ _ _ fun hs => by simp [hs]
@[simp] theorem execVmul_bounded (w g : B2) (d a b : B5) (c : B2) (p q : BitVec 1) (s : State) (hs : s.Bounded) :
    NextBounded (execVmul w g d a b c p q s) := tokened_bounded hs _ _ _ fun hs => by simp [hs]
@[simp] theorem execVmin_bounded (w g : B2) (d a b : B5) (c : B2) (p q : BitVec 1) (s : State) (hs : s.Bounded) :
    NextBounded (execVmin w g d a b c p q s) := tokened_bounded hs _ _ _ fun hs => by simp [hs]
@[simp] theorem execVmax_bounded (w g : B2) (d a b : B5) (c : B2) (p q : BitVec 1) (s : State) (hs : s.Bounded) :
    NextBounded (execVmax w g d a b c p q s) := tokened_bounded hs _ _ _ fun hs => by simp [hs]
@[simp] theorem execVfma_bounded (w g : B2) (d a b : B5) (c : B2) (p q : BitVec 1) (s : State) (hs : s.Bounded) :
    NextBounded (execVfma w g d a b c p q s) := tokened_bounded hs _ _ _ fun hs => by simp [hs]
@[simp] theorem vunary_bounded (s : State) (d a : B5) (p : BitVec 1) (ok : Bool) (ta td n so dof : Nat) (f : Nat → Nat)
    (hs : s.Bounded) :
    (vunary s d a p ok ta td n so dof f).Bounded := by simp [vunary, hs]
@[simp] theorem execVabs_bounded (w g : B2) (d a : B5) (c : B2) (p : BitVec 1) (s : State) (hs : s.Bounded) :
    NextBounded (execVabs w g d a c p s) := tokened_bounded hs _ _ _ fun hs => by simp [hs]
@[simp] theorem execVcmp_bounded (w g : B2) (d a b : B5) (c : B2) (p q : BitVec 1) (u : B2) (s : State) (hs : s.Bounded) :
    NextBounded (execVcmp w g d a b c p q u s) := tokened_bounded hs _ _ _ fun hs => by simp [hs]
@[simp] theorem execVsel_bounded (w g : B2) (d a b : B5) (c : B2) (p q : BitVec 1) (s : State) (hs : s.Bounded) :
    NextBounded (execVsel w g d a b c p q s) := tokened_bounded hs _ _ _ fun hs => by simp [hs]
@[simp] theorem vbits_bounded (s : State) (d a b : B5) (p q : BitVec 1) (f : Nat → Nat → Nat) (hs : s.Bounded) :
    (vbits s d a b p q f).Bounded := by simp [vbits, hs]
@[simp] theorem execVand_bounded (w g : B2) (d a b : B5) (_c : B2) (p q : BitVec 1) (s : State) (hs : s.Bounded) :
    NextBounded (execVand w g d a b _c p q s) := tokened_bounded hs _ _ _ fun hs => by simp [hs]
@[simp] theorem execVor_bounded (w g : B2) (d a b : B5) (_c : B2) (p q : BitVec 1) (s : State) (hs : s.Bounded) :
    NextBounded (execVor w g d a b _c p q s) := tokened_bounded hs _ _ _ fun hs => by simp [hs]
@[simp] theorem execVxor_bounded (w g : B2) (d a b : B5) (_c : B2) (p q : BitVec 1) (s : State) (hs : s.Bounded) :
    NextBounded (execVxor w g d a b _c p q s) := tokened_bounded hs _ _ _ fun hs => by simp [hs]
@[simp] theorem vshift_bounded (s : State) (d a b : B5) (c : B2) (p q : BitVec 1) (f : Nat → Bool → Nat → Nat → Nat)
    (hs : s.Bounded) :
    (vshift s d a b c p q f).Bounded := by simp [vshift, hs]
@[simp] theorem execVshl_bounded (w g : B2) (d a b : B5) (c : B2) (p q : BitVec 1) (s : State) (hs : s.Bounded) :
    NextBounded (execVshl w g d a b c p q s) := tokened_bounded hs _ _ _ fun hs => by simp [hs]
@[simp] theorem execVshr_bounded (w g : B2) (d a b : B5) (c : B2) (p q : BitVec 1) (s : State) (hs : s.Bounded) :
    NextBounded (execVshr w g d a b c p q s) := tokened_bounded hs _ _ _ fun hs => by simp [hs]
@[simp] theorem execVcvt_bounded (w g : B2) (d a : B5) (c : B2) (p : BitVec 1) (k : B2) (s : State) (hs : s.Bounded) :
    NextBounded (execVcvt w g d a c p k s) := tokened_bounded hs _ _ _ fun hs => by simp [hs]
@[simp] theorem vscale_bounded (s : State) (d a b : B5) (p q : BitVec 1) (ta td : Nat) (ok : Bool) (sl : Option (Nat × Nat))
    (f : Nat → Nat → Nat) (hs : s.Bounded) :
    (vscale s d a b p q ta td ok sl f).Bounded := by simp [vscale, hs]
@[simp] theorem execVqnt_bounded (w g : B2) (d a b : B5) (c : B2) (p q : BitVec 1) (k : B2) (s : State) (hs : s.Bounded) :
    NextBounded (execVqnt w g d a b c p q k s) := tokened_bounded hs _ _ _ fun hs => by simp [hs]
@[simp] theorem execVdq_bounded (w g : B2) (d a b : B5) (c : B2) (p q : BitVec 1) (k : B2) (s : State) (hs : s.Bounded) :
    NextBounded (execVdq w g d a b c p q k s) := tokened_bounded hs _ _ _ fun hs => by simp [hs]
@[simp] theorem execVbpk_bounded (w g : B2) (d a b : B5) (_c : B2) (p : BitVec 1) (s : State) (hs : s.Bounded) :
    NextBounded (execVbpk w g d a b _c p s) := tokened_bounded hs _ _ _ fun hs => by simp [hs]
@[simp] theorem execVbun_bounded (w g : B2) (d a b : B5) (_c : B2) (p : BitVec 1) (s : State) (hs : s.Bounded) :
    NextBounded (execVbun w g d a b _c p s) := tokened_bounded hs _ _ _ fun hs => by simp [hs]
@[simp] theorem execVrcp_bounded (w g : B2) (d a : B5) (c : B2) (p : BitVec 1) (s : State) (hs : s.Bounded) :
    NextBounded (execVrcp w g d a c p s) := tokened_bounded hs _ _ _ fun hs => by simp [hs]
@[simp] theorem vfunction_bounded (s : State) (d a : B5) (c : B2) (p : BitVec 1) (f : Fmt → Nat → Bool → FV → Nat)
    (hs : s.Bounded) :
    (vfunction s d a c p f).Bounded := by simp [vfunction, hs]
@[simp] theorem execVrsq_bounded (w g : B2) (d a : B5) (c : B2) (p : BitVec 1) (s : State) (hs : s.Bounded) :
    NextBounded (execVrsq w g d a c p s) := tokened_bounded hs _ _ _ fun hs => by simp [hs]
@[simp] theorem execVexp2_bounded (w g : B2) (d a : B5) (c : B2) (p : BitVec 1) (s : State) (hs : s.Bounded) :
    NextBounded (execVexp2 w g d a c p s) := tokened_bounded hs _ _ _ fun hs => by simp [hs]
@[simp] theorem execVlog2_bounded (w g : B2) (d a : B5) (c : B2) (p : BitVec 1) (s : State) (hs : s.Bounded) :
    NextBounded (execVlog2 w g d a c p s) := tokened_bounded hs _ _ _ fun hs => by simp [hs]
@[simp] theorem execVred_bounded (w g : B2) (d a : B5) (c : B2) (p : BitVec 1) (n : B2) (s : State) (hs : s.Bounded) :
    NextBounded (execVred w g d a c p n s) := tokened_bounded hs _ _ _ fun hs => by simp [hs]
@[simp] theorem execVscan_bounded (w g : B2) (d a : B5) (c : B2) (p : BitVec 1) (n : B2) (s : State) (hs : s.Bounded) :
    NextBounded (execVscan w g d a c p n s) := tokened_bounded hs _ _ _ fun hs => by simp [hs]
@[simp] theorem execVperm_bounded (w g : B2) (d a b : B5) (c : B2) (p q : BitVec 1) (s : State) (hs : s.Bounded) :
    NextBounded (execVperm w g d a b c p q s) := tokened_bounded hs _ _ _ fun hs => by simp [hs]
@[simp] theorem execVbcsElement_bounded (w g : B2) (d a b : B5) (c : B2) (p : BitVec 1) (s : State) (hs : s.Bounded) :
    NextBounded (execVbcsElement w g d a b c p s) := tokened_bounded hs _ _ _ fun hs => by simp [hs]
@[simp] theorem execVbcsScalar_bounded (w g : B2) (d b : B5) (c : B2) (s : State) (hs : s.Bounded) :
    NextBounded (execVbcsScalar w g d b c s) := tokened_bounded hs _ _ _ fun hs => by simp [hs]
@[simp] theorem execVimm_bounded (w g : B2) (d : B5) (i : BitVec 16) (s : State) (hs : s.Bounded) :
    NextBounded (execVimm w g d i s) := tokened_bounded hs _ _ _ fun hs => by simp [hs]
@[simp] theorem execVaddi_bounded (w g : B2) (d : B5) (i : BitVec 16) (s : State) (hs : s.Bounded) :
    NextBounded (execVaddi w g d i s) := tokened_bounded hs _ _ _ fun hs => by simp [hs]
@[simp] theorem execVmov_bounded (w g : B2) (d a : B5) (_c : B2) (p : BitVec 1) (s : State) (hs : s.Bounded) :
    NextBounded (execVmov w g d a _c p s) := tokened_bounded hs _ _ _ fun hs => by simp [hs]
@[simp] theorem execVmovA_bounded (w g : B2) (d a : B5) (_c : B2) (p : BitVec 1) (s : State) (hs : s.Bounded) :
    NextBounded (execVmovA w g d a _c p s) := tokened_bounded hs _ _ _ fun hs => by simp [hs]
@[simp] theorem bounded_setStream (s : State) (n : Nat) (g : List (List (BitVec 32))) : (setStream s n g).Bounded ↔ s.Bounded :=
  .rfl
@[simp] theorem execVspsh_bounded (w g : B2) (n a : B5) (p : BitVec 1) {s : State} (hs : s.Bounded) :
    NextBounded (execVspsh w g n a p s) := by
  refine tokened_bounded hs _ _ _ fun hs => ?_
  split
  · trivial
  split
  · trivial
  next x gs hx =>
    have hfx := readSources_bounded (filesOf_bounded hs) hx
    dsimp only
    refine Act.Bounded.ite ?_ ?_
    · trivial
    intro _
    refine Act.Bounded.ite ?_ ?_
    · exact hs
    intro _
    split
    next => exact hs
    next t vs ht =>
      have hb := takeFiles_bounded ((bounded_fetchAll s gs _ ht).2 hs) hfx (isVq a)
      rw [Act.bounded_done, bounded_setStream]
      exact hb

@[simp] theorem execVspop_bounded (w g : B2) (d n : B5) {s : State} (hs : s.Bounded) : NextBounded (execVspop w g d n s) := by
  refine tokened_bounded hs _ _ _ fun hs => ?_
  dsimp only
  generalize hact : vop s _ _ _ _ _ = act
  have h : act.Bounded := hact ▸ vop_bounded hs _ _ _ _ _
  split
  · have ht : State.Bounded _ := h
    split <;> simp [ht]
  · exact h

@[simp] theorem execVsbal_bounded (w g : B2) (n : B5) (s : State) (hs : s.Bounded) : NextBounded (execVsbal w g n s) :=
  tokened_bounded hs _ _ _ fun hs => by simp [hs]
@[simp] theorem execGcfg_bounded (w g : B2) (d a : B5) {s : State} (hs : s.Bounded) : NextBounded (execGcfg w g d a s) := by
  refine tokened_bounded hs _ _ _ fun hs => ?_
  dsimp only
  split
  · trivial
  split
  · trivial
  split
  · trivial
  · refine withScratch_bounded hs _ _ fun t r ht => ?_
    split
    · trivial
    · simp [ht]

@[simp] theorem execGrst_bounded (w g : B2) (d : B5) {s : State} (hs : s.Bounded) : NextBounded (execGrst w g d s) := by
  refine tokened_bounded hs _ _ _ fun hs => ?_
  split
  · trivial
  · split
    · trivial
    · simp [hs]

@[simp] theorem execVnoise_bounded (w g : B2) (d a b : B5) (c : B2) (p : BitVec 1) (n : B2) (s : State) (hs : s.Bounded) :
    NextBounded (execVnoise w g d a b c p n s) := tokened_bounded hs _ _ _ fun hs => by simp [hs]
@[simp] theorem execVqEntryArrival_bounded (core : Nat) (s : State) (hs : s.Bounded) : NextBounded (execVqEntryArrival core s) := by
  unfold execVqEntryArrival
  split <;> simp [hs]

/-! ### Matrix -/

@[simp] theorem bounded_readTile (s : State) (core t : Nat) : SomeFstBounded s (readTile s core t) := by
  unfold readTile
  split
  next u hu => simp [bounded_checkWords s _ _ u hu]
  next => simp

@[simp] theorem bounded_writeTile (s : State) (core t : Nat) (bs : List Byte) : (writeTile s core t bs).Bounded ↔ s.Bounded := .rfl
@[simp] theorem bounded_collect (s : State) (core : Nat) : (collect s core).Bounded ↔ s.Bounded := by simp [collect]
@[simp] theorem bounded_startOp (s : State) (o : MatOp) : (startOp s o).Bounded ↔ s.Bounded := by simp [startOp]
@[simp] theorem tokenLater_bounded {s : State} (hs : s.Bounded) (w g : B2) {body : State → Act}
    (hb : s.Bounded → (body s).Bounded) :
    NextBounded (tokenLater s w g body) := by
  unfold tokenLater
  split
  · exact conclude_bounded hs w g trivial
  split
  · exact conclude_bounded hs w g trivial
  split
  · exact conclude_bounded hs w g hs
  · exact conclude_bounded hs w 0 (hb hs)

@[simp] theorem execMnest_bounded (w g : B2) (a b : B5) (s : State) (hs : s.Bounded) : NextBounded (execMnest w g a b s) :=
  tokened_bounded hs _ _ _ fun hs => by simp [hs]
@[simp] theorem mrun_bounded {s : State} (hs : s.Bounded) (a : B5) (c t g : B2) : (mrun s a c t g).Bounded := by
  unfold mrun
  refine Act.Bounded.ite trivial fun _ => Act.Bounded.ite hs fun _ => ?_
  dsimp only
  refine Act.Bounded.ite hs fun _ => Act.Bounded.ite trivial fun _ => ?_
  exact (bounded_startOp _ _).2 hs

@[simp] theorem execMrun_bounded (w g : B2) (a : B5) (c t : B2) {s : State} (hs : s.Bounded) : NextBounded (execMrun w g a c t s) :=
  tokenLater_bounded hs _ _ fun hs => mrun_bounded hs _ _ _ _

@[simp] theorem execMzero_bounded (w g : B2) (a : B5) (s : State) (hs : s.Bounded) : NextBounded (execMzero w g a s) :=
  tokened_bounded hs _ _ _ fun hs => by simp [hs]
@[simp] theorem execMldc_bounded (w g : B2) (a : B5) (c : B2) {s : State} (hs : s.Bounded) : NextBounded (execMldc w g a c s) := by
  refine tokenLater_bounded hs _ _ fun hs => ?_
  dsimp only
  refine Act.Bounded.ite trivial fun _ => Act.Bounded.ite hs fun _ => ?_
  exact (bounded_startOp _ _).2 hs

@[simp] theorem execMdrain_bounded (w g : B2) (a b : B5) (c : B2) {s : State} (hs : s.Bounded) :
    NextBounded (execMdrain w g a b c s) := by
  refine tokenLater_bounded hs _ _ fun hs => ?_
  dsimp only
  refine Act.Bounded.ite trivial fun _ => Act.Bounded.ite trivial fun _ => Act.Bounded.ite trivial fun _ =>
    Act.Bounded.ite hs fun _ => ?_
  exact (bounded_startOp _ _).2 hs

@[simp] theorem signature_bounded {s : State} (hs : s.Bounded) (a : B5) {k : State → Word → Act}
    (hk : ∀ t x, t.Bounded → (k t x).Bounded) : (signature s a k).Bounded := by
  unfold signature
  dsimp only
  refine Act.Bounded.ite trivial fun _ => Act.Bounded.ite hs fun _ => ?_
  split
  next t bs ht => exact hk _ _ ((bounded_readTile s _ _ _ ht).2 hs)
  next => exact hs

@[simp] theorem execMsig_bounded (w g : B2) (d a : B5) {s : State} (hs : s.Bounded) : NextBounded (execMsig w g d a s) :=
  tokened_bounded hs _ _ _ fun hs => signature_bounded hs _ fun t x ht => by simp [ht]

@[simp] theorem execMkat_bounded (w g : B2) (a : B5) {s : State} (hs : s.Bounded) : NextBounded (execMkat w g a s) := by
  refine tokened_bounded hs _ _ _ fun hs => ?_
  refine Act.Bounded.ite trivial fun _ => signature_bounded hs _ fun t x ht => ?_
  split
  next => exact ht
  next u hu =>
    have hub := (bounded_checkWords t _ _ u hu).2 ht
    dsimp only
    split <;> simp [hub]

@[simp] theorem execMwt_bounded (w g : B2) (s : State) (hs : s.Bounded) : NextBounded (execMwt w g s) :=
  tokened_bounded hs _ _ _ fun hs => by simp [hs]
@[simp] theorem bounded_opEnded (s : State) (core : Nat) (o : MatOp) (rest : List MatOp) :
    (opEnded s core o rest).Bounded ↔ s.Bounded := by simp [opEnded]
@[simp] theorem bounded_readTiles (core : Nat) (ts : List Nat) (s : State) : SomeFstBounded s (readTiles core ts s) := by
  induction ts generalizing s with
  | nil => simp [readTiles]
  | cons t ts ih =>
    unfold readTiles
    split
    next u bs hu =>
      intro r hr
      obtain ⟨q, hq, rfl⟩ := Option.map_eq_some_iff.1 hr
      exact (ih u q hq).trans (bounded_readTile s _ _ _ hu)
    next => simp

@[simp] theorem execRunComplete_bounded (core : Nat) {s : State} (hs : s.Bounded) : NextBounded (execRunComplete core s) := by
  unfold execRunComplete
  split
  next o rest _ =>
    refine occurs_bounded hs _ ?_
    split
    · simp [hs]
    split
    next t m ht =>
      dsimp only
      rw [bounded_opEnded, bounded_foldl fun _ _ => bounded_writeTile _ _ _ _]
      exact (bounded_readTiles _ _ s _ ht).2 hs
    next => simp [hs]
  next => exact hs

@[simp] theorem execMldcComplete_bounded (core : Nat) (s : State) (hs : s.Bounded) : NextBounded (execMldcComplete core s) := by
  unfold execMldcComplete
  split <;> simp [hs]

@[simp] theorem execDrainComplete_bounded (core : Nat) {s : State} (hs : s.Bounded) : NextBounded (execDrainComplete core s) := by
  unfold execDrainComplete
  split
  next o rest _ =>
    refine occurs_bounded hs _ ?_
    split
    next => simp [hs]
    next t bs ht =>
      split
      next => simp [hs]
      next u hu =>
        have hub := (bounded_writeScratch (t.setCur _) _ _ _ _ u hu).2 ((bounded_readTile s _ _ _ ht).2 hs)
        rw [bounded_opEnded]
        split <;> simp [hub]
  next => exact hs

/-! ### Tensors -/

@[simp] theorem missAct_bounded {s : State} (hs : s.Bounded) (e : Miss) : (missAct s e).Bounded := by
  cases e <;> simp [missAct, hs]

@[simp] theorem endMiss_bounded {s : State} (hs : s.Bounded) (part : Bool) (e : Miss) : (endMiss s part e).Bounded := by
  unfold endMiss
  split
  · split
    · exact hs
    · simp [hs]
  · exact missAct_bounded hs _

@[simp] theorem readTensor_bounded {s : State} (hs : s.Bounded) (slot : Nat) : GotBounded (readTensor s slot) := by
  unfold readTensor
  split
  next => simp
  next t _ =>
    split
    · simp
    · split
      next r hr => simpa using partRead_bounded hs hr
      · simp
      · simp

@[simp] theorem nameTensor_bounded {s : State} (hs : s.Bounded) (slot : Nat) (weak : Bool) :
    GotBounded (nameTensor s slot weak) := by
  unfold nameTensor
  split
  next => simp
  next s1 bs h1 =>
    have hb1 := readTensor_bounded hs slot _ h1
    dsimp only
    split
    · simp
    split
    · simpa using hb1
    split
    next => simp
    next s2 cs h2 =>
      have hb2 := readTensor_bounded hb1 _ _ h2
      split <;> simp [hb2]

@[simp] theorem tileEntry_bounded {s : State} (hs : s.Bounded) (t : Tensor) (tile : Nat) : GotBounded (tileEntry s t tile) := by
  unfold tileEntry
  split
  next u bs hu => simpa using partRead_bounded hs hu
  · simp
  · simp

@[simp] theorem tilePlace_bounded {s : State} (hs : s.Bounded) (t : Tensor) (tile o : Nat) : GotBounded (tilePlace s t tile o) := by
  unfold tilePlace
  split
  next => simp
  next u e he =>
    have hu := tileEntry_bounded hs t tile _ he
    dsimp only
    split
    · simp
    split
    · split <;> simp [hu]
    · split <;> simp [hu]
    · simp [hu]
    · split <;> simp [hu]
    · simp

@[simp] theorem readTileBytes_bounded {s : State} (hs : s.Bounded) (t : Tensor) (tile o n : Nat) :
    GotBounded (readTileBytes s t tile o n) := by
  unfold readTileBytes
  split
  next => simp
  next u p hu =>
    have hb := tilePlace_bounded hs t tile o _ hu
    split
    · simp
    split
    next v bs hv =>
      have hr := bounded_readPlace u u.cur u.myPart false p n
      rw [hv] at hr
      simpa using hr.2 hb
    next => simp

@[simp] theorem readElement_bounded {s : State} (hs : s.Bounded) (t : Tensor) (c : List Int) : GotBounded (readElement s t c) := by
  unfold readElement
  dsimp only
  split
  next => simp [hs]
  next => exact readTileBytes_bounded hs _ _ _ _

@[simp] theorem readGroup_bounded {s : State} (hs : s.Bounded) (t : Tensor) (c : List Int) (planes : Nat) :
    GotBounded (readGroup s t c planes) := by
  unfold readGroup
  split
  next => exact gotBounded_ok.2 hs
  next =>
    split
    next => simp
    next u bs hu =>
      have hb := readTileBytes_bounded hs _ _ _ _ _ hu
      exact gotBounded_ok.2 hb

@[simp] theorem unitCells_bounded {s : State} (hs : s.Bounded) (t : Tensor) (c : List Int) (bs : List Byte) :
    GotBounded (unitCells s t c bs) := by
  unfold unitCells
  split
  next => simp [hs]
  next =>
    split
    next => simp
    next u p hu =>
      have hb := tilePlace_bounded hs _ _ _ _ hu
      split
      · simp
      dsimp only
      split <;> simp [hb]

@[simp] theorem bounded_mergeLines (s : State) (key : Nat) (clock : Sparse Nat) (kept : List Nat) (runs : List (Nat × List Byte)) :
    (mergeLines s key clock kept runs).1.Bounded ↔ s.Bounded := by
  induction runs generalizing s with
  | nil => rfl
  | cons r rest ih =>
    unfold mergeLines
    dsimp only
    split
    next t ht =>
      rw [ih, bounded_mergeBytes _ _ _ _ _ _ _ t ht]
      simp
    next =>
      rw [ih]
      simp

@[simp] theorem bounded_writeLines (s : State) (key : Nat) (kept : List Nat) (runs : List (Nat × List Byte)) :
    (writeLines s key kept runs).1.Bounded ↔ s.Bounded := by
  unfold writeLines
  split
  · rfl
  · simp

@[simp] theorem gather_bounded (t : Tensor) (us : List (List Int × List Byte)) {s : State} (hs : s.Bounded) (m : Sparse Byte) :
    GotBounded (gather t us s m) := by
  induction us generalizing s m with
  | nil => simp [gather, hs]
  | cons x rest ih =>
    unfold gather
    split
    next => simp
    next u cells hu => exact ih (unitCells_bounded hs _ _ _ _ hu) _

@[simp] theorem writeUnits_bounded {s : State} (hs : s.Bounded) (t : Tensor) (us : List (List Int × List Byte)) :
    GotBounded (writeUnits s t us) := by
  unfold writeUnits
  split
  next => simp
  next u m hu => simpa using gather_bounded t us hs _ _ hu

@[simp] theorem readRow_bounded (t : Tensor) (n i : Nat) {s : State} (hs : s.Bounded) : GotBounded (readRow t n i s) := by
  induction n generalizing i s with
  | zero => simp [readRow, hs]
  | succ n ih =>
    unfold readRow
    split
    next => simp
    next u bs hu =>
      split
      next v cs hv => simpa using ih (i + 1) (readElement_bounded hs _ _ _ hu) _ hv
      next => simp

theorem afterPrivilege_bounded (foreign : Bool) {rest : Act} (h : rest.Bounded) : (afterPrivilege foreign rest).Bounded := by
  unfold afterPrivilege
  split
  · trivial
  · exact h

@[simp] theorem imageTensor_bounded {s : State} (hs : s.Bounded) (b : B6) : GotBounded (imageTensor s b) := by
  unfold imageTensor
  dsimp only
  split
  · simp
  split
  next => simp
  next u bs hu =>
    have hb := nameTensor_bounded hs _ _ _ hu
    split <;> simp [hb]

@[simp] theorem execSxsav_bounded (w g : B2) (d a b : B6) {s : State} (hs : s.Bounded) : NextBounded (execSxsav w g d a b s) := by
  refine tokened_bounded hs _ _ _ fun hs => afterPrivilege_bounded _ ?_
  split
  next => trivial
  next => exact missAct_bounded hs _
  next id u t _ hu =>
    have hb := imageTensor_bounded hs b _ hu
    dsimp only
    split
    · trivial
    split
    · exact missAct_bounded hs _
    split
    · exact hs
    split
    · exact hs
    split
    next => exact missAct_bounded hs _
    next v hv =>
      have hw := writeUnits_bounded hb _ _ _ hv
      exact hw
    next v hv =>
      have hw := writeUnits_bounded hb _ _ _ hv
      exact (State.bounded_setReg _ _ _ _).2 hw

@[simp] theorem execSxld_bounded (w g : B2) (d a b : B6) {s : State} (hs : s.Bounded) : NextBounded (execSxld w g d a b s) := by
  refine tokened_bounded hs _ _ _ fun hs => ?_
  dsimp only
  split
  · trivial
  split
  next => exact missAct_bounded hs _
  next u t hu =>
    have hub := imageTensor_bounded hs b _ hu
    split
    · exact hs
    split
    next => exact missAct_bounded hs _
    next v h hv =>
      have hvb := readRow_bounded _ _ _ hub _ hv
      split
      next => trivial
      next x _ =>
        split
        next => exact missAct_bounded hs _
        next z bs hz =>
          have hzb := readRow_bounded _ _ _ hvb _ hz
          refine (bounded_orderAll _ _).2 ((State.bounded_setReg _ _ _ _).2 ?_)
          simpa using hzb

/-! ### Copy -/

@[simp] theorem sideTensor_bounded {s : State} (hs : s.Bounded) (absent : Bool) (slot : Nat) (weak : Bool) :
    GotBounded (sideTensor s absent slot weak) := by
  unfold sideTensor
  split
  · simp [hs]
  · exact nameTensor_bounded hs _ _

@[simp] theorem checkCopy_bounded {s : State} (hs : s.Bounded) (op : Nat) (a b : B5) {k : State → CopyCmd → Act}
    (hk : ∀ t c, t.Bounded → (k t c).Bounded) : (checkCopy s op a b k).Bounded := by
  unfold checkCopy
  dsimp only
  refine afterPrivilege_bounded _ ?_
  refine Act.Bounded.ite trivial fun _ => Act.Bounded.ite trivial fun _ => Act.Bounded.ite hs fun _ => ?_
  refine withScratch_bounded hs _ _ fun s r hs => Act.Bounded.ite trivial fun _ => ?_
  split
  next => exact missAct_bounded hs _
  next s1 src h1 =>
    have hb1 := sideTensor_bounded hs _ _ _ _ h1
    split
    next => exact missAct_bounded hs _
    next s2 dst h2 =>
      have hb2 := sideTensor_bounded hb1 _ _ _ _ h2
      refine Act.Bounded.ite trivial fun _ => withScratch_bounded hb2 _ _ fun s3 list hb3 => ?_
      split
      · split
        · exact missAct_bounded hs _
        · exact hk _ _ hb3
      · exact hk _ _ hb3

@[simp] theorem bounded_logCopy (s : State) (c : CopyCmd) (o n : Nat) : (logCopy s c o n).Bounded ↔ s.Bounded := by simp [logCopy]
@[simp] theorem readUnit_bounded {s : State} (hs : s.Bounded) (core slot : Nat) (c : Copy) (list : List Byte) (x : List Nat) :
    GotBounded (readUnit s core slot c list x) := by
  unfold readUnit
  split
  · simp [hs]
  dsimp only
  split
  · split
    · exact readGroup_bounded hs _ _ _
    · exact readElement_bounded hs _ _
  · split
    next => simp [hs]
    next =>
      split
      next t bs ht => simpa using (bounded_readScratch s _ _ _ _ _ ht).2 hs
      next => simp

@[simp] theorem readUnits_bounded (core slot : Nat) (c : Copy) (list : List Byte) (is : List Nat) {s : State} (hs : s.Bounded) :
    GotBounded (readUnits core slot c list is s) := by
  induction is generalizing s with
  | nil => simp [readUnits, hs]
  | cons i is ih =>
    unfold readUnits
    dsimp only
    split
    next => simp
    next t bs ht =>
      split
      next u rest hu => simpa using ih (readUnit_bounded hs _ _ _ _ _ _ ht) _ hu
      next => simp

@[simp] theorem bounded_writeCellsAt (s : State) (ps : List (Nat × Byte)) : SomeBounded s (writeCellsAt s ps) :=
  bounded_writeSome _ _ _
@[simp] theorem moveChunk_bounded {s : State} (hs : s.Bounded) (c : Copy) (k : Nat) : GotBounded (moveChunk s c k) := by
  unfold moveChunk
  dsimp only
  split
  next => simp
  next s1 list h1 =>
    have hb1 := (bounded_readScratch s _ _ _ _ _ h1).2 hs
    split
    next => simp
    next s2 vs h2 =>
      have hb2 := readUnits_bounded _ _ _ _ _ hb1 _ h2
      split
      · exact writeUnits_bounded hb2 _ _
      · split
        next s3 h3 => simpa using (bounded_writeCellsAt s2 _ s3 h3).2 hb2
        next => simp

@[simp] theorem bounded_readWeak (s : State) (c : Copy) : (readWeak s c).Bounded ↔ s.Bounded := by
  unfold readWeak
  split <;> simp

@[simp] theorem issueCopy_bounded {s : State} (hs : s.Bounded) (op : Nat) (a b : B5) : (issueCopy s op a b).Bounded := by
  refine checkCopy_bounded hs _ _ _ fun t cmd ht => ?_
  dsimp only [Act.bounded_issued]
  split <;> simp [ht]

@[simp] theorem execXcopy_bounded (w g : B2) (a b : B5) (s : State) (hs : s.Bounded) : NextBounded (execXcopy w g a b s) :=
  tokened_bounded hs _ _ _ fun hs => by simp [hs]
@[simp] theorem execXfill_bounded (w g : B2) (a b : B5) (s : State) (hs : s.Bounded) : NextBounded (execXfill w g a b s) :=
  tokened_bounded hs _ _ _ fun hs => by simp [hs]
@[simp] theorem execXgath_bounded (w g : B2) (a b : B5) (s : State) (hs : s.Bounded) : NextBounded (execXgath w g a b s) :=
  tokened_bounded hs _ _ _ fun hs => by simp [hs]
@[simp] theorem execXscat_bounded (w g : B2) (a b : B5) (s : State) (hs : s.Bounded) : NextBounded (execXscat w g a b s) :=
  tokened_bounded hs _ _ _ fun hs => by simp [hs]
@[simp] theorem chunkStep_bounded {s : State} (hs : s.Bounded) (cmd : CopyCmd) : (chunkStep s cmd).Bounded := by
  have hw := (bounded_readWeak s (copyOf cmd)).2 hs
  unfold chunkStep
  dsimp only
  split
  · simp [hw]
  split
  next => exact endMiss_bounded hw _ _
  next t ht => exact moveChunk_bounded hw _ _ _ ht
  next t ht =>
    have htb : t.Bounded := moveChunk_bounded hw _ _ _ ht
    split <;> simp [htb]

@[simp] theorem execCopyChunkComplete_bounded (p : PartyId) {s : State} (hs : s.Bounded) :
    NextBounded (execCopyChunkComplete p s) := by
  unfold execCopyChunkComplete
  split
  · split
    · exact asParty_bounded p (conclude_bounded (s := s.setCur p) hs _ _ (chunkStep_bounded (s := s.setCur p) hs _))
    · exact hs
  · exact hs

@[simp] theorem execXfeed_bounded (w g : B2) (a b : B5) (f : BitVec 1) {s : State} (hs : s.Bounded) :
    NextBounded (execXfeed w g a b f s) :=
  tokened_bounded hs _ _ _ fun hs => checkCopy_bounded hs _ _ _ fun _ _ ht => ht

@[simp] theorem readPlanes_bounded {s : State} (hs : s.Bounded) (t : Tensor) (tile e n : Nat) (is : List Nat) :
    GotBounded (readPlanes s t tile e n is) := by
  induction is generalizing s with
  | nil => simp [readPlanes, hs]
  | cons i is ih =>
    unfold readPlanes
    split
    next => simp
    next u bs hu =>
      split
      next v rest hv => simpa using ih (readTileBytes_bounded hs _ _ _ _ _ hu) _ hv
      next => simp

@[simp] theorem feedCodes_bounded {s : State} (hs : s.Bounded) (t : Tensor) (c : List Int) (planes : Nat) :
    GotBounded (feedCodes s t c planes) := by
  unfold feedCodes
  split
  next => simp [hs]
  next =>
    split
    next => simp
    next u ps hu =>
      have hub := readPlanes_bounded hs _ _ _ _ _ _ hu
      dsimp only
      split
      next => simp
      next v ds hv =>
        have hvb := readTensor_bounded hub _ _ hv
        split
        next => simp
        next x sc hx => simpa using readRow_bounded _ _ _ hvb _ hx

@[simp] theorem readRun_bounded (core slot : Nat) (c : Copy) (r : Nat) (js : List Nat) {s : State} (hs : s.Bounded) :
    GotBounded (readRun core slot c r js s) := by
  induction js generalizing s with
  | nil => simp [readRun, hs]
  | cons j js ih =>
    unfold readRun
    split
    next => simp
    next t bs ht =>
      split
      next u rest hu => simpa using ih (readUnit_bounded hs _ _ _ _ _ _ ht) _ hu
      next => simp

@[simp] theorem feedEntry_bounded {s : State} (hs : s.Bounded) (c : Copy) (r : Nat) : GotBounded (feedEntry s c r) := by
  unfold feedEntry
  split
  · exact feedCodes_bounded hs _ _ _
  · split
    next t es ht => simpa using readRun_bounded _ _ _ _ _ hs _ ht
    next => simp

@[simp] theorem bounded_pushEntry (s : State) (second : Bool) (e : FEntry) : (pushEntry s second e).Bounded ↔ s.Bounded := by
  simp [pushEntry]
@[simp] theorem feedStep_bounded {s : State} (hs : s.Bounded) (cmd : CopyCmd) (second : Bool) (next : Nat) :
    (feedStep s cmd second next).Bounded := by
  unfold feedStep
  dsimp only
  split
  · exact hs
  split
  next => exact missAct_bounded hs _
  next t e ht =>
    have hb := (bounded_pushEntry t second e).2 (feedEntry_bounded hs _ _ _ ht)
    split <;> simp [hb]

@[simp] theorem execXcrc_bounded (w g : B2) (d a b : B5) (s : State) (hs : s.Bounded) : NextBounded (execXcrc w g d a b s) :=
  tokened_bounded hs _ _ _ fun hs => by simp [hs]
@[simp] theorem execXref_bounded (w g : B2) (d a b : B5) (s : State) (hs : s.Bounded) : NextBounded (execXref w g d a b s) :=
  tokened_bounded hs _ _ _ fun hs => by simp [hs]

/-! ### Trellis -/

@[simp] theorem nameValues_bounded {s : State} (hs : s.Bounded) (r : List Byte) (used : Option Nat) :
    GotBounded (nameValues s r used) := by
  unfold nameValues
  split
  · exact nameTensor_bounded hs _ _
  · split <;> simp [hs]

@[simp] theorem nameWork_bounded {s : State} (hs : s.Bounded) (op : Nat) (r : List Byte) : GotBounded (nameWork s op r) := by
  unfold nameWork
  split
  · exact nameTensor_bounded hs _ _
  · simp [hs]

@[simp] theorem withDefinition_bounded {s : State} (hs : s.Bounded) (op : Nat) (b : Word) {k : State → List Byte → Act}
    (hk : ∀ t d, t.Bounded → (k t d).Bounded) : (withDefinition s op b k).Bounded := by
  unfold withDefinition
  refine Act.Bounded.ite (hk _ _ hs) fun _ => Act.Bounded.ite trivial fun _ => withScratch_bounded hs _ _ fun t d ht => ?_
  split
  · exact hk _ _ ht
  · trivial

@[simp] theorem checkTrellis_bounded {s : State} (hs : s.Bounded) (op : Nat) (a : B5) (b : Word)
    {k : State → List Byte → Trellis → Act}
    (hk : ∀ t r x, t.Bounded → (k t r x).Bounded) : (checkTrellis s op a b k).Bounded := by
  unfold checkTrellis
  refine afterPrivilege_bounded _ (Act.Bounded.ite trivial fun _ => Act.Bounded.ite trivial fun _ =>
    Act.Bounded.ite trivial fun _ => Act.Bounded.ite hs fun _ => withScratch_bounded hs _ _ fun s r hs => ?_)
  split
  next => trivial
  next x _ =>
    refine Act.Bounded.ite trivial fun _ => withDefinition_bounded hs _ _ fun s d hs => ?_
    split
    next => exact missAct_bounded hs _
    next s1 st h1 =>
      have hb1 := nameTensor_bounded hs _ _ _ h1
      split
      next => exact missAct_bounded hs _
      next s2 v h2 =>
        have hb2 := nameValues_bounded hb1 _ _ _ h2
        split
        next => exact missAct_bounded hs _
        next s3 w h3 =>
          have hb3 := nameWork_bounded hb2 _ _ _ h3
          refine Act.Bounded.ite trivial fun _ => ?_
          split
          · exact missAct_bounded hs _
          · exact hk _ _ _ hb3

@[simp] theorem bounded_takeSearch (s : State) : (takeSearch s).Bounded ↔ s.Bounded := .rfl
@[simp] theorem bounded_freeSearch (s : State) : (freeSearch s).Bounded ↔ s.Bounded := .rfl
@[simp] theorem issueSearch_bounded {s : State} (hs : s.Bounded) (op : Nat) (a : B5) (b : Word) :
    (issueSearch s op a b).Bounded := by
  refine checkTrellis_bounded hs _ _ _ fun t r _ ht => ?_
  split
  · simp [ht]
  · exact hs

@[simp] theorem execXtrw_bounded (w g : B2) (a : B5) {s : State} (hs : s.Bounded) : NextBounded (execXtrw w g a s) :=
  tokened_bounded hs _ _ _ fun hs => issueSearch_bounded hs _ _ _

@[simp] theorem execXtru_bounded (w g : B2) (a b : B5) {s : State} (hs : s.Bounded) : NextBounded (execXtru w g a b s) :=
  tokened_bounded hs _ _ _ fun hs => issueSearch_bounded hs _ _ _

@[simp] theorem execXtrd_bounded (w g : B2) (a b : B5) {s : State} (hs : s.Bounded) : NextBounded (execXtrd w g a b s) := by
  refine tokened_bounded hs _ _ _ fun hs => checkTrellis_bounded hs _ _ _ fun t r _ ht => ?_
  split <;> simp [ht]

@[simp] theorem execXtbld_bounded (w g : B2) (a b : B5) {s : State} (hs : s.Bounded) : NextBounded (execXtbld w g a b s) :=
  tokened_bounded hs _ _ _ fun hs => issueSearch_bounded hs _ _ _

@[simp] theorem execXtdef_bounded (w g : B2) (a b : B5) {s : State} (hs : s.Bounded) : NextBounded (execXtdef w g a b s) := by
  refine tokened_bounded hs _ _ _ fun hs => ?_
  refine Act.Bounded.ite trivial fun _ => Act.Bounded.ite trivial fun _ => Act.Bounded.ite trivial fun _ =>
    withScratch_bounded hs _ _ fun s h hs => Act.Bounded.ite trivial fun _ => withScratch_bounded hs _ _ fun s r hs => ?_
  split
  · trivial
  · split <;> simp [hs]

@[simp] theorem writeRow_bounded {s : State} (hs : s.Bounded) (t : Tensor) (i : Nat) (bs : List Byte) :
    GotBounded (writeRow s t i bs) :=
  writeUnits_bounded hs _ _

@[simp] theorem writeTable_bounded {s : State} (hs : s.Bounded) (t : Tensor) (bs : List Bool) : GotBounded (writeTable s t bs) := by
  unfold writeTable
  split
  · exact writeRow_bounded hs _ _ _
  split
  next => simp
  next u old hu => exact writeRow_bounded (readRow_bounded _ _ _ hs _ hu) _ _ _

@[simp] theorem readReals_bounded (t : Tensor) (n i : Nat) {s : State} (hs : s.Bounded) : GotBounded (readReals t n i s) := by
  induction n generalizing i s with
  | zero => simp [readReals, hs]
  | succ n ih =>
    unfold readReals
    split
    next => simp
    next u bs hu =>
      split
      next v xs hv => simpa using ih (i + 1) (readElement_bounded hs _ _ _ hu) _ hv
      next => simp

theorem thenRow_bounded {r : Except Miss (State × Bool)} (hr : GotBounded r) {f : State → Except Miss (State × Bool)}
    (hf : ∀ t, t.Bounded → GotBounded (f t)) : GotBounded (thenRow r f) := by
  unfold thenRow
  split
  next => simp
  next s a =>
    split
    next => simp
    next t b ht => simpa using hf _ (gotBounded_ok.1 hr) _ ht

@[simp] theorem endXtrw_bounded {s : State} (hs : s.Bounded) (t : Trellis) (n first : Nat) (st v w : Tensor) :
    GotBounded (endXtrw s t n first st v w) := by
  unfold endXtrw
  split
  next => simp
  next s1 targets h1 =>
    have hb1 := readReals_bounded _ _ _ hs _ h1
    exact thenRow_bounded (writeTable_bounded hb1 _ _) fun t ht => writeRow_bounded ht _ _ _

@[simp] theorem endXtru_bounded {s : State} (hs : s.Bounded) (t : Trellis) (n j : Nat) (new : Word) (st w : Tensor) :
    GotBounded (endXtru s t n j new st w) := by
  unfold endXtru
  dsimp only
  split
  next => simp
  next s1 bs h1 =>
    have hb1 := readRow_bounded _ _ _ hs _ h1
    exact thenRow_bounded (writeTable_bounded hb1 _ _) fun t ht => writeRow_bounded ht _ _ _

@[simp] theorem decodeFrom_bounded {s : State} (hs : s.Bounded) (t : Trellis) (n j count : Nat) (st : Tensor) :
    GotBounded (decodeFrom s t n j count st) := by
  unfold decodeFrom
  dsimp only
  split
  next => simp
  next u bs hu => simpa using readRow_bounded _ _ _ hs _ hu

@[simp] theorem endXtrd_bounded {s : State} (hs : s.Bounded) (t : Trellis) (n j count first : Nat) (st v : Tensor) :
    GotBounded (endXtrd s t n j count first st v) := by
  unfold endXtrd
  split
  next => simp
  next u cs hu => exact writeUnits_bounded (decodeFrom_bounded hs _ _ _ _ _ _ hu) _ _

@[simp] theorem endXtbld_bounded {s : State} (hs : s.Bounded) (r : List Byte) (o : Nat) (v : Tensor) :
    GotBounded (endXtbld s r o v) := by
  unfold endXtbld
  split
  next => simp
  next s1 xs h1 =>
    have hb1 := readReals_bounded _ _ _ hs _ h1
    dsimp only
    split
    next => simp
    next s2 h2 => simpa using (bounded_writeScratch s1 _ _ _ _ s2 h2).2 hb1

@[simp] theorem trellisResult_bounded {s : State} (hs : s.Bounded) (op : Nat) (r : List Byte) (b : Word) :
    GotBounded (trellisResult s op r b) := by
  unfold trellisResult
  split
  · split
    · exact endXtrw_bounded hs _ _ _ _ _ _
    · exact endXtru_bounded hs _ _ _ _ _ _
    · exact endXtrd_bounded hs _ _ _ _ _ _ _
    · exact endXtbld_bounded hs _ _ _
    · simp
  · simp

@[simp] theorem trellisStep_bounded {s : State} (hs : s.Bounded) (op : Nat) (r : List Byte) (b : Word) :
    (trellisStep s op r b).Bounded := by
  unfold trellisStep
  split
  next => exact endMiss_bounded ((bounded_freeSearch _).2 hs) _ _
  next => exact missAct_bounded hs _
  next t ht => exact trellisResult_bounded hs _ _ _ _ ht
  next t ht => exact (bounded_freeSearch _).2 (trellisResult_bounded hs _ _ _ _ ht)

@[simp] theorem execTrellisInstructionEnd_bounded (p : PartyId) {s : State} (hs : s.Bounded) :
    NextBounded (execTrellisInstructionEnd p s) := by
  unfold execTrellisInstructionEnd
  split
  · split
    · exact asParty_bounded p (conclude_bounded (s := s.setCur p) hs _ _ (trellisStep_bounded (s := s.setCur p) hs _ _ _))
    · exact hs
  · exact hs

@[simp] theorem trellisFeedStep_bounded {s : State} (hs : s.Bounded) (r : List Byte) (b : Word) (next : Nat) :
    (trellisFeedStep s r b next).Bounded := by
  unfold trellisFeedStep
  dsimp only
  split
  · exact hs
  split
  · split
    next => exact missAct_bounded hs _
    next u cs hu =>
      have hb := fun x => (bounded_pushEntry u (decide (cmdDest r = 2)) x).2 (decodeFrom_bounded hs _ _ _ _ _ _ hu)
      split <;> simp [hb]
  · trivial

@[simp] theorem execXws_bounded (w g : B2) (a : B5) {s : State} (hs : s.Bounded) : NextBounded (execXws w g a s) := by
  unfold execXws
  split
  · exact conclude_bounded hs _ _ trivial
  split
  · exact conclude_bounded hs _ _ trivial
  · refine tokened_bounded hs _ _ _ fun hs => Act.Bounded.ite trivial fun _ => Act.Bounded.ite trivial fun _ =>
      withScratch_bounded hs _ _ fun t r ht => ?_
    split
    · exact ht
    · trivial

@[simp] theorem bounded_markStale (s : State) (die part since : Nat) : (markStale s die part since).Bounded ↔ s.Bounded :=
  and_congr_right' (and_congr List.forall_mem_map List.forall_mem_map)

@[simp] theorem storeWeights_bounded {s : State} (hs : s.Bounded) (source length target part since : Nat) :
    (storeWeights s source length target part since).Bounded := by
  refine withScratch_bounded hs _ _ fun t bs ht => ?_
  split
  next u hu => simpa using (bounded_performWrite t _ _ _ u hu).2 ht
  next => exact ht

@[simp] theorem execWeightStoreWriteComplete_bounded (p : PartyId) {s : State} (hs : s.Bounded) :
    NextBounded (execWeightStoreWriteComplete p s) := by
  unfold execWeightStoreWriteComplete
  split
  · split
    · exact asParty_bounded p (conclude_bounded (s := s.setCur p) hs _ _ (storeWeights_bounded (s := s.setCur p) hs _ _ _ _ _))
    · exact hs
  · exact hs

/-! ### Replay -/

theorem replayChunks_bounded {c : Copy} {ks : List Nat} {s u : State} (hs : s.Bounded)
    (h : replayChunks c ks s = .ok u) : u.Bounded := by
  induction ks generalizing s with
  | nil => cases h; exact hs
  | cons k ks ih =>
    have hw := (bounded_readWeak s c).2 hs
    rw [replayChunks] at h
    split at h
    · cases h; exact hw
    split at h
    next t ht => exact ih (moveChunk_bounded hw _ _ _ ht) h
    next => cases h
    next => cases h

theorem replayLog_bounded {cs : List CopyCmd} {s u : State} (hs : s.Bounded) (h : replayLog cs s = .ok u) : u.Bounded := by
  induction cs generalizing s with
  | nil => cases h; exact hs
  | cons cmd rest ih =>
    rw [replayLog] at h
    split at h
    next t ht => exact ih (replayChunks_bounded hs ht) h
    next => cases h

@[simp] theorem bounded_withdraw (s : State) (serial : Nat) : (withdraw s serial).Bounded ↔ s.Bounded := .rfl
theorem restorePhase_bounded {s : State} (hs : s.Bounded) (core slot : Nat) (t : Task) {k : Checkpoint}
    (hk : PartiesBounded k.parties) :
    (restorePhase s core slot t k).Bounded := by
  have h1 : (layParties (clearParties (vacate (dropSends s core slot) core slot) core slot) core slot k.parties).Bounded :=
    layParties_bounded (by simp [hs]) _ _ hk
  unfold restorePhase
  dsimp only
  rw [bounded_withdraw, bounded_foldl (fun _ _ => bounded_orderAll _ _), bounded_foldl (fun _ _ => bounded_checkBarrier _ _ _),
    State.bounded_modCore, State.bounded_modCtx]
  · exact h1
  · exact fun _ => rfl

@[simp] theorem execPhaseCancel_bounded (core slot : Nat) {s : State} (hs : s.Bounded) :
    NextBounded (execPhaseCancel core slot s) := by
  have hg : ∀ (u : State) (cause : Nat), u.Bounded →
      (markDying (u.modCtx core slot fun c => { c with cancel := false }) core slot cause 0).Bounded := by
    intro u cause hu
    simp [hu]
  unfold execPhaseCancel
  dsimp only
  split
  next t k _ hk =>
    split
    · exact hs
    split
    · exact hg _ _ hs
    split
    · exact hg _ _ hs
    split
    next u hu =>
      have hub : u.Bounded := replayLog_bounded (s := s.setCur ⟨core, slot, .x⟩) hs hu
      split
      next v hv =>
        have hvb := (bounded_framesChecked (u.setCur s.cur) _ v hv).2 hub
        exact restorePhase_bounded hvb _ _ _ (hs.kept core slot k hk)
      next => exact hg (u.setCur s.cur) _ hub
    next => exact hs
    next => exact hg _ _ hs
    next => exact hg _ _ hs
  next => exact hs

/-! ### Collective -/

@[simp] theorem readCode_bounded {s : State} (hs : s.Bounded) (t : Tensor) (c : List Int) : GotBounded (readCode s t c) := by
  unfold readCode
  split
  · split
    next => simp [hs]
    next => exact (readPlanes_bounded hs _ _ _ _ _).map fun _ => rfl
  · exact (readElement_bounded hs _ _).map fun _ => rfl

@[simp] theorem readLinear_bounded (t : Tensor) (n i : Nat) {s : State} (hs : s.Bounded) : GotBounded (readLinear t n i s) := by
  induction n generalizing i s with
  | zero => simp [readLinear, hs]
  | succ n ih =>
    unfold readLinear
    split
    next => simp
    next u x hu =>
      have hub : u.Bounded := by
        revert hu
        split
        · exact fun hu => readCode_bounded hs _ _ _ hu
        · rintro ⟨⟩
          exact hs
      split
      next v xs hv => simpa using ih (i + 1) hub _ hv
      next => simp

@[simp] theorem planeCells_bounded {s : State} (hs : s.Bounded) (t : Tensor) (tile e v : Nat) (is : List Nat) (m : Sparse Byte) :
    GotBounded (planeCells s t tile e v is m) := by
  induction is generalizing s m with
  | nil => simp [planeCells, hs]
  | cons i is ih =>
    unfold planeCells
    split
    next => simp
    next u p hu =>
      split
      · simp
      · exact ih (tilePlace_bounded hs _ _ _ _ hu) _

@[simp] theorem gatherCodes_bounded (t : Tensor) (vs : List Nat) (i : Nat) {s : State} (hs : s.Bounded) (m : Sparse Byte) :
    GotBounded (gatherCodes t vs i s m) := by
  induction vs generalizing i s m with
  | nil => simp [gatherCodes, hs]
  | cons v vs ih =>
    unfold gatherCodes
    split
    next => exact ih _ hs _
    next =>
      split
      next => simp
      next u m' hu => exact ih _ (planeCells_bounded hs _ _ _ _ _ _ _ hu) _

@[simp] theorem writeLinear_bounded {s : State} (hs : s.Bounded) (t : Tensor) (i : Nat) (es : List Nat) :
    GotBounded (writeLinear s t i es) := by
  unfold writeLinear
  split
  · refine GotBounded.mapOf (gatherCodes_bounded _ _ _ hs _) fun r hr => ?_
    exact (bounded_writeLines _ _ _ _).2 hr
  · exact writeUnits_bounded hs _ _

@[simp] theorem readSide_bounded {s : State} (hs : s.Bounded) (kind : Nat) (r : List Byte) : GotBounded (readSide s kind r) := by
  unfold readSide
  dsimp only
  split
  · exact readLinear_bounded _ _ _ hs
  · split
    next x hx => simpa using (bounded_readScratch s _ _ _ _ _ hx).2 hs
    next => simp

@[simp] theorem writeSide_bounded {s : State} (hs : s.Bounded) (r : List Byte) (es : List Nat) : GotBounded (writeSide s r es) := by
  unfold writeSide
  split
  · exact writeLinear_bounded hs _ _ _
  · dsimp only
    split
    next => simp
    next u last hu =>
      have hub := (bounded_readScratch s _ _ _ _ _ hu).2 hs
      split
      next t ht => simpa using (bounded_writeScratch u _ _ _ _ t ht).2 hub
      next => simp

@[simp] theorem nameSide_bounded {s : State} (hs : s.Bounded) (r : List Byte) (used : Bool) (slot first span : Nat) :
    GotBounded (nameSide s r used slot first span) := by
  unfold nameSide
  split
  · simp [hs]
  split
  · split <;> simp [hs]
  split
  next => simp
  next u bs hu =>
    have hb := nameTensor_bounded hs _ _ _ hu
    split <;> simp [hb]

@[simp] theorem checkColl_bounded {s : State} (hs : s.Bounded) (kind : Nat) (a : B5) {k : State → List Byte → List Nat → Act}
    (hk : ∀ t r es, t.Bounded → (k t r es).Bounded) : (checkColl s kind a k).Bounded := by
  unfold checkColl
  refine afterPrivilege_bounded _ (Act.Bounded.ite trivial fun _ => Act.Bounded.ite trivial fun _ => Act.Bounded.ite hs fun _ =>
    withScratch_bounded hs _ _ fun s r hs => Act.Bounded.ite trivial fun _ =>
    withScratch_bounded hs _ _ fun s bytes hs => Act.Bounded.ite trivial fun _ => ?_)
  split
  next => exact missAct_bounded hs _
  next s1 src h1 =>
    have hb1 := nameSide_bounded hs _ _ _ _ _ _ h1
    split
    next => exact missAct_bounded hs _
    next s2 dst h2 =>
      have hb2 := nameSide_bounded hb1 _ _ _ _ _ _ h2
      dsimp only
      split
      · exact missAct_bounded hs _
      · exact hk _ _ _ hb2

@[simp] theorem bounded_sendMsg (s : State) (m : Msg) : (sendMsg s m).Bounded ↔ s.Bounded := by simp [sendMsg]
@[simp] theorem bounded_noteSends (s : State) : (noteSends s).Bounded ↔ s.Bounded := .rfl
@[simp] theorem bounded_heardMsg (s : State) (m : Msg) : (heardMsg s m).Bounded ↔ s.Bounded := by
  unfold heardMsg
  dsimp only
  split <;> rfl

@[simp] theorem bounded_noteDelivered (s : State) (ms : List Msg) : (noteDelivered s ms).Bounded ↔ s.Bounded := .rfl
@[simp] theorem bounded_releaseMsgs (s : State) (p : PartyId) : (releaseMsgs s p).Bounded ↔ s.Bounded := .rfl
@[simp] theorem bounded_keepSenders (s : State) (ms : List Msg) : (keepSenders s ms).Bounded ↔ s.Bounded := by
  refine bounded_foldl (fun t m => ?_) _ _
  split
  · split
    · split
      · simp
      · rfl
    · rfl
  · rfl

@[simp] theorem collStep_bounded {s : State} (hs : s.Bounded) (c : Coll) : (collStep s c).Bounded := by
  have h0 : (s.modMe fun x => { x with busy := x.busy.map fun k => (.coll c, k.2) }).Bounded := by simp [hs]
  unfold collStep
  extract_lets s0 ms s1
  have h1 : s1.Bounded := (bounded_foldl (fun _ _ => bounded_heardMsg _ _) _ _).2 hs
  clear_value s1
  split
  · exact h0
  split
  · split
    · exact endMiss_bounded ((bounded_releaseMsgs _ _).2 hs) _ _
    · exact h0
  · exact missAct_bounded h0 _
  next t ht => exact writeSide_bounded h1 _ _ _ ht
  next t ht =>
    have hb : t.Bounded := writeSide_bounded h1 _ _ _ ht
    simp [hb]

@[simp] theorem beginColl_bounded {s : State} (hs : s.Bounded) (kind : Nat) (r : List Byte) (es : List Nat) (rank : Nat)
    (value : Word)
    (got : Sparse (List Byte)) : (beginColl s kind r es rank value got).Bounded := by
  unfold beginColl
  dsimp only
  split
  · exact collStep_bounded hs _
  · exact hs

@[simp] theorem bounded_sendShares (s : State) (kind : Nat) (r : List Byte) (es : List Nat) (rank : Nat) (f : Nat → List Byte) :
    (sendShares s kind r es rank f).Bounded ↔ s.Bounded := by simp [sendShares]
@[simp] theorem execCsend_bounded (w g : B2) (a : B5) {s : State} (hs : s.Bounded) : NextBounded (execCsend w g a s) := by
  refine tokened_bounded hs _ _ _ fun hs => checkColl_bounded hs _ _ fun s r es hs => ?_
  split
  next => exact missAct_bounded hs _
  next t xs ht =>
    have hb := readSide_bounded hs _ _ _ ht
    simp [show t.Bounded from hb]

@[simp] theorem execCrecv_bounded (w g : B2) (a : B5) {s : State} (hs : s.Bounded) : NextBounded (execCrecv w g a s) :=
  tokened_bounded hs _ _ _ fun hs => checkColl_bounded hs _ _ fun _ _ _ hs => beginColl_bounded hs _ _ _ _ _ _

@[simp] theorem shareAll_bounded {s : State} (hs : s.Bounded) (kind : Nat) (a : B5) : (shareAll s kind a).Bounded := by
  refine checkColl_bounded hs _ _ fun s r es hs => ?_
  split
  next => exact missAct_bounded hs _
  next t xs ht => exact beginColl_bounded ((bounded_sendShares _ _ _ _ _ _).2 (readSide_bounded hs _ _ _ ht)) _ _ _ _ _ _

@[simp] theorem execCred_bounded (w g : B2) (a : B5) (s : State) (hs : s.Bounded) : NextBounded (execCred w g a s) :=
  tokened_bounded hs _ _ _ fun hs => by simp [hs]
@[simp] theorem execCgath_bounded (w g : B2) (a : B5) (s : State) (hs : s.Bounded) : NextBounded (execCgath w g a s) :=
  tokened_bounded hs _ _ _ fun hs => by simp [hs]
@[simp] theorem execCsamp_bounded (w g : B2) (a : B5) (s : State) (hs : s.Bounded) : NextBounded (execCsamp w g a s) :=
  tokened_bounded hs _ _ _ fun hs => by simp [hs]
@[simp] theorem execCbcast_bounded (w g : B2) (a : B5) {s : State} (hs : s.Bounded) : NextBounded (execCbcast w g a s) := by
  refine tokened_bounded hs _ _ _ fun hs => checkColl_bounded hs _ _ fun s r es hs => ?_
  dsimp only
  split
  · split
    next => exact missAct_bounded hs _
    next t xs ht => exact beginColl_bounded ((bounded_sendShares _ _ _ _ _ _).2 (readSide_bounded hs _ _ _ ht)) _ _ _ _ _ _
  · exact beginColl_bounded hs _ _ _ _ _ _

@[simp] theorem execCa2a_bounded (w g : B2) (a : B5) {s : State} (hs : s.Bounded) : NextBounded (execCa2a w g a s) := by
  refine tokened_bounded hs _ _ _ fun hs => checkColl_bounded hs _ _ fun s r es hs => ?_
  split
  next => exact missAct_bounded hs _
  next t xs ht => exact beginColl_bounded ((bounded_sendShares _ _ _ _ _ _).2 (readSide_bounded hs _ _ _ ht)) _ _ _ _ _ _

@[simp] theorem execCflag_bounded (w g : B2) (a b : B5) {s : State} (hs : s.Bounded) : NextBounded (execCflag w g a b s) := by
  refine tokened_bounded hs _ _ _ fun hs => checkColl_bounded hs _ _ fun s r es hs => beginColl_bounded ?_ _ _ _ _ _ _
  rw [bounded_noteSends, bounded_foldl (fun _ _ => bounded_sendMsg _ _)]
  exact hs

@[simp] theorem failSender_bounded {s : State} (hs : s.Bounded) (m : Msg) : (failSender s m).Bounded := by
  unfold failSender
  split
  · exact endSerial_bounded hs _ _ _ _
  · exact hs

@[simp] theorem bounded_takeBack (s : State) (p : PartyId) (c : Coll) : (takeBack s p c).Bounded ↔ s.Bounded := by
  have hb : ∀ (l : List Msg), (l.foldl (fun t m =>
      match m.holder with
      | some q => t.modParty q (fun x => { x with busy := x.busy.map (fun k => (loseShare m.fromRank k.1, k.2)) })
      | none => t) s).Bounded ↔ s.Bounded := by
    intro l
    refine bounded_foldl (fun t m => ?_) _ _
    split
    · simp
    · rfl
  exact hb _

@[simp] theorem bounded_listTrap (s : State) (p : PartyId) (c : Coll) : (listTrap s p c).Bounded ↔ s.Bounded := by simp [listTrap]
@[simp] theorem bounded_senderListTrap (s : State) (m : Msg) : (senderListTrap s m).Bounded ↔ s.Bounded := by
  unfold senderListTrap
  split
  · split
    · split
      · simp
      · rfl
    · rfl
  · rfl

@[simp] theorem bounded_receiverListTrap (s : State) (p : PartyId) (c : Coll) : (receiverListTrap s p c).Bounded ↔ s.Bounded := by
  simp [receiverListTrap]
@[simp] theorem deliver_bounded {s : State} (hs : s.Bounded) (m : Msg) (p : PartyId) (c : Coll) (w g : B2) :
    NextBounded (deliver s m p c w g) := by
  unfold deliver
  extract_lets gone c1
  have hg : gone.Bounded := (bounded_heardMsg _ _).2 hs
  clear_value gone
  split
  · exact failSender_bounded ((bounded_markDying _ _ _ _ _).2 hg) _
  split
  · simp [hs]
  · refine asParty_bounded p ?_
    refine conclude_bounded ?_ _ _ (collStep_bounded ?_ _)
    · exact ⟨hs.parties, hs.ctxs, hs.cocoons⟩
    · exact ⟨hs.parties, hs.ctxs, hs.cocoons⟩

@[simp] theorem execCollectiveMessageArrival_bounded (k : Nat) {s : State} (hs : s.Bounded) :
    NextBounded (execCollectiveMessageArrival k s) := by
  unfold execCollectiveMessageArrival
  split
  · split
    · exact hs
    split
    · split
      · exact deliver_bounded hs _ _ _ _ _
      · exact hs
    · exact hs
  · exact hs

theorem storeFlag_bounded {s u : State} (hs : s.Bounded) {m : Msg} (h : storeFlag s m = some u) : u.Bounded := by
  revert h
  unfold storeFlag
  dsimp only
  split
  · rintro ⟨⟩
  split
  next t ht =>
    rintro ⟨⟩
    have hb := (bounded_writePlace _ _ _ _ _ _ t ht).2 ((bounded_countAccess _ _ _ _).2 hs)
    exact quietly_bounded hs hb
  next =>
    rintro ⟨⟩
    exact hs

@[simp] theorem answerFlag_bounded {s : State} (hs : s.Bounded) (p : PartyId) (since : Option Nat) (refused : Bool) :
    NextBounded (answerFlag s p since refused) := by
  have hb : ∀ y, (s.modParty p fun x => { x with busy := y }).Bounded := fun y => by simp [hs]
  unfold answerFlag
  split
  · refine NextBounded.ite hs fun _ => ?_
    dsimp only
    split
    · exact hb _
    split
    · exact (bounded_markDying _ _ _ _ _).2 (hb _)
    · exact asParty_bounded p (conclude_bounded (s := s.setCur p) hs _ _ (Act.bounded_done _ _ |>.2 hs))
  · exact hs

@[simp] theorem execFlagMessageArrival_bounded (k : Nat) {s : State} (hs : s.Bounded) :
    NextBounded (execFlagMessageArrival k s) := by
  unfold execFlagMessageArrival
  split
  next m _ =>
    split
    · exact hs
    extract_lets s1
    have h1 : s1.Bounded := (bounded_heardMsg _ _).2 hs
    clear_value s1
    split
    next s2 refused h =>
      have h2 : s2.Bounded := by
        revert h
        split
        next t ht =>
          rintro ⟨⟩
          exact storeFlag_bounded h1 ht
        next =>
          rintro ⟨⟩
          exact h1
      split
      · exact answerFlag_bounded h2 _ _ _
      · exact ⟨h2.parties, h2.ctxs, h2.cocoons⟩
  next => exact hs

@[simp] theorem bounded_receiveMsg (s : State) (i : Inbound) : (receiveMsg s i).Bounded ↔ s.Bounded := by
  unfold receiveMsg
  split <;> rfl

/-! ### Swallowtail -/

@[simp] theorem execSscfg_bounded (w g : B2) (a b : B5) {s : State} (hs : s.Bounded) : NextBounded (execSscfg w g a b s) := by
  refine tokened_bounded hs _ _ _ fun hs => Act.Bounded.ite trivial fun _ => withScratch_bounded hs _ _ fun s h hs =>
    Act.Bounded.ite trivial fun _ => withScratch_bounded hs _ _ fun s bs hs => ?_
  split
  · trivial
  · refine Act.Bounded.ite trivial fun _ => Act.Bounded.ite trivial fun _ => ?_
    simp [hs]

@[simp] theorem bounded_setHeldBytes (s : State) (r slot : Nat) (gen : BitVec 12) (h : List Byte) :
    (setHeldBytes s r slot gen h).Bounded ↔ s.Bounded := .rfl
@[simp] theorem bounded_writeThree (s : State) (a b c : Nat × List Byte) : SomeBounded s (writeThree s a b c) := by
  unfold writeThree
  split
  next => simp
  next t ht =>
    have h1 := bounded_writeScratch s _ _ _ _ t ht
    split
    next => simp
    next u hu => exact (bounded_writeScratch u _ _ _ _).congr ((bounded_writeScratch t _ _ _ _ u hu).trans h1)

@[simp] theorem feedRow_bounded {s : State} (hs : s.Bounded) (o row slot ooff : Nat) (input : List Byte) :
    (feedRow s o row slot ooff input).Bounded := by
  unfold feedRow
  dsimp only
  split
  next => exact hs
  next t ht =>
    have hb := (bounded_writeThree s _ _ _ t ht).2 hs
    split <;> simp [hb]

@[simp] theorem execSsfeed_bounded (w g : B2) (a : B5) {s : State} (hs : s.Bounded) : NextBounded (execSsfeed w g a s) := by
  refine tokened_bounded hs _ _ _ fun hs => Act.Bounded.ite trivial fun _ => withScratch_bounded hs _ _ fun s r hs =>
    Act.Bounded.ite trivial fun _ => Act.Bounded.ite trivial fun _ => Act.Bounded.ite hs fun _ => ?_
  split
  next => exact hs
  next t ht =>
    obtain ⟨u, hu, ht⟩ := Option.bind_eq_some_iff.1 ht
    have hub := (bounded_rowChecked s _ _ _ u hu).2 hs
    have htb := (bounded_rowChecked u _ _ _ t ht).2 hub
    exact withScratch_bounded htb _ _ fun v x hv => feedRow_bounded hv _ _ _ _ _

/-! ### Dispatch -/

@[simp] theorem exec_bounded (i : Instr) {s : State} (hs : s.Bounded) : NextBounded (exec i s) := by
  cases i <;> simp [exec, hs, execMfs_bounded, execMts_bounded, execPrst_bounded, execCpart_bounded, execCstat_bounded,
    execRegisterWrite_bounded]

/-! ### Turns -/

@[simp] theorem bounded_fetchCheck (s : State) (p : PartyId) : SomeBounded s (fetchCheck s p) := by
  unfold fetchCheck
  dsimp only
  split <;> simp

@[simp] theorem runWord_bounded {s : State} (hs : s.Bounded) (p : PartyId) : NextBounded (runWord s p) := by
  refine asParty_bounded p ?_
  have hc : (s.setCur p).Bounded := hs
  split
  · exact exec_bounded _ hc
  · exact conclude_bounded hc _ _ trivial

@[simp] theorem issueAlone_bounded {s : State} (hs : s.Bounded) (p : PartyId) : NextBounded (issueAlone s p) := by
  have hc : (s.setCur p).Bounded := hs
  unfold issueAlone
  dsimp only
  split
  · exact asParty_bounded p ((bounded_finishPush _).2 hc)
  split
  · exact hs
  split
  · exact asParty_bounded p (conclude_bounded hc _ _ (feedStep_bounded hc _ _ _))
  · exact asParty_bounded p (conclude_bounded hc _ _ (trellisFeedStep_bounded hc _ _ _))
  · split
    · exact asParty_bounded p (conclude_bounded hc _ _ (collStep_bounded hc _))
    · exact hs
  · exact hs
  · split
    next t ht => exact runWord_bounded ((bounded_fetchCheck s p t ht).2 hs) p
    next => simp [hs]

@[simp] theorem bounded_reclaimWaiting (s : State) (e : Nat × Obj) : (reclaimWaiting s e).Bounded ↔ s.Bounded := by
  unfold reclaimWaiting
  split <;> simp

@[simp] theorem bounded_keepMarks (s t : State) (core slot : Nat) : (keepMarks s t core slot).Bounded ↔ s.Bounded := by
  unfold keepMarks
  dsimp only
  rw [State.bounded_setLast, State.bounded_modCtx, bounded_foldl]
  · intro u w
    simp
  · exact fun _ => rfl

theorem runBundle_bounded {core slot : Nat} {ws : List Party} {b d : Bundle} (hb : b.state.Bounded)
    (h : runBundle core slot ws b = .ok d) : d.state.Bounded := by
  induction ws generalizing b with
  | nil => cases h; exact hb
  | cons w ws ih =>
    rw [runBundle] at h
    have hr := runWord_bounded hb ⟨core, slot, w⟩
    split at h
    next t ht =>
      rw [ht] at hr
      split at h
      · cases h; exact hr
      · dsimp only at h
        split at h
        · cases h; exact hr
        · exact ih (b := { b with state := t, waits := _, victims := _ }) hr h
    next => cases h
    next => cases h; exact hb

theorem fetchAllChecked_bounded (ids : List PartyId) (s : State) :
    SomeBounded s (ids.foldl (fun (r : Option State) p => match r with | some t => fetchCheck t p | none => none) (some s)) := by
  suffices h : ∀ r, SomeBounded s r →
      SomeBounded s (ids.foldl (fun (r : Option State) p => match r with | some t => fetchCheck t p | none => none) r) from
    h _ (by simp)
  induction ids with
  | nil => exact fun _ h => h
  | cons p ids ih =>
    intro r hr
    refine ih _ ?_
    dsimp only
    split
    next t => exact (bounded_fetchCheck t p).congr (someBounded_some.1 hr)
    next => simp

@[simp] theorem issueBundle_bounded {s : State} (hs : s.Bounded) (core slot : Nat) : NextBounded (issueBundle s core slot) := by
  unfold issueBundle
  dsimp only
  split
  · exact hs
  split
  next => simp [hs]
  next s0 h0 =>
    have hb0 := (fetchAllChecked_bounded _ s s0 h0).2 hs
    split
    next => trivial
    next b hb =>
      have hbb := runBundle_bounded (b := ⟨s0, none, false, []⟩) hb0 hb
      split
      next p u _ =>
        refine (bounded_takeTrap _ _ _ _).2 ?_
        exact hb0
      next =>
        split
        · exact (bounded_keepMarks _ _ _ _).2 ((bounded_foldl (fun _ _ => bounded_reclaimWaiting _ _) _ _).2 hb0)
        · split <;> simp [hbb]

@[simp] theorem issue_bounded {s : State} (hs : s.Bounded) (p : PartyId) : NextBounded (issue s p) := by
  unfold issue
  split
  · simp [hs]
  split
  · exact hs
  split
  · exact issueBundle_bounded hs _ _
  · exact issueAlone_bounded hs _

@[simp] theorem early_bounded {s : State} (hs : s.Bounded) (p : PartyId) (n : Nat) : NextBounded (early s p n) := by
  unfold early
  split
  · exact hs
  extract_lets t r
  have ht : t.Bounded := (bounded_foldl (fun _ _ => bounded_withLag _ _ _) _ _).2 hs
  clear_value t
  have hr : NextBounded r := by
    unfold r
    split
    · exact execCopyChunkComplete_bounded _ ht
    · exact execTrellisInstructionEnd_bounded _ ht
    · exact issue_bounded ht _
  clear_value r
  split
  · exact (bounded_foldl (fun _ _ => bounded_withLag _ _ _) _ _).2 hr
  · exact hr

@[simp] theorem bounded_countBusy (s : State) (us : Nat) : (countBusy s us).Bounded ↔ s.Bounded := by
  unfold countBusy
  split
  · rfl
  · refine bounded_foldl (fun t e => ?_) _ _
    split <;> simp

@[simp] theorem bounded_passTime (s : State) (ns : Nat) : (passTime s ns).Bounded ↔ s.Bounded := by
  have h := bounded_countBusy
    { s with queues := s.queues.map fun e => (e.1, { e.2 with head := e.2.head.map fun l =>
      { l with waited := l.waited + waitedIn s (e.1 / 32) l (min ns (nextDue s.due - s.time)) } }) }
    ((s.time + min ns (nextDue s.due - s.time)) / 1000 - s.time / 1000)
  exact h

@[simp] theorem bounded_flipWord (s : State) (addr flipped : Nat) : (flipWord s addr flipped).Bounded ↔ s.Bounded := by
  unfold flipWord
  split <;> rfl

@[simp] theorem bounded_spoilScalar (s : State) (p : PartyId) (n : Nat) : (spoilScalar s p n).Bounded ↔ s.Bounded := by
  simp [spoilScalar]
theorem look_of_seek {α : Type} (d : α) {m : Sparse α} {k : Nat} {v : α} (h : seek m k = some v) : look d m k = v := by
  induction m with
  | nil => cases h
  | cons e m ih =>
    rw [seek] at h
    rw [look]
    split at h
    next hk =>
      rw [if_pos hk]
      exact Option.some.inj h
    next hk =>
      rw [if_neg hk]
      exact ih h

/-- A spoilt entry of a vector register is one entry still. -/
@[simp] theorem spoilVector_bounded {s : State} (hs : s.Bounded) (p : PartyId) (n k : Nat) : (spoilVector s p n k).Bounded := by
  unfold spoilVector
  split
  next es he =>
    refine hs.setParty p ⟨fun j => ?_, (hs.party p).2⟩
    have hl := (hs.party p).1
    rw [look_put]
    split
    · rw [List.length_modify, ← look_of_seek [] he]
      exact hl n
    · exact hl j
  next => exact hs

@[simp] theorem bounded_spoilVertical (s : State) (core k : Nat) : (spoilVertical s core k).Bounded ↔ s.Bounded := by
  simp [spoilVertical]
@[simp] theorem bounded_spoilOperand (s : State) (core : Nat) (second : Bool) (k : Nat) :
    (spoilOperand s core second k).Bounded ↔ s.Bounded := by simp [spoilOperand]
@[simp] theorem bounded_spoilSuffix (s : State) (n : Nat) : (spoilSuffix s n).Bounded ↔ s.Bounded := by
  unfold spoilSuffix
  split <;> simp

@[simp] theorem bounded_countBytes (s : State) (unit index n : Nat) : (countBytes s unit index n).Bounded ↔ s.Bounded := by
  unfold countBytes
  split
  · split <;> simp
  · split <;> simp
  · rfl
  · rfl

@[simp] theorem bounded_disturb (s : State) (core slot : Nat) : (disturb s core slot).Bounded ↔ s.Bounded := by simp [disturb]
@[simp] theorem matchedWrongly_bounded {s : State} (hs : s.Bounded) (p : PartyId) (serial : Nat) :
    (matchedWrongly s p serial).Bounded :=
  endSerial_bounded hs _ _ _ _

@[simp] theorem bounded_assignPage (s : State) (part page va : Nat) : (assignPage s part page va).Bounded ↔ s.Bounded := by
  simp [assignPage]
theorem play_bounded (t : Turn) {s : State} (hs : s.Bounded) : NextBounded (play t s) := by
  unfold play
  cases t with
  | issue p => exact issue_bounded hs _
  | early p n => exact early_bounded hs _ _
  | occur i => dsimp only; split <;> simp [hs]
  | answer p refused => dsimp only; split <;> simp [hs]
  | setAside f b =>
    cases b
    · exact hs
    · dsimp only
      split <;> exact hs
  | perform p k | corrected d | spoilScalar p n | spoilVector p n k | withhold core slot | setTenant r v =>
    dsimp only
    split <;> simp [hs]
  | _ => simp [hs]

@[simp] theorem bounded_nextTurn (s : State) : (nextTurn s).2.Bounded ↔ s.Bounded := by
  have h := bounded_grantGates s
  unfold nextTurn
  dsimp only
  split <;> exact h

/-! ### Step -/

theorem step_bounded {s : State} (hs : s.Bounded) : NextBounded (step s) := play_bounded _ ((bounded_nextTurn s).2 hs)

/-- Settles O59, from the lemma of each function of the machine. -/
theorem stepKeepsBounds : Obligations.StepKeepsBounds := by
  intro s t hs h
  have hn := step_bounded hs
  rw [h] at hn
  exact hn

end Sys2Proof.Machine
end

section
/-! PROOFS. Wing loads (O13): the value of a load, reads of a party whose accesses go to the present, and what a load at a place of its
own die and a misaligned one do. -/

namespace Sys2Proof.Machine

/-! ## Bytes and values -/

theorem natOfBytes_lt (bs : List Byte) : natOfBytes bs < 2 ^ (8 * bs.length) := by
  induction bs with
  | nil => simp [natOfBytes]
  | cons b bs ih =>
    have hb := b.isLt
    rw [natOfBytes, List.length_cons, Nat.mul_succ, pow_add]
    omega

/-- The bytes at consecutive addresses are those of the range. -/
theorem map_readByte_range (m : List Host.Cell) (a n : Nat) :
    ((List.range n).map (fun i => a + i)).map (readByte m) = readBytes m a n := by
  induction n generalizing a with
  | zero => rfl
  | succ n ih =>
    rw [readBytes, ← ih (a + 1), List.range_succ_eq_map]
    simp [Nat.add_assoc, Nat.add_comm 1]

/-- An unsigned load extends with zeros. -/
theorem loaded_unsigned {bs : List Byte} {n : Nat} (h : bs.length = n) :
    loaded false bs = (BitVec.ofNat (8 * n) (natOfBytes bs)).setWidth 64 := by
  subst h
  apply BitVec.eq_of_toNat_eq
  simp [loaded, Nat.mod_eq_of_lt (natOfBytes_lt bs)]

/-- A signed load of fewer than eight bytes extends with its sign. -/
theorem loaded_signed {bs : List Byte} {n : Nat} (h : bs.length = n) (hn : 0 < n) (h8 : n < 8) :
    loaded true bs = (BitVec.ofNat (8 * n) (natOfBytes bs)).signExtend 64 := by
  subst h
  have hv := natOfBytes_lt bs
  have hw : 2 ^ (8 * bs.length) < 2 ^ 64 := Nat.pow_lt_pow_right (by decide) (by omega)
  apply BitVec.eq_of_toNat_eq
  rw [BitVec.toNat_signExtend, BitVec.toNat_setWidth, BitVec.msb_eq_decide, BitVec.toNat_ofNat, Nat.mod_eq_of_lt hv, loaded]
  by_cases hs : 2 ^ (8 * bs.length - 1) ≤ natOfBytes bs
  · simp [hs]
    omega
  · simp [hs]

/-- A signed load of eight bytes has nothing to extend. -/
theorem loaded_signed_word {bs : List Byte} (h : bs.length = 8) : loaded true bs = loaded false bs := by
  simp [loaded, h]

/-! ## Reads of a party whose accesses go to the present (log 2) -/

section
variable {s : State} {who : PartyId} (h : (s.party who).view.lag = 0)
include h

theorem moment_of_lag_zero (t : Sight) (firm g : Nat) : moment s who t firm g = s.seq := if_pos h

theorem bytesFor_of_lag_zero (t : Sight) (firm : Nat) (as : List Nat) : bytesFor s who t firm as = as.map (readByte s.mem) := if_pos h

/-- The point before which an access may not go does not matter to one that goes to the present. -/
theorem sawBy_firm (t : Sight) (firm firm' : Nat) (gs : List Nat) : sawBy s who t firm gs = sawBy s who t firm' gs := by
  simp only [sawBy, moment_of_lag_zero h]

theorem mergeRead_firm (t : Sight) (firm firm' : Nat) (gs : List Nat) : mergeRead s who t firm gs = mergeRead s who t firm' gs := by
  simp only [mergeRead, moment_of_lag_zero h]
  split
  · exact sawBy_firm h _ _ _ _
  · exact sawBy_firm (s := s.modDie _ _) h _ _ _ _

/-- Neither does whether the access is an acquire. -/
theorem readPlace_acquires (part : Nat) (acquires : Bool) (p : Place) (n : Nat) :
    readPlace s who part acquires p n = readPlace s who part false p n := by
  unfold readPlace readSeen
  split
  · rfl
  split
  · rfl
  split
  · rfl
  next t ht =>
    obtain ⟨fs, ds, rfl⟩ := checkWords_spec _ _ _ _ ht
    have ht : (State.party { s with flips := fs, dies := ds } who).view.lag = 0 := h
    simp only [bytesFor_of_lag_zero ht]
    rw [mergeRead_firm ht]

/-- What a read gives: zeros under a revoked slot, the bytes of memory elsewhere. -/
theorem readPlace_bytes {u : State} {part n : Nat} {acquires : Bool} {p : Place} {bs : List Byte}
    (hr : readPlace s who part acquires p n = (u, some bs)) :
    bs = if revokedPlace s p then List.replicate n 0 else readBytes s.mem p.phys n := by
  revert hr
  unfold readPlace readSeen
  split
  · rintro ⟨⟩
    rfl
  split
  · rintro ⟨⟩
  split
  · rintro ⟨⟩
  next t ht =>
    obtain ⟨fs, ds, rfl⟩ := checkWords_spec _ _ _ _ ht
    have ht : (State.party { s with flips := fs, dies := ds } who).view.lag = 0 := h
    dsimp only
    rw [bytesFor_of_lag_zero ht, map_readByte_range]
    rintro ⟨⟩
    rfl

end

@[simp] theorem length_readBytes (m : List Host.Cell) (a n : Nat) : (readBytes m a n).length = n := by
  induction n generalizing a with
  | zero => rfl
  | succ n ih => simp [readBytes, ih]

/-! ## Loads (R213) -/

theorem mateLate_present {s : State} (h : Present s) (a n : Nat) : mateLate s a n = false := by
  simp [mateLate, h.2.2]

theorem forwarded_present {s : State} (h : Present s) (a n : Nat) : forwarded s a n = none := by
  simp [forwarded, h.2.1]

theorem withLag_zero {s : State} {p : PartyId} (h : (s.party p).view.lag = 0) : withLag s p 0 = s := if_pos h

/-- A load of an aligned address at a place of the wing's own die, in the present, that nothing makes wait. -/
theorem load_place {s u : State} {w g : B2} {d a : B6} {f : BitVec 9} {size : Nat} {signed consumes acquires : Bool} {p : Place}
    {bs : List Byte} (h : Present s) (hr : reach s (memAddr s a f size).toNat false = .place p)
    (hal : (memAddr s a f size).toNat % size = 0) (hh : p.home = dieOf s.cur.core) (ho : owed s p.home (clockOf s p.home) = false)
    (hd : held s p = false) (hp : readPlace s s.cur s.myPart false p size = (u, some bs))
    (ha : acquires = true → releaseOut s s.cur = false) :
    load s w g d a f size signed consumes acquires =
      .done ((if acquires then acquire u s.seq else u).setReg d.toNat (loaded signed bs) consumes) 1 := by
  have hl : (s.party s.cur).view.lag = 0 := h.1
  have hw : (acquires && releaseOut s s.cur) = false := by
    cases acquires
    · rfl
    · exact ha rfl
  have hm : p.home = myDie s := hh
  have hlo : loadOrder s p a = (clockOf s (myDie s), 0) := if_pos (.inl h.1)
  rw [hm] at ho
  simp only [load, hr, hal, hlo, hw, mateLate_present h, forwarded_present h, withLag_zero hl, hm, ho, hd, loadPlace,
    readPlace_acquires hl _ acquires, hp, moment_of_lag_zero hl, ne_eq, not_true_eq_false, if_false, Bool.or_self,
    Bool.false_eq_true, true_or, if_true, decide_true]

/-- A misaligned address traps, where the load need not trap for its privilege. -/
theorem load_misaligned {s : State} {w g : B2} {d a : B6} {f : BitVec 9} {size : Nat} {signed consumes acquires : Bool}
    (hal : (memAddr s a f size).toNat % size ≠ 0) (hr : reach s (memAddr s a f size).toNat false ≠ .privilege) :
    load s w g d a f size signed consumes acquires = .trap causeAlignment (memAddr s a f size) := by
  unfold load
  dsimp only
  split
  next h => exact absurd h hr
  next => exact if_pos hal

theorem memAddr_pow (s : State) (a : B6) (f : BitVec 9) (k : Nat) :
    memAddr s a f (2 ^ k) = s.reg a.toNat + BitVec.ofInt 64 (f.toInt * 2 ^ k) := by
  simp [memAddr, wordOfInt]

/-- The first part of O13: a load completes with the bytes read. -/
theorem loadsReadMemory : Claims.LoadsReadMemory := by
  intro s u w g d a f p bs k hrdy hpr _ va hr hal hh ho hd hp
  have hb := readPlace_bytes (s := s) (who := s.cur) hpr.1 hp
  have hlen : bs.length = 2 ^ k := by rw [hb]; split <;> simp
  have hva : memAddr s a f (2 ^ k) = va := memAddr_pow s a f k
  have key (signed consumes acquires : Bool) (ha : acquires = true → releaseOut s s.cur = false) :
      tokened s .wing w g (fun s => load s w g d a f (2 ^ k) signed consumes acquires) =
        .next (retire (popToken ((if acquires then acquire u s.seq else u).setReg d.toNat (loaded signed bs) consumes) w) g 1) := by
    rw [tokened_ready hrdy, load_place hpr (by rw [hva]; exact hr) (by rw [hva]; exact hal) hh ho hd hp ha,
      conclude_done (signalWaits_ready hrdy)]
  refine ⟨?_, ?_, ?_, ?_, fun h => ?_, fun h => ?_⟩
  · rintro rfl
    rw [← loaded_signed hlen (by decide) (by decide), ← loaded_unsigned hlen]
    exact ⟨key true false false nofun, key false false false nofun⟩
  · rintro rfl
    rw [← loaded_signed hlen (by decide) (by decide), ← loaded_unsigned hlen]
    exact ⟨key true false false nofun, key false false false nofun⟩
  · rintro rfl
    rw [← loaded_signed hlen (by decide) (by decide), ← loaded_unsigned hlen]
    exact ⟨key true false false nofun, key false false false nofun⟩
  · rintro rfl
    rw [← loaded_unsigned hlen]
    refine ⟨?_, key false true false nofun, fun ha => key false false true fun _ => ha⟩
    rw [← loaded_signed_word hlen]
    exact key true false false nofun
  · rw [hb, h]
    rfl
  · rw [hb, h]
    rfl

/-- The second part of O13: a misaligned address traps. -/
theorem misalignedLoadsTrap : Claims.MisalignedLoadsTrap := by
  intro s w g d a f k hrdy _ _ va hal hr
  have hva : memAddr s a f (2 ^ k) = va := memAddr_pow s a f k
  have key (signed consumes acquires : Bool) :
      tokened s .wing w g (fun s => load s w g d a f (2 ^ k) signed consumes acquires) =
        .next (takeTrap s s.cur causeAlignment va) := by
    rw [tokened_ready hrdy, load_misaligned (by rw [hva]; exact hal) (by rw [hva]; exact hr), conclude_trap, hva]
  refine ⟨?_, ?_, ?_⟩
  · rintro rfl
    exact ⟨key true false false, key false false false⟩
  · rintro rfl
    exact ⟨key true false false, key false false false⟩
  · rintro rfl
    exact ⟨key true false false, key false false true, key false true false⟩

/-- Settles O13: aligned loads complete, misaligned ones trap. -/
theorem loadsComplete : Obligations.LoadsComplete := ⟨loadsReadMemory, misalignedLoadsTrap⟩

end Sys2Proof.Machine
end

section
/-! PROOFS. Engine queues (O19): what a push and a pop make of the queues of a slot, what ENQ, MARK, NOTIFY, QFENCE and RDV do, and how
the items at the heads of queues leave them. -/

namespace Sys2Proof.Machine

/-! ## The queues of a slot under the updates of a state -/

/-- What the queues of a slot are depends on its record alone. -/
theorem queueAt_congr {s t : State} {core slot : Nat} (h : (t.ctx core slot).sh.queues = (s.ctx core slot).sh.queues) (q : Nat) :
    queueAt t core slot q = queueAt s core slot q := by
  rw [queueAt, queueAt, h]

theorem myQueue_congr {s t : State} (hc : t.cur = s.cur) (h : t.myCtx.sh.queues = s.myCtx.sh.queues) (q : Nat) :
    myQueue t q = myQueue s q := by
  unfold myQueue
  rw [hc]
  rw [State.myCtx, hc] at h
  exact queueAt_congr h q

@[simp] theorem ctx_orderPoint (s : State) (p : PartyId) (c k : Nat) : (orderPoint s p).ctx c k = s.ctx c k := rfl

@[simp] theorem ctx_fenceLate (s : State) (p : PartyId) (c k : Nat) : (fenceLate s p).ctx c k = s.ctx c k := by
  unfold fenceLate
  split <;> simp

@[simp] theorem ctx_progress (s : State) (core slot c k : Nat) : (progress s core slot).ctx c k = s.ctx c k := by
  unfold progress
  split <;> simp

@[simp] theorem cur_progress (s : State) (core slot : Nat) : (progress s core slot).cur = s.cur := by
  unfold progress
  split <;> simp

@[simp] theorem mem_progress (s : State) (core slot : Nat) : (progress s core slot).mem = s.mem := by
  unfold progress
  split <;> simp

theorem eventFor_spec (core slot i : Nat) (ps : List Party) (s : State) :
    (eventFor s core slot i ps).ctxs = s.ctxs ∧ (eventFor s core slot i ps).mem = s.mem := by
  induction ps generalizing s with
  | nil => exact ⟨rfl, rfl⟩
  | cons p ps ih =>
    obtain ⟨hx, hm⟩ := ih (s.modParty ⟨core, slot, p⟩ fun x => setEvent x i)
    exact ⟨hx.trans (by simp), hm.trans (by simp)⟩

@[simp] theorem ctx_eventAll (s : State) (core slot i c k : Nat) : (eventAll s core slot i).ctx c k = s.ctx c k := by
  simp only [State.ctx, eventAll, (eventFor_spec core slot i allParties s).1]

@[simp] theorem mem_eventAll (s : State) (core slot i : Nat) : (eventAll s core slot i).mem = s.mem :=
  (eventFor_spec core slot i allParties s).2

theorem myCtx_modSh (s : State) (f : Shared → Shared) : (s.modSh f).myCtx = { s.myCtx with sh := f s.myCtx.sh } := by
  simp [State.modSh]

theorem myQueue_modSh {s : State} {f : Shared → Shared} (h : (f s.myCtx.sh).queues = s.myCtx.sh.queues) (q : Nat) :
    myQueue (s.modSh f) q = myQueue s q :=
  myQueue_congr (s := s) (t := s.modSh f) rfl (by rw [myCtx_modSh, h]) q

/-! ## Items pushed and popped (R271, R274, R210) -/

@[simp] theorem cur_pushItem (s : State) (q : Nat) (i : Item) : (pushItem s q i).cur = s.cur := rfl

/-- An item goes to the end of its queue. -/
theorem myQueue_pushItem (s : State) (q k : Nat) (i : Item) :
    myQueue (pushItem s q i) k = if k = q then myQueue s q ++ [i] else myQueue s k := by
  unfold myQueue queueAt pushItem
  rw [State.cur_modSh]
  change look [] (State.myCtx _).sh.queues k = _
  rw [myCtx_modSh, look_put]
  rfl

theorem pushAll_spec (i : Item) (qs : List Nat) (s : State) : (pushAll s i qs).cur = s.cur ∧ (pushAll s i qs).mem = s.mem := by
  induction qs generalizing s with
  | nil => exact ⟨rfl, rfl⟩
  | cons q qs ih => exact ih (pushItem s q i)

/-- An item goes to the end of each queue of a list, once. -/
theorem myQueue_pushAll (i : Item) {qs : List Nat} (h : qs.Nodup) (s : State) (k : Nat) :
    myQueue (pushAll s i qs) k = if k ∈ qs then myQueue s k ++ [i] else myQueue s k := by
  induction qs generalizing s with
  | nil => simp [pushAll]
  | cons q qs ih =>
    obtain ⟨hq, hqs⟩ := List.nodup_cons.1 h
    refine (ih hqs (pushItem s q i)).trans ?_
    rw [myQueue_pushItem]
    by_cases hk : k = q
    · subst hk
      simp [hq]
    · simp [hk]

@[simp] theorem myQueue_useQueues (s : State) (qs : List Nat) (k : Nat) : myQueue (useQueues s qs) k = myQueue s k :=
  
  myQueue_modSh rfl k

@[simp] theorem mem_useQueues (s : State) (qs : List Nat) : (useQueues s qs).mem = s.mem := rfl

theorem mem_maskQueues {m q : Nat} : q ∈ maskQueues m ↔ q < 6 ∧ m.testBit q = true := by simp [maskQueues]

theorem nodup_maskQueues (m : Nat) : (maskQueues m).Nodup := List.nodup_range.filter _

/-- The items of a queue after an item is pushed into each queue that a mask names. -/
theorem myQueue_pushAll_mask (s : State) (i : Item) (m : Nat) {q : Nat} (hq : q < 6) :
    myQueue (pushAll s i (maskQueues m)) q = if m.testBit q then myQueue s q ++ [i] else myQueue s q := by
  rw [myQueue_pushAll i (nodup_maskQueues m)]
  simp [mem_maskQueues, hq]

/-- The head leaves its queue. -/
theorem queueAt_popItem (s : State) (core slot q k : Nat) :
    queueAt (popItem s core slot q) core slot k = if k = q then (queueAt s core slot q).drop 1 else queueAt s core slot k := by
  unfold queueAt popItem
  rw [State.ctx_modCtx_same, look_put]

@[simp] theorem mem_popItem (s : State) (core slot q : Nat) : (popItem s core slot q).mem = s.mem := rfl

theorem mem_foldl_popItem (core slot : Nat) (qs : List Nat) (s : State) :
    (qs.foldl (fun t q => popItem t core slot q) s).mem = s.mem := by
  induction qs generalizing s with
  | nil => rfl
  | cons q qs ih => exact ih (popItem s core slot q)

/-- The heads of several queues leave them. -/
theorem queueAt_foldl_popItem (core slot : Nat) {qs : List Nat} (h : qs.Nodup) (s : State) (k : Nat) :
    queueAt (qs.foldl (fun t q => popItem t core slot q) s) core slot k =
      if k ∈ qs then (queueAt s core slot k).drop 1 else queueAt s core slot k := by
  induction qs generalizing s with
  | nil => simp
  | cons q qs ih =>
    obtain ⟨hq, hqs⟩ := List.nodup_cons.1 h
    refine (ih hqs (popItem s core slot q)).trans ?_
    rw [queueAt_popItem]
    by_cases hk : k = q
    · subst hk
      simp [hq]
    · simp [hk]

/-! ## ENQ, MARK, NOTIFY, QFENCE, RDV -/

theorem roomIn_eq {s : State} {qs : List Nat} (h : ∀ q ∈ qs, (myQueue s q).length < 16) : roomIn s qs = true := by
  simpa [roomIn, myQueue] using h

theorem noSuchQueue_eq {s : State} {qs : List Nat} (h : ∀ q ∈ qs, s.supervisor = true → 2 ≤ q) : noSuchQueue s qs = false := by
  cases hs : s.supervisor with
  | false => simp [noSuchQueue, hs]
  | true =>
    simp only [noSuchQueue, hs, Bool.true_and, List.any_eq_false, decide_eq_true_eq, not_lt]
    exact fun q hq => h q hq hs

theorem anyNotified_eq {s : State} {qs : List Nat} (h : ∀ q ∈ qs, s.myCtx.sh.notified.getLsbD q = false) :
    anyNotified s qs = false := by
  simpa [anyNotified] using h

/-- The state that ENQ leaves: the entry at the end of its queue. -/
def enqueued (s : State) (q : Nat) (o : Word) (args : List Word) : State :=
  progress (useQueues (pushItem (fenceLate s s.cur) q (.entry o args)) [q]) s.cur.core s.cur.slot

@[simp] theorem mem_enqueued (s : State) (q : Nat) (o : Word) (args : List Word) : (enqueued s q o args).mem = s.mem := by
  rw [enqueued, mem_progress, mem_useQueues, pushItem, State.mem_modSh, mem_fenceLate]

theorem myQueue_enqueued (s : State) (q k : Nat) (o : Word) (args : List Word) :
    myQueue (enqueued s q o args) k = if k = q then myQueue s q ++ [.entry o args] else myQueue s k := by
  have hp (t : State) : myQueue (progress t s.cur.core s.cur.slot) k = myQueue t k :=
    myQueue_congr (cur_progress _ _ _) (by simp [State.myCtx]) k
  have hf (k : Nat) : myQueue (fenceLate s s.cur) k = myQueue s k := myQueue_congr (cur_fenceLate _ _) (by simp [State.myCtx]) k
  rw [enqueued, hp, myQueue_useQueues, myQueue_pushItem, hf, hf]

/-- A legal ENQ of a ready wing waits for room and for its wing's stores to the scratchpad, and otherwise completes. -/
theorem exec_enq {s : State} {w g : B2} {f : B6} {n : BitVec 3} {e : BitVec 9} {q : BitVec 3} (h : Ready s .wing w g)
    (hq : q.toNat ≤ 5) (hn : n.toNat ≤ 4) (hf : n = 0 → f = 0) (hs : noSuchQueue s [q.toNat] = false)
    (hnt : anyNotified s [q.toNat] = false) (hz : 64 * e.toNat < sectionSize s (q.toNat + 1))
    (hr : n ≠ 0 → f.toNat + n.toNat ≤ 64) :
    exec (.enq w g f n e q) s =
      conclude s w g (if !roomIn s [q.toNat] || scratchLate s s.cur then .wait s
        else .done (enqueued s q.toNat (word (64 * e.toNat)) ((List.range n.toNat).map (fun i => s.reg (f.toNat + i)))) 1) := by
  have hleg : ¬(s.cur.party.map = .wing ∧ (5 < q.toNat ∨ 4 < n.toNat ∨ (n = 0 ∧ f ≠ 0))) := by
    rintro ⟨-, h | h | ⟨h, h'⟩⟩
    · omega
    · omega
    · exact h' (hf h)
  have hregs : (decide (n ≠ 0) && decide (63 < f.toNat + n.toNat - 1)) = false := by
    rw [Bool.and_eq_false_imp]
    intro hn0
    have := hr (of_decide_eq_true hn0)
    exact decide_eq_false (by omega)
  have hsz : decide (sectionSize s (q.toNat + 1) ≤ 64 * e.toNat) = false := decide_eq_false (by omega)
  change execEnq w g f n e q s = _
  rw [execEnq, if_neg hleg, tokened_ready h]
  simp only [hs, hnt, hsz, hregs, Bool.or_self, Bool.false_eq_true, if_false]
  rfl

theorem enqAppendsAnEntry : Claims.EnqAppendsAnEntry := by
  intro s w g f n e q h hq hn hf hs hnt hz hr hl
  have hno : noSuchQueue s [q.toNat] = false := noSuchQueue_eq fun k hk => by rw [List.mem_singleton.1 hk]; exact hs
  have hany : anyNotified s [q.toNat] = false := anyNotified_eq fun k hk => by rw [List.mem_singleton.1 hk]; exact hnt
  have hroom : roomIn s [q.toNat] = true := roomIn_eq fun k hk => by rw [List.mem_singleton.1 hk]; exact hl
  have hexec := exec_enq (e := e) h hq hn hf hno hany hz hr
  refine ⟨fun hsc => ?_, fun hsc => ⟨enqueued s q.toNat (word (64 * e.toNat)) ((List.range n.toNat).map fun i => s.reg (f.toNat + i)),
    ?_, mem_enqueued _ _ _ _, ?_, fun k hk => ?_⟩⟩
  · rw [hexec, hsc, Bool.or_true, if_pos rfl, conclude_wait]
  · rw [completes, hexec, hsc, hroom]
    exact conclude_done (signalWaits_ready h) _ _ _
  · rw [myQueue_enqueued, if_pos rfl]
  · rw [myQueue_enqueued, if_neg hk]

/-- Queues that a task may use, have room and have not received its notify: what MARK, NOTIFY and QFENCE ask of the queues they name. -/
theorem queues_free {s : State} {m : Nat}
    (h : ∀ q < 6, m.testBit q = true →
      (s.supervisor = true → 2 ≤ q) ∧ s.myCtx.sh.notified.getLsbD q = false ∧ (myQueue s q).length < 16) :
    noSuchQueue s (maskQueues m) = false ∧ anyNotified s (maskQueues m) = false ∧ roomIn s (maskQueues m) = true := by
  have h' : ∀ q ∈ maskQueues m, _ := fun q hq => h q (mem_maskQueues.1 hq).1 (mem_maskQueues.1 hq).2
  exact ⟨noSuchQueue_eq fun q hq => (h' q hq).1, anyNotified_eq fun q hq => (h' q hq).2.1, roomIn_eq fun q hq => (h' q hq).2.2⟩

section
variable {s : State} {w g : B2} (h : Ready s .wing w g)
include h

theorem mark_completes {n : BitVec 4} {m : BitVec 6} (hm : m ≠ 0) (hno : noSuchQueue s (maskQueues m.toNat) = false)
    (hany : anyNotified s (maskQueues m.toNat) = false) (hroom : roomIn s (maskQueues m.toNat) = true)
    (hrv : look 0 s.myCtx.sh.rv n.toNat = 0) :
    completes (.mark w g n m) s w g
      (useQueues (pushAll (s.modSh fun h => { h with rv := put h.rv n.toNat m }) (.mark n.toNat) (maskQueues m.toNat))
        (maskQueues m.toNat)) := by
  change execMark w g n m s = _
  rw [execMark, tokened_ready h, ← conclude_done (signalWaits_ready h)]
  have hm0 : decide (m = 0) = false := decide_eq_false hm
  have hgo : ¬(look 0 s.myCtx.sh.rv n.toNat ≠ 0 ∨ roomIn s (maskQueues m.toNat) = false) :=
    fun h => h.elim (fun h => h hrv) (fun h => Bool.false_ne_true (h.symm.trans hroom))
  simp only [hm0, hno, hany, Bool.or_self, Bool.false_eq_true, if_false, if_neg hgo]

theorem notify_completes {m : BitVec 6} (hm : m ≠ 0) (hno : noSuchQueue s (maskQueues m.toNat) = false)
    (hany : anyNotified s (maskQueues m.toNat) = false) (hroom : roomIn s (maskQueues m.toNat) = true) :
    completes (.notify w g m) s w g
      ((pushAll s .notify (maskQueues m.toNat)).modSh fun h => { h with notified := h.notified ||| m }) := by
  change execNotify w g m s = _
  rw [execNotify, tokened_ready h, ← conclude_done (signalWaits_ready h)]
  have hm0 : decide (m = 0) = false := decide_eq_false hm
  simp only [hm0, hno, hany, hroom, Bool.or_self, Bool.not_true, Bool.false_eq_true, if_false]

theorem qfence_completes {m : BitVec 4} (hm : 2 ≤ (maskQueues m.toNat).length) (hno : noSuchQueue s (maskQueues m.toNat) = false)
    (hany : anyNotified s (maskQueues m.toNat) = false) (hroom : roomIn s (maskQueues m.toNat) = true) :
    completes (.qfence w g m) s w g
      (useQueues (pushAll s (.join (m.setWidth 6)) (maskQueues m.toNat)) (maskQueues m.toNat)) := by
  change execQfence w g m s = _
  rw [execQfence, tokened_ready h, ← conclude_done (signalWaits_ready h)]
  have hm2 : decide ((maskQueues m.toNat).length < 2) = false := decide_eq_false (by omega)
  simp only [hm2, hno, hany, hroom, Bool.or_self, Bool.not_true, Bool.false_eq_true, if_false]

theorem rdv_completes {n : BitVec 4} (hrv : look 0 s.myCtx.sh.rv n.toNat = 0) :
    completes (.rdv w g n) s w g (orderPoint s s.cur) := by
  change execRdv w g n s = _
  rw [execRdv, tokened_ready h, ← conclude_done (signalWaits_ready h)]
  rw [if_neg (not_not.2 hrv)]

end

theorem marksJoinsNotifiesAppend : Claims.MarksJoinsNotifiesAppend := by
  intro s w g n m j h free appends
  refine ⟨fun hm hfree hrv => ?_, fun hm hfree => ?_, fun hj hfree => ?_, rdv_completes h⟩
  · obtain ⟨hno, hany, hroom⟩ := queues_free hfree
    refine ⟨_, mark_completes h hm hno hany hroom hrv, ?_, fun q hq => ?_⟩
    · rw [mem_useQueues, (pushAll_spec _ _ _).2, State.mem_modSh]
    · rw [myQueue_useQueues, myQueue_pushAll_mask _ _ _ hq, myQueue_modSh rfl]
  · obtain ⟨hno, hany, hroom⟩ := queues_free hfree
    refine ⟨_, notify_completes h hm hno hany hroom, ?_, fun q hq => ?_⟩
    · rw [State.mem_modSh, (pushAll_spec _ _ _).2]
    · rw [myQueue_modSh rfl, myQueue_pushAll_mask _ _ _ hq]
  · obtain ⟨hno, hany, hroom⟩ := queues_free hfree
    refine ⟨_, qfence_completes h hj hno hany hroom, ?_, fun q hq => ?_⟩
    · rw [mem_useQueues, (pushAll_spec _ _ _).2]
    · rw [myQueue_useQueues, myQueue_pushAll_mask _ _ _ hq]

/-! ## Heads that move -/

theorem occurs_true {s t : State} {b : Bool} (h : b = true) : occurs s b t = .next t := by rw [occurs, if_pos h]

theorem look_regs_loadArgs (x : PartyState) (k : Nat) (args : List Word) (i : Nat) :
    look 0 (loadArgs x k args).regs i = if k ≤ i ∧ i < k + args.length then args.getD (i - k) 0 else look 0 x.regs i := by
  induction args generalizing x k with
  | nil => rw [if_neg (by simp)]; rfl
  | cons v vs ih =>
    rw [loadArgs, ih, look_put, List.length_cons]
    by_cases hi : i = k
    · subst hi
      rw [if_neg (by omega), if_pos rfl, if_pos (by omega), Nat.sub_self]
      rfl
    · rw [if_neg hi]
      by_cases hk : k + 1 ≤ i ∧ i < k + 1 + vs.length
      · rw [if_pos hk, if_pos (by omega), show i - k = (i - (k + 1)) + 1 by omega]
        rfl
      · rw [if_neg hk, if_neg (by omega)]

theorem withheldAt_spec (s : State) (p : PartyId) :
    (withheldAt s p).mem = s.mem ∧ (withheldAt s p).parties = s.parties ∧
      ((withheldAt s p).ctx p.core p.slot).sh = (s.ctx p.core p.slot).sh := by
  unfold withheldAt
  split
  · split
    · exact ⟨rfl, rfl, by rw [State.ctx_modCtx_same]⟩
    · exact ⟨rfl, rfl, rfl⟩
  · exact ⟨rfl, rfl, rfl⟩

/-- An entry that begins has left its queue. -/
theorem queueAt_beginEntry (s : State) (p : PartyId) (o : Word) (args : List Word) :
    queueAt (beginEntry s p o args) p.core p.slot (queueOf p.party) = (queueAt s p.core p.slot (queueOf p.party)).drop 1 := by
  have hw := (withheldAt_spec (popItem s p.core p.slot (queueOf p.party)) p).2.2
  calc queueAt (beginEntry s p o args) p.core p.slot (queueOf p.party)
      = queueAt (popItem s p.core p.slot (queueOf p.party)) p.core p.slot (queueOf p.party) :=
        queueAt_congr (by simp [beginEntry, hw]) _
    _ = _ := by rw [queueAt_popItem, if_pos rfl]

theorem mem_beginEntry (s : State) (p : PartyId) (o : Word) (args : List Word) : (beginEntry s p o args).mem = s.mem := by
  have hw := (withheldAt_spec (popItem s p.core p.slot (queueOf p.party)) p).1
  simp [beginEntry, hw]

/-- A mark that retires has left its queue, and its bit is clear. -/
theorem retireMark_spec (s : State) (p : PartyId) (n : Nat) :
    queueAt (retireMark s p n) p.core p.slot (queueOf p.party) = (queueAt s p.core p.slot (queueOf p.party)).drop 1 ∧
      look 0 ((retireMark s p n).ctx p.core p.slot).sh.rv n =
        setBit (look 0 (s.ctx p.core p.slot).sh.rv n) (queueOf p.party) false ∧
      (retireMark s p n).mem = s.mem := by
  have hctx : (retireMark s p n).ctx p.core p.slot =
      { (popItem s p.core p.slot (queueOf p.party)).ctx p.core p.slot with sh :=
        { ((popItem s p.core p.slot (queueOf p.party)).ctx p.core p.slot).sh with
          rv := put ((popItem s p.core p.slot (queueOf p.party)).ctx p.core p.slot).sh.rv n
            (setBit (look 0 ((popItem s p.core p.slot (queueOf p.party)).ctx p.core p.slot).sh.rv n) (queueOf p.party) false) } } := by
    unfold retireMark
    dsimp only
    rw [ctx_progress]
    split
    · rw [ctx_eventAll, State.ctx_modCtx_same]
    · rw [State.ctx_modCtx_same]
  refine ⟨?_, ?_, ?_⟩
  · refine (queueAt_congr (s := popItem s p.core p.slot (queueOf p.party)) (by rw [hctx]) _).trans ?_
    rw [queueAt_popItem, if_pos rfl]
  · rw [hctx, look_put_same, popItem, State.ctx_modCtx_same]
  · unfold retireMark
    dsimp only
    rw [mem_progress]
    split
    · rw [mem_eventAll]
      rfl
    · rfl

/-- A notify that retires has left its queue, and the queue's bit is set. -/
theorem retireNotify_spec (s : State) (p : PartyId) :
    queueAt (retireNotify s p) p.core p.slot (queueOf p.party) = (queueAt s p.core p.slot (queueOf p.party)).drop 1 ∧
      ((retireNotify s p).ctx p.core p.slot).sh.retired = setBit (s.ctx p.core p.slot).sh.retired (queueOf p.party) true ∧
      (retireNotify s p).mem = s.mem := by
  refine ⟨?_, ?_, rfl⟩
  · refine (queueAt_congr (s := popItem s p.core p.slot (queueOf p.party)) ?_ _).trans ?_
    · rw [retireNotify, State.ctx_modCtx_same]
    · rw [queueAt_popItem, if_pos rfl]
  · rw [retireNotify, State.ctx_modCtx_same, popItem, State.ctx_modCtx_same]

theorem queueHeadsMove : Claims.QueueHeadsMove := by
  intro s p rest q here hp
  have hdrop {i : Item} (hh : here s = i :: rest) : (queueAt s p.core p.slot (queueOf p.party)).drop 1 = rest := by
    rw [show queueAt s p.core p.slot (queueOf p.party) = i :: rest from hh]
    rfl
  have hen (ha : slotAlive s p.core p.slot = true) (hi : engineIdle s p.core p.slot p.party = true) :
      (!p.party.isWing && slotAlive s p.core p.slot && engineIdle s p.core p.slot p.party) = true := by
    simp [hp, ha, hi]
  refine ⟨fun o args hh _ hb => ?_, fun n hh ha hi => ?_, fun hh ha hi => ?_⟩
  · refine ⟨beginEntry s p o args, ?_, (queueAt_beginEntry s p o args).trans (hdrop hh), ?_⟩
    · change execEntryBegin p s = _
      rw [execEntryBegin, show queueAt s p.core p.slot (queueOf p.party) = _ from hh]
      exact occurs_true hb
    · refine ⟨?_, ?_, ?_, ?_, fun i hi => ?_, mem_beginEntry s p o args⟩
      all_goals rw [beginEntry, State.party_modParty_same]
      rw [look_regs_loadArgs, if_pos (by omega), Nat.sub_zero]
  · obtain ⟨hq, hrv, hm⟩ := retireMark_spec s p n
    refine ⟨retireMark s p n, ?_, hq.trans (hdrop hh), hrv, hm⟩
    change execMarkRetire p s = _
    rw [execMarkRetire, show queueAt s p.core p.slot (queueOf p.party) = _ from hh]
    exact occurs_true (hen ha hi)
  · obtain ⟨hq, hr, hm⟩ := retireNotify_spec s p
    refine ⟨retireNotify s p, ?_, hq.trans (hdrop hh), hr, hm⟩
    change execNotifyRetire p s = _
    rw [execNotifyRetire, show queueAt s p.core p.slot (queueOf p.party) = _ from hh]
    exact occurs_true (hen ha hi)

/-! ## Joins (R210) -/

/-- A join is ready at the head of a queue that it names if it is at the head of all of them, with their engines idle. -/
theorem readyJoin_join {s : State} {core slot : Nat} {m : BitVec 6}
    (h : ∀ q < 6, m.toNat.testBit q = true →
      (queueAt s core slot q).head? = some (.join m) ∧ engineIdle s core slot (engineOf q) = true)
    {i : Nat} (hi : i < 6) (hm : m.toNat.testBit i = true) : readyJoin s core slot i = some (maskQueues m.toNat) := by
  obtain ⟨rest, hq⟩ := List.head?_eq_some_iff.1 (h i hi hm).1
  have hall : (maskQueues m.toNat).all (fun k =>
      decide ((queueAt s core slot k).head? = some (.join m)) && engineIdle s core slot (engineOf k)) = true := by
    rw [List.all_eq_true]
    intro k hk
    obtain ⟨hk6, hkm⟩ := mem_maskQueues.1 hk
    simp [h k hk6 hkm]
  rw [readyJoin, hq]
  exact if_pos hall

theorem readyJoin_none {s : State} {core slot i : Nat} (h : ∀ k, (queueAt s core slot i).head? ≠ some (.join k)) :
    readyJoin s core slot i = none := by
  unfold readyJoin
  split
  next m rest hq => exact absurd (by rw [hq]; rfl) (h m)
  next => rfl

/-- What a search finds where every hit is the same and there is one. -/
theorem filterMap_eq_cons {α β : Type} {f : α → Option β} {l : List α} {b : β} (h : ∀ a ∈ l, f a = some b ∨ f a = none)
    {a : α} (ha : a ∈ l) (hf : f a = some b) : ∃ bs, l.filterMap f = b :: bs := by
  obtain ⟨c, bs, hcs⟩ := List.exists_cons_of_ne_nil (List.ne_nil_of_mem (List.mem_filterMap.2 ⟨a, ha, hf⟩))
  obtain ⟨d, hd, hdc⟩ := List.mem_filterMap.1 (hcs ▸ List.mem_cons_self : c ∈ l.filterMap f)
  refine ⟨bs, hcs.trans ?_⟩
  obtain hb | hn := h d hd
  · rw [hb] at hdc
    rw [Option.some.inj hdc]
  · rw [hn] at hdc
    cases hdc

theorem joinsRelease : Claims.JoinsRelease := by
  intro s core slot m j hj hm _ hready hother halive
  have hcases : ∀ i ∈ List.range 4, readyJoin s core slot i = some (maskQueues m.toNat) ∨ readyJoin s core slot i = none := by
    intro i hi
    have hi4 := List.mem_range.1 hi
    cases hb : m.toNat.testBit i with
    | true => exact .inl (readyJoin_join hready (by omega) hb)
    | false => exact .inr (readyJoin_none (hother i hi4 hb))
  obtain ⟨bs, hbs⟩ := filterMap_eq_cons hcases (List.mem_range.2 hj) (readyJoin_join hready (by omega) hm)
  refine ⟨(maskQueues m.toNat).foldl (fun t q => popItem t core slot q) s, ?_, mem_foldl_popItem _ _ _ _, fun q hq => ?_⟩
  · change execQfenceJoinRelease core slot s = _
    rw [execQfenceJoinRelease, hbs]
    exact occurs_true halive
  · rw [queueAt_foldl_popItem _ _ (nodup_maskQueues _)]
    simp [mem_maskQueues, hq]

/-- Settles O19: items go to the ends of the queues named, and leave them at their heads. -/
theorem engineQueues : Obligations.EngineQueues :=
  ⟨enqAppendsAnEntry, marksJoinsNotifiesAppend, queueHeadsMove, joinsRelease⟩

end Sys2Proof.Machine
end

section
/-! PROOFS. Tasks that resume, end and are pre-empted, and completions (O28): what the release of a task and the write of a completion
record leave alone, and what the queue of a launch is after them. -/

namespace Sys2Proof.Machine

/-! ## States that differ in nothing that hosts and queues see -/

/-- `t` has the launch queues, the saved tasks, the interrupts sent, the keys and the time of `s`. -/
structure KeepsHost (s t : State) : Prop where
  queues : t.queues = s.queues
  cocoons : t.cocoons = s.cocoons
  out : t.out = s.out
  keys : t.keys = s.keys
  time : t.time = s.time

namespace KeepsHost

variable {s t u : State}

theorem refl (s : State) : KeepsHost s s := ⟨rfl, rfl, rfl, rfl, rfl⟩

theorem trans (h : KeepsHost s t) (k : KeepsHost t u) : KeepsHost s u :=
  ⟨k.queues.trans h.queues, k.cocoons.trans h.cocoons, k.out.trans h.out, k.keys.trans h.keys, k.time.trans h.time⟩

theorem ite (s : State) {c : Prop} [Decidable c] (ht : KeepsHost s t) (hu : KeepsHost s u) : KeepsHost s (if c then t else u) := by
  split
  · exact ht
  · exact hu

/-- A fold of steps each of which keeps what hosts see. -/
theorem foldl {α : Type} {f : State → α → State} (hf : ∀ t e, KeepsHost t (f t e)) (l : List α) (s : State) :
    KeepsHost s (l.foldl f s) :=
  List.foldlRecOn l f (refl s) (fun t h e _ => h.trans (hf t e))

theorem queue (h : KeepsHost s t) (p q : Nat) : t.queue p q = s.queue p q := by simp only [State.queue, h.queues]

theorem revokedPlace (h : KeepsHost s t) (p : Place) : revokedPlace t p = revokedPlace s p := by
  simp only [Machine.revokedPlace, isRevoked, State.key, h.keys]

variable (s)

theorem modParty (p : PartyId) (f : PartyState → PartyState) : KeepsHost s (s.modParty p f) := ⟨rfl, rfl, rfl, rfl, rfl⟩
theorem modCore (c : Nat) (f : CoreState → CoreState) : KeepsHost s (s.modCore c f) := ⟨rfl, rfl, rfl, rfl, rfl⟩
theorem setPart (p : Nat) (x : Partition) : KeepsHost s (s.setPart p x) := ⟨rfl, rfl, rfl, rfl, rfl⟩
theorem setCtx (c k : Nat) (x : Ctx) : KeepsHost s (s.setCtx c k x) := ⟨rfl, rfl, rfl, rfl, rfl⟩

/-! ## The release of a task -/

theorem forget (a n : Nat) : KeepsHost s (forget s a n) := .ite s (.refl s) ⟨rfl, rfl, rfl, rfl, rfl⟩

theorem eventFor (c k i : Nat) (ps : List Party) : KeepsHost s (eventFor s c k i ps) := by
  induction ps generalizing s with
  | nil => exact refl s
  | cons p ps ih => exact (modParty s _ _).trans (ih _)

theorem eventSeq (part r : Nat) : KeepsHost s (eventSeq s part r) := by
  refine foldl (fun t e => ?_) _ s
  exact eventFor t e.1 e.2.1 4 allParties

theorem endClaim (r phase : Nat) : KeepsHost s (endClaim s r phase) := by
  unfold Machine.endClaim
  dsimp only
  generalize (if rowVoiding s r = true then 0 else phase) = p
  have ended : KeepsHost s (rowPut (rowPut (rowPut s r 9 1 p) r 10 1 0) r 12 4 0) := ⟨rfl, rfl, rfl, rfl, rfl⟩
  split
  · exact ended
  · split
    · exact ended.trans (eventSeq _ _ _)
    · exact ended

theorem stampRow (c : Sparse Nat) (r : Nat) (rs : List (Nat × Nat)) : KeepsHost s (stampRow s c r rs) := by
  obtain ⟨m, h⟩ := stampRow_spec s c r rs
  rw [h]
  exact ⟨rfl, rfl, rfl, rfl, rfl⟩

theorem endClaims (serial : Nat) (c : Sparse Nat) : KeepsHost s (endClaims s serial c) :=
  foldl (fun t _ => (endClaim t _ _).trans (stampRow _ _ _ _)) _ s

theorem zeroFrame (die space f num : Nat) : KeepsHost s (zeroFrame s die space f num) :=
  .ite s ((forget s _ _).trans ⟨rfl, rfl, rfl, rfl, rfl⟩) ((forget s _ _).trans ⟨rfl, rfl, rfl, rfl, rfl⟩)

theorem freeFrames (codes : List Nat) : KeepsHost s (freeFrames s codes) :=
  foldl (fun t c => trans (t := { t with owners := drop t.owners c }) ⟨rfl, rfl, rfl, rfl, rfl⟩ (zeroFrame _ _ _ _ _)) codes s

theorem passBarrier (g : Nat) (c : Sparse Nat) (ms : List (PartyId × PartyState)) : KeepsHost s (passBarrier s g c ms) := by
  induction ms generalizing s with
  | nil => exact refl s
  | cons m ms ih =>
    refine trans (t := orderPoint (learn (s.modParty m.1 _) (dieOf m.1.core) c) m.1) ⟨rfl, rfl, rfl, rfl, rfl⟩ (ih _)

theorem checkBarrier (space g : Nat) : KeepsHost s (checkBarrier s space g) := .ite s (passBarrier s _ _ _) (refl s)

theorem leaveGroups (p : PartyId) (gs : List Nat) : KeepsHost s (leaveGroups s p gs) := by
  induction gs generalizing s with
  | nil => exact refl s
  | cons g gs ih => exact (modParty s _ _).trans ((checkBarrier _ _ _).trans (ih _))

theorem stopParties (core slot : Nat) (ps : List Party) : KeepsHost s (stopParties s core slot ps) := by
  induction ps generalizing s with
  | nil => exact refl s
  | cons p ps ih => exact (leaveGroups s _ _).trans ((modParty _ _ _).trans (ih _))

theorem dropSends (core slot : Nat) : KeepsHost s (dropSends s core slot) := by
  unfold Machine.dropSends
  split
  · exact ⟨rfl, rfl, rfl, rfl, rfl⟩
  · exact refl s

theorem dropHeld (core slot : Nat) : KeepsHost s (dropHeld s core slot) := .ite s (refl s) ⟨rfl, rfl, rfl, rfl, rfl⟩

theorem vacate (core slot : Nat) : KeepsHost s (vacate s core slot) := by
  unfold Machine.vacate
  extract_lets holds t
  have unloaded : KeepsHost s { t with loads := t.loads.filter (fun l => !(decide (l.agent.core = core) && decide (l.agent.slot = slot))) } :=
    ⟨rfl, rfl, rfl, rfl, rfl⟩
  exact unloaded.trans (dropHeld _ core slot)

theorem dropClaims (core slot : Nat) : KeepsHost s (dropClaims s core slot) := modCore s core _

theorem leaveWindows (serial : Nat) : KeepsHost s (leaveWindows s serial) := ⟨rfl, rfl, rfl, rfl, rfl⟩

/-- The stages of a release, the last one first. -/
theorem releaseTask (core slot : Nat) (x : Task) : KeepsHost s (releaseTask s core slot x) := by
  have stopped : KeepsHost s (Machine.stopParties (Machine.dropClaims (Machine.dropSends s core slot) core slot) core slot allParties) :=
    (dropSends s core slot).trans ((dropClaims _ _ _).trans (stopParties _ _ _ _))
  unfold Machine.releaseTask
  refine trans ?_ (setCtx _ core slot {})
  refine trans ?_ (freeFrames _ x.frames)
  refine trans ?_ (leaveWindows _ _)
  have unpinned : ∀ (t : State) (ps : List Pin), KeepsHost t { t with pins := ps } := fun _ _ => ⟨rfl, rfl, rfl, rfl, rfl⟩
  refine trans ?_ (unpinned _ _)
  exact (stopped.trans (vacate _ core slot)).trans (endClaims _ _ _)

/-! ## What is written for a Cocoon, and what the part itself writes -/

theorem logDirty (frame : Option Nat) : KeepsHost s (logDirty s frame) := by
  unfold Machine.logDirty
  split
  · exact refl s
  · exact .ite s (refl s) (.ite s (setPart s _ _) (.ite s (setPart s _ _)
      ((forget s _ _).trans ⟨rfl, rfl, rfl, rfl, rfl⟩)))

theorem cocoonWritten (parts : List (Nat × Nat)) : KeepsHost s (cocoonWritten s parts) := by
  unfold Machine.cocoonWritten
  extract_lets gone
  have cleared : KeepsHost s { s with flips := s.flips.filter (fun e => !gone.contains e.1) } := ⟨rfl, rfl, rfl, rfl, rfl⟩
  exact cleared.trans (foldl (fun t e => logDirty t (some e.1)) parts _)

theorem clearParties (core slot : Nat) : KeepsHost s (clearParties s core slot) := ⟨rfl, rfl, rfl, rfl, rfl⟩

theorem countAccess (part a n : Nat) : KeepsHost s (countAccess s part a n) := by
  have moved : ∀ k, KeepsHost s (countMoved s part k n) := fun k => .ite s (refl s) ⟨rfl, rfl, rfl, rfl, rfl⟩
  exact .ite s (moved _) (.ite s (moved _) (.ite s (moved _) (refl s)))

theorem madeBy (who : PartyId) (gs : List Nat) : KeepsHost s (madeBy s who gs) := .ite s (refl s) (modParty s _ _)

theorem remember (who : PartyId) (x : Sight) (num : Nat) (us : List (List Nat)) : KeepsHost s (remember s who x num us) := by
  unfold Machine.remember
  refine trans ?_ (madeBy _ _ _)
  exact ⟨rfl, rfl, rfl, rfl, rfl⟩

theorem rememberPlace (who : PartyId) (part : Nat) (clock : Sparse Nat) (p : Place) (n : Nat) :
    KeepsHost s (rememberPlace s who part clock p n) :=
  .ite s (forget s _ _) (.ite s ((forget s _ _).trans (madeBy _ _ _)) (remember s _ _ _ _))

theorem tagLines (num : Nat) (lines : List Nat) : KeepsHost s (tagLines s num lines) :=
  (foldl (fun t _ => forget t _ _) _ s).trans ⟨rfl, rfl, rfl, rfl, rfl⟩

theorem stampRange (x : Sight) (clock : Sparse Nat) (a n : Nat) : KeepsHost s (stampRange s x clock a n) :=
  .ite s (refl s) ⟨rfl, rfl, rfl, rfl, rfl⟩

theorem setKrev (p : PartyId) : KeepsHost s (setKrev s p) := ⟨rfl, rfl, rfl, rfl, rfl⟩

theorem quietly (s : State) (h : KeepsHost s t) : KeepsHost s (quietly s t) := h.trans ⟨rfl, rfl, rfl, rfl, rfl⟩

end KeepsHost

/-! ## Resumption -/

/-- The first part of O28: all that the event asks for is given. -/
theorem preemptedTasksResume : Claims.PreemptedTasksResume := by
  intro s t core q l c hc hr ha hg
  have given : (resumeCores s core c).all (givenTo s (s.core core).part.toNat q) = true := List.all_eq_true.mpr hg
  change execTaskResume core s = _
  simp only [execTaskResume, hc, hr, ha]
  exact occurs_true given

/-! ## The queue of a launch -/

/-- A second value put at a key takes the place of the first. -/
theorem put_put_same {α : Type} (m : Sparse α) (k : Nat) (a b : α) : put (put m k a) k b = put m k b := by
  induction m with
  | nil => simp [put]
  | cons e m ih =>
    obtain ⟨k', v⟩ := e
    by_cases hlt : k < k'
    · simp [put, hlt]
    · by_cases heq : k = k'
      · simp [put, heq]
      · simp [put, hlt, heq, ih]

theorem setQueue_setQueue (s : State) (p q : Nat) (x y : LQueue) : (s.setQueue p q x).setQueue p q y = s.setQueue p q y := by
  simp only [State.setQueue, put_put_same]

theorem modQueue_setQueue (s : State) (p q : Nat) (x : LQueue) (f : LQueue → LQueue) :
    (s.setQueue p q x).modQueue p q f = s.setQueue p q (f x) := by
  rw [State.modQueue, State.queue_setQueue_same, setQueue_setQueue]

@[simp] theorem mem_signalHost (s : State) (p q : Nat) : (signalHost s p q).mem = s.mem := by
  unfold signalHost
  dsimp only
  split_ifs
  · rfl
  · rfl
  · rfl

/-- An interrupt changes of its queue only what coalescing keeps. -/
theorem queue_signalHost (s : State) (p q : Nat) :
    ∃ d n, (signalHost s p q).queue p q = { s.queue p q with deferred := d, lastInt := n } := by
  unfold signalHost
  dsimp only
  split_ifs
  · exact ⟨_, _, rfl⟩
  · exact ⟨_, _, State.queue_setQueue_same s p q _⟩
  · exact ⟨_, _, State.queue_setQueue_same s p q _⟩

/-! ## Writes of the part itself -/

@[simp] theorem mem_forget (s : State) (a n : Nat) : (forget s a n).mem = s.mem := by
  unfold forget
  split
  · rfl
  · rfl

@[simp] theorem mem_stampRange (s : State) (x : Sight) (clock : Sparse Nat) (a n : Nat) : (stampRange s x clock a n).mem = s.mem := by
  unfold stampRange
  split
  · rfl
  · rfl

@[simp] theorem mem_tagLines (s : State) (num : Nat) (lines : List Nat) : (tagLines s num lines).mem = s.mem := by
  have forgotten : ∀ ls : List Nat, (ls.foldl (fun t l => forget t (64 * l) 64) s).mem = s.mem := fun ls =>
    List.foldlRecOn (motive := fun t => t.mem = s.mem) ls _ rfl (fun t h l _ => (mem_forget t _ _).trans h)
  exact forgotten _

@[simp] theorem mem_countAccess (s : State) (part a n : Nat) : (countAccess s part a n).mem = s.mem := by
  have moved : ∀ k, (countMoved s part k n).mem = s.mem := by
    intro k
    unfold countMoved
    split
    · rfl
    · rfl
  unfold countAccess
  dsimp only
  split_ifs
  · exact moved _
  · exact moved _
  · exact moved _
  · rfl

@[simp] theorem mem_madeBy (s : State) (who : PartyId) (gs : List Nat) : (madeBy s who gs).mem = s.mem := by
  unfold madeBy
  split
  · rfl
  · rfl

@[simp] theorem mem_rememberPlace (s : State) (who : PartyId) (part : Nat) (clock : Sparse Nat) (p : Place) (n : Nat) :
    (rememberPlace s who part clock p n).mem = s.mem := by
  unfold rememberPlace remember
  dsimp only
  split_ifs
  · simp
  · simp
  · simp

/-- The entry of a dirty log keeps memory canonical. -/
theorem wf_logDirty {s : State} (frame : Option Nat) (h : Memory.wf s.mem = true) : Memory.wf (logDirty s frame).mem = true := by
  unfold logDirty
  split
  · exact h
  · dsimp only
    split_ifs
    · exact h
    · exact h
    · exact h
    · exact wf_writeBytes _ _ h

/-- A write merged into the lines of a place changes nothing that hosts see. Where the slot is not revoked and there are bytes, they
are laid on a memory that is canonical where it was. -/
theorem mergeBytes_some {s t : State} {who : PartyId} {part : Nat} {clock : Sparse Nat} {p : Place} {kept : List Nat}
    {bs : List Byte} (hb : bs ≠ []) (hr : revokedPlace s p = false) (h : mergeBytes s who part clock p kept bs = some t) :
    KeepsHost s t ∧ ∃ m, (Memory.wf s.mem = true → Memory.wf m = true) ∧ t.mem = writeBytes m p.phys bs := by
  unfold mergeBytes at h
  extract_lets n wholly cut at h
  rw [if_neg hb, if_neg (by rw [hr]; exact Bool.false_ne_true)] at h
  split at h
  split at h
  · cases h
  · split at h
    · cases h
    · rename_i u hu
      obtain ⟨fs, ds, rfl⟩ := checkWords_spec _ _ _ _ hu
      extract_lets t1 t2 t3 at h
      obtain rfl := Option.some.inj h
      have corrected : ∀ fs', KeepsHost s { s with flips := fs', dies := ds } := fun _ => ⟨rfl, rfl, rfl, rfl, rfl⟩
      have logged : KeepsHost s t1 := (corrected _).trans (.logDirty _ p.frame)
      have written : KeepsHost t1 t2 := ⟨rfl, rfl, rfl, rfl, rfl⟩
      have tagged : KeepsHost t2 t3 ∧ t3.mem = t2.mem := by
        simp only [t3]
        split
        · exact ⟨.tagLines _ _ _, mem_tagLines _ _ _⟩
        · exact ⟨.refl _, rfl⟩
      refine ⟨(logged.trans written).trans (tagged.1.trans (.stampRange _ _ _ _ _)), t1.mem, fun hm => ?_, ?_⟩
      · refine wf_logDirty p.frame ?_
        exact hm
      · rw [mem_stampRange, tagged.2]

theorem mergeBytes_keepsHost {s t : State} {who : PartyId} {part : Nat} {clock : Sparse Nat} {p : Place} {kept : List Nat}
    {bs : List Byte} (h : mergeBytes s who part clock p kept bs = some t) : KeepsHost s t := by
  by_cases hb : bs = []
  · subst hb
    cases h
    exact .refl s
  · by_cases hr : revokedPlace s p = true
    · simp only [mergeBytes, if_neg hb, if_pos hr] at h
      cases h
      exact .setKrev s who
    · exact (mergeBytes_some hb (Bool.not_eq_true _ ▸ hr) h).1

theorem partWrite_keepsHost {s t : State} {part va : Nat} {clock : Sparse Nat} {bs : List Byte}
    (h : partWrite s part va clock bs = some t) : KeepsHost s t := by
  unfold partWrite at h
  split at h
  · cases h
  · split at h
    · split at h
      · cases h
      · obtain ⟨u, hu, rfl⟩ := Option.map_eq_some_iff.mp h
        have kept : KeepsHost s u := ((KeepsHost.countAccess s _ _ _).trans (.rememberPlace _ _ _ _ _ _)).trans (mergeBytes_keepsHost hu)
        exact .quietly s kept
    · cases h; exact .refl s
    · cases h

/-! ## Completions -/

/-- The record of a completion, of 16 bytes. -/
def completionRecord (tag : BitVec 32) (status cause tasks : Nat) : List Byte :=
  bytesOfNat 4 tag.toNat ++ bytesOfNat 1 status ++ bytesOfNat 1 0 ++ bytesOfNat 2 cause ++ bytesOfNat 8 tasks

/-- Where the record of an index goes. -/
def completionAddr (x : LQueue) (index : BitVec 32) : Nat := x.qcpl.toNat + 16 * (index.toNat % 2 ^ bits x.qcfg.toNat 4 0)

section
variable {s t : State} {p q : Nat} {index tag : BitVec 32} {status cause tasks : Nat}

theorem completeRecord_of_written
    (h : partWrite s p (completionAddr (s.queue p q) index) (allKnown s) (completionRecord tag status cause tasks) = some t) :
    completeRecord s p q index tag status cause tasks = signalHost t p q := by
  simp only [completionAddr, completionRecord] at h
  simp only [completeRecord, h]

theorem completeRecord_of_not_written
    (h : partWrite s p (completionAddr (s.queue p q) index) (allKnown s) (completionRecord tag status cause tasks) = none) :
    completeRecord s p q index tag status cause tasks =
      signalHost (s.setQueue p q { s.queue p q with qstat := setBit (s.queue p q).qstat 3 true }) p q := by
  simp only [completionAddr, completionRecord] at h
  simp only [completeRecord, h]

/-- What a completion leaves of the queue's head and of the records that it keeps from running. -/
theorem queue_completeRecord :
    ∃ qs d n, (completeRecord s p q index tag status cause tasks).queue p q =
      { s.queue p q with qstat := qs, deferred := d, lastInt := n } := by
  cases h : partWrite s p (completionAddr (s.queue p q) index) (allKnown s) (completionRecord tag status cause tasks) with
  | none =>
    rw [completeRecord_of_not_written h]
    obtain ⟨d, n, hq⟩ := queue_signalHost (s.setQueue p q { s.queue p q with qstat := setBit (s.queue p q).qstat 3 true }) p q
    exact ⟨_, d, n, by rw [hq, State.queue_setQueue_same]⟩
  | some t =>
    rw [completeRecord_of_written h]
    obtain ⟨d, n, hq⟩ := queue_signalHost t p q
    exact ⟨_, d, n, by rw [hq, (partWrite_keepsHost h).queue]⟩

theorem closeRecords_of_nil (h : (s.queue p q).closing = []) :
    closeRecords s p q = s.setQueue p q { s.queue p q with closing := [] } := by
  simp only [closeRecords, h, List.foldl_nil]

end

/-! ## Tasks that end -/

theorem exec_taskCompletion {s : State} {core slot : Nat} {t : Task} (ht : (s.ctx core slot).task = some t)
    (hd : taskDone s core slot t = true) :
    exec (.taskCompletion core slot) s = .next (taskEnded (releaseTask s core slot t) t none) := by
  change execTaskCompletion core slot s = _
  simp only [execTaskCompletion, ht]
  exact occurs_true hd

theorem ctx_releaseTask_same (s : State) (core slot : Nat) (t : Task) : (releaseTask s core slot t).ctx core slot = {} := by
  unfold releaseTask
  exact State.ctx_setCtx_same _ _ _ _

section
variable {s : State} {t : Task} {l : Launch}

theorem taskEnded_of_other (h : ∀ l, (s.queue t.part t.queue).head = some l → l.id ≠ t.launch) : taskEnded s t none = s := by
  unfold taskEnded
  dsimp only
  split
  · rename_i l hl
    rw [if_pos (h l hl)]
  · rfl

theorem taskEnded_of_head (h : (s.queue t.part t.queue).head = some l) (hid : l.id = t.launch) :
    taskEnded s t none =
      checkLaunch (s.setQueue t.part t.queue { s.queue t.part t.queue with head := some { l with done := l.done + 1 }, lkcnt := 0 })
        t.part t.queue := by
  simp only [taskEnded, h, hid, ne_eq, not_true_eq_false, if_false]

variable {p q : Nat}

theorem checkLaunch_of_unfinished (h : (s.queue p q).head = some l) (hn : ¬(l.next = iterations l ∧ l.done + l.failed = iterations l)) :
    checkLaunch s p q = s := by
  simp only [checkLaunch, h, if_neg hn]

theorem checkLaunch_of_finished (h : (s.queue p q).head = some l) (hn : l.next = iterations l ∧ l.done + l.failed = iterations l) :
    checkLaunch s p q = endHead s p q (if l.cause = none then 0 else 2) (l.cause.getD 0) := by
  cases hc : l.cause with
  | none => simp [checkLaunch, h, hn, hc]
  | some c => simp [checkLaunch, h, hn, hc]

theorem endHead_of_head (h : (s.queue p q).head = some l) (status cause : Nat) :
    endHead s p q status cause =
      closeRecords (completeRecord (s.modQueue p q (fun x => { x with head := none })) p q l.index l.tag status cause l.done) p q := by
  simp only [endHead, h]

end

/-- The second part of O28: a release leaves the launch queues alone, and the end of the last task ends the launch. -/
theorem tasksComplete : Claims.TasksComplete := by
  intro s core slot t _ ht hd
  extract_lets p q r x
  have hr : exec (.taskCompletion core slot) s = .next (taskEnded r t none) := exec_taskCompletion ht hd
  have hq : r.queue p q = x := (KeepsHost.releaseTask s core slot t).queue p q
  refine ⟨?_, hq, fun hother => ?_, fun l hl hid => ⟨fun hn => ?_, fun hnext hdone => ?_⟩⟩
  · rw [ctx_releaseTask_same]
  · rw [hr, taskEnded_of_other (by rwa [hq])]
  · have hh : (r.queue p q).head = some l := by rw [hq, hl]
    rw [hr, taskEnded_of_head hh hid, hq]
    rw [checkLaunch_of_unfinished (by rw [State.queue_setQueue_same]) hn]
  · extract_lets u
    have hh : (r.queue p q).head = some l := by rw [hq, hl]
    have hu : (u.queue p q).head = none ∧ (u.queue p q).closing = x.closing := by
      obtain ⟨qs, d, n, hk⟩ := queue_completeRecord (s := r.setQueue p q { x with head := none, lkcnt := 0 }) (p := p) (q := q)
        (index := l.index) (tag := l.tag) (status := if l.cause = none then 0 else 2) (cause := l.cause.getD 0) (tasks := l.done + 1)
      rw [State.queue_setQueue_same] at hk
      rw [hk]
      exact ⟨rfl, rfl⟩
    refine ⟨?_, hu.1, fun hc => ?_⟩
    · rw [hr, taskEnded_of_head hh hid, hq]
      have counted : ((r.setQueue p q { x with head := some { l with done := l.done + 1 }, lkcnt := 0 }).queue p q).head =
          some { l with done := l.done + 1 } := by rw [State.queue_setQueue_same]
      rw [checkLaunch_of_finished counted ⟨hnext, hdone⟩, endHead_of_head counted, modQueue_setQueue]
    · rw [closeRecords_of_nil (hu.2.trans hc)]
      exact ⟨rfl, rfl, by rw [State.queue_setQueue_same]; exact hu.1⟩

/-! ## Pre-emption -/

/-- A launch that waits has a task asked to stop, where no task of its partition is being stopped. -/
theorem exec_preemptWaitExpiry {s s1 : State} {part i : Nat} {e : Nat × Launch} {v : Nat × Nat × Task}
    (he : starved s part = some e) (hd : s.draw = (i, s1))
    (hv : (victims s part e)[i % (victims s part e).length]? = some v)
    (hn : ∀ x ∈ slotsOf s part, (s.ctx x.1 x.2.1).halting = false) :
    exec (.preemptWaitExpiry part) s = .next (haltSlots s1 (preemptGroup s v.1 v.2.1)) := by
  have idle : ((slotsOf s part).any fun x => (s.ctx x.1 x.2.1).halting) = false :=
    List.any_eq_false.mpr fun x hx => by rw [hn x hx]; exact Bool.false_ne_true
  change execPreemptWaitExpiry part s = _
  simp only [execPreemptWaitExpiry, he, hd, hv]
  exact occurs_true (by rw [idle]; rfl)

section
variable {s : State} {core slot : Nat} {t : Task}

/-- A pre-emption that is due, of which a task has not been asked to stop, asks it. -/
theorem exec_preemption_asks (ht : (s.ctx core slot).task = some t) (hs : (s.part t.part).spent = true)
    (hn : ∃ e ∈ preemptGroup s core slot, (s.ctx e.1 e.2).halting = false) :
    exec (.preemption core slot) s = .next (haltSlots s (preemptGroup s core slot)) := by
  have notAll : ((preemptGroup s core slot).all fun e => (s.ctx e.1 e.2).halting) = false := by
    obtain ⟨e, he, hh⟩ := hn
    exact List.all_eq_false.mpr ⟨e, he, by rw [hh]; exact Bool.false_ne_true⟩
  change execPreemption core slot s = _
  simp only [execPreemption, ht, hs, notAll, Bool.true_or, Bool.not_true, Bool.not_false, Bool.false_eq_true, if_false, if_true]

/-- Tasks asked to stop, whose engines are done, are saved. -/
theorem exec_preemption_saves (ht : (s.ctx core slot).task = some t) (hne : preemptGroup s core slot ≠ [])
    (hh : ∀ e ∈ preemptGroup s core slot, (s.ctx e.1 e.2).halting = true)
    (hg : groupSaveable s (preemptGroup s core slot) = true) {u : State}
    (hu : saveSlots s (mateSerial s) (fun _ => false) (preemptGroup s core slot) = (u, none)) :
    exec (.preemption core slot) s = .next u := by
  have all : ((preemptGroup s core slot).all fun e => (s.ctx e.1 e.2).halting) = true := List.all_eq_true.mpr hh
  have asked : ((preemptGroup s core slot).any fun e => (s.ctx e.1 e.2).halting) = true := by
    obtain ⟨e, he⟩ := List.exists_mem_of_ne_nil _ hne
    exact List.any_eq_true.mpr ⟨e, he, hh e he⟩
  change execPreemption core slot s = _
  simp only [execPreemption, ht, asked, all, hg, hu, Bool.or_true, Bool.not_true, Bool.false_eq_true, if_false, if_true]

/-- What holds no bad value at all holds none in the parts that a task saves. -/
theorem spoilt_of_whole (h : spoilt s core slot true true = false) (mset pops : Bool) : spoilt s core slot mset pops = false := by
  simp only [spoilt, Bool.or_eq_false_iff, Bool.true_and] at h ⊢
  obtain ⟨⟨hp, hf⟩, hv⟩ := h
  exact ⟨⟨hp, by rw [hf, Bool.and_false]⟩, by rw [hv, Bool.and_false]⟩

theorem regionFlips_of_clean (h : s.flips = []) (a n : Nat) : regionFlips s a n = [] := by
  simp only [regionFlips, h, List.filter_nil, List.map_nil]

/-- A task whose state holds no error can be saved. -/
theorem saveTask_isSome (hf : s.flips = []) (hs : spoilt s core slot true true = false) (mate : Nat) (parked : Bool) :
    ∃ u, saveTask s core slot mate parked = some u := by
  unfold saveTask
  split
  · exact ⟨_, rfl⟩
  · extract_lets x base acc mset flips pops
    have noFlips : flips = [] := by
      simp only [flips, regionFlips_of_clean hf, ite_self, List.append_nil]
    simp only [spoilt_of_whole hs, noFlips, checkWords, Bool.false_eq_true, if_false]
    exact ⟨_, rfl⟩

/-- What is saved leaves its slot, and a Cocoon holds its task, its shared state and its parties. -/
theorem saveTask_saved {u : State} {mate : Nat} {parked : Bool} (ht : (s.ctx core slot).task = some t)
    (h : saveTask s core slot mate parked = some u) :
    (u.ctx core slot).task = none ∧ ∃ c, u.cocoons = s.cocoons ++ [c] ∧ c.task.serial = t.serial ∧ c.parked = parked ∧
      c.shared = (s.ctx core slot).sh ∧ c.parties = savedParties s core slot := by
  unfold saveTask at h
  split at h
  · rename_i hnone
    exact absurd (ht.symm.trans hnone) (Option.some_ne_none t)
  · rename_i t' ht'
    obtain rfl : t = t' := Option.some.inj (ht.symm.trans ht')
    extract_lets x base acc mset flips pops at h
    split at h
    · cases h
    split at h
    · cases h
    · rename_i s0 hs0
      obtain ⟨fs, ds, hw⟩ := checkWords_spec _ _ _ _ hs0
      have corrected : KeepsHost s s0 := hw ▸ ⟨rfl, rfl, rfl, rfl, rfl⟩
      extract_lets s1 c trellis accum fifos vin k s2 s3 s4 at h
      obtain rfl := Option.some.inj h
      have kept : KeepsHost s s2 := corrected.trans ((KeepsHost.cocoonWritten _ _).trans ((KeepsHost.dropClaims _ _ _).trans (.vacate _ _ _)))
      have stopped : KeepsHost s2 s3 := .modCore s2 core _
      have emptied : KeepsHost s3 s4 := (KeepsHost.clearParties s3 core slot).trans (.setCtx _ _ _ _)
      refine ⟨?_, k, ?_, rfl, rfl, rfl, rfl⟩
      · have slotEmpty : s4.ctx core slot = {} := State.ctx_setCtx_same _ _ _ _
        exact congrArg Ctx.task slotEmpty
      · exact congrArg (· ++ [k]) (kept.trans (stopped.trans emptied)).cocoons

end

/-- The third part of O28: a task asked to stop for another launch, and what is saved of it. -/
theorem tasksArePreempted : Claims.TasksArePreempted := by
  refine ⟨fun s s1 part i e v he hd hv hn => exec_preemptWaitExpiry he hd hv hn, fun s core slot t ht => ?_⟩
  extract_lets es
  refine ⟨fun hs hn => exec_preemption_asks ht hs hn, fun hne hh hg => ⟨fun u hu => exec_preemption_saves ht hne hh hg hu, ?_⟩⟩
  intro hes _ hf hsp
  obtain ⟨u, hu⟩ := saveTask_isSome hf hsp (mateSerial s (core, slot)) false
  obtain ⟨hempty, c, hc⟩ := saveTask_saved ht hu
  have saved : saveSlots s (mateSerial s) (fun _ => false) es = (u, none) := by
    rw [hes]
    simp only [saveSlots, hu]
  exact ⟨u, c, exec_preemption_saves ht hne hh hg saved, hempty, hc⟩

/-! ## Interrupts -/

section
variable {s : State} {p q : Nat}

theorem signalHost_of_silent (h : (s.queue p q).qcfg.getLsbD 29 = false) : signalHost s p q = s := by
  simp only [signalHost, h, if_true]

theorem out_signalHost_of_first (h : (s.queue p q).qcfg.getLsbD 29 = true) (hn : (s.queue p q).lastInt = none) :
    (signalHost s p q).out = s.out ++ [.interrupt p (s.queue p q).qiv] := by
  simp only [signalHost, h, hn, Bool.true_eq_false, Bool.false_eq_true, if_false]

/-- An interrupt sets no bit of QSTAT. -/
theorem qstat_signalHost (s : State) (p q : Nat) : ((signalHost s p q).queue p q).qstat = (s.queue p q).qstat := by
  obtain ⟨d, n, h⟩ := queue_signalHost s p q
  rw [h]

/-- Bits 31–16 of a queue's configuration hold the coalescing time in µs. -/
theorem bits_coalescing (n : Nat) : bits n 23 16 = n / 2 ^ 16 % 256 := rfl

/-- Bits 4–0 hold the logarithm of the ring's size. -/
theorem bits_ringSize (n : Nat) : bits n 4 0 = n % 32 := by simp [bits]

/-- A deferred interrupt whose time has passed goes out. -/
theorem exec_interruptCoalesceExpiry {n : Nat} (hd : (s.queue p q).deferred = true) (hn : (s.queue p q).lastInt = some n)
    (ht : n + (s.queue p q).qcfg.toNat / 2 ^ 16 % 256 * 1000 ≤ s.time) :
    exec (.interruptCoalesceExpiry p q) s =
      .next { s.setQueue p q { s.queue p q with deferred := false, lastInt := some s.time } with
        out := s.out ++ [.interrupt p (s.queue p q).qiv] } := by
  change execInterruptCoalesceExpiry p q s = _
  simp only [execInterruptCoalesceExpiry, hd, hn, bits_coalescing, ht, decide_true]
  exact occurs_true rfl

end

/-! ## The record of a completion -/

theorem length_bytesOfNat (n v : Nat) : (bytesOfNat n v).length = n := by
  induction n generalizing v with
  | zero => rfl
  | succ n ih => rw [bytesOfNat, List.length_cons, ih]

theorem length_completionRecord (tag : BitVec 32) (status cause tasks : Nat) : (completionRecord tag status cause tasks).length = 16 := by
  simp only [completionRecord, List.length_append, length_bytesOfNat]

/-- A write of the part itself to a place that is not revoked is read back. -/
theorem readBytes_partWrite {s t : State} {part va : Nat} {clock : Sparse Nat} {bs : List Byte} {at_ : Place}
    (hs : s.Inv) (hp : paged s part va = .place at_) (hr : revokedPlace s at_ = false) (hb : bs ≠ [])
    (h : partWrite s part va clock bs = some t) : readBytes t.mem at_.phys bs.length = bs := by
  unfold partWrite at h
  rw [hp] at h
  split at h
  · cases h
  · dsimp only at h
    split at h
    · cases h
    · obtain ⟨u, hu, rfl⟩ := Option.map_eq_some_iff.mp h
      have counted : KeepsHost s (rememberPlace (countAccess s part at_.phys bs.length) thePart part clock at_ bs.length) :=
        (KeepsHost.countAccess s _ _ _).trans (.rememberPlace _ _ _ _ _ _)
      obtain ⟨-, m, hm, hmem⟩ := mergeBytes_some hb ((counted.revokedPlace at_).trans hr) hu
      have wf : Memory.wf m = true := hm (by rw [mem_rememberPlace, mem_countAccess]; exact hs)
      change readBytes u.mem at_.phys bs.length = bs
      rw [hmem]
      exact readBytes_writeBytes _ _ wf

/-- The bit set is set. -/
theorem getLsbD_setBit_true {n : Nat} (x : BitVec n) (i : Nat) (h : i < n) : (setBit x i true).getLsbD i = true := by
  have one : (BitVec.ofNat n (2 ^ i)).getLsbD i = true := by
    rw [BitVec.getLsbD_ofNat, Nat.testBit_two_pow_self]
    simp [h]
  rw [setBit, if_pos rfl, BitVec.getLsbD_or, one, Bool.or_true]

/-- The interrupt that a completion's queue asks for follows whatever became of the record. -/
theorem completeRecord_signals (s : State) (p q : Nat) (index tag : BitVec 32) (status cause tasks : Nat) :
    ∃ t, completeRecord s p q index tag status cause tasks = signalHost t p q ∧ t.out = s.out ∧
      (t.queue p q).qcfg = (s.queue p q).qcfg ∧ (t.queue p q).lastInt = (s.queue p q).lastInt ∧ (t.queue p q).qiv = (s.queue p q).qiv := by
  cases h : partWrite s p (completionAddr (s.queue p q) index) (allKnown s) (completionRecord tag status cause tasks) with
  | none =>
    refine ⟨_, completeRecord_of_not_written h, rfl, ?_, ?_, ?_⟩
    all_goals rw [State.queue_setQueue_same]
  | some t =>
    have kept := partWrite_keepsHost h
    exact ⟨t, completeRecord_of_written h, kept.out, by rw [kept.queue], by rw [kept.queue], by rw [kept.queue]⟩

/-- The fourth part of O28: what becomes of the record, and of the interrupt. -/
theorem completionsInterrupt : Claims.CompletionsInterrupt := by
  intro s p q index tag status cause tasks
  extract_lets x t va record
  have hva : va = completionAddr x index := by rw [completionAddr, bits_ringSize]
  have hrec : record = completionRecord tag status cause tasks := rfl
  obtain ⟨u, hu, hout, hcfg, hlast, hiv⟩ := completeRecord_signals s p q index tag status cause tasks
  rw [hva, hrec]
  refine ⟨fun at_ hlow hp hro hrow hs hr hw => ?_, fun hw => ?_, fun hon hfirst => ?_, fun hoff => ?_, fun n hd hn htime => ?_⟩
  · obtain ⟨w, hw⟩ := Option.ne_none_iff_exists'.mp hw
    have filled : completionRecord tag status cause tasks ≠ [] := List.ne_nil_of_length_pos (by rw [length_completionRecord]; decide)
    have ht : t = signalHost w p q := completeRecord_of_written hw
    constructor
    · rw [ht, mem_signalHost, ← length_completionRecord tag status cause tasks]
      exact readBytes_partWrite hs hp hr filled hw
    · rw [ht, qstat_signalHost, (partWrite_keepsHost hw).queue]
  · have ht : t = signalHost (s.setQueue p q { x with qstat := setBit x.qstat 3 true }) p q := completeRecord_of_not_written hw
    constructor
    · rw [ht, mem_signalHost]
      rfl
    · rw [ht, qstat_signalHost, State.queue_setQueue_same]
      exact getLsbD_setBit_true _ 3 (by decide)
  · change (completeRecord s p q index tag status cause tasks).out = _
    rw [hu, out_signalHost_of_first (hcfg ▸ hon) (hlast.trans hfirst), hout, hiv]
  · change (completeRecord s p q index tag status cause tasks).out = _
    rw [hu, signalHost_of_silent (hcfg ▸ hoff), hout]
  · refine ⟨_, exec_interruptCoalesceExpiry hd hn htime, rfl, ?_, ?_, rfl⟩
    · exact congrArg LQueue.deferred (State.queue_setQueue_same s p q _)
    · exact congrArg LQueue.lastInt (State.queue_setQueue_same s p q _)

/-- Settles O28, part by part. -/
theorem tasksRunAndEnd : Obligations.TasksRunAndEnd :=
  ⟨preemptedTasksResume, tasksComplete, tasksArePreempted, completionsInterrupt⟩

end Sys2Proof.Machine
end

section
/-! PROOFS. Decoding and encoding (O53, O54, O55). A word equals a format's word exactly when its fields are the format's operands,
one lemma for each format; by these each map reads from a word only instructions that encode as it, and each instruction is read
back from its word. -/

namespace Sys2Proof

/-! ## Fields of a word -/

theorem toNat_fld (x : IWord) (lo len : Nat) : (fld x lo len).toNat = x.toNat / 2 ^ lo % 2 ^ len := by
  simp [fld]

theorem fld_eq_of_toNat {x : IWord} {lo len n : Nat} (h : (fld x lo len).toNat = n) : fld x lo len = BitVec.ofNat len n := by
  rw [← h, BitVec.ofNat_toNat, BitVec.setWidth_eq]

/-- A value narrower than its field leaves the field's high bits 0. -/
theorem fld_eq_setWidth_iff {x : IWord} (lo k : Nat) {len : Nat} (v : BitVec len) :
    fld x lo (len + k) = v.setWidth (len + k) ↔ fld x lo len = v ∧ fld x (lo + len) k = 0#k := by
  have hv : v.toNat < 2 ^ len := v.isLt
  simp only [← BitVec.toNat_inj, toNat_fld, BitVec.toNat_setWidth, BitVec.toNat_ofNat, Nat.pow_add, Nat.zero_mod]
  rw [Nat.mod_eq_of_lt (a := v.toNat) (lt_of_lt_of_le hv (Nat.le_mul_of_pos_right _ (by positivity))), Nat.mod_mul,
    Nat.div_div_eq_div_mul]
  constructor
  · intro h
    have hlow := congrArg (· % 2 ^ len) h
    have hhigh := congrArg (· / 2 ^ len) h
    simp only [Nat.add_mul_mod_self_left, Nat.mod_mod, Nat.mod_eq_of_lt hv] at hlow
    simp only [Nat.add_mul_div_left _ _ (Nat.two_pow_pos len), Nat.div_eq_of_lt (Nat.mod_lt _ (Nat.two_pow_pos len)),
      Nat.div_eq_of_lt hv, Nat.zero_add] at hhigh
    exact ⟨hlow, hhigh⟩
  · rintro ⟨hlow, hhigh⟩
    rw [hlow, hhigh, Nat.mul_zero, Nat.add_zero]

/-- A reserved span is 0 exactly when both of its parts are. -/
theorem fld_eq_zero_iff {x : IWord} (lo m n : Nat) :
    fld x lo (m + n) = 0#(m + n) ↔ fld x lo m = 0#m ∧ fld x (lo + m) n = 0#n := by
  simpa using fld_eq_setWidth_iff (x := x) lo n 0#m

/-! ## The formats -/
section
variable {x : IWord}

theorem crWord_eq_iff {major d a b : B6} {fn : BitVec 7} :
    crWord major d a b fn = x ↔ fld x 31 1 = 0#1 ∧ fld x 25 6 = major ∧ fld x 19 6 = d ∧ fld x 13 6 = a ∧ fld x 7 6 = b ∧
      fld x 0 7 = fn := by
  simp only [crWord, ← BitVec.toNat_inj, toNat_fld, BitVec.toNat_ofNat]
  omega

theorem ciWord_eq_iff {major d a : B6} {i : BitVec 13} :
    ciWord major d a i = x ↔ fld x 31 1 = 0#1 ∧ fld x 25 6 = major ∧ fld x 19 6 = d ∧ fld x 13 6 = a ∧ fld x 0 13 = i := by
  simp only [ciWord, ← BitVec.toNat_inj, toNat_fld, BitVec.toNat_ofNat]
  omega

theorem cuWord_eq_iff {major d : B6} {i : BitVec 19} :
    cuWord major d i = x ↔ fld x 31 1 = 0#1 ∧ fld x 25 6 = major ∧ fld x 19 6 = d ∧ fld x 0 19 = i := by
  simp only [cuWord, ← BitVec.toNat_inj, toNat_fld, BitVec.toNat_ofNat]
  omega

theorem cbWord_eq_iff {major a b : B6} {o : BitVec 13} :
    cbWord major a b o = x ↔ fld x 31 1 = 0#1 ∧ fld x 25 6 = major ∧ fld x 19 6 = a ∧ fld x 13 6 = b ∧ fld x 0 13 = o :=
  ciWord_eq_iff

theorem cjWord_eq_iff {major : B6} {o : BitVec 25} :
    cjWord major o = x ↔ fld x 31 1 = 0#1 ∧ fld x 25 6 = major ∧ fld x 0 25 = o := by
  simp only [cjWord, ← BitVec.toNat_inj, toNat_fld, BitVec.toNat_ofNat]
  omega

theorem clWord_eq_iff {major : B6} {l : B2} {c : B6} {n : BitVec 13} :
    clWord major l c n = x ↔ fld x 31 1 = 0#1 ∧ fld x 25 6 = major ∧ fld x 23 2 = l ∧ fld x 17 6 = c ∧ fld x 13 4 = 0#4 ∧
      fld x 0 13 = n := by
  simp only [clWord, ← BitVec.toNat_inj, toNat_fld, BitVec.toNat_ofNat]
  omega

theorem cliWord_eq_iff {major : B6} {l : B2} {i : BitVec 10} {n : BitVec 13} :
    cliWord major l i n = x ↔ fld x 31 1 = 0#1 ∧ fld x 25 6 = major ∧ fld x 23 2 = l ∧ fld x 13 10 = i ∧ fld x 0 13 = n := by
  simp only [cliWord, ← BitVec.toNat_inj, toNat_fld, BitVec.toNat_ofNat]
  omega

theorem psWord_eq_iff {w g : B2} {op d a b : B6} {sub : BitVec 3} :
    psWord w g op d a b sub = x ↔ fld x 31 1 = 1#1 ∧ fld x 29 2 = w ∧ fld x 27 2 = g ∧ fld x 21 6 = op ∧ fld x 15 6 = d ∧
      fld x 9 6 = a ∧ fld x 3 6 = b ∧ fld x 0 3 = sub := by
  simp only [psWord, ← BitVec.toNat_inj, toNat_fld, BitVec.toNat_ofNat]
  omega

theorem pmWord_eq_iff {w g : B2} {op d a : B6} {off : BitVec 9} :
    pmWord w g op d a off = x ↔ fld x 31 1 = 1#1 ∧ fld x 29 2 = w ∧ fld x 27 2 = g ∧ fld x 21 6 = op ∧ fld x 15 6 = d ∧
      fld x 9 6 = a ∧ fld x 0 9 = off := by
  simp only [pmWord, ← BitVec.toNat_inj, toNat_fld, BitVec.toNat_ofNat]
  omega

theorem enqWord_eq_iff {w g : B2} {f : B6} {n : BitVec 3} {e : BitVec 9} {q : BitVec 3} :
    enqWord w g f n e q = x ↔ fld x 31 1 = 1#1 ∧ fld x 29 2 = w ∧ fld x 27 2 = g ∧ fld x 21 6 = 0x18#6 ∧ fld x 15 6 = f ∧
      fld x 12 3 = n ∧ fld x 3 9 = e ∧ fld x 0 3 = q := by
  simp only [enqWord, ← BitVec.toNat_inj, toNat_fld, BitVec.toNat_ofNat]
  omega

theorem bgoneWord_eq_iff {w g : B2} {o : BitVec 18} :
    bgoneWord w g o = x ↔ fld x 31 1 = 1#1 ∧ fld x 29 2 = w ∧ fld x 27 2 = g ∧ fld x 21 6 = 0x33#6 ∧ fld x 3 18 = o ∧
      fld x 0 3 = 0#3 := by
  simp only [bgoneWord, ← BitVec.toNat_inj, toNat_fld, BitVec.toNat_ofNat]
  omega

theorem swptWord_eq_iff {k : BitVec 8} {v : BitVec 3} :
    swptWord k v = x ↔ fld x 31 1 = 1#1 ∧ fld x 27 4 = 0#4 ∧ fld x 21 6 = 0x2C#6 ∧ fld x 11 10 = 0#10 ∧ fld x 3 8 = k ∧
      fld x 0 3 = v := by
  simp only [swptWord, ← BitVec.toNat_inj, toNat_fld, BitVec.toNat_ofNat]
  omega

theorem piWord_eq_iff {w g : B2} {op : B6} {d : B5} {i : BitVec 16} :
    piWord w g op d i = x ↔ fld x 31 1 = 1#1 ∧ fld x 29 2 = w ∧ fld x 27 2 = g ∧ fld x 21 6 = op ∧ fld x 16 5 = d ∧
      fld x 0 16 = i := by
  simp only [piWord, ← BitVec.toNat_inj, toNat_fld, BitVec.toNat_ofNat]
  omega

/-- The low half of PR, below `d`. -/
def prLow (a b : B5) (cw : B2) (pa pb : BitVec 1) (sub : B2) : BitVec 16 :=
  BitVec.ofNat 16 (a.toNat * 2 ^ 11 + b.toNat * 2 ^ 6 + cw.toNat * 2 ^ 4 + pa.toNat * 2 ^ 3 + pb.toNat * 2 ^ 2 + sub.toNat)

theorem fld_eq_prLow_iff {a b : B5} {cw : B2} {pa pb : BitVec 1} {sub : B2} :
    fld x 0 16 = prLow a b cw pa pb sub ↔ fld x 11 5 = a ∧ fld x 6 5 = b ∧ fld x 4 2 = cw ∧ fld x 3 1 = pa ∧ fld x 2 1 = pb ∧
      fld x 0 2 = sub := by
  simp only [prLow, ← BitVec.toNat_inj, toNat_fld, BitVec.toNat_ofNat]
  omega

theorem prWord_eq_piWord (w g : B2) (op : B6) (d a b : B5) (cw : B2) (pa pb : BitVec 1) (sub : B2) :
    prWord w g op d a b cw pa pb sub = piWord w g op d (prLow a b cw pa pb sub) := by
  simp only [prWord, piWord, prLow, ← BitVec.toNat_inj, BitVec.toNat_ofNat]
  omega

theorem prWord_eq_iff {w g : B2} {op : B6} {d a b : B5} {cw : B2} {pa pb : BitVec 1} {sub : B2} :
    prWord w g op d a b cw pa pb sub = x ↔ fld x 31 1 = 1#1 ∧ fld x 29 2 = w ∧ fld x 27 2 = g ∧ fld x 21 6 = op ∧
      fld x 16 5 = d ∧ fld x 11 5 = a ∧ fld x 6 5 = b ∧ fld x 4 2 = cw ∧ fld x 3 1 = pa ∧ fld x 2 1 = pb ∧ fld x 0 2 = sub := by
  rw [prWord_eq_piWord, piWord_eq_iff, fld_eq_prLow_iff]

/-! ## Reserved spans, by the fields of the formats that they cover -/

theorem control_spans :
    (fld x 0 23 = 0#23 ↔ fld x 0 13 = 0#13 ∧ fld x 13 10 = 0#10) ∧
    (fld x 2 23 = 0#23 ↔ fld x 2 11 = 0#11 ∧ fld x 13 6 = 0#6 ∧ fld x 19 6 = 0#6) ∧
    (∀ v : B6, fld x 0 13 = v.setWidth 13 ↔ fld x 0 6 = v ∧ fld x 6 7 = 0#7) ∧
    (∀ v : B5, fld x 0 13 = v.setWidth 13 ↔ fld x 0 5 = v ∧ fld x 5 8 = 0#8) ∧
    (∀ v : B2, fld x 0 13 = v.setWidth 13 ↔ fld x 0 2 = v ∧ fld x 2 11 = 0#11) ∧
    (∀ v : BitVec 4, fld x 0 7 = v.setWidth 7 ↔ fld x 0 4 = v ∧ fld x 4 3 = 0#3) :=
  ⟨fld_eq_zero_iff 0 13 10, (fld_eq_zero_iff 2 11 12).trans (and_congr_right' (fld_eq_zero_iff 13 6 6)),
    fld_eq_setWidth_iff 0 7, fld_eq_setWidth_iff 0 8, fld_eq_setWidth_iff 0 11, fld_eq_setWidth_iff 0 3⟩

theorem wing_spans :
    (fld x 0 9 = 0#9 ↔ fld x 0 3 = 0#3 ∧ fld x 3 6 = 0#6) ∧
    (fld x 0 15 = 0#15 ↔ (fld x 0 3 = 0#3 ∧ fld x 3 6 = 0#6) ∧ fld x 9 6 = 0#6) ∧
    (fld x 0 21 = 0#21 ↔ ((fld x 0 3 = 0#3 ∧ fld x 3 6 = 0#6) ∧ fld x 9 6 = 0#6) ∧ fld x 15 6 = 0#6) ∧
    (fld x 3 18 = 0#18 ↔ (fld x 3 6 = 0#6 ∧ fld x 9 6 = 0#6) ∧ fld x 15 6 = 0#6) ∧
    (fld x 2 13 = 0#13 ↔ (fld x 2 1 = 0#1 ∧ fld x 3 6 = 0#6) ∧ fld x 9 6 = 0#6) ∧
    (∀ v : B2, fld x 0 3 = v.setWidth 3 ↔ fld x 0 2 = v ∧ fld x 2 1 = 0#1) ∧
    (∀ v : BitVec 4, fld x 15 6 = v.setWidth 6 ↔ fld x 15 4 = v ∧ fld x 19 2 = 0#2) := by
  have low9 : fld x 0 9 = 0#9 ↔ _ := fld_eq_zero_iff 0 3 6
  have low15 : fld x 0 15 = 0#15 ↔ _ := (fld_eq_zero_iff 0 9 6).trans (and_congr_left' low9)
  exact ⟨low9, low15, (fld_eq_zero_iff 0 15 6).trans (and_congr_left' low15),
    (fld_eq_zero_iff 3 12 6).trans (and_congr_left' (fld_eq_zero_iff 3 6 6)),
    (fld_eq_zero_iff 2 7 6).trans (and_congr_left' (fld_eq_zero_iff 2 1 6)), fld_eq_setWidth_iff 0 1, fld_eq_setWidth_iff 15 2⟩

/-- The two low bits of AMO's op are its order (R58). -/
theorem amo_op_iff {o : B2} : fld x 21 6 = BitVec.ofNat 6 (0x10 + o.toNat) ↔ fld x 23 4 = 4#4 ∧ fld x 21 2 = o := by
  simp only [← BitVec.toNat_inj, toNat_fld, BitVec.toNat_ofNat]
  omega

theorem engine_spans :
    (fld x 0 3 = 0#3 ↔ fld x 0 2 = 0#2 ∧ fld x 2 1 = 0#1) ∧
    (fld x 2 2 = 0#2 ↔ fld x 2 1 = 0#1 ∧ fld x 3 1 = 0#1) ∧
    (fld x 0 4 = 0#4 ↔ (fld x 0 2 = 0#2 ∧ fld x 2 1 = 0#1) ∧ fld x 3 1 = 0#1) ∧
    (fld x 0 6 = 0#6 ↔ ((fld x 0 2 = 0#2 ∧ fld x 2 1 = 0#1) ∧ fld x 3 1 = 0#1) ∧ fld x 4 2 = 0#2) ∧
    (fld x 0 11 = 0#11 ↔
      (((fld x 0 2 = 0#2 ∧ fld x 2 1 = 0#1) ∧ fld x 3 1 = 0#1) ∧ fld x 4 2 = 0#2) ∧ fld x 6 5 = 0#5) ∧
    (fld x 0 16 = 0#16 ↔
      ((((fld x 0 2 = 0#2 ∧ fld x 2 1 = 0#1) ∧ fld x 3 1 = 0#1) ∧ fld x 4 2 = 0#2) ∧ fld x 6 5 = 0#5) ∧ fld x 11 5 = 0#5) ∧
    (fld x 0 21 = 0#21 ↔
      (((((fld x 0 2 = 0#2 ∧ fld x 2 1 = 0#1) ∧ fld x 3 1 = 0#1) ∧ fld x 4 2 = 0#2) ∧ fld x 6 5 = 0#5) ∧ fld x 11 5 = 0#5) ∧
        fld x 16 5 = 0#5) ∧
    (fld x 4 7 = 0#7 ↔ fld x 4 2 = 0#2 ∧ fld x 6 5 = 0#5) ∧
    (fld x 1 5 = 0#5 ↔ fld x 1 1 = 0#1 ∧ (fld x 2 1 = 0#1 ∧ fld x 3 1 = 0#1) ∧ fld x 4 2 = 0#2) ∧
    (fld x 0 3 = 1#3 ↔ fld x 0 2 = 1#2 ∧ fld x 2 1 = 0#1) ∧
    (fld x 0 4 = 1#4 ↔ (fld x 0 2 = 1#2 ∧ fld x 2 1 = 0#1) ∧ fld x 3 1 = 0#1) ∧
    (∀ v : BitVec 1, fld x 0 2 = v.setWidth 2 ↔ fld x 0 1 = v ∧ fld x 1 1 = 0#1) := by
  have low3 : fld x 0 3 = 0#3 ↔ _ := fld_eq_zero_iff 0 2 1
  have low4 : fld x 0 4 = 0#4 ↔ _ := (fld_eq_zero_iff 0 3 1).trans (and_congr_left' low3)
  have low6 : fld x 0 6 = 0#6 ↔ _ := (fld_eq_zero_iff 0 4 2).trans (and_congr_left' low4)
  have low11 : fld x 0 11 = 0#11 ↔ _ := (fld_eq_zero_iff 0 6 5).trans (and_congr_left' low6)
  have low16 : fld x 0 16 = 0#16 ↔ _ := (fld_eq_zero_iff 0 11 5).trans (and_congr_left' low11)
  have ports : fld x 2 2 = 0#2 ↔ _ := fld_eq_zero_iff 2 1 1
  have sub1 : fld x 0 3 = 1#3 ↔ _ := fld_eq_setWidth_iff 0 1 1#2
  exact ⟨low3, ports, low4, low6, low11, low16, (fld_eq_zero_iff 0 16 5).trans (and_congr_left' low16), fld_eq_zero_iff 4 2 5,
    (fld_eq_zero_iff 1 1 4).trans (and_congr_right' ((fld_eq_zero_iff 2 2 2).trans (and_congr_left' ports))), sub1,
    (fld_eq_setWidth_iff 0 1 1#3).trans (and_congr_left' sub1), fld_eq_setWidth_iff 0 1⟩

end

/-! ## From a word to its instruction -/

/-- What a word is read as has the word as its encoding and belongs to the map `m`. -/
def ReadsFrom (m : Home) (x : IWord) (r : Except DecodeError Instr) : Prop :=
  ∀ i, r = .ok i → encode i = some x ∧ i.home = m

section
variable {m : Home} {x : IWord}

@[simp] theorem readsFrom_ok {i : Instr} : ReadsFrom m x (.ok i) ↔ encode i = some x ∧ i.home = m := by
  simp [ReadsFrom]

@[simp] theorem readsFrom_need {ok : Bool} {i : Instr} :
    ReadsFrom m x (need ok i) ↔ (ok = true → encode i = some x ∧ i.home = m) := by
  cases ok <;> simp [ReadsFrom, need]

@[simp] theorem readsFrom_error (e : DecodeError) : ReadsFrom m x (.error e) := by
  simp [ReadsFrom]

theorem readsFrom_ite {c : Prop} [Decidable c] {r t : Except DecodeError Instr} :
    ReadsFrom m x (if c then r else t) ↔ (c → ReadsFrom m x r) ∧ (¬c → ReadsFrom m x t) := by
  by_cases hc : c <;> simp [hc]

theorem readsFrom_decodeInteger (h31 : fld x 31 1 = 0#1) (hmajor : fld x 25 6 = 1#6) :
    ReadsFrom .control x (decodeInteger x) := by
  unfold decodeInteger
  split
  case h_24 => exact readsFrom_error _
  all_goals
    rename_i hfn
    simp +contextual [encode, crWord_eq_iff, fld_eq_of_toNat hfn, h31, hmajor, Instr.home]

theorem readsFrom_decodeControl (h31 : fld x 31 1 = 0#1) : ReadsFrom .control x (decodeControl x) := by
  unfold decodeControl
  split
  case h_1 hmajor => exact readsFrom_decodeInteger h31 (fld_eq_of_toNat hmajor)
  case h_35 => exact readsFrom_error _
  all_goals
    rename_i hmajor
    simp +contextual [encode, crWord_eq_iff, ciWord_eq_iff, cuWord_eq_iff, cbWord_eq_iff, cjWord_eq_iff, clWord_eq_iff,
      cliWord_eq_iff, control_spans, fld_eq_of_toNat hmajor, h31, Instr.home]

theorem readsFrom_decodeAmo (h31 : fld x 31 1 = 1#1) (hop : fld x 23 4 = 4#4) :
    ReadsFrom (.priv .wing) x (decodeAmo x) := by
  unfold decodeAmo
  split
  case h_8 => exact readsFrom_error _
  all_goals
    rename_i hsub
    simp [encode, psWord_eq_iff, amo_op_iff, fld_eq_of_toNat hsub, h31, hop, Instr.home]

theorem readsFrom_decodeWing (h31 : fld x 31 1 = 1#1) : ReadsFrom (.priv .wing) x (decodeWing x) := by
  unfold decodeWing
  split
  case h_16 hop | h_17 hop | h_18 hop | h_19 hop =>
    refine readsFrom_decodeAmo h31 (BitVec.eq_of_toNat_eq ?_)
    rw [toNat_fld] at hop ⊢
    simp only [BitVec.toNat_ofNat]
    omega
  case h_61 => exact readsFrom_error _
  all_goals
    rename_i hop
    simp +contextual [encode, psWord_eq_iff, pmWord_eq_iff, enqWord_eq_iff, bgoneWord_eq_iff, swptWord_eq_iff, wing_spans,
      fld_eq_of_toNat hop, h31, Instr.home]

theorem readsFrom_decodeVector (h31 : fld x 31 1 = 1#1) : ReadsFrom (.priv .vector) x (decodeVector x) := by
  unfold decodeVector
  split
  case h_37 => exact readsFrom_error _
  all_goals
    rename_i hop
    simp +contextual [encode, prWord_eq_iff, piWord_eq_iff, engine_spans, readsFrom_ite, fld_eq_of_toNat hop, h31, Instr.home]

theorem readsFrom_decodeMatrix (h31 : fld x 31 1 = 1#1) : ReadsFrom (.priv .matrix) x (decodeMatrix x) := by
  unfold decodeMatrix
  split
  case h_9 => exact readsFrom_error _
  all_goals
    rename_i hop
    simp +contextual [encode, prWord_eq_iff, engine_spans, fld_eq_of_toNat hop, h31, Instr.home]

theorem readsFrom_decodeCopy (h31 : fld x 31 1 = 1#1) : ReadsFrom (.priv .copy) x (decodeCopy x) := by
  unfold decodeCopy
  split
  case h_14 => exact readsFrom_error _
  all_goals
    rename_i hop
    simp +contextual [encode, prWord_eq_iff, engine_spans, fld_eq_of_toNat hop, h31, Instr.home]

theorem readsFrom_decodeCollective (h31 : fld x 31 1 = 1#1) :
    ReadsFrom (.priv .collective) x (decodeCollective x) := by
  unfold decodeCollective
  split
  case h_9 => exact readsFrom_error _
  all_goals
    rename_i hop
    simp +contextual [encode, prWord_eq_iff, engine_spans, fld_eq_of_toNat hop, h31, Instr.home]

theorem readsFrom_decodeSwallowtail (h31 : fld x 31 1 = 1#1) :
    ReadsFrom (.priv .swallowtail) x (decodeSwallowtail x) := by
  unfold decodeSwallowtail
  split
  case h_3 => exact readsFrom_error _
  all_goals
    rename_i hop
    simp +contextual [encode, prWord_eq_iff, engine_spans, fld_eq_of_toNat hop, h31, Instr.home]

theorem readsFrom_decodePrivate (h31 : fld x 31 1 = 1#1) (k : Kind) : ReadsFrom (.priv k) x (decodePrivate k x) := by
  cases k with
  | wing => exact readsFrom_decodeWing h31
  | vector => exact readsFrom_decodeVector h31
  | matrix => exact readsFrom_decodeMatrix h31
  | copy => exact readsFrom_decodeCopy h31
  | collective => exact readsFrom_decodeCollective h31
  | swallowtail => exact readsFrom_decodeSwallowtail h31

end

/-! ## From an instruction to its word -/

theorem decodeWing_of_amo {x : IWord} (h : fld x 23 4 = 4#4) : decodeWing x = decodeAmo x := by
  have hop : (fld x 21 6).toNat = 0x10 ∨ (fld x 21 6).toNat = 0x11 ∨ (fld x 21 6).toNat = 0x12 ∨
      (fld x 21 6).toNat = 0x13 := by
    simp only [← BitVec.toNat_inj, toNat_fld, BitVec.toNat_ofNat] at h ⊢
    omega
  rcases hop with hop | hop | hop | hop <;> simp [decodeWing, hop]

section
variable {i : Instr} {x : IWord} (hx : encode i = some x)
include hx

theorem decodeControl_of_encode (hm : i.home = .control) : fld x 31 1 = 0#1 ∧ decodeControl x = .ok i := by
  cases i with
  | add d a b | sub d a b | and d a b | or d a b | xor d a b | shl d a b | shr d a b | sar d a b | mul d a b | mulh d a b
  | mulhu d a b | div d a b | divu d a b | rem d a b | remu d a b | min d a b | max d a b | minu d a b | maxu d a b
  | slt d a b | sltu d a b | clz d a | popc d a | agen d a b h =>
    simp [encode, crWord_eq_iff, control_spans] at hx
    simp [decodeControl, decodeInteger, need, hx]
  | addi d a i | andi d a i | ori d a i | xori d a i | slti d a i | sltiu d a i | shli d a n | shri d a n | sari d a n
  | jr a i | mfs d r | mts a r | tokw k | toks k | waitev d a m =>
    simp [encode, ciWord_eq_iff, control_spans] at hx
    simp [decodeControl, need, control_spans, hx]
  | lui d i | addpc d i | trap i =>
    simp [encode, cuWord_eq_iff] at hx
    simp [decodeControl, need, hx]
  | beq a b o | bne a b o | blt a b o | bge a b o | bltu a b o | bgeu a b o =>
    simp [encode, cbWord_eq_iff] at hx
    simp [decodeControl, hx]
  | jmp o | jal o | nop | endOp =>
    simp [encode, cjWord_eq_iff] at hx
    simp [decodeControl, need, hx]
  | loop l c n =>
    simp [encode, clWord_eq_iff] at hx
    simp [decodeControl, need, hx]
  | loopi l i n | rep i | lexit l =>
    simp [encode, cliWord_eq_iff] at hx
    simp [decodeControl, need, fld_eq_zero_iff 0 13 10, hx]
  | _ => cases hm

theorem decodeWing_of_encode (hm : i.home = .priv .wing) : fld x 31 1 = 1#1 ∧ decodeWing x = .ok i := by
  cases i with
  | ldb w g d a f | ldh w g d a f | ldw w g d a f | ldd w g d a f | ldbu w g d a f | ldhu w g d a f | ldwu w g d a f
  | lda w g d a f | ldc w g d a f | stb w g d a f | sth w g d a f | stw w g d a f | std w g d a f | stl w g d a f =>
    simp [encode, pmWord_eq_iff] at hx
    simp [decodeWing, hx]
  | amoAdd w g o d a b | amoAnd w g o d a b | amoOr w g o d a b | amoXor w g o d a b | amoMin w g o d a b
  | amoMax w g o d a b | amoSwap w g o d a b =>
    simp [encode, psWord_eq_iff, amo_op_iff] at hx
    simp [decodeWing_of_amo, decodeAmo, hx]
  | cas w g d a b o | fence w g p c | qfence w g m | mwait w g d a b | mark w g n m | rdv w g n | notify w g m | join w g a
  | leave w g a | bar w g a | wlock w g | wfree w g | sstep w g d | probe w g a b | unpin w g a b | phswap w g n
  | eret w g d a | ctxsv w g d a | ctxld w g d a b | pgate w g a | clkdiv w g d a b | boost w g d a | seqclm w g d a b
  | seqadv w g d a b | sxqry w g d a b | hnew w g d a b | hfree w g d a | hldw w g d a b | hupg w g d a | hdng w g d a
  | hpri w g d a b | winopen w g d a | winpub w g d a b | winacq w g d a | winclose w g a | sxapp w g d a b
  | sxsav w g d a b | sxld w g d a b | sxrst w g d a b =>
    simp [encode, psWord_eq_iff, wing_spans] at hx
    simp [decodeWing, need, wing_spans, hx]
  | enq w g f n e q =>
    simp [encode, enqWord_eq_iff] at hx
    simp [decodeWing, hx]
  | swpt k v =>
    simp [encode, swptWord_eq_iff] at hx
    simp [decodeWing, need, hx]
  | bgone w g o =>
    simp [encode, bgoneWord_eq_iff] at hx
    simp [decodeWing, need, hx]
  | _ => cases hm

theorem decodeVector_of_encode (hm : i.home = .priv .vector) : fld x 31 1 = 1#1 ∧ decodeVector x = .ok i := by
  cases i with
  | vadd w g d a b c p q | vsub w g d a b c p q | vmul w g d a b c p q | vfma w g d a b c p q | vmin w g d a b c p q
  | vmax w g d a b c p q | vabs w g d a c p | vcmp w g d a b c p q u | vsel w g d a b c p q | vand w g d a b c p q
  | vor w g d a b c p q | vxor w g d a b c p q | vshl w g d a b c p q | vshr w g d a b c p q | vcvt w g d a c p k
  | vqnt w g d a b c p q k | vdq w g d a b c p q k | vbpk w g d a b c p | vbun w g d a b c p | vrcp w g d a c p
  | vrsq w g d a c p | vexp2 w g d a c p | vlog2 w g d a c p | vred w g d a c p n | vscan w g d a c p n
  | vperm w g d a b c p q | vbcsElement w g d a b c p | vbcsScalar w g d b c | vmov w g d a c p | vmovA w g d a c p
  | vspsh w g n a p | vspop w g d n | vsbal w g n | gcfg w g d a | grst w g d | vnoise w g d a b c p n =>
    simp [encode, prWord_eq_iff] at hx
    simp [decodeVector, need, engine_spans, hx]
  | vimm w g d i | vaddi w g d i =>
    simp [encode, piWord_eq_iff] at hx
    simp [decodeVector, hx]
  | _ => cases hm

theorem decodeMatrix_of_encode (hm : i.home = .priv .matrix) : fld x 31 1 = 1#1 ∧ decodeMatrix x = .ok i := by
  cases i with
  | mnest w g a b | mrun w g a c t | mzero w g a | mldc w g a c | mdrain w g a b c | mkat w g a | msig w g d a | mwt w g =>
    simp [encode, prWord_eq_iff] at hx
    simp [decodeMatrix, need, engine_spans, hx]
  | _ => cases hm

theorem decodeCopy_of_encode (hm : i.home = .priv .copy) : fld x 31 1 = 1#1 ∧ decodeCopy x = .ok i := by
  cases i with
  | xcopy w g a b | xfill w g a b | xgath w g a b | xscat w g a b | xfeed w g a b f | xtrw w g a | xtru w g a b
  | xtrd w g a b | xtbld w g a b | xtdef w g a b | xcrc w g d a b | xws w g a | xref w g d a b =>
    simp [encode, prWord_eq_iff, engine_spans] at hx
    simp [decodeCopy, need, engine_spans, hx]
  | _ => cases hm

theorem decodeCollective_of_encode (hm : i.home = .priv .collective) : fld x 31 1 = 1#1 ∧ decodeCollective x = .ok i := by
  cases i with
  | csend w g a | crecv w g a | cred w g a | cbcast w g a | ca2a w g a | cgath w g a | csamp w g a | cflag w g a b =>
    simp [encode, prWord_eq_iff] at hx
    simp [decodeCollective, need, engine_spans, hx]
  | _ => cases hm

theorem decodeSwallowtail_of_encode (hm : i.home = .priv .swallowtail) : fld x 31 1 = 1#1 ∧ decodeSwallowtail x = .ok i := by
  cases i with
  | sscfg w g a b | ssfeed w g a =>
    simp [encode, prWord_eq_iff] at hx
    simp [decodeSwallowtail, need, engine_spans, hx]
  | _ => cases hm

theorem decodePrivate_of_encode {k : Kind} (hm : i.home = .priv k) : fld x 31 1 = 1#1 ∧ decodePrivate k x = .ok i := by
  cases k with
  | wing => exact decodeWing_of_encode hx hm
  | vector => exact decodeVector_of_encode hx hm
  | matrix => exact decodeMatrix_of_encode hx hm
  | copy => exact decodeCopy_of_encode hx hm
  | collective => exact decodeCollective_of_encode hx hm
  | swallowtail => exact decodeSwallowtail_of_encode hx hm

end

/-! ## The two halves together -/

/-- The half of the map that a word is read in, by its top bit (R46); `decode` before its checks. -/
def decodeHalf (k : Kind) (x : IWord) : Except DecodeError Instr :=
  if fld x 31 1 == 0 then decodeControl x else decodePrivate k x

theorem fits_iff {i : Instr} {k : Kind} : i.fits k = true ↔ i.home = .control ∨ i.home = .priv k := by
  unfold Instr.fits
  cases i.home with
  | control => simp
  | priv k' => simpa using eq_comm
  | event => simp

theorem decodeHalf_eq_ok_iff {k : Kind} {x : IWord} {i : Instr} :
    decodeHalf k x = .ok i ↔ encode i = some x ∧ i.fits k = true := by
  unfold decodeHalf
  rw [fits_iff]
  constructor
  · intro h
    split at h
    case isTrue h31 => exact (readsFrom_decodeControl (by simpa using h31) i h).imp_right .inl
    case isFalse h31 =>
      have hset : fld x 31 1 = 1#1 := (fld x 31 1).eq_zero_or_eq_one.resolve_left (by simpa using h31)
      exact (readsFrom_decodePrivate hset k i h).imp_right .inr
  · rintro ⟨hx, hm | hm⟩
    · obtain ⟨h31, h⟩ := decodeControl_of_encode hx hm
      simpa [h31] using h
    · obtain ⟨h31, h⟩ := decodePrivate_of_encode hx hm
      simpa [h31] using h

theorem assigned_eq_ok_iff {r : Except DecodeError Instr} {i : Instr} : assigned r = .ok i ↔ r = .ok i ∧ i.wf = true := by
  cases r with
  | error e => simp [assigned]
  | ok j =>
    by_cases hj : j.wf = true
    · simpa [assigned, hj] using fun h => h ▸ hj
    · simpa [assigned, hj] using fun h => h ▸ eq_false_of_ne_true hj

/-- Neither half reads the words that `decode` refuses first, all zeros and all ones. -/
theorem decodeHalf_refused {k : Kind} {x : IWord} {i : Instr} (h : decodeHalf k x = .ok i) :
    x ≠ 0 ∧ x ≠ BitVec.allOnes 32 := by
  constructor
  · rintro rfl
    cases k <;> cases h
  · rintro rfl
    cases k <;> cases h

theorem decode_eq_ok_iff {k : Kind} {x : IWord} {i : Instr} :
    decode k x = .ok i ↔ decodeHalf k x = .ok i ∧ i.wf = true := by
  have hassigned : decode k x = if x = 0 then .error .allZero else if x = BitVec.allOnes 32 then .error .allOnes else
      assigned (decodeHalf k x) := by
    simp only [decode, decodeHalf, apply_ite assigned]
  constructor
  · intro h
    rw [hassigned] at h
    split_ifs at h
    exact assigned_eq_ok_iff.mp h
  · intro h
    obtain ⟨hzero, hones⟩ := decodeHalf_refused h.1
    rw [hassigned, if_neg hzero, if_neg hones, assigned_eq_ok_iff]
    exact h

/-- Settles O53: a word's fields are the instruction's operands, and no reserved bit of it is set. -/
theorem encodingsDecode : Obligations.EncodingsDecode := fun _ _ _ hwf hx hk =>
  decode_eq_ok_iff.mpr ⟨decodeHalf_eq_ok_iff.mpr ⟨hx, hk⟩, hwf⟩

/-- Settles O54: every bit of a word that is read is an operand's, the operation's, or reserved and checked. -/
theorem decodedWordsEncode : Obligations.DecodedWordsEncode := fun _ _ _ h =>
  let ⟨hhalf, hwf⟩ := decode_eq_ok_iff.mp h
  let ⟨hx, hk⟩ := decodeHalf_eq_ok_iff.mp hhalf
  ⟨hx, hwf, hk⟩

/-- Settles O55: each word is the encoding of its instruction, and the word of zeros is refused. -/
theorem exampleWordsDecode : Obligations.ExampleWordsDecode := by
  have reads {k : Kind} {x : IWord} {i : Instr} (hx : encode i = some x) (hwf : i.wf = true) (hk : i.fits k = true) :
      decode k x = .ok i := encodingsDecode i x k hwf hx hk
  exact ⟨reads rfl rfl rfl, reads rfl rfl rfl, reads rfl rfl rfl, reads rfl rfl rfl, reads rfl rfl rfl, reads rfl rfl rfl,
    reads rfl rfl rfl, reads rfl rfl rfl, reads rfl rfl rfl, reads rfl rfl rfl, reads rfl rfl rfl, rfl⟩

end Sys2Proof
end

section
/-! PROOFS. The step at a party's turn (O56): a state without flipped bits passes every check on the way to the word, and a party
alone with nothing under way executes what its word decodes to. -/

namespace Sys2Proof.Machine

/-- Granting gates changes nothing but the cores. -/
theorem grantGates_spec (s : State) : ∃ cs, grantGates s = { s with cores := cs } := by
  unfold grantGates
  generalize (s.cores.filter (fun e => e.2.gatePending)).map (fun e => e.1) = gs
  induction gs generalizing s with
  | nil => exact ⟨_, rfl⟩
  | cons c gs ih =>
    rw [List.foldl_cons]
    split
    · obtain ⟨cs, h⟩ := ih (s.modCore c (fun c => { c with gatePending := false, gated := true }))
      exact ⟨cs, h⟩
    · exact ih s

theorem checkWords_clean {s : State} (h : s.flips = []) (die : Nat) (as : List Nat) : checkWords s die as = some s := by
  induction as with
  | nil => rfl
  | cons a as ih => rw [checkWords, h]; exact ih

theorem fetchCheck_clean {s : State} (h : s.flips = []) (p : PartyId) : fetchCheck s p = some s := by
  simp only [fetchCheck, checkWords_clean h, ite_self]

/-- A party alone with nothing of its own in progress runs its next word. -/
theorem issueAlone_free {s : State} {p : PartyId} (hpush : (s.party p).push = none) (hbusy : (s.party p).busy = none)
    (hlate : p.party.isWing = true ∨ (s.party p).view.late = []) (hflips : s.flips = []) : issueAlone s p = runWord s p := by
  have hheld : (!p.party.isWing && decide ((s.party p).view.late ≠ [])) = false := by
    rcases hlate with h | h <;> simp [h]
  simp only [issueAlone, hpush, hbusy, hheld, fetchCheck_clean hflips, Option.isSome_none, Bool.false_eq_true, if_false]

/-- Alone, only w0 of a system core has a record to take before its next word (R351). -/
theorem recordFirst_alone {s : State} {p : PartyId} (hrec : p = w0Of (dieOf p.core) → takesRecord s (dieOf p.core) = false)
    (halone : (s.ctx p.core p.slot).sh.lock = false ∨ p.party.isWing = false) : recordFirst s p = false := by
  by_contra h
  simp only [recordFirst, Bool.not_eq_false, Bool.and_eq_true, Bool.or_eq_true, decide_eq_true_eq] at h
  obtain ⟨⟨⟨hcore, hslot⟩, hwing⟩, htakes⟩ := h
  rw [← hcore, ← hslot] at hwing
  rcases hwing with hw0 | ⟨hlock, hisWing⟩
  · have hp : p = w0Of (dieOf p.core) := by
      rcases p with ⟨core, slot, party⟩
      exact congr (congr (congrArg PartyId.mk hcore) hslot) hw0
    simp [hrec hp] at htakes
  · rcases halone with h | h
    · simp [h] at hlock
    · simp [h] at hisWing

theorem issue_alone {s : State} {p : PartyId} (hp : isParty p = true) (halive : alive s p = true)
    (hrec : p = w0Of (dieOf p.core) → takesRecord s (dieOf p.core) = false) (hparked : parked (s.party p) = false)
    (halone : (s.ctx p.core p.slot).sh.lock = false ∨ p.party.isWing = false) : issue s p = issueAlone s p := by
  have hbundle : ((s.ctx p.core p.slot).sh.lock && p.party.isWing) = false := by
    rcases halone with h | h <;> simp [h]
  simp [issue, hp, halive, hparked, recordFirst_alone hrec halone, hbundle]

/-- The word at a party's pc runs as the instruction that it decodes to, and traps where it decodes to none (R47). -/
theorem runWord_decoded {s : State} {p : PartyId} {i : Instr} (h : decode p.party.map (wordAt s p (s.party p).pc.toNat) = .ok i) :
    runWord s p = asParty s p (exec i) := by
  have hi : instrAt (s.setCur p) p (s.setCur p).me.pc.toNat = some i := by
    change (decode p.party.map (wordAt s p (s.party p).pc.toNat)).toOption = _
    rw [h]; rfl
  simp only [runWord, asParty, hi]

theorem runWord_undecoded {s : State} {p : PartyId} {e : DecodeError}
    (h : decode p.party.map (wordAt s p (s.party p).pc.toNat) = .error e) :
    runWord s p = .next ((takeTrap (s.setCur p) p causeIllegal ((wordAt s p (s.party p).pc.toNat).setWidth 64)).setCur s.cur) := by
  have hi : instrAt (s.setCur p) p (s.setCur p).me.pc.toNat = none := by
    change (decode p.party.map (wordAt s p (s.party p).pc.toNat)).toOption = _
    rw [h]; rfl
  simp only [runWord, asParty, hi]
  rfl

/-- The step at the turn of a party that goes on alone is its next word. -/
theorem step_issue {s : State} {p : PartyId} {rest : List Turn} (hplan : s.plan = .issue p :: rest) :
    step s = issue { grantGates s with plan := rest, tick := s.tick + 1 } p := by
  simp only [step, nextTurn, hplan, play]

/-- Settles O56: granting gates changes neither the party nor its memory, so the word that it runs is the one at its pc. -/
theorem stepRunsDecodedWord : Obligations.StepRunsDecodedWord := by
  intro s p rest hplan turn hp halive hrec hparked halone hpush hbusy hlate hflips x
  obtain ⟨cs, hturn⟩ : ∃ cs, turn = { s with cores := cs, plan := rest, tick := s.tick + 1 } := by
    obtain ⟨cs, h⟩ := grantGates_spec s
    exact ⟨cs, by simp only [turn, h]⟩
  have hcur : turn.cur = s.cur := by rw [hturn]
  have hparty : turn.party p = s.party p := by rw [hturn]; rfl
  have hlock : turn.ctx p.core p.slot = s.ctx p.core p.slot := by rw [hturn]; rfl
  have hx : wordAt turn p (turn.party p).pc.toNat = x := by rw [hturn]; rfl
  have hstep : step s = runWord turn p := by
    rw [step_issue hplan]
    rw [← hparty] at hparked hpush hbusy hlate
    rw [← hlock] at halone
    exact (issue_alone hp halive hrec hparked halone).trans (issueAlone_free hpush hbusy hlate (by rw [hturn]; exact hflips))
  refine ⟨fun i hi => ?_, fun e he => ?_⟩
  · rw [hstep, runWord_decoded (hx.symm ▸ hi), asParty, hcur]
  · rw [hstep, runWord_undecoded (hx.symm ▸ he), hx, hcur]
    rfl

end Sys2Proof.Machine
end

section
/-! PROOFS. Loops and repeats (O5): what of every party a part of a word's end leaves alone, loop registers and the visit of the loops,
where a party goes after a word, and what LOOP, LOOPI, REP and LEXIT do. -/

namespace Sys2Proof.Machine

/-! ## What of every party stays -/

/-- `t` has the executing party of `s`, and of every party the same `f`. -/
structure Keeps {α : Type} (f : PartyState → α) (s t : State) : Prop where
  cur : t.cur = s.cur
  party : ∀ q, f (t.party q) = f (s.party q)

/-- The state in which a word that ends pushes its signal token: its party waits no more, and no command of it is under way. -/
def rested (s : State) : State := settle (s.modMe (fun x => { x with wait := .no, busy := none })) s.cur

namespace Keeps

variable {α : Type} {f : PartyState → α} {s t u : State}

theorem of_parties (hc : t.cur = s.cur) (hp : t.parties = s.parties) : Keeps f s t :=
  ⟨hc, fun q => by simp only [State.party, hp]⟩

theorem refl (s : State) : Keeps f s s := of_parties rfl rfl

theorem trans (h : Keeps f s t) (k : Keeps f t u) : Keeps f s u :=
  ⟨k.cur.trans h.cur, fun q => (k.party q).trans (h.party q)⟩

theorem ite {c : Prop} [Decidable c] (ht : Keeps f s t) (hu : Keeps f s u) : Keeps f s (if c then t else u) := by
  split
  · exact ht
  · exact hu

theorem modParty (s : State) (p : PartyId) {g : PartyState → PartyState} (hg : ∀ x, f (g x) = f x) :
    Keeps f s (s.modParty p g) := by
  refine ⟨rfl, fun q => ?_⟩
  by_cases h : partyKey q = partyKey p
  · have hq : (s.modParty p g).party q = g (s.party q) := by
      simp [State.party, State.modParty, State.setParty, h]
    rw [hq, hg]
  · rw [State.party_modParty_other s p q g h]

theorem modMe (s : State) {g : PartyState → PartyState} (hg : ∀ x, f (g x) = f x) : Keeps f s (s.modMe g) :=
  modParty s s.cur hg

theorem setMe {x : PartyState} (hx : f x = f s.me) : Keeps f s (s.setMe x) := by
  refine ⟨rfl, fun q => ?_⟩
  by_cases h : partyKey q = partyKey s.cur
  · have hnew : (s.setMe x).party q = x := by
      simp [State.party, State.setMe, State.setParty, h]
    have hold : s.party q = s.me := by
      simp [State.party, State.me, h]
    rw [hnew, hx, hold]
  · rw [State.setMe, State.party_setParty_other s s.cur q x h]

theorem advance (hf : ∀ x pc ls order repc, f { x with pc := pc, ls := ls, order := order, repc := repc } = f x)
    (s : State) (n : Nat) : Keeps f s (advance s n) := by
  have hpass (x : PartyState) (e k : Nat) : f (passWord x e k) = f x := hf x _ _ _ x.repc
  unfold Machine.advance
  dsimp only
  split_ifs
  · exact setMe (hpass _ _ _)
  · exact refl s
  · exact setMe (hf s.me s.me.pc s.me.ls s.me.order _)
  · exact setMe ((hpass _ _ _).trans (hf s.me s.me.pc s.me.ls s.me.order _))

theorem me (h : Keeps f s t) : f t.me = f s.me := by
  rw [State.me, h.cur]
  exact h.party s.cur

theorem setLast (s : State) (e : Ending) : Keeps f s (s.setLast e) := of_parties rfl rfl

section
variable (hview : ∀ x v, f { x with view := v } = f x)
include hview

theorem orderPoint (s : State) (p : PartyId) : Keeps f s (orderPoint s p) := modParty s p (fun x => hview x _)

theorem settle (s : State) (p : PartyId) : Keeps f s (settle s p) := .ite (refl s) (modParty s p (fun x => hview x _))

theorem fenceLate (s : State) (p : PartyId) : Keeps f s (fenceLate s p) := .ite (refl s) (modParty s p (fun x => hview x _))

theorem rested (hrest : ∀ x w b, f { x with wait := w, busy := b } = f x) (s : State) : Keeps f s (rested s) :=
  (modMe s (fun x => hrest x _ _)).trans (settle hview _ s.cur)

variable (htok : ∀ x k n, f (setTokens x k n) = f x)
include htok

theorem popToken (hpop : ∀ x k, f { x with popped := k } = f x) (s : State) (k : B2) : Keeps f s (popToken s k) :=
  .ite (refl s) (.ite (modMe s (fun x => hpop x _)) ((modMe s (fun x => htok x _ _)).trans (orderPoint hview _ _)))

theorem pushToken (hevp : ∀ x v, f { x with evp := v } = f x) (s : State) (k : B2) : Keeps f s (pushToken s k) :=
  .ite (refl s) ((fenceLate hview s s.cur).trans (modParty _ _ (fun x => (hevp _ _).trans (htok x _ _))))

end

end Keeps

/-! ## Loop registers (R268, R288) -/

theorem lsStart_eq (w : Word) : lsStart w = w.toNat / 2 ^ 48 % 2 ^ 14 := rfl
theorem lsEnd_eq (w : Word) : lsEnd w = w.toNat / 2 ^ 32 % 2 ^ 14 := rfl
theorem lsLeft_eq (w : Word) : lsLeft w = w.toNat % 2 ^ 32 := by simp [lsLeft, bits]

theorem toNat_lsMake (a b n : Nat) :
    (lsMake a b n).toNat = 2 ^ 63 + a % 2 ^ 14 * 2 ^ 48 + b % 2 ^ 14 * 2 ^ 32 + n % 2 ^ 32 := by
  simp only [lsMake, word, BitVec.toNat_ofNat]
  omega

theorem toNat_lsOff (w : Word) : (lsOff w).toNat = w.toNat % 2 ^ 63 := by
  have hmask : (~~~(BitVec.ofNat 64 (2 ^ 63))).toNat = 2 ^ 63 - 1 := by decide
  rw [lsOff, setBit, if_neg (by decide), BitVec.toNat_and, hmask, Nat.and_two_pow_sub_one_eq_mod]

@[simp] theorem lsActive_lsOff (w : Word) : lsActive (lsOff w) = false := by
  rw [lsActive, ← BitVec.testBit_toNat, toNat_lsOff]
  exact Nat.testBit_lt_two_pow (Nat.mod_lt _ (by decide))

/-- The body of a loop: its first and its last word. -/
def lsBody (w : Word) : Nat × Nat := (lsStart w, lsEnd w)

theorem lsBody_lsOff (w : Word) : lsBody (lsOff w) = lsBody w := by
  simp only [lsBody, lsStart_eq, lsEnd_eq, toNat_lsOff, Prod.mk.injEq]
  omega

/-- A loop that ends keeps its body with no iterations left. -/
theorem lsBody_without_left (w : Word) : lsBody (word (w.toNat - lsLeft w)) = lsBody w := by
  simp only [lsBody, lsStart_eq, lsEnd_eq, lsLeft_eq, word, BitVec.toNat_ofNat, Prod.mk.injEq]
  omega

theorem lsBody_lsMake (w : Word) (n : Nat) : lsBody (lsMake (lsStart w) (lsEnd w) n) = lsBody w := by
  simp only [lsBody, lsStart_eq, lsEnd_eq, toNat_lsMake, Prod.mk.injEq]
  omega

theorem lsLeft_lsMake (a b : Nat) {n : Nat} (h : n < 2 ^ 32) : lsLeft (lsMake a b n) = n := by
  rw [lsLeft_eq, toNat_lsMake]
  omega

theorem lsLeft_lt (w : Word) : lsLeft w < 2 ^ 32 := by
  rw [lsLeft_eq]
  exact Nat.mod_lt _ (by decide)

/-! ## Switching loops off -/

theorem look_loopsOff_other {ks : List Nat} {k : Nat} (h : k ∉ ks) (ls : Sparse Word) :
    look 0 (loopsOff ls ks) k = look 0 ls k := by
  induction ks generalizing ls with
  | nil => rfl
  | cons a ks ih =>
    obtain ⟨ha, hks⟩ := List.ne_and_not_mem_of_not_mem_cons h
    rw [loopsOff, ih hks, look_put_other _ _ _ _ _ ha]

theorem lsActive_loopsOff {ks : List Nat} {k : Nat} (h : k ∈ ks) (ls : Sparse Word) :
    lsActive (look 0 (loopsOff ls ks) k) = false := by
  induction ks generalizing ls with
  | nil => cases h
  | cons a ks ih =>
    rw [loopsOff]
    by_cases hks : k ∈ ks
    · exact ih hks _
    · obtain rfl : k = a := (List.mem_cons.mp h).resolve_right hks
      rw [look_loopsOff_other hks, look_put_same, lsActive_lsOff]

/-! ## The visit of the loops (R268) -/

theorem visitLoops_elsewhere {e : Nat} {order : List Nat} {ls : Sparse Word} (h : ∀ l ∈ order, lsEnd (look 0 ls l) ≠ e) :
    visitLoops e order ls = (ls, order, none) := by
  induction order with
  | nil => rfl
  | cons l rest ih =>
    rw [visitLoops, if_neg (h l List.mem_cons_self), ih (fun k hk => h k (List.mem_cons_of_mem l hk))]

theorem visitLoops_round {e l : Nat} (rest : List Nat) {ls : Sparse Word} (he : lsEnd (look 0 ls l) = e)
    (hn : 2 ≤ lsLeft (look 0 ls l)) :
    visitLoops e (l :: rest) ls =
      (put ls l (lsMake (lsStart (look 0 ls l)) e (lsLeft (look 0 ls l) - 1)), l :: rest, some (lsStart (look 0 ls l))) := by
  rw [visitLoops, if_pos he, if_pos hn]

theorem visitLoops_over {e l : Nat} (rest : List Nat) {ls : Sparse Word} (he : lsEnd (look 0 ls l) = e)
    (hn : ¬2 ≤ lsLeft (look 0 ls l)) :
    visitLoops e (l :: rest) ls =
      visitLoops e rest (put ls l (lsOff (word ((look 0 ls l).toNat - lsLeft (look 0 ls l))))) := by
  rw [visitLoops, if_pos he, if_neg hn]

/-- A visit turns no loop on, and gives no loop register another body. -/
theorem visitLoops_spec (e : Nat) (order : List Nat) (ls : Sparse Word) :
    (visitLoops e order ls).2.1 ⊆ order ∧ ∀ k, lsBody (look 0 (visitLoops e order ls).1 k) = lsBody (look 0 ls k) := by
  have body_put {ls : Sparse Word} {l : Nat} {v : Word} (hv : lsBody v = lsBody (look 0 ls l)) (k : Nat) :
      lsBody (look 0 (put ls l v) k) = lsBody (look 0 ls k) := by
    rw [look_put]
    split
    · next hk => rw [hk, hv]
    · rfl
  induction order generalizing ls with
  | nil => exact ⟨List.Subset.refl _, fun _ => rfl⟩
  | cons l rest ih =>
    by_cases he : lsEnd (look 0 ls l) = e
    · by_cases hn : 2 ≤ lsLeft (look 0 ls l)
      · rw [visitLoops_round rest he hn]
        refine ⟨List.Subset.refl _, body_put ?_⟩
        rw [← he, lsBody_lsMake]
      · rw [visitLoops_over rest he hn]
        obtain ⟨hsub, hbody⟩ := ih (put ls l (lsOff (word ((look 0 ls l).toNat - lsLeft (look 0 ls l)))))
        refine ⟨List.Subset.trans hsub (List.subset_cons_self l rest), fun k => (hbody k).trans (body_put ?_ k)⟩
        rw [lsBody_lsOff, lsBody_without_left]
    · obtain ⟨hsub, hbody⟩ := ih ls
      rw [visitLoops, if_neg he]
      exact ⟨List.cons_subset_cons l hsub, hbody⟩

/-! ## Moving past a word -/

theorem inLock_settle (s : State) (p : PartyId) : (settle s p).inLock = s.inLock := by
  unfold settle
  split
  · rfl
  · rfl

/-- Outside lock-step a party that moves on repeats its word, or passes it. -/
theorem me_advance {s : State} (h : s.inLock = false) (n : Nat) :
    (advance s n).me = if 2 ≤ s.me.repc.toNat then { s.me with repc := s.me.repc - 1 }
      else passWord { s.me with repc := 0 } (s.me.pc.toNat + 4 * (n - 1)) 4 := by
  simp only [advance, h, Bool.false_eq_true, if_false]
  split
  · exact State.me_setMe s _
  · exact State.me_setMe s _

/-- Outside lock-step a word without a signal token leaves its party at rest, and one word on. -/
theorem me_retire {s : State} (h : s.inLock = false) :
    ∃ x : PartyState, x.regs = s.me.regs ∧ x.pc = s.me.pc ∧ x.ls = s.me.ls ∧ x.order = s.me.order ∧
      (retire s 0 1).me = if 2 ≤ s.me.repc.toNat then { x with repc := s.me.repc - 1 }
        else passWord { x with repc := 0 } s.me.pc.toNat 4 := by
  obtain ⟨v, hv⟩ := me_settle (s.modMe (fun x => { x with wait := .no, busy := none }))
  rw [State.cur_modMe, State.me_modMe] at hv
  have hlock : ((settle (s.modMe (fun x => { x with wait := .no, busy := none })) s.cur).setLast .retired).inLock = false := by
    rw [State.inLock_setLast, inLock_settle, State.inLock_modMe, h]
  refine ⟨{ s.me with wait := .no, busy := none, view := v }, rfl, rfl, rfl, rfl, ?_⟩
  rw [retire_zero]
  exact (me_advance hlock 1).trans (by rw [State.me_setLast, hv]; rfl)

/-- Passing a word puts the visit of its loops into effect. -/
theorem passWord_spec {x : PartyState} {e : Nat} {ls : Sparse Word} {order : List Nat} {t : Option Nat}
    (h : visitLoops (e / 4) x.order x.ls = (ls, order, t)) (step : Nat) :
    (passWord x e step).pc = word (t.elim (e + step) (4 * ·)) ∧ (passWord x e step).repc = x.repc ∧
      (passWord x e step).ls = ls ∧ (passWord x e step).order = order := by
  rw [passWord, h]
  exact ⟨by cases t <;> rfl, rfl, rfl, rfl⟩

theorem word_toNat_add {x : Word} {n : Nat} : word (x.toNat + n) = x + BitVec.ofNat 64 n := by
  apply BitVec.eq_of_toNat_eq
  simp [BitVec.toNat_add]

theorem retiringMovesThePc : Claims.RetiringMovesThePc := by
  intro s hlock hpc x t
  obtain ⟨y, -, hypc, hls, horder, hme⟩ := me_retire hlock
  have passes {ls : Sparse Word} {order : List Nat} {o : Option Nat} (hrep : x.repc.toNat < 2)
      (hv : visitLoops (x.pc.toNat / 4) x.order x.ls = (ls, order, o)) :
      t.me.pc = word (o.elim (x.pc.toNat + 4) (4 * ·)) ∧ t.me.repc = 0 ∧ t.me.ls = ls ∧
        t.me.order = order := by
    rw [show t.me = _ from hme.trans (if_neg (Nat.not_le.mpr hrep))]
    exact passWord_spec (x := { y with repc := 0 }) (by simp only [hls, horder]; exact hv) 4
  refine ⟨last_retire_zero s 1, regs_retire_zero s 1, mem_retire s 0 1, fun hrep => ?_, fun hrep hend => ?_,
    fun l rest hrep ho hend hleft => ?_, fun l hrep ho hend hleft => ?_⟩
  · rw [show t.me = _ from hme.trans (if_pos hrep)]
    exact ⟨hypc, rfl, hls, horder⟩
  · obtain ⟨hpc', hrepc', hls', horder'⟩ := passes hrep (visitLoops_elsewhere hend)
    exact ⟨hpc'.trans word_toNat_add, hrepc', hls', horder'⟩
  · obtain ⟨hpc', -, hls', horder'⟩ := passes hrep (ho ▸ visitLoops_round rest hend hleft)
    refine ⟨hpc', horder', ?_⟩
    rw [hls', look_put_same]
    exact lsLeft_lsMake _ _ (lt_of_le_of_lt (Nat.sub_le _ _) (lsLeft_lt _))
  · obtain ⟨hpc', -, hls', horder'⟩ := passes hrep (ho ▸ visitLoops_over [] hend (by omega))
    refine ⟨hpc'.trans word_toNat_add, horder', ?_⟩
    rw [hls', look_put_same, lsActive_lsOff]

/-! ## Starting and leaving loops (R268, R269) -/

theorem startedAfter_of_split {l : Nat} {after : List Nat} (h : l ∉ after) (before : List Nat) :
    startedAfter l (after ++ l :: before) = after := by
  have hne : ∀ k ∈ after, (k != l) = true := fun k hk => bne_iff_ne.mpr (ne_of_mem_of_not_mem hk h)
  rw [startedAfter, if_pos (by simp), List.takeWhile_append_of_pos hne]
  simp

theorem mem_startedAfter_iff {x : PartyState} {l k : Nat} : k ∈ startedAfter l x.began ↔ startedLater x l k := by
  constructor
  · intro hk
    by_cases hl : l ∈ x.began
    · obtain ⟨after, before, hbegan, hafter⟩ := List.eq_append_cons_of_mem hl
      rw [hbegan, startedAfter_of_split hafter] at hk
      exact ⟨after, before, hbegan, hafter, hk⟩
    · simp [startedAfter, hl] at hk
  · rintro ⟨after, before, hbegan, hafter, hk⟩
    rwa [hbegan, startedAfter_of_split hafter]

theorem mem_youngerFrom {x : PartyState} {l k : Nat} :
    k ∈ youngerFrom l x.began x.order ↔ k ∈ x.order ∧ (k = l ∨ startedLater x l k) := by
  simp [youngerFrom, mem_startedAfter_iff]

theorem mem_olderThan {x : PartyState} {l k : Nat} :
    k ∈ olderThan l x.began x.order ↔ k ∈ x.order ∧ ¬(k = l ∨ startedLater x l k) := by
  simp [olderThan, mem_startedAfter_iff]

/-- A party that has left loop `l`: its loop and those started later are off. -/
theorem look_leave {x : PartyState} {l k : Nat} :
    (k ∈ x.order → (k = l ∨ startedLater x l k) → lsActive (look 0 (loopsOff x.ls (youngerFrom l x.began x.order)) k) = false) ∧
    (k ∉ x.order ∨ ¬(k = l ∨ startedLater x l k) → look 0 (loopsOff x.ls (youngerFrom l x.began x.order)) k = look 0 x.ls k) :=
  ⟨fun hk hstop => lsActive_loopsOff (mem_youngerFrom.mpr ⟨hk, hstop⟩) _,
    fun h => look_loopsOff_other (fun hk => h.elim (· (mem_youngerFrom.mp hk).1) (· (mem_youngerFrom.mp hk).2)) _⟩

theorem mayBranch_of {s : State} (h : s.inLock = true → s.cur.party = .w0) : mayBranch s = true := by
  cases hlock : s.inLock with
  | false => simp [mayBranch, hlock]
  | true => simp [mayBranch, h hlock]

/-- The first word of the body of a loop that the executing party starts (R264, R268). -/
def firstWord (s : State) : Nat := if s.inLock then s.me.pc.toNat / 4 + 4 else s.me.pc.toNat / 4 + 1

/-- The executing party once loop `l` has started with `n` iterations of a body that ends `body` words on. -/
def loopStarted (s : State) (l n body : Nat) : State :=
  s.setMe { s.me with ls := put (loopsOff s.me.ls (youngerFrom l s.me.began s.me.order)) l
                              (lsMake (firstWord s) (s.me.pc.toNat / 4 + body) n),
                      order := l :: olderThan l s.me.began s.me.order, began := startLast l s.me.began }

section
variable {s : State} {l n body : Nat} (hlock : s.inLock = true → s.cur.party = .w0 ∧ body % 4 = 0)
  (hbody : body ≠ 0) (hend : s.me.pc.toNat + 4 * body < imemSize s.cur) (hn : n < 2 ^ 32)
include hlock hbody hend hn

theorem startLoop_eq : startLoop s l n body = if n = 0 then .done s (body + 1) else .done (loopStarted s l n body) 1 := by
  have hbranch : mayBranch s = true := mayBranch_of (fun h => (hlock h).1)
  have hbundle : (s.inLock && decide (body % 4 ≠ 0)) = false := by
    cases h : s.inLock with
    | false => rfl
    | true => simp [(hlock h).2]
  simp only [startLoop, hbranch, hbundle, hbody, Nat.not_le.mpr hend, Nat.not_le.mpr hn, Bool.not_true, decide_false, Bool.or_self,
    Bool.false_eq_true, if_false]
  rfl

end

theorem loopsStart : Claims.LoopsStart := by
  intro s l c i n hnames hlock hend hn x pc first started
  have hbody : n.toNat ≠ 0 := fun h => hn (BitVec.eq_of_toNat_eq h)
  have starts (j : Instr) (count : Nat) (hcount : count < 2 ^ 32)
      (hj : exec j s = conclude s 0 0 (startLoop s l.toNat count n.toNat)) : started j count := by
    rw [startLoop_eq hlock hbody hend hcount] at hj
    by_cases hzero : count = 0
    · rw [if_pos hzero] at hj
      simp only [started, if_pos hzero]
      exact hj.trans (conclude_done_zero s s 0 _)
    · rw [if_neg hzero] at hj
      simp only [started, if_neg hzero]
      have hme : (loopStarted s l.toNat count n.toNat).me = _ := State.me_setMe s _
      refine ⟨loopStarted s l.toNat count n.toNat, hj.trans (conclude_done_zero _ _ 0 _), rfl, ?_⟩
      rw [hme]
      refine ⟨rfl, rfl, look_put_same _ _ _ _, rfl, rfl, fun k hk => ⟨?_, ?_, ?_⟩⟩
      · rw [List.mem_cons, mem_olderThan, or_iff_right hk, or_iff_right hk]
      · intro hord hlater
        rw [look_put_other _ _ _ _ _ hk]
        exact look_leave.1 hord (.inr hlater)
      · intro h
        rw [look_put_other _ _ _ _ _ hk]
        exact look_leave.2 (h.imp_right (fun h => not_or.mpr ⟨hk, h⟩))
  refine ⟨fun hcount => starts _ _ hcount ?_, starts _ _ (by omega) rfl⟩
  change conclude s 0 0 (if regOk s c then _ else _) = _
  rw [if_pos (regOk_of hnames (by simp))]

theorem instrAt_eq_some_iff {s : State} {p : PartyId} {o : Nat} {j : Instr} :
    instrAt s p o = some j ↔ decode p.party.map (wordAt s p o) = .ok j := by
  cases h : decode p.party.map (wordAt s p o) <;> simp [instrAt, h, Except.toOption]

theorem endsLoop_eq_false {x : PartyState} {e : Nat} (h : ∀ k ∈ x.order, 4 * lsEnd (look 0 x.ls k) ≠ e) : endsLoop x e = false := by
  simpa [endsLoop] using h

/-- REP outside lock-step, before a word that may be repeated, where no loop ends. -/
theorem exec_rep {s : State} (i : BitVec 10) (hlock : s.inLock = false) (hloop : endsLoop s.me s.me.pc.toNat = false)
    (hnext : ∀ j, instrAt s s.cur (s.me.pc.toNat + 4) = some j → notRepeatable j = false) :
    exec (.rep i) s = conclude s 0 0
      (if i = 0 then .done s 2 else .moved (s.setMe { s.me with repc := i, pc := word (s.me.pc.toNat + 4) })) := by
  cases hj : instrAt s s.cur (s.me.pc.toNat + 4) with
  | none => simp [exec, execRep, control, hj, hlock, hloop]
  | some j => simp [exec, execRep, control, hj, hnext j hj, hlock, hloop]

theorem repeatAndLeave : Claims.RepeatAndLeave := by
  constructor
  · intro s i hlock hloops hnext
    have hrep := exec_rep i hlock (endsLoop_eq_false hloops) (fun j hj => hnext j (instrAt_eq_some_iff.mp hj))
    constructor
    · rintro rfl
      exact hrep.trans (conclude_done_zero s s 0 2)
    · intro hi
      rw [if_neg hi] at hrep
      refine ⟨_, hrep, ?_⟩
      rw [State.me_setLast, State.me_setMe]
      exact ⟨rfl, rfl, rfl, rfl⟩
  · intro s l hlock stops
    refine ⟨s.setMe { s.me with ls := loopsOff s.me.ls (youngerFrom l.toNat s.me.began s.me.order),
                                order := olderThan l.toNat s.me.began s.me.order }, ?_, ?_⟩
    · change conclude s 0 0 (if !mayBranch s then _ else _) = _
      rw [if_neg (by simp [mayBranch_of hlock])]
      exact conclude_done_zero _ _ 0 1
    · rw [State.me_setMe]
      exact ⟨rfl, rfl, rfl, fun k => ⟨mem_olderThan, look_leave⟩⟩

/-- Settles O5, part by part. -/
theorem loopsAndRepeats : Obligations.LoopsAndRepeats := ⟨retiringMovesThePc, loopsStart, repeatAndLeave⟩

end Sys2Proof.Machine
end

section
/-! PROOFS. Branches and jumps (O6): a comparison decides and a legal transfer arrives, and what a transfer, or a word that may
transfer and retires, does to the loops that are active. -/

namespace Sys2Proof.Machine

/-! ## Branches and jumps (R266, R267) -/

theorem imemSize_le (p : PartyId) : imemSize p ≤ 65536 := by
  unfold imemSize
  cases p.party <;> cases isSystem p.core <;> decide

/-- Where a transfer may go: inside the party's instruction memory, and to a bundle in lock-step (R51, R264). -/
theorem targetOk_iff {s : State} {p : Int} : targetOk s p = true ↔ 0 ≤ p ∧ p < imemSize s.cur ∧ (s.inLock = true → p % 16 = 0) := by
  cases h : s.inLock <;> simp [targetOk, h, and_assoc]

theorem word_toNat_of_nonneg {p : Int} (h : 0 ≤ p) : word p.toNat = BitVec.ofInt 64 p := by
  obtain ⟨n, rfl⟩ := Int.eq_ofNat_of_zero_le h
  rw [Int.toNat_natCast, BitVec.ofInt_natCast]

/-- A legal transfer arrives. -/
theorem arrives_of_transfer {s : State} {i : Instr} {p : Int} (hexec : exec i s = conclude s 0 0 (transfer s p))
    (hp : targetOk s p = true) : arrives i s p := by
  rw [transfer, if_pos hp] at hexec
  obtain ⟨t, ht, hlast, hpc, hregs, -, hmem⟩ := jump_spec s s p.toNat
  exact ⟨t, hexec.trans ht, hlast, hpc.trans (word_toNat_of_nonneg (targetOk_iff.mp hp).1), hregs, hmem⟩

theorem branch_eq {s : State} {a b : B6} (hnames : namesRegs s [a, b]) (hlock : s.inLock = true → s.cur.party = .w0)
    (o : BitVec 13) (taken : Word → Word → Bool) :
    branch s a b o taken =
      if taken (s.reg a.toNat) (s.reg b.toNat) then transfer s (relTarget s o.toInt) else .done s 1 := by
  rw [branch, regOk_of hnames (by simp), regOk_of hnames (by simp), mayBranch_of hlock]
  rfl

theorem branchesCompareAndTransfer : Claims.BranchesCompareAndTransfer := by
  intro s a b o hnames hlock x y p takes
  have branches {i : Instr} {c : Prop} {taken : Word → Word → Bool} (hc : taken x y = true ↔ c)
      (hi : exec i s = conclude s 0 0 (branch s a b o taken)) : takes i c := by
    rw [branch_eq hnames hlock] at hi
    refine ⟨fun h hlow hhigh hbundle => ?_, fun h => ?_⟩
    · rw [if_pos (hc.mpr h)] at hi
      exact arrives_of_transfer hi (targetOk_iff.mpr ⟨hlow, hhigh, hbundle⟩)
    · rw [if_neg (fun ht => h (hc.mp ht))] at hi
      exact hi.trans (conclude_done_zero s s 0 1)
  exact ⟨branches decide_eq_true_iff rfl, branches decide_eq_true_iff rfl, branches decide_eq_true_iff rfl,
    branches (by simp [signedLt]) rfl, branches decide_eq_true_iff rfl, branches (by simp [unsignedLt]) rfl⟩

theorem jumpsTransfer : Claims.JumpsTransfer := by
  intro s a o i hnames hlock legal p q link
  have hbranch : mayBranch s = true := mayBranch_of hlock
  have hreg : regOk s a = true := regOk_of hnames (by simp)
  refine ⟨fun hp => ?_, fun hp => ?_, fun halign hq => ?_⟩
  · refine arrives_of_transfer ?_ (targetOk_iff.mpr hp)
    change conclude s 0 0 (if mayBranch s then _ else _) = _
    rw [if_pos hbranch]
    rfl
  · have hjal : exec (.jal o) s = conclude s 0 0 (.jump (s.setReg link (linkValue s) false) p.toNat) := by
      change conclude s 0 0 (if mayBranch s && targetOk s p then _ else _) = _
      rw [if_pos (by rw [hbranch, targetOk_iff.mpr hp]; rfl)]
      rfl
    obtain ⟨t, ht, hlast, hpc, hregs, -, hmem⟩ := jump_spec s (s.setReg link (linkValue s) false) p.toNat
    have hread (e : Nat) : t.reg e = (s.setReg link (linkValue s) false).reg e := by rw [State.reg, hregs]; rfl
    refine ⟨t, hjal.trans ht, hlast, hpc.trans (word_toNat_of_nonneg hp.1), ?_, fun e he => ?_, hmem⟩
    · rw [hread, State.reg_setReg_same]
      rfl
    · rw [hread, State.reg_setReg_other s link e _ _ he]
  · refine arrives_of_transfer ?_ (targetOk_iff.mpr hq)
    change conclude s 0 0 (if !regOk s a || !mayBranch s then _ else if q.toNat % 4 ≠ 0 then _ else _) = _
    rw [if_neg (by simp [hreg, hbranch]), if_neg (not_not.mpr halign)]
    rfl

/-! ## The loops that a transfer leaves (R266) -/

/-- Where a party is in its program: its pc and its loops. -/
def PartyState.place (x : PartyState) : Word × Sparse Word × List Nat := (x.pc, x.ls, x.order)

theorem PartyState.place_inj {x y : PartyState} (h : x.place = y.place) : x.pc = y.pc ∧ x.ls = y.ls ∧ x.order = y.order := by
  simpa [PartyState.place] using h

/-- Byte offset `t` of a party's memory lies in the body of the loop that its register `l` holds. -/
def bodyHolds (x : PartyState) (t l : Nat) : Prop := 4 * lsStart (look 0 x.ls l) ≤ t ∧ t ≤ 4 * lsEnd (look 0 x.ls l)

/-- The loops behind a transfer are those whose body contains the target; the others are off. -/
theorem goTo_spec (x : PartyState) (t l : Nat) :
    (l ∈ (goTo x t).order ↔ l ∈ x.order ∧ bodyHolds x t l) ∧
    (l ∈ x.order → l ∉ (goTo x t).order → lsActive (look 0 (goTo x t).ls l) = false) ∧
    (l ∈ (goTo x t).order → look 0 (goTo x t).ls l = look 0 x.ls l) := by
  have hmem : l ∈ (goTo x t).order ↔ l ∈ x.order ∧ bodyHolds x t l := by simp [goTo, bodyHolds]
  have hoff : l ∈ x.order.filter (fun l => !(decide (4 * lsStart (look 0 x.ls l) ≤ t) && decide (t ≤ 4 * lsEnd (look 0 x.ls l)))) ↔
      l ∈ x.order ∧ ¬bodyHolds x t l := by
    simp only [List.mem_filter, bodyHolds, ← Bool.decide_and, Bool.not_eq_true', decide_eq_false_iff_not]
  refine ⟨hmem, fun hl hout => ?_, fun hin => ?_⟩
  · exact lsActive_loopsOff (hoff.mpr ⟨hl, fun h => hout (hmem.mpr ⟨hl, h⟩)⟩) _
  · exact look_loopsOff_other (fun h => (hoff.mp h).2 (hmem.mp hin).2) _

theorem last_retire_of_full {s : State} {g : B2} (h : pushFull (rested s) g = true) (n : Nat) : (retire s g n).last = .waiting := by
  rw [rested] at h
  rw [retire]
  dsimp only
  rw [if_pos h]
  rfl

theorem retire_of_room {s : State} {g : B2} (h : pushFull (rested s) g = false) (n : Nat) :
    retire s g n = if n = 0 then (pushToken (rested s) g).setLast .retired
      else advance ((pushToken (rested s) g).setLast .retired) n := by
  rw [rested] at h
  rw [retire]
  dsimp only
  rw [if_neg (by rw [h]; decide)]
  rfl

/-- A word waits for its push, or it retires and moves on `n` words; up to that its party keeps its place. -/
theorem retire_spec (s : State) (g : B2) (n : Nat) :
    (retire s g n).last = .waiting ∨
    ∃ u, Keeps PartyState.place s u ∧ u.last = .retired ∧ retire s g n = if n = 0 then u else advance u n := by
  cases h : pushFull (rested s) g with
  | true => exact .inl (last_retire_of_full h n)
  | false =>
    have hrest : Keeps PartyState.place s (rested s) := .rested (fun _ _ => rfl) (fun _ _ _ => rfl) s
    have hpush : Keeps PartyState.place (rested s) (pushToken (rested s) g) :=
      .pushToken (fun _ _ => rfl) (fun _ _ _ => rfl) (fun _ _ => rfl) _ g
    exact .inr ⟨_, (hrest.trans hpush).trans (.setLast _ _), rfl, retire_of_room h n⟩

/-- Moving on turns no loop on, and gives no loop another body. -/
theorem advance_loops (s : State) (n : Nat) :
    (advance s n).me.order ⊆ s.me.order ∧ ∀ l, lsBody (look 0 (advance s n).me.ls l) = lsBody (look 0 s.me.ls l) := by
  have hpass (x : PartyState) (e k : Nat) :
      (passWord x e k).order ⊆ x.order ∧ ∀ l, lsBody (look 0 (passWord x e k).ls l) = lsBody (look 0 x.ls l) :=
    visitLoops_spec (e / 4) x.order x.ls
  unfold advance
  dsimp only
  split_ifs
  · rw [State.me_setMe]
    exact hpass _ _ _
  · exact ⟨List.Subset.refl _, fun _ => rfl⟩
  · rw [State.me_setMe]
    exact ⟨List.Subset.refl _, fun _ => rfl⟩
  · rw [State.me_setMe]
    exact hpass _ _ _

/-- What a word that may transfer does: it retires, goes to a byte offset with its loops as they are, traps or waits. -/
def Act.Flows (s : State) : Act → Prop
  | .done t n => t = s ∧ n = 1
  | .jump t o => t.cur = s.cur ∧ t.me.ls = s.me.ls ∧ t.me.order = s.me.order ∧ o < 2 ^ 64
  | .trap _ _ => True
  | .wait _ => True
  | _ => False

/-- The loops of the executing party behind a word that transfers, or retires (R266). -/
def LeavesLoops (s t : State) : Prop := ∀ l,
  (t.last = .transferred →
    (l ∈ t.me.order ↔ l ∈ s.me.order ∧ bodyHolds s.me t.me.pc.toNat l) ∧
    (l ∈ s.me.order → l ∉ t.me.order → lsActive (look 0 t.me.ls l) = false) ∧
    (l ∈ t.me.order → look 0 t.me.ls l = look 0 s.me.ls l)) ∧
  (t.last = .retired → l ∈ t.me.order → l ∈ s.me.order ∧ lsBody (look 0 t.me.ls l) = lsBody (look 0 s.me.ls l))

theorem leavesLoops_of_last {s t : State} (hj : t.last ≠ .transferred) (hr : t.last ≠ .retired) : LeavesLoops s t :=
  fun _ => ⟨fun h => absurd h hj, fun h => absurd h hr⟩

theorem keeps_place_popToken (s : State) (w : B2) : Keeps PartyState.place s (popToken s w) :=
  .popToken (fun _ _ => rfl) (fun _ _ _ => rfl) (fun _ _ => rfl) s w

/-- A word that retires where it stands. -/
theorem retire_leavesLoops (s : State) (w g : B2) : LeavesLoops s (retire (popToken s w) g 1) := by
  rcases retire_spec (popToken s w) g 1 with hwait | ⟨u, hu, hlast, heq⟩
  · exact leavesLoops_of_last (by rw [hwait]; decide) (by rw [hwait]; decide)
  · have hplace := ((keeps_place_popToken s w).trans hu).me
    obtain ⟨-, hls, horder⟩ := PartyState.place_inj hplace
    obtain ⟨hsub, hbody⟩ := advance_loops u 1
    rw [heq, if_neg one_ne_zero]
    rw [hls] at hbody
    rw [horder] at hsub
    have hretired : (advance u 1).last = .retired := by rw [last_advance, hlast]
    exact fun l => ⟨fun h => by rw [hretired] at h; contradiction, fun _ hl => ⟨hsub hl, hbody l⟩⟩

/-- A word that goes to byte offset `o`. -/
theorem jump_leavesLoops {s t u : State} {w g : B2} {o : Nat} (hflow : (Act.jump u o).Flows s)
    (h : conclude s w g (.jump u o) = .next t) : LeavesLoops s t := by
  obtain ⟨hcur, hls, horder, ho⟩ := hflow
  simp only [conclude, Host.Outcome.next.injEq] at h
  split at h
  · subst h
    exact leavesLoops_of_last (by simp) (by simp)
  rcases retire_spec (popToken (u.modMe (fun x => goTo x o)) w) g 0 with hwait | ⟨v, hv, hlast, heq⟩
  · rw [if_neg (by rw [hwait]; decide)] at h
    subst h
    exact leavesLoops_of_last (by rw [hwait]; decide) (by rw [hwait]; decide)
  · rw [heq, if_pos rfl, if_pos hlast] at h
    have hplace := ((keeps_place_popToken (u.modMe (fun x => goTo x o)) w).trans hv).me
    rw [State.me_modMe] at hplace
    obtain ⟨hpc, hvls, hvorder⟩ := PartyState.place_inj hplace
    have hto : v.me.pc.toNat = o := by rw [hpc, goTo, BitVec.toNat_ofNat, Nat.mod_eq_of_lt ho]
    subst h
    refine fun l => ⟨fun _ => ?_, fun hr => by cases hr⟩
    rw [State.me_setLast, hto, hvls, hvorder, ← horder, ← hls]
    obtain ⟨h1, h2, h3⟩ := goTo_spec u.me o l
    refine ⟨h1.trans ?_, h2, h3⟩
    simp only [bodyHolds, hls]

theorem conclude_leavesLoops {s t : State} {w g : B2} {a : Act} (hflow : a.Flows s) (h : conclude s w g a = .next t) :
    LeavesLoops s t := by
  cases a with
  | done u n =>
    obtain ⟨rfl, rfl⟩ := hflow
    by_cases hfull : signalWaits u g = true
    · rw [conclude_full hfull] at h
      cases h
      exact leavesLoops_of_last (by simp) (by simp)
    · rw [conclude_done (Bool.eq_false_iff.mpr hfull)] at h
      cases h
      exact retire_leavesLoops u w g
  | jump u o => exact jump_leavesLoops hflow h
  | trap c v =>
    cases h
    have hlast : (takeTrap s s.cur c v).last = .trapped := by
      unfold takeTrap
      dsimp only
      split
      · rfl
      · rfl
    exact leavesLoops_of_last (by rw [hlast]; decide) (by rw [hlast]; decide)
  | wait u =>
    cases h
    exact leavesLoops_of_last (by simp) (by simp)
  | _ => cases hflow

theorem flows_transfer (s : State) (p : Int) : (transfer s p).Flows s := by
  unfold transfer
  split
  · next hp =>
    obtain ⟨hlow, hhigh, -⟩ := targetOk_iff.mp hp
    have := imemSize_le s.cur
    exact ⟨rfl, rfl, rfl, by omega⟩
  · trivial

theorem flows_ite {s : State} {c : Prop} [Decidable c] {a b : Act} (ha : c → a.Flows s) (hb : ¬c → b.Flows s) :
    (if c then a else b).Flows s := by
  split
  · next hc => exact ha hc
  · next hc => exact hb hc

theorem flows_badOperand (s : State) : (badOperand s).Flows s := trivial

theorem flows_done (s : State) : (Act.done s 1).Flows s := ⟨rfl, rfl⟩

theorem flows_branch (s : State) (a b : B6) (o : BitVec 13) (taken : Word → Word → Bool) : (branch s a b o taken).Flows s :=
  flows_ite (fun _ => flows_badOperand s) (fun _ => flows_ite (fun _ => flows_transfer s _) (fun _ => flows_done s))

/-- A word with tokens that flows concludes with an act that flows. -/
theorem tokened_flows {s : State} (k : Kind) (w g : B2) {f : State → Act} (hf : (f s).Flows s) :
    ∃ a : Act, tokened s k w g f = conclude s w g a ∧ a.Flows s := by
  unfold tokened
  split_ifs
  · exact ⟨_, rfl, trivial⟩
  · refine ⟨_, rfl, ?_⟩
    unfold unboundTrap
    split
    · exact flows_ite (fun _ => trivial) (fun _ => trivial)
    · trivial
  · exact ⟨_, rfl, trivial⟩
  · exact ⟨_, rfl, hf⟩

theorem flows_jal (s : State) (p : Int) (v : Word) :
    (if mayBranch s && targetOk s p then Act.jump (s.setReg (linkReg s) v false) p.toNat else badOperand s).Flows s := by
  refine flows_ite (fun h => ?_) (fun _ => flows_badOperand s)
  obtain ⟨-, hp⟩ := Bool.and_eq_true_iff.mp h
  obtain ⟨hlow, hhigh, -⟩ := targetOk_iff.mp hp
  have := imemSize_le s.cur
  refine ⟨rfl, ?_, ?_, by omega⟩ <;> rw [State.setReg, State.me_modMe]

theorem exec_bgone_flows (s : State) (w g : B2) (o : BitVec 18) :
    ∃ a : Act, exec (.bgone w g o) s = conclude s w g a ∧ a.Flows s := by
  change ∃ a : Act, execBgone w g o s = conclude s w g a ∧ a.Flows s
  unfold execBgone
  apply tokened_flows
  exact flows_ite (fun _ => flows_badOperand s) (fun _ => flows_ite (fun _ => flows_transfer s _) (fun _ => flows_done s))

theorem exec_swpt_flows (s : State) (k : BitVec 8) (v : BitVec 3) :
    ∃ (w g : B2) (a : Act), exec (.swpt k v) s = conclude s w g a ∧ a.Flows s := by
  change ∃ (w g : B2) (a : Act), execSwpt k v s = conclude s w g a ∧ a.Flows s
  unfold execSwpt
  split
  · exact ⟨0, 0, _, rfl, trivial⟩
  · refine ⟨0, 0, _, rfl, flows_ite (fun _ => flows_badOperand s) (fun _ => flows_ite (fun _ => flows_done s) (fun _ => ?_))⟩
    split
    · exact flows_transfer s _
    · trivial

theorem exec_flows {i : Instr} (h : mayTransfer i = true) (s : State) :
    ∃ (w g : B2) (a : Act), exec i s = conclude s w g a ∧ a.Flows s := by
  cases i with
  | beq a b o | bne a b o | blt a b o | bge a b o | bltu a b o | bgeu a b o => exact ⟨0, 0, _, rfl, flows_branch s a b o _⟩
  | jmp o => exact ⟨0, 0, _, rfl, flows_ite (fun _ => flows_transfer s _) (fun _ => flows_badOperand s)⟩
  | jal o => exact ⟨0, 0, _, rfl, flows_jal s _ _⟩
  | jr a i =>
    exact ⟨0, 0, _, rfl, flows_ite (fun _ => flows_badOperand s) (fun _ => flows_ite (fun _ => trivial) (fun _ => flows_transfer s _))⟩
  | bgone w g o => exact ⟨w, g, exec_bgone_flows s w g o⟩
  | swpt k v => exact exec_swpt_flows s k v
  | _ => cases h

theorem transferLeavesLoops : Claims.TransferLeavesLoops := by
  intro i s t hi ht l r
  obtain ⟨w, g, a, hexec, hflow⟩ := exec_flows hi s
  obtain ⟨hjump, hretire⟩ := conclude_leavesLoops hflow (hexec.symm.trans ht) l
  exact ⟨hjump, fun hlast hl => (hretire hlast hl).imp_right Prod.mk.inj⟩

/-- Settles O6, part by part. -/
theorem branchesAndJumps : Obligations.BranchesAndJumps := ⟨branchesCompareAndTransfer, jumpsTransfer, transferLeavesLoops⟩

end Sys2Proof.Machine
end

section
/-! PROOFS. Tokens, ends and events (O7): the counts of TKC and a push on a queue with room, a party that ends and leaves its
groups, and a WAITEV that has something to return. -/

namespace Sys2Proof.Machine

/-! ## Tokens (R273) -/

/-- The place of a queue's count in TKC. -/
theorem tokens_eq {k : B2} (hk : k ≠ 0) (x : PartyState) : tokens x k = x.tkc.toNat / 2 ^ (4 * k.toNat - 4) % 16 := by
  have : k.toNat ≠ 0 := fun h => hk (BitVec.eq_of_toNat_eq h)
  rw [tokens, bits, show 4 * k.toNat - 1 + 1 - (4 * k.toNat - 4) = 4 by omega]
  rfl

theorem queue_cases {k : B2} (hk : k ≠ 0) : k = 1 ∨ k = 2 ∨ k = 3 := by
  revert k
  decide

theorem tokens_setTokens_same {k : B2} (hk : k ≠ 0) (x : PartyState) {n : Nat} (hn : n < 16) : tokens (setTokens x k n) k = n := by
  have hlt := x.tkc.isLt
  rw [tokens_eq hk, setTokens, tokens_eq hk, BitVec.toNat_ofNat]
  rcases queue_cases hk with rfl | rfl | rfl <;> simp <;> omega

theorem tokens_setTokens_other {j k : B2} (hj : j ≠ 0) (hk : k ≠ 0) (hjk : j ≠ k) (x : PartyState) {n : Nat} (hn : n < 16) :
    tokens (setTokens x k n) j = tokens x j := by
  have hlt := x.tkc.isLt
  rw [tokens_eq hj, tokens_eq hj, setTokens, tokens_eq hk, BitVec.toNat_ofNat]
  rcases queue_cases hj with rfl | rfl | rfl <;> rcases queue_cases hk with rfl | rfl | rfl <;> simp at hjk ⊢ <;> omega

theorem tokens_lt {k : B2} (hk : k ≠ 0) (x : PartyState) : tokens x k < 16 := by
  rw [tokens_eq hk]
  exact Nat.mod_lt _ (by decide)

theorem tokens_congr {x y : PartyState} (h : x.tkc = y.tkc) (k : B2) : tokens x k = tokens y k := by
  simp only [tokens, h]

theorem keeps_retire_zero {α : Type} {f : PartyState → α}
    (hf : ∀ x pc ls order repc, f { x with pc := pc, ls := ls, order := order, repc := repc } = f x)
    (hrest : ∀ x w b, f { x with wait := w, busy := b } = f x) (hview : ∀ x v, f { x with view := v } = f x)
    (s : State) (n : Nat) : Keeps f s (retire s 0 n) := by
  rw [retire_zero]
  exact (Keeps.rested hview hrest s).trans ((Keeps.setLast _ _).trans (.ite (.refl _) (.advance hf _ _)))

/-- The wait token is popped once: by the word, or before it by its command (R34). -/
theorem tkc_popToken {k : B2} (hk : k ≠ 0) (s : State) :
    (popToken s k).me.tkc = if s.me.popped = k then s.me.tkc else (setTokens s.me k (tokens s.me k - 1)).tkc := by
  rw [popToken, if_neg hk]
  split
  · rw [State.me_modMe]
  · refine ((Keeps.orderPoint (f := PartyState.tkc) (fun _ _ => rfl) _ s.cur).me).trans ?_
    rw [State.me_modMe]

theorem party_settle_other (s : State) (p q : PartyId) (h : partyKey q ≠ partyKey p) : (settle s p).party q = s.party q := by
  unfold settle
  split
  · rfl
  · exact State.party_modParty_other s p q _ h

theorem party_modMe_other {s : State} {q : PartyId} (h : partyKey q ≠ partyKey s.cur) (f : PartyState → PartyState) :
    (s.modMe f).party q = s.party q :=
  State.party_modParty_other s s.cur q f h

theorem party_rested_other {s : State} {q : PartyId} (h : partyKey q ≠ partyKey s.cur) : (rested s).party q = s.party q :=
  (party_settle_other _ s.cur q h).trans (party_modMe_other h _)

theorem party_fenceLate_other (s : State) (p q : PartyId) (h : partyKey q ≠ partyKey p) : (fenceLate s p).party q = s.party q := by
  unfold fenceLate
  split
  · rfl
  · exact State.party_modParty_other s p q _ h

theorem party_advance_other (s : State) (n : Nat) (q : PartyId) (h : partyKey q ≠ partyKey s.cur) :
    (advance s n).party q = s.party q := by
  unfold advance
  dsimp only
  split_ifs
  · exact State.party_setParty_other s s.cur q _ h
  · rfl
  · exact State.party_setParty_other s s.cur q _ h
  · exact State.party_setParty_other s s.cur q _ h

section
variable {s : State} {k : B2} {p : Party} (hk : k ≠ 0) (hp : peerOf s.me k = some p)
include hp

theorem bound_of_peer : bound s k = true := by
  simp [bound, hp]

include hk

theorem pushFull_iff : pushFull s k = true ↔ 15 ≤ tokens (s.party ⟨s.cur.core, s.cur.slot, p⟩) k := by
  simpa [pushFull, peerId, hp] using fun _ => hk

/-- A push on a queue with room puts one token into the other party's count, with the event (R273, R276). -/
theorem retire_pushes (hother : partyKey ⟨s.cur.core, s.cur.slot, p⟩ ≠ partyKey s.cur)
    (hroom : tokens (s.party ⟨s.cur.core, s.cur.slot, p⟩) k < 15) :
    (retire s k 1).last = .retired ∧
    (retire s k 1).party ⟨s.cur.core, s.cur.slot, p⟩ =
      setEvent (setTokens (s.party ⟨s.cur.core, s.cur.slot, p⟩) k (tokens (s.party ⟨s.cur.core, s.cur.slot, p⟩) k + 1)) 1 := by
  have hpeers : Keeps PartyState.peers s (rested s) := .rested (fun _ _ => rfl) (fun _ _ _ => rfl) s
  have hid : peerId (rested s) k = ⟨s.cur.core, s.cur.slot, p⟩ := by
    have hpeer : peerOf (rested s).me k = some p := by rw [peerOf, hpeers.me]; exact hp
    rw [peerId, hpeer, hpeers.cur]
    rfl
  have hsame := party_rested_other hother
  have hroom' : pushFull (rested s) k = false := by
    rw [pushFull, hid, hsame]
    simp [hroom]
  rw [retire_of_room hroom', if_neg one_ne_zero]
  refine ⟨by simp, ?_⟩
  rw [party_advance_other _ _ _ (by simpa [hpeers.cur] using hother), State.party_setLast, pushToken, if_neg hk, hid,
    State.party_modParty_same, party_fenceLate_other _ _ _ (by rw [hpeers.cur]; exact hother), hsame]

end

theorem exec_tokw {s : State} {k : B2} (hk : k ≠ 0) (hb : bound s k = true) :
    exec (.tokw k) s = if tokens s.me k = 0 then .next (s.setLast .waiting) else .next (retire (popToken s k) 0 1) := by
  change (if k = 0 || !bound s k then _ else if tokens s.me k = 0 then _ else _) = _
  rw [if_neg (by simpa [hb] using hk), conclude_done_zero]
  rfl

theorem exec_toks {s : State} {k : B2} (hk : k ≠ 0) (hb : bound s k = true) : exec (.toks k) s = conclude s 0 k (.done s 1) := by
  change (if k = 0 || !bound s k then _ else _) = _
  rw [if_neg (by simpa [hb] using hk)]

theorem tokensMove : Claims.TokensMove := by
  intro s k p hk hp peer
  have hb : bound s k = true := bound_of_peer hp
  refine ⟨fun hsome => ?_, fun hnone => ?_, fun hroom hother hlate hdrains => ?_, fun hfull hbusy => ?_, conclude_done_zero s s 0 1⟩
  · have hpop : Keeps PartyState.regs s (popToken s k) := .popToken (fun _ _ => rfl) (fun _ _ _ => rfl) (fun _ _ => rfl) s k
    have htkc : Keeps PartyState.tkc (popToken s k) (retire (popToken s k) 0 1) :=
      keeps_retire_zero (fun _ _ _ _ _ => rfl) (fun _ _ _ => rfl) (fun _ _ => rfl) _ 1
    have hcount := htkc.me.trans (tkc_popToken hk s)
    have hlt := tokens_lt hk s.me
    refine ⟨_, (exec_tokw hk hb).trans (if_neg hsome), rfl, last_retire_zero _ 1, ?_, ?_, fun hpopped => ?_, fun j hj hjk => ?_⟩
    · rw [mem_retire, mem_popToken]
    · rw [regs_retire_zero, hpop.me]
    · rw [if_neg hpopped] at hcount
      rw [tokens_congr hcount, tokens_setTokens_same hk _ (by omega)]
    · split at hcount
      · exact tokens_congr hcount j
      · rw [tokens_congr hcount, tokens_setTokens_other hj hk hjk _ (by omega)]
  · exact (exec_tokw hk hb).trans (if_pos hnone)
  · have hready : signalWaits s k = false := by
      have hfull : pushFull s k = false := Bool.eq_false_iff.mpr (fun h => Nat.not_le.mpr hroom ((pushFull_iff hk hp).mp h))
      simp [signalWaits, hfull, hlate, hdrains]
    obtain ⟨hlast, hparty⟩ := retire_pushes hk hp hother hroom
    refine ⟨_, (exec_toks hk hb).trans (conclude_done hready s 0 1), hlast, by simp, ?_, ?_⟩
    · rw [popToken_zero, hparty]
      exact (tokens_congr rfl k).trans (tokens_setTokens_same hk _ (Nat.succ_lt_succ hroom))
    · rw [popToken_zero, hparty]
      exact getLsbD_setBit_true _ 1 (by decide)
  · rw [exec_toks hk hb]
    exact conclude_full (by simp [signalWaits, hbusy, (pushFull_iff hk hp).mpr hfull]) s 0 1

/-! ## END (R272) -/

/-- What the end of a wing leaves: whether parties run, their registers and groups, and memory. -/
structure KeepsRunning (s t : State) : Prop where
  keeps : Keeps (fun x => (x.run, x.regs, x.groups)) s t
  mem : t.mem = s.mem

theorem keepsRunning_passBarrier (s : State) (g : Nat) (c : Sparse Nat) (ms : List (PartyId × PartyState)) :
    KeepsRunning s (passBarrier s g c ms) := by
  induction ms generalizing s with
  | nil => exact ⟨.refl s, rfl⟩
  | cons m ms ih =>
    let s1 := s.modParty m.1 (fun x => { setEvent x 2 with wait := .bar g true })
    let s2 := learn s1 (dieOf m.1.core) c
    obtain ⟨hkeeps, hmem⟩ := ih (orderPoint s2 m.1)
    have hset : Keeps (fun x => (x.run, x.regs, x.groups)) s s1 := .modParty s m.1 (fun _ => rfl)
    have hlearn : Keeps (fun x => (x.run, x.regs, x.groups)) s1 s2 := .of_parties rfl rfl
    have horder : Keeps (fun x => (x.run, x.regs, x.groups)) s2 (orderPoint s2 m.1) := .orderPoint (fun _ _ => rfl) s2 m.1
    exact ⟨((hset.trans hlearn).trans horder).trans hkeeps, hmem⟩

theorem keepsRunning_checkBarrier (s : State) (space g : Nat) : KeepsRunning s (checkBarrier s space g) := by
  unfold checkBarrier
  dsimp only
  split
  · exact keepsRunning_passBarrier s _ _ _
  · exact ⟨.refl s, rfl⟩

/-- A party that leaves groups is in none of them; it runs, and has its registers, as before. -/
theorem leaveGroups_spec (s : State) (p : PartyId) (gs : List Nat) :
    let t := leaveGroups s p gs
    t.cur = s.cur ∧ t.mem = s.mem ∧ (t.party p).run = (s.party p).run ∧ (t.party p).regs = (s.party p).regs ∧
      (t.party p).groups = (s.party p).groups.filter (fun h => !gs.contains h) := by
  induction gs generalizing s with
  | nil => exact ⟨rfl, rfl, rfl, rfl, by simp [leaveGroups]⟩
  | cons g gs ih =>
    let s1 := s.modParty p (fun x => { x with groups := x.groups.filter (fun h => h != g) })
    obtain ⟨hcur, hmem, hrun, hregs, hgroups⟩ := ih (checkBarrier s1 (groupSpace s p) g)
    obtain ⟨hkeeps, hbmem⟩ := keepsRunning_checkBarrier s1 (groupSpace s p) g
    have hp := hkeeps.party p
    simp only [Prod.mk.injEq, s1, State.party_modParty_same] at hp
    obtain ⟨hprun, hpregs, hpgroups⟩ := hp
    refine ⟨hcur.trans hkeeps.cur, hmem.trans hbmem, hrun.trans hprun, hregs.trans hpregs, hgroups.trans ?_⟩
    rw [hpgroups, List.filter_filter]
    congr 1
    funext h
    rw [List.contains_cons, Bool.not_or, Bool.and_comm]
    rfl

theorem me_progress (s : State) (core slot : Nat) : (progress s core slot).me = s.me := by
  unfold progress
  split
  · rfl
  · rfl

theorem endStopsTheParty : Claims.EndStopsTheParty := by
  intro s hlock
  constructor
  · intro hwing
    obtain ⟨hcur, hmem, hrun, hregs, hgroups⟩ :=
      leaveGroups_spec (s.modMe (fun x => { x with run := .ended, wait := .no })) s.cur s.me.groups
    have hme : (s.modMe (fun x => { x with run := .ended, wait := .no })).party s.cur = _ := State.me_modMe s _
    rw [hme] at hrun hregs hgroups
    refine ⟨(leaveGroups (s.modMe (fun x => { x with run := .ended, wait := .no })) s.cur s.me.groups).setLast .transferred, ?_, ?_⟩
    · change conclude s 0 0 (if s.inLock then _ else if s.cur.party.isWing then _ else _) = _
      rw [if_neg (by simp [hlock]), if_pos hwing]
      rfl
    · rw [State.me_setLast, State.me, hcur]
      refine ⟨hrun, ?_, hregs, hmem⟩
      refine hgroups.trans ?_
      simp
  · intro hengine hops
    have hidle : (s.core s.cur.core).ops.any (fun o => decide (o.slot = s.cur.slot)) = false :=
      List.any_eq_false.mpr (fun o ho => by simpa using hops o ho)
    have hme := (me_progress (s.modMe (fun x => { x with run := .idle })) s.cur.core s.cur.slot).trans (State.me_modMe s _)
    refine ⟨(progress (s.modMe (fun x => { x with run := .idle })) s.cur.core s.cur.slot).setLast .transferred, ?_, ?_⟩
    · change conclude s 0 0 (if s.inLock then _ else if s.cur.party.isWing then _ else if _ && _ then _ else _) = _
      rw [if_neg (by simp [hlock]), if_neg (by simp [hengine]), if_neg (by simp [hidle])]
      rfl
    · rw [State.me_setLast, hme]
      exact ⟨rfl, rfl, by simp⟩

/-! ## WAITEV (R276) -/

theorem deadlinePassed_iff {s : State} {a : B6} :
    deadlinePassed s a = true ↔ s.reg a.toNat ≠ 0 ∧ (s.reg a.toNat).toNat ≤ s.time := by
  simp [deadlinePassed]

/-- A WAITEV that has something to return. -/
theorem execWaitev_returns {s : State} {d a : B6} {m : BitVec 5} (hnames : namesRegs s [d, a])
    (hoperands : ¬(m = 0 ∧ s.reg a.toNat = 0)) (hready : s.me.evp &&& m ≠ 0 ∨ deadlinePassed s a = true) :
    execWaitev d a m s =
      writes (s.modMe (fun p => { p with evp := p.evp &&& ~~~(s.me.evp &&& m) })) d
        ((s.me.evp &&& m).setWidth 64 + (if deadlinePassed s a then 32 else 0)) false := by
  have hgoes : ¬(s.me.evp &&& m = 0 ∧ deadlinePassed s a = false) := by
    rintro ⟨hnone, hearly⟩
    exact hready.elim (fun h => h hnone) (fun h => by rw [hearly] at h; contradiction)
  rw [execWaitev, control_eq, if_neg (by simp [regOk_of hnames]), if_neg hoperands]
  exact (congrArg (conclude s 0 0) (if_neg hgoes)).trans (conclude_done_zero s _ 0 1)

theorem waitevReturnsEvents : Claims.WaitevReturnsEvents := by
  intro s d a m hnames x hit late
  refine ⟨fun hhit hm => ?_, fun hhit hlate => ?_⟩
  · refine (execWaitev_returns hnames (fun h => hm h.1) (.inl hhit)).trans ?_
    simp only [deadlinePassed_iff]
    rfl
  · have hpassed := deadlinePassed_iff.mpr hlate
    have hval : (s.me.evp &&& m).setWidth 64 + (if deadlinePassed s a then 32 else 0) = (32 : Word) := by
      rw [if_pos hpassed, show s.me.evp &&& m = 0 from hhit]
      rfl
    exact hval ▸ execWaitev_returns hnames (fun h => hlate.1 h.2) (.inr hpassed)

theorem waitevDeadlinePasses : Claims.WaitevDeadlinePasses := by
  intro s p d a m hword halive s1 hit hlock hnames hnonzero htime
  have hpassed : deadlinePassed s1 a = true := deadlinePassed_iff.mpr ⟨hnonzero, htime⟩
  have hrun := execWaitev_returns (m := m) hnames (fun h => hnonzero h.2) (.inr hpassed)
  rw [if_pos hpassed] at hrun
  change execWaitevTimeout p s = _
  simp only [execWaitevTimeout, hword, halive, show (s.setCur p).inLock = false from hlock,
    show deadlinePassed (s.setCur p) a = true from hpassed, Bool.not_false, Bool.and_self, if_true, asParty]
  rw [show execWaitev d a m (s.setCur p) = _ from hrun]
  rfl

/-- Settles O7, part by part. -/
theorem tokensEventsAndEnds : Obligations.TokensEventsAndEnds :=
  ⟨tokensMove, endStopsTheParty, waitevReturnsEvents, waitevDeadlinePasses⟩

end Sys2Proof.Machine
end

section
/-! PROOFS. Passes of the matrix engine (O43): the pieces of a list, the groups of a pass and the exact sum of one, and the power of
two that every finite operand is a multiple of, by which the product of two is exact. -/

namespace Sys2Proof.Machine

/-! ## The pieces of a list -/

section
variable {α : Type} {n : Nat} {xs ys : List α}

@[simp] theorem pieces_nil (n fuel : Nat) : pieces n fuel ([] : List α) = [] := by cases fuel <;> rfl

/-- What a nonempty list's first piece is, and that the others are those of the rest. -/
theorem pieces_succ (fuel : Nat) (hne : xs ≠ []) : pieces n (fuel + 1) xs = xs.take n :: pieces n fuel (xs.drop n) :=
  if_neg (by simpa using hne)

theorem pieces_of_length_le {fuel : Nat} (hfuel : 0 < fuel) (hne : xs ≠ []) (hlen : xs.length ≤ n) : pieces n fuel xs = [xs] := by
  obtain ⟨fuel, rfl⟩ := Nat.exists_eq_succ_of_ne_zero hfuel.ne'
  rw [pieces_succ fuel hne, List.take_of_length_le hlen, List.drop_of_length_le hlen, pieces_nil]

theorem pieces_append (fuel : Nat) (hne : xs ≠ []) (hlen : xs.length = n) :
    pieces n (fuel + 1) (xs ++ ys) = xs :: pieces n fuel ys := by
  rw [pieces_succ fuel (by simp [hne]), List.take_left' hlen, List.drop_left' hlen]

/-- Fuel beyond the length of the list makes no more pieces. -/
theorem pieces_fuel_irrelevant (hn : 0 < n) :
    ∀ {fuel : Nat} {xs : List α}, xs.length ≤ fuel → pieces n fuel xs = pieces n xs.length xs
  | 0, xs, hfuel => by rw [List.length_eq_zero_iff.mp (Nat.le_zero.mp hfuel)]; rfl
  | fuel + 1, [], _ => rfl
  | fuel + 1, x :: xs, hfuel => by
    have hdrop : ((x :: xs).drop n).length ≤ xs.length := by rw [List.length_drop, List.length_cons]; omega
    have hrest : xs.length ≤ fuel := Nat.le_of_succ_le_succ hfuel
    rw [pieces_succ fuel (List.cons_ne_nil x xs), List.length_cons, pieces_succ _ (List.cons_ne_nil x xs),
      pieces_fuel_irrelevant hn (hdrop.trans hrest), pieces_fuel_irrelevant hn hdrop]

end

/-! ## The groups of a pass (R102) -/

section
variable {α β : Type} {f : α → α → β} {a b more moreB : List α}

/-- Products of one group are one piece. -/
theorem pieces_products (hpos : 0 < a.length) (hlen : a.length ≤ 32) (hb : b.length = a.length) :
    pieces 32 a.length (List.zipWith f a b) = [List.zipWith f a b] := by
  have hlength : (List.zipWith f a b).length = a.length := by rw [List.length_zipWith, hb, Nat.min_self]
  exact pieces_of_length_le hpos (List.ne_nil_of_length_pos (hlength ▸ hpos)) (hlength ▸ hlen)

/-- A full group comes first, and the rest of the products are grouped as a pass of their own groups them. -/
theorem pieces_products_append (hlen : a.length = 32) (hb : b.length = a.length) (hmore : more.length = moreB.length) :
    pieces 32 (a ++ more).length (List.zipWith f (a ++ more) (b ++ moreB)) =
      List.zipWith f a b :: pieces 32 more.length (List.zipWith f more moreB) := by
  have hfirst : (List.zipWith f a b).length = 32 := by rw [List.length_zipWith, hb, hlen, Nat.min_self]
  have hrest : (List.zipWith f more moreB).length = more.length := by rw [List.length_zipWith, ← hmore, Nat.min_self]
  have hfuel : (a ++ more).length = (31 + more.length) + 1 := by rw [List.length_append, hlen]; omega
  rw [List.zipWith_append hb.symm, hfuel, pieces_append _ (List.ne_nil_of_length_pos (by omega)) hfirst,
    pieces_fuel_irrelevant (by decide) (by omega), hrest]

end

/-! ## Integer groups (R106) -/

/-- An INT32 code is read as its two's complement. -/
theorem readInt_int32 {c : Nat} (hc : c < 2 ^ 32) : readInt 7 true c = (BitVec.ofNat 32 c).toInt := by
  have hsize : 8 * typeSize 7 = 32 := rfl
  rw [BitVec.toInt_eq_toNat_cond, BitVec.toNat_ofNat, Nat.mod_eq_of_lt hc, readInt, hsize]
  by_cases hneg : 2 ^ 31 ≤ c
  · rw [if_pos (by simpa [intSigned] using hneg), if_neg (by omega)]
    rfl
  · rw [if_neg (by simpa [intSigned] using hneg), if_pos (by omega)]

/-- A pass of one group narrows the exact sum of its products and the accumulator once. -/
theorem passInt_group {sat : Bool} {c : Nat} {a b : List Int} (hc : c < 2 ^ 32) (hpos : 0 < a.length) (hlen : a.length ≤ 32)
    (hb : b.length = a.length) :
    passInt sat c a b = encodeInt 32 true sat ((List.zipWith (· * ·) a b).sum + (BitVec.ofNat 32 c).toInt) := by
  rw [passInt, pieces_products hpos hlen hb, List.foldl_cons, List.foldl_nil, readInt_int32 hc, List.sum_eq_foldl]

theorem passInt_append {sat : Bool} {c : Nat} {a b more moreB : List Int} (hpos : 0 < a.length) (hlen : a.length = 32)
    (hb : b.length = a.length) (hmore : more.length = moreB.length) :
    passInt sat c (a ++ more) (b ++ moreB) = passInt sat (passInt sat c a b) more moreB := by
  simp only [passInt, pieces_products_append hlen hb hmore, pieces_products hpos hlen.le hb, List.foldl_cons, List.foldl_nil]

/-! ## Groups of reals -/

theorem passReal_group {c : Nat} {a b : List FV} (hpos : 0 < a.length) (hlen : a.length ≤ 32) (hb : b.length = a.length) :
    passReal c a b = group (List.zipWith FV.mul a b ++ [FV.read fp32 c]) := by
  rw [passReal, pieces_products hpos hlen hb, List.foldl_cons, List.foldl_nil]

theorem passReal_append {c : Nat} {a b more moreB : List FV} (hpos : 0 < a.length) (hlen : a.length = 32)
    (hb : b.length = a.length) (hmore : more.length = moreB.length) :
    passReal c (a ++ more) (b ++ moreB) = passReal (passReal c a b) more moreB := by
  simp only [passReal, pieces_products_append hlen hb hmore, pieces_products hpos hlen.le hb, List.foldl_cons, List.foldl_nil]

/-! ## Exact products -/

theorem unit_eq_mul : (unit : Int) = 2 ^ 150 * 2 ^ 150 := by rw [unit, Nat.cast_pow, ← pow_add]; rfl

/-- A magnitude scaled by at least 2^150 is a multiple of it, under either sign. -/
theorem dvd_signed_scaled {m : Nat} {k : Int} (neg : Bool) (hk : 150 ≤ k) :
    (2 ^ 150 : Int) ∣ if neg then -((m * 2 ^ k.toNat : Nat) : Int) else (m * 2 ^ k.toNat : Nat) := by
  have hmag : (2 ^ 150 : Int) ∣ (m * 2 ^ k.toNat : Nat) := by
    rw [Nat.cast_mul, Nat.cast_pow]
    exact (pow_dvd_pow 2 (by omega)).mul_left _
  cases neg
  · exact hmag
  · exact hmag.neg_right

/-- A finite value of a format whose least magnitude is no less than 2^150 units is a multiple of 2^150 units. -/
theorem dvd_of_read {f : Fmt} {code : Nat} {v : Int} {n : Bool} (hleast : 150 ≤ 301 - f.bias - f.frac)
    (hread : FV.read f code = .fin v n) : (2 ^ 150 : Int) ∣ v := by
  simp only [FV.read] at hread
  split at hread
  · contradiction
  split at hread
  · contradiction
  obtain ⟨rfl, -⟩ := FV.fin.inj hread
  generalize code % 2 ^ (f.width - 1) / 2 ^ f.frac = e
  by_cases hsubnormal : e = 0
  · rw [if_pos hsubnormal]
    exact dvd_signed_scaled _ hleast
  · rw [if_neg hsubnormal]
    exact dvd_signed_scaled _ (by omega)

theorem dvd_of_blockValue {scale q : Nat} {v : Int} {n : Bool} (hvalue : blockValue scale q = .fin v n) : (2 ^ 150 : Int) ∣ v := by
  obtain ⟨rfl, -⟩ := FV.fin.inj hvalue
  exact (pow_dvd_pow 2 (by omega)).mul_left _

/-- A finite operand of a run of reals is a multiple of 2^150 units. -/
theorem dvd_of_entryReal {e : FEntry} {i : Nat} {x : Int} {n : Bool} (htype : e.type ∈ [1, 2, 3, 4, 9])
    (hreal : entryReal e i = .fin x n) : (2 ^ 150 : Int) ∣ x := by
  rw [entryReal] at hreal
  split at hreal
  case isTrue => exact dvd_of_blockValue hreal
  case isFalse hblock =>
    have hleast : (150 : Int) ≤ 301 - (fmt e.type).bias - (fmt e.type).frac := by
      have hfloat : e.type ∈ [1, 2, 3, 4] := by simpa [hblock] using htype
      exact (by decide : ∀ t ∈ [1, 2, 3, 4], (150 : Int) ≤ 301 - (fmt t).bias - (fmt t).frac) _ hfloat
    exact dvd_of_read hleast hreal

/-- The product of two multiples of 2^150 units is a whole number of units, so `FV.mul` drops nothing of it. -/
theorem mul_fin_exact {x y : Int} (m n : Bool) (hx : (2 ^ 150 : Int) ∣ x) (hy : (2 ^ 150 : Int) ∣ y) :
    ∃ z k, FV.mul (.fin x m) (.fin y n) = .fin z k ∧ z * (unit : Int) = x * y :=
  ⟨_, _, rfl, Int.ediv_mul_cancel (unit_eq_mul ▸ mul_dvd_mul hx hy)⟩

/-- Settles O43: the pieces of a pass's products are its groups, and the product of two finite operands is a whole number of
units. -/
theorem integerPassesAdd : Obligations.IntegerPassesAdd := by
  refine ⟨fun sat c a b more moreB hc hpos hlen hb hmore => ?_, fun c a b more moreB hpos hlen hb hmore => ?_,
    fun d e i j x y m n hd he hx hy => ?_⟩
  · exact ⟨passInt_group hc hpos hlen hb, fun hfull => passInt_append hpos hfull hb hmore⟩
  · exact ⟨passReal_group hpos hlen hb, fun hfull => passReal_append hpos hfull hb hmore⟩
  · rw [hx, hy]
    exact mul_fin_exact m n (dvd_of_entryReal hd hx) (dvd_of_entryReal he hy)

end Sys2Proof.Machine
end

section
/-! PROOFS. Register arithmetic (O1, O2, O3): the results of R108–R113 as arithmetic on words, and the words that complete with them. -/

namespace Sys2Proof.Machine

set_option Elab.async false

/-! ## Operations on words (R108, R109) -/

theorem sub_eq_ofInt (x y : Word) : x - y = BitVec.ofInt 64 (x.toNat - y.toNat) := by
  apply BitVec.eq_of_toInt_eq
  rw [BitVec.toInt_sub, BitVec.toInt_ofInt, BitVec.toInt_eq_toNat_bmod, BitVec.toInt_eq_toNat_bmod]
  simp only [Int.sub_bmod_bmod, Int.bmod_sub_bmod]

theorem shiftLeft_eq_ofNat (x : Word) (n : Nat) : x <<< n = BitVec.ofNat 64 (x.toNat * 2 ^ n) := by
  apply BitVec.eq_of_toNat_eq
  rw [BitVec.toNat_shiftLeft, BitVec.toNat_ofNat, Nat.shiftLeft_eq]

theorem ushiftRight_eq_ofNat (x : Word) (n : Nat) : x >>> n = BitVec.ofNat 64 (x.toNat / 2 ^ n) := by
  rw [← Nat.shiftRight_eq_div_pow, ← BitVec.toNat_ushiftRight, BitVec.ofNat_toNat, BitVec.setWidth_eq]

theorem sshiftRight_eq_ofInt (x : Word) (n : Nat) : x.sshiftRight n = BitVec.ofInt 64 (x.toInt / 2 ^ n) := by
  have hdiv := Int.shiftRight_eq_div_pow x.toInt n
  rw [← BitVec.ofInt_toInt (x := x.sshiftRight n), BitVec.toInt_sshiftRight, hdiv, Nat.cast_pow, Nat.cast_ofNat]

/-- The upper half of an exact product, taken before or after it is cut to 128 bits. -/
theorem upperHalf_ofInt (z : Int) : wordOfInt (z / 2 ^ 64) = (BitVec.ofInt 128 z).extractLsb' 64 64 := by
  apply BitVec.eq_of_toNat_eq
  rw [BitVec.extractLsb'_toNat, BitVec.toNat_ofInt, BitVec.toNat_ofInt, Nat.shiftRight_eq_div_pow]
  omega

theorem upperHalf_ofNat (n : Nat) : word (n / 2 ^ 64) = (BitVec.ofNat 128 n).extractLsb' 64 64 := by
  apply BitVec.eq_of_toNat_eq
  rw [BitVec.extractLsb'_toNat, BitVec.toNat_ofNat, BitVec.toNat_ofNat, Nat.shiftRight_eq_div_pow]
  omega

theorem minS_eq (x y : Word) : minS x y = if x.toInt ≤ y.toInt then x else y := by
  by_cases h : x.toInt ≤ y.toInt
  · simp [minS, signedLt, h]
  · simp [minS, signedLt, h, Int.not_le.mp h]

/-- Of signed words that are no smaller than each other either is the greater. -/
theorem maxS_eq (x y : Word) : maxS x y = if x.toInt ≤ y.toInt then y else x := by
  rcases Int.lt_trichotomy x.toInt y.toInt with h | h | h
  · simp [maxS, signedLt, h, h.le]
  · simp [maxS, signedLt, BitVec.eq_of_toInt_eq h]
  · simp [maxS, signedLt, h.le.not_gt, h.not_ge]

theorem minU_eq (x y : Word) : minU x y = if x.toNat ≤ y.toNat then x else y := by
  by_cases h : x.toNat ≤ y.toNat
  · simp [minU, unsignedLt, h]
  · simp [minU, unsignedLt, h, Nat.not_le.mp h]

theorem maxU_eq (x y : Word) : maxU x y = if x.toNat ≤ y.toNat then y else x := by
  rcases Nat.lt_trichotomy x.toNat y.toNat with h | h | h
  · simp [maxU, unsignedLt, h, h.le]
  · simp [maxU, unsignedLt, BitVec.eq_of_toNat_eq h]
  · simp [maxU, unsignedLt, h.le.not_gt, h.not_ge]

theorem wordOfBool_decide (c : Prop) [Decidable c] : wordOfBool (decide c) = if c then 1 else 0 := by
  simp [wordOfBool]

/-- Above the highest one bit of a number below 2^k stand `k - 1 - log2` zeros, and `k` where there is none. -/
theorem leadingZeros_eq {x : Nat} : ∀ {k : Nat}, x < 2 ^ k → leadingZeros x k = if x = 0 then k else k - 1 - Nat.log2 x
  | 0, h => by simp [leadingZeros]
  | k + 1, h => by
    rw [leadingZeros]
    by_cases hlow : x < 2 ^ k
    · rw [Nat.div_eq_of_lt hlow, if_neg (by omega), leadingZeros_eq hlow]
      split
      · omega
      · have := (Nat.log2_lt ‹x ≠ 0›).mpr hlow
        omega
    · have hbit : x / 2 ^ k = 1 := Nat.div_eq_of_lt_le (by omega) (by rw [pow_succ] at h; omega)
      have hx : x ≠ 0 := fun h0 => hlow (by rw [h0]; exact Nat.two_pow_pos k)
      have hlog : Nat.log2 x = k := (Nat.log2_eq_iff hx).mpr ⟨by omega, h⟩
      simp [hbit, hx, hlog]

theorem clz_eq (x : Word) : clz x = if x = 0 then 64 else BitVec.ofNat 64 (63 - Nat.log2 x.toNat) := by
  rw [clz, leadingZeros_eq x.isLt]
  by_cases h : x = 0
  · subst h; rfl
  · have hn : x.toNat ≠ 0 := fun h0 => h (BitVec.eq_of_toNat_eq h0)
    rw [if_neg h, if_neg hn]

theorem popCount_eq : ∀ k n : Nat, popCount k n = ((List.range k).filter (fun i => n.testBit i)).length
  | 0, _ => rfl
  | k + 1, n => by
    rw [popCount, popCount_eq k, List.range_succ_eq_map, List.filter_cons, List.filter_map, Nat.testBit_zero]
    have hrest : ((fun i => n.testBit i) ∘ Nat.succ) = fun i => (n / 2).testBit i := by
      funext i; exact (Nat.testBit_succ n i)
    rcases Nat.mod_two_eq_zero_or_one n with h | h
    · simp [hrest, h]
    · simp [hrest, h, Nat.add_comm]

theorem popc_eq (x : Word) : popc x = BitVec.ofNat 64 ((List.range 64).filter (fun i => x.getLsbD i)).length := by
  rw [popc, popCount_eq]; rfl

/-- The least word divided by -1 gives itself and leaves nothing (R109). -/
theorem divS_least {x y : Word} (hx : x.toInt = -2 ^ 63) (hy : y.toInt = -1) : divS x y = x ∧ remS x y = 0 := by
  obtain rfl : x = BitVec.ofInt 64 (-2 ^ 63) := BitVec.eq_of_toInt_eq (by rw [hx]; rfl)
  obtain rfl : y = BitVec.ofInt 64 (-1) := BitVec.eq_of_toInt_eq (by rw [hy]; rfl)
  exact ⟨by decide, by decide⟩

/-! ## Words that complete with a given result -/

theorem arith2_writes {s : State} {d a b : B6} (h : namesRegs s [d, a, b]) {f : Word → Word → Word} {v : Word}
    (hv : f (s.reg a.toNat) (s.reg b.toNat) = v) :
    control s (fun s => arith2 s d a b f) = writes s d v (s.tainted a.toNat || s.tainted b.toNat) := by
  rw [control_arith2 h, hv, writes]

theorem arith1_writes {s : State} {d a : B6} (h : namesRegs s [d, a]) {f : Word → Word} {v : Word} (hv : f (s.reg a.toNat) = v) :
    control s (fun s => arith1 s d a f) = writes s d v (s.tainted a.toNat) := by
  rw [control_arith1 h, hv, writes]

theorem namesRegs_of_subset {s : State} {rs qs : List B6} (h : namesRegs s rs) (hq : qs ⊆ rs) : namesRegs s qs :=
  h.imp_right (fun hall r hr => hall r (hq hr))

theorem registerArithmeticResults : Claims.RegisterArithmeticResults := by
  intro s d a b h
  exact ⟨arith2_writes h (BitVec.eq_of_toNat_eq (by simp)), arith2_writes h (sub_eq_ofInt _ _), arith2_writes h rfl,
    arith2_writes h rfl, arith2_writes h rfl, arith2_writes h (shiftLeft_eq_ofNat _ _),
    arith2_writes h (ushiftRight_eq_ofNat _ _), arith2_writes h (sshiftRight_eq_ofInt _ _), arith2_writes h rfl,
    arith2_writes h (upperHalf_ofInt _), arith2_writes h (upperHalf_ofNat _), arith2_writes h (minS_eq _ _),
    arith2_writes h (maxS_eq _ _), arith2_writes h (minU_eq _ _), arith2_writes h (maxU_eq _ _),
    arith2_writes h (wordOfBool_decide _), arith2_writes h (wordOfBool_decide _)⟩

theorem bitCounts : Claims.BitCounts := fun _ _ _ h => ⟨arith1_writes h (clz_eq _), arith1_writes h (popc_eq _)⟩

/-- Settles O1, by the arithmetic of each operation. -/
theorem scalarResults : Obligations.ScalarResults := ⟨registerArithmeticResults, bitCounts⟩

/-- Settles O2: division gives its result on every operand, the least word by -1 included. -/
theorem divisionNeverTraps : Obligations.DivisionNeverTraps := by
  intro s d a b h
  refine ⟨arith2_writes h rfl, arith2_writes h rfl, arith2_writes h rfl, arith2_writes h rfl, fun hx hy => ?_⟩
  obtain ⟨hdiv, hrem⟩ := divS_least hx hy
  exact ⟨arith2_writes h hdiv, arith2_writes h hrem⟩

/-- Settles O3, by the arithmetic of each operation. -/
theorem immediateArithmeticResults : Obligations.ImmediateArithmeticResults := by
  intro s d a b i n u k h
  have h1 : namesRegs s [d, a] := namesRegs_of_subset h (by simp)
  have h0 : namesRegs s [d] := namesRegs_of_subset h (by simp)
  refine ⟨arith1_writes h1 rfl, arith1_writes h1 rfl, arith1_writes h1 rfl, arith1_writes h1 rfl, arith1_writes h1 ?_,
    arith1_writes h1 (wordOfBool_decide _), arith1_writes h1 (shiftLeft_eq_ofNat _ _), arith1_writes h1 (ushiftRight_eq_ofNat _ _),
    arith1_writes h1 (sshiftRight_eq_ofInt _ _), control_arith0 h0 _, (control_arith0 h0 _).trans ?_, arith2_writes h ?_⟩
  · rw [signedLt, wordOfBool_decide, imm13, BitVec.toInt_signExtend_of_le (by decide)]
  · rw [writes, BitVec.ofInt_add, BitVec.ofInt_natCast, BitVec.ofNat_toNat, BitVec.setWidth_eq]
  · rw [shiftLeft_eq_ofNat, BitVec.ofNat_add, BitVec.ofNat_toNat, BitVec.setWidth_eq]

end Sys2Proof.Machine
end

section
/-! PROOFS. The frame of the scalar instructions (O4): what a word without a signal token and a trap leave alone, and that a scalar
word either writes its destination or traps. -/

namespace Sys2Proof.Machine

set_option Elab.async false

/-! ## What a word without a signal token leaves alone -/

/-- `t` differs from `s` in its parties and its last ending. -/
def OnlyParties (s t : State) : Prop := ∃ ps e, t = { s with parties := ps, last := e }

namespace OnlyParties

variable {s t u : State}

theorem trans (h : OnlyParties s t) (k : OnlyParties t u) : OnlyParties s u := by
  obtain ⟨ps, e, rfl⟩ := h
  obtain ⟨qs, d, rfl⟩ := k
  exact ⟨qs, d, rfl⟩

theorem eq (h : OnlyParties s t) : t = { s with parties := t.parties, last := t.last } := by
  obtain ⟨ps, e, rfl⟩ := h
  rfl

theorem settle (s : State) (p : PartyId) : OnlyParties s (settle s p) := by
  unfold Machine.settle
  split
  · exact ⟨_, _, rfl⟩
  · exact ⟨_, _, rfl⟩

theorem advance (s : State) (n : Nat) : OnlyParties s (advance s n) := by
  unfold Machine.advance
  dsimp only
  split_ifs
  · exact ⟨_, _, rfl⟩
  · exact ⟨_, _, rfl⟩
  · exact ⟨_, _, rfl⟩
  · exact ⟨_, _, rfl⟩

theorem retire_zero (s : State) (n : Nat) : OnlyParties s (retire s 0 n) := by
  have hrest : OnlyParties s ((rested s).setLast .retired) :=
    (show OnlyParties s (s.modMe (fun x => { x with wait := .no, busy := none })) from ⟨_, _, rfl⟩).trans
      ((settle _ s.cur).trans ⟨_, _, rfl⟩)
  rw [Machine.retire_zero]
  dsimp only
  split
  · exact hrest
  · exact hrest.trans (advance _ n)

end OnlyParties

/-- Moving on changes the pc, the loops and the repetitions of a party. -/
theorem me_advance_flow (s : State) (n : Nat) :
    ∃ pc ls order repc, (advance s n).me = { s.me with pc := pc, ls := ls, order := order, repc := repc } := by
  unfold advance
  dsimp only
  split_ifs
  · exact ⟨_, _, _, _, State.me_setMe s _⟩
  · exact ⟨_, _, _, _, rfl⟩
  · exact ⟨_, _, _, _, State.me_setMe s _⟩
  · exact ⟨_, _, _, _, State.me_setMe s _⟩

/-- A party that retires a word without a signal token waits no more, and has moved on. -/
theorem me_retire_flow (s : State) {n : Nat} (hn : n ≠ 0) :
    ∃ v pc ls order repc, (retire s 0 n).me =
      { s.me with wait := .no, busy := none, view := v, pc := pc, ls := ls, order := order, repc := repc } := by
  obtain ⟨v, hv⟩ := me_settle (s.modMe (fun x => { x with wait := .no, busy := none }))
  obtain ⟨pc, ls, order, repc, h⟩ := me_advance_flow ((rested s).setLast .retired) n
  refine ⟨v, pc, ls, order, repc, ?_⟩
  rw [retire_zero]
  dsimp only
  rw [if_neg hn]
  refine h.trans ?_
  rw [State.cur_modMe, State.me_modMe] at hv
  rw [State.me_setLast, rested, hv]

theorem party_retire_zero_other (s : State) (n : Nat) {q : PartyId} (h : partyKey q ≠ partyKey s.cur) :
    (retire s 0 n).party q = s.party q := by
  have hrest : ((rested s).setLast .retired).party q = s.party q := by rw [State.party_setLast, party_rested_other h]
  have hcur : ((rested s).setLast .retired).cur = s.cur := by rw [State.cur_setLast, rested, cur_settle, State.cur_modMe]
  rw [retire_zero]
  dsimp only
  split
  · exact hrest
  · have hother : partyKey q ≠ partyKey ((rested s).setLast .retired).cur := by rwa [hcur]
    exact (party_advance_other _ n q hother).trans hrest

/-! ## What a trap leaves alone (R347) -/

theorem trapFrame_refl (x : PartyState) : trapFrame x x := rfl

theorem trapFrame_trans {x y z : PartyState} (h : trapFrame x y) (k : trapFrame y z) : trapFrame x z := by
  rw [trapFrame] at h k ⊢
  rw [h] at k
  exact k

/-- An update of one party that keeps to what a trap may change. -/
theorem trapFrame_modParty (s : State) (p q : PartyId) {f : PartyState → PartyState} (hf : ∀ x, trapFrame x (f x)) :
    trapFrame (s.party q) ((s.modParty p f).party q) := by
  by_cases h : partyKey q = partyKey p
  · have hq : (s.modParty p f).party q = f (s.party q) := by simp [State.party, State.modParty, State.setParty, h]
    rw [hq]
    exact hf _
  · rw [State.party_modParty_other s p q f h]
    exact trapFrame_refl _

theorem setHeld_frame (b : Bool) (ps : List PartyId) : ∀ s : State,
    OnlyParties s (setHeld s b ps) ∧ (setHeld s b ps).last = s.last ∧
      ∀ q, trapFrame (s.party q) ((setHeld s b ps).party q) := by
  induction ps with
  | nil => exact fun s => ⟨⟨_, _, rfl⟩, rfl, fun q => trapFrame_refl _⟩
  | cons p ps ih =>
    intro s
    obtain ⟨honly, hlast, hparty⟩ := ih (s.modParty p (fun x => { x with held := b }))
    have hfirst (q : PartyId) : trapFrame (s.party q) ((s.modParty p (fun x => { x with held := b })).party q) :=
      trapFrame_modParty s p q (fun _ => rfl)
    exact ⟨(show OnlyParties s (s.modParty p (fun x => { x with held := b })) from ⟨_, _, rfl⟩).trans honly, hlast,
      fun q => trapFrame_trans (hfirst q) (hparty q)⟩

/-- A trap changes the exception registers and marks of parties, the mark of its residency slot and the records of its die. -/
theorem takeTrap_frame (s : State) (p : PartyId) (c : Nat) (v : Word) :
    let t := takeTrap s p c v
    t.last = .trapped ∧ t = { s with parties := t.parties, ctxs := t.ctxs, dies := t.dies, last := .trapped } ∧
      ∀ q, trapFrame (s.party q) (t.party q) := by
  let s1 := s.modParty p (fun x =>
    { x with tcause := BitVec.ofNat 16 c, tpc := x.pc, tval := v, tstat := tstatOf s p, wait := .no })
  obtain ⟨honly, -, hheld⟩ := setHeld_frame true (heldBy s p) s1
  have hfirst (q : PartyId) : trapFrame (s.party q) (s1.party q) := trapFrame_modParty s p q (fun _ => rfl)
  have hparty (q : PartyId) : trapFrame (s.party q) ((setHeld s1 true (heldBy s p)).party q) :=
    trapFrame_trans (hfirst q) (hheld q)
  obtain ⟨ps, e, hs2⟩ := (show OnlyParties s s1 from ⟨_, _, rfl⟩).trans honly
  have hset : s.setParty p { s.party p with
    tcause := BitVec.ofNat 16 c, tpc := (s.party p).pc, tval := v, tstat := tstatOf s p, wait := .no } = s1 := rfl
  unfold takeTrap
  dsimp only
  rw [hset]
  rw [hs2] at hparty ⊢
  split
  · exact ⟨rfl, rfl, hparty⟩
  · exact ⟨rfl, rfl, hparty⟩

/-! ## Scalar words -/

theorem arith2_ends (s : State) (d a b : B6) (f : Word → Word → Word) :
    (∃ v taint, control s (fun s => arith2 s d a b f) = writes s d v taint) ∨
      control s (fun s => arith2 s d a b f) = .next (takeTrap s s.cur causeOperand s.curWord) := by
  rw [control_eq, arith2]
  split
  · exact .inl ⟨_, _, conclude_done_zero _ _ _ _⟩
  · exact .inr (conclude_trap _ _ _ _ _)

theorem arith1_ends (s : State) (d a : B6) (f : Word → Word) :
    (∃ v taint, control s (fun s => arith1 s d a f) = writes s d v taint) ∨
      control s (fun s => arith1 s d a f) = .next (takeTrap s s.cur causeOperand s.curWord) := by
  rw [control_eq, arith1]
  split
  · exact .inl ⟨_, _, conclude_done_zero _ _ _ _⟩
  · exact .inr (conclude_trap _ _ _ _ _)

theorem arith0_ends (s : State) (d : B6) (f : State → Word) :
    (∃ v taint, control s (fun s => arith0 s d (f s)) = writes s d v taint) ∨
      control s (fun s => arith0 s d (f s)) = .next (takeTrap s s.cur causeOperand s.curWord) := by
  rw [control_eq, arith0]
  split
  · exact .inl ⟨_, _, conclude_done_zero _ _ _ _⟩
  · exact .inr (conclude_trap _ _ _ _ _)

/-- A scalar word writes its destination or traps. -/
theorem exec_scalar {i : Instr} {d : B6} (h : scalarDest i = some d) (s : State) :
    (∃ v taint, exec i s = writes s d v taint) ∨ exec i s = .next (takeTrap s s.cur causeOperand s.curWord) := by
  cases i
  case add | sub | and | or | xor | shl | shr | sar | mul | mulh | mulhu | div | divu | rem | remu | min | max | minu | maxu | slt
    | sltu | agen =>
    cases h
    exact arith2_ends s _ _ _ _
  case clz | popc | addi | andi | ori | xori | slti | sltiu | shli | shri | sari =>
    cases h
    exact arith1_ends s _ _ _
  case lui =>
    cases h
    exact arith0_ends s _ (fun _ => _)
  case addpc =>
    cases h
    exact arith0_ends s _ (fun s => s.me.pc + _)
  all_goals exact nomatch h

theorem getLsbD_setBit_other {n : Nat} (x : BitVec n) {i j : Nat} (b : Bool) (hj : j < n) (h : j ≠ i) :
    (setBit x i b).getLsbD j = x.getLsbD j := by
  have hbit : (BitVec.ofNat n (2 ^ i)).getLsbD j = false := by
    rw [BitVec.getLsbD_ofNat, Nat.testBit_two_pow_of_ne (Ne.symm h), Bool.and_false]
  cases b
  · rw [setBit, if_neg Bool.false_ne_true, BitVec.getLsbD_and, BitVec.getLsbD_not, hbit]
    simp [hj]
  · rw [setBit, if_pos rfl, BitVec.getLsbD_or, hbit, Bool.or_false]

theorem writes_frame {s t : State} {d : B6} {v : Word} {taint : Bool} (h : writes s d v taint = .next t) :
    t.last = .retired ∧ t = { s with parties := t.parties, last := .retired } ∧
    (∀ q, partyKey q ≠ partyKey s.cur → t.party q = s.party q) ∧
    (∀ e, e ≠ d.toNat → t.reg e = s.reg e ∧ (e < 64 → t.tainted e = s.tainted e ∧
      t.me.spoilt.getLsbD e = s.me.spoilt.getLsbD e)) ∧
    t.me = { s.me with regs := t.me.regs, taint := t.me.taint, spoilt := t.me.spoilt, pc := t.me.pc, ls := t.me.ls, order := t.me.order,
                       repc := t.me.repc, wait := .no, busy := none, view := t.me.view } := by
  obtain rfl : retire (s.setReg d.toNat v taint) 0 1 = t := Host.Outcome.next.inj h
  obtain ⟨w, pc, ls, order, repc, hme⟩ := me_retire_flow (s.setReg d.toNat v taint) one_ne_zero
  have hset : (s.setReg d.toNat v taint).me = { s.me with regs := put s.me.regs d.toNat v, taint := setBit s.me.taint d.toNat taint,
                                                          spoilt := setBit s.me.spoilt d.toNat false } := State.me_modMe s _
  rw [hset] at hme
  have hlast := last_retire_zero (s.setReg d.toNat v taint) 1
  have honly := ((show OnlyParties s (s.setReg d.toNat v taint) from ⟨_, _, rfl⟩).trans (.retire_zero _ 1)).eq
  rw [hlast] at honly
  refine ⟨hlast, honly, fun q hq => ?_, fun e he => ?_, ?_⟩
  · rw [party_retire_zero_other (s.setReg d.toNat v taint) 1 hq, State.setReg]
    exact party_modMe_other hq _
  · simp only [State.reg, State.tainted, hme]
    exact ⟨look_put_other _ _ _ _ _ he,
      fun hlt => ⟨getLsbD_setBit_other _ _ hlt he, getLsbD_setBit_other _ _ hlt he⟩⟩
  · rw [hme]

/-- Settles O4: a scalar word writes its destination and retires, or it traps. -/
theorem scalarFrame : Obligations.ScalarFrame := by
  intro i d s t hdest hexec
  rcases exec_scalar hdest s with ⟨v, taint, hwrites⟩ | htrap
  · obtain ⟨hlast, honly, hframe⟩ := writes_frame (hwrites.symm.trans hexec)
    exact ⟨fun a => by rw [honly], .inl ⟨hlast, honly, hframe⟩⟩
  · obtain rfl : takeTrap s s.cur causeOperand s.curWord = t := Host.Outcome.next.inj (htrap.symm.trans hexec)
    exact ⟨fun a => by rw [mem_takeTrap], .inr (takeTrap_frame s s.cur _ _)⟩

end Sys2Proof.Machine
end

section
/-! PROOFS. The frames of the engines (O51): a word of an engine that w0 of a system core meets while its handler runs marks the die
as stopped, which the vector instructions' frame does not name. -/

namespace Sys2Proof.Machine

set_option Elab.async false

/-- The system core of die 0 runs its handler (R351), and w0 of it executes. -/
def handlerRuns : State := { State.reset with cur := ⟨16, 0, .w0⟩, dies := [(0, { inh := true })] }

/-- A word of the vector map is illegal in w0, and a trap of w0 in its handler is a double trap (R351). -/
theorem vsbal_in_handler : exec (.vsbal 0 0 0) handlerRuns = .next (takeTrap handlerRuns handlerRuns.cur causeIllegal handlerRuns.curWord) := by
  change execVsbal 0 0 0 handlerRuns = _
  exact tokened_other 0 0 (by decide) _

theorem handlerRuns_double (v : Word) : ((takeTrap handlerRuns handlerRuns.cur causeIllegal v).die 0).double = true := rfl

/-- The frame of the vector instructions leaves out what a word of another engine's map does in w0 of a system core. -/
theorem not_vectorFrame : ¬ Claims.VectorFrame := by
  intro h
  obtain ⟨-, -, -, -, -, -, -, hdies⟩ := h (.vsbal 0 0 0) none handlerRuns _ rfl wf_empty vsbal_in_handler
  have hsame := congrArg DieState.double (hdies 0)
  rw [handlerRuns_double] at hsame
  exact absurd hsame (by decide)

/-- Refutes O51: VSBAL in w0 of die 0's system core, whose handler runs, takes a double trap. The die's mark of it changes, which
`engineMarks` leaves unchanged. -/
theorem not_engineFrames : ¬ Obligations.EngineFrames := by
  rintro ⟨hvector, -⟩
  exact not_vectorFrame hvector

end Sys2Proof.Machine
end

section
/-! PROOFS. Vector instructions (O35–O39): what a vector instruction does that finds its operands (R115–R117), and the elements of
vectors. -/

namespace Sys2Proof.Machine

set_option Elab.async false

/-! ## Scratchpads without a flipped bit -/

theorem readScratch_clean {s : State} (h : s.flips = []) (core slot o n : Nat) :
    ∃ t bs, readScratch s core slot o n = some (t, bs) ∧ t.flips = [] := by
  refine ⟨_, _, by rw [readScratch, checkWords_clean h], ?_⟩
  unfold sawBy
  split
  · exact h
  · exact h

theorem putCells_clean {s : State} (h : s.flips = []) (core size : Nat) (cells : List (Nat × Byte)) :
    ∃ t, putCells s core size cells = some t := by
  have hnow (cs : List (Nat × Byte)) : ∃ t, writeCellsNow s core size cs = some t := by
    rw [writeCellsNow]
    dsimp only
    rw [checkWords_clean h]
    exact ⟨_, rfl⟩
  unfold putCells
  split
  · exact hnow cells
  · obtain ⟨t, ht⟩ := hnow (((unitsOf size cells).partition (leftLate s.tick size)).2.flatMap id)
    exact ⟨_, congrArg (Option.map _) ht⟩

theorem fetchAll_clean {t : State} {gs : List VGot} {vs : List Vec} :
    ∀ {s : State}, s.flips = [] → fetchAll s gs = some (t, vs) → t.flips = [] := by
  induction gs generalizing vs with
  | nil =>
    rintro s hs ⟨⟩
    exact hs
  | cons got rest ih =>
    intro s hs h
    cases got with
    | vec e =>
      rw [fetchAll] at h
      split at h
      · cases h
      · obtain ⟨⟨u, us⟩, hu, hr⟩ := Option.map_eq_some_iff.mp h
        cases hr
        exact ih hs hu
    | scratch o =>
      obtain ⟨u, bs, hread, hu⟩ := readScratch_clean hs s.cur.core s.cur.slot o 256
      rw [fetchAll, hread] at h
      obtain ⟨⟨y, us⟩, hy, hr⟩ := Option.map_eq_some_iff.mp h
      cases hr
      exact ih hu hy
    | stall => exact ih hs h

@[simp] theorem flips_takeFiles (s : State) (x : VFiles) (vq : Bool) : (takeFiles s x vq).flips = s.flips := by
  cases vq <;> rfl

theorem me_takeFiles (s : State) (x : VFiles) (vq : Bool) :
    (takeFiles s x vq).me = { s.me with v := x.v, ports := x.ports } := by
  cases vq
  · exact State.me_modMe s (fun p => { p with v := x.v, ports := x.ports })
  · exact State.me_modMe s (fun p => { p with v := x.v, ports := x.ports })

/-! ## A vector instruction that finds its operands -/

theorem voperand_v {f : B5} (h : f.toNat < 20) : voperand f = .v f.toNat := if_pos h

theorem voperand_port {f : B5} (h : 24 ≤ f.toNat) : voperand f = .port (f.toNat - 24) := by
  rw [voperand, if_neg (by omega), if_neg (by omega), if_neg (by omega), if_neg (by omega)]

/-- The operand code of a port. -/
theorem le_of_voperand_port {f : B5} {n : Nat} (h : voperand f = .port n) : 24 ≤ f.toNat ∧ n = f.toNat - 24 := by
  by_cases hf : 24 ≤ f.toNat
  · rw [voperand_port hf] at h
    exact ⟨hf, (VOperand.port.inj h).symm⟩
  · rw [voperand] at h
    split_ifs at h
    omega

/-- A destination with room is written, where no bit of a port's scratchpad has flipped. -/
theorem writeDest_room {s : State} {d : B5} (hroom : overflows ⟨s.me.v, [], s.me.ports⟩ d = false)
    (hclean : 24 ≤ d.toNat → s.flips = []) (whole : Bool) (o : VOut) : ∃ u, writeDest s d whole o = some u := by
  unfold writeDest
  dsimp only
  split
  case h_1 => exact ⟨_, rfl⟩
  case h_2 => exact ⟨_, rfl⟩
  case h_3 n hd =>
    obtain ⟨hport, rfl⟩ := le_of_voperand_port hd
    rw [overflows, hd] at hroom
    dsimp only at hroom
    cases hp : seek s.me.ports (d.toNat - 24) with
    | none => rw [hp] at hroom; cases hroom
    | some p =>
      obtain ⟨t, ht⟩ := putCells_clean (hclean hport) s.cur.core (if whole then 16 else 8) _
      exact ⟨_, congrArg (Option.map _) ht⟩
  case h_4 => exact ⟨_, rfl⟩

theorem overflows_congr {x y : VFiles} (hv : x.v = y.v) (hports : x.ports = y.ports) (d : B5) : overflows x d = overflows y d := by
  simp only [overflows, hv, hports]

section
variable {s t : State} {srcs : List VSource} {d : B5} {x : VFiles} {vs : List Vec}

/-- The checks of a vector instruction pass, its sources are read and its destination is written. -/
theorem vop_done (hread : operandsRead s srcs d x t vs) {whole : Bool}
    (halign : whole = true → ∀ y, seek s.me.ports (d.toNat - 24) = some y → portAddr y y.pos % 16 = 0) (f : List Vec → VOut) :
    ∃ u, writeDest (takeFiles t x (srcs.any (fun e => isVq e.1))) d whole (f vs) = some u ∧
      vop s srcs d true whole f = .done (match (f vs).vm with | some m => u.modMe (fun y => { y with vm := m }) | none => u) 1 := by
  obtain ⟨hsources, hdest, hroom, ⟨gs, hgs, hstall, hfetch⟩, hvq, hflips⟩ := hread
  have hme := me_takeFiles t x (srcs.any (fun e => isVq e.1))
  obtain ⟨u, hu⟩ := writeDest_room (s := takeFiles t x (srcs.any (fun e => isVq e.1))) (d := d)
    ((overflows_congr (by rw [hme]) (by rw [hme]) d).trans hroom)
    (fun h => (flips_takeFiles _ _ _).trans (fetchAll_clean (hflips h) hfetch)) whole (f vs)
  refine ⟨u, hu, ?_⟩
  have hall : srcs.all (fun e => sourceOk s e.1) = true := List.all_eq_true.mpr hsources
  have hfree : ¬(isVq d && decide (vqFree s s.cur.core = 0)) = true := by simpa using hvq
  unfold vop
  dsimp only
  rw [hall, hdest, hgs]
  refine (if_neg (by decide)).trans ((if_neg fun h => ?_).trans ?_)
  · obtain ⟨hw, hmis⟩ := Bool.and_eq_true_iff.mp h
    split at hmis
    next y hy =>
      split at hy
      next n hn =>
        obtain ⟨-, rfl⟩ := le_of_voperand_port hn
        simp [halign hw y hy] at hmis
      next => cases hy
    next => cases hmis
  · refine (if_neg (by simp [hroom])).trans ((if_neg fun h => ?_).trans ((if_neg hfree).trans ?_))
    · obtain ⟨got, hgot, hst⟩ := List.any_eq_true.mp h
      split at hst
      next => exact hstall hgot
      next => cases hst
    · rw [hfetch]
      dsimp only
      rw [hu] <;> rfl

variable {w g : B2} {i : Instr} (hrdy : Ready s .vector w g) (hread : operandsRead s srcs d x t vs)
include hrdy hread

/-- A ready word that is a vector instruction with its operands retires with its result. -/
theorem vectorEnds_of_vop {body : State → Act} {ok whole : Bool} {f : List Vec → VOut} {o : VOut} (hok : ok = true)
    (hexec : exec i s = tokened s .vector w g body := by rfl) (hbody : body s = vop s srcs d ok whole f := by rfl)
    (ho : f vs = o := by rfl)
    (halign : whole = true → ∀ y, seek s.me.ports (d.toNat - 24) = some y → portAddr y y.pos % 16 = 0) :
    vectorEnds whole i s w g srcs d x t o := by
  subst ho
  obtain ⟨u, hu, hvop⟩ := vop_done hread halign f
  refine ⟨u, hu, ?_⟩
  rw [hexec, tokened_ready hrdy, hbody, hok, hvop, conclude_done (signalWaits_ready hrdy)] <;> rfl

theorem vectorDone_of_vop {body : State → Act} {ok : Bool} {f : List Vec → VOut} {o : VOut} (hok : ok = true)
    (hexec : exec i s = tokened s .vector w g body := by rfl) (hbody : body s = vop s srcs d ok false f := by rfl)
    (ho : f vs = o := by rfl) :
    vectorDone i s w g srcs d x t o :=
  vectorEnds_of_vop hrdy hread hok hexec hbody ho nofun

end

/-! ## Elements of vectors -/

@[simp] theorem length_elems (x : Vec) (o size n : Nat) : (elems x o size n).length = n := by simp [elems]

theorem elems_lt {x : Vec} {o size n m : Nat} (h : m ∈ elems x o size n) : m < 2 ^ (8 * size) := by
  obtain ⟨i, -, rfl⟩ := List.mem_map.mp h
  exact Nat.mod_lt _ (Nat.two_pow_pos _)

/-- A list of known length by its indices. -/
theorem map_getD_range {α : Type} (d : α) : ∀ l : List α, (List.range l.length).map (fun i => l.getD i d) = l
  | [] => rfl
  | a :: l => by
    rw [List.length_cons, List.range_succ_eq_map, List.map_cons, List.map_map]
    exact congrArg (a :: ·) (map_getD_range d l)

theorem zipWith_range {α β γ : Type} (f : α → β → γ) (d : α) (e : β) {l : List α} {m : List β} {n : Nat} (hl : l.length = n)
    (hm : m.length = n) : List.zipWith f l m = (List.range n).map (fun i => f (l.getD i d) (m.getD i e)) := by
  conv_lhs => rw [← map_getD_range d l, ← map_getD_range e m, hl, hm, List.zipWith_map, List.zipWith_self]

theorem zip3_range (f : Nat → Nat → Nat → Nat) : ∀ {k l m : List Nat} {n : Nat}, k.length = n → l.length = n → m.length = n →
    zip3 f k l m = (List.range n).map (fun i => f (k.getD i 0) (l.getD i 0) (m.getD i 0))
  | [], [], [], _, rfl, _, _ => rfl
  | a :: k, b :: l, c :: m, _, rfl, hl, hm => by
    rw [List.length_cons, List.range_succ_eq_map, List.map_cons, List.map_map, zip3]
    exact congrArg (f a b c :: ·) (zip3_range f rfl (Nat.succ.inj hl) (Nat.succ.inj hm))

/-! ## Arithmetic (R121, R122) -/

/-- Settles O35: the lanes are those of the statement, element by element. -/
theorem vectorArithmeticResults : Obligations.VectorArithmeticResults := by
  intro s t w g c d a b p q x vs hrdy cw ta tb td narrow narrowInt fa fb ia ib n srcs binary
  refine ⟨fun hfam hread => ?_, fun hfam hv hread => ?_, fun hfam hread => ?_⟩
  · have done (i : Instr) (fo : Nat → FV → FV → FV) (io : Int → Int → Int)
        (hexec : exec i s = tokened s .vector w g (fun s => varith s d a b c p q fo io)) : binary i (fo (cwRm cw)) io :=
      vectorDone_of_vop hrdy hread hfam hexec
    exact ⟨done _ FV.add _ rfl, done _ (fun rm m k => FV.add rm m k.negate) _ rfl, done _ (fun _ => FV.mul) _ rfl,
      done _ (fun _ => FV.minimum) _ rfl, done _ (fun _ => FV.maximum) _ rfl⟩
  · have hok : (sameFamily [ta, tb, td] && isV d) = true := by rw [hfam, hv]; rfl
    exact vectorDone_of_vop hrdy hread hok (ho := congrArg (masked s.me.vm 0 (typeSize td))
      (zip3_range (laneFma cw) (length_elems _ _ _ n) (length_elems _ _ _ n) (length_elems _ _ _ n)))
  · exact vectorDone_of_vop hrdy hread hfam

end Sys2Proof.Machine
end

section
/-! PROOFS. Bits, shifts and comparisons of vectors (O36): lists by their indices, shifts as divisions, and the mask of a
comparison. -/

namespace Sys2Proof.Machine

set_option Elab.async false

/-! ## Lists by their indices -/

theorem zip_range {α : Type} (d : α) {l : List α} {n : Nat} (hl : l.length = n) :
    (List.range n).zip l = (List.range n).map (fun i => (i, l.getD i d)) := by
  subst hl
  conv_lhs => rw [← map_getD_range d l, List.length_map, List.length_range, List.zip_map_right]
  rw [List.zip_eq_zipWith, List.zipWith_self, List.map_map]
  rfl

theorem zip_zip_range {α β : Type} (d : α) (e : β) {l : List α} {m : List β} {n : Nat} (hl : l.length = n) (hm : m.length = n) :
    (List.range n).zip (l.zip m) = (List.range n).map (fun i => (i, l.getD i d, m.getD i e)) := by
  rw [List.zip_eq_zipWith (l₁ := l), zipWith_range _ d e hl hm, List.zip_map_right, List.zip_eq_zipWith, List.zipWith_self,
    List.map_map]
  rfl

theorem elems_getD_lt (x : Vec) (o size n i : Nat) : (elems x o size n).getD i 0 < 2 ^ (8 * size) := by
  rw [List.getD_eq_getElem?_getD]
  cases h : (elems x o size n)[i]? with
  | none => exact Nat.two_pow_pos _
  | some m => exact elems_lt (List.mem_of_getElem? h)

/-! ## Shifts (R127) -/

/-- An arithmetic shift divides the signed value; a shift by more than the width is one by the width. -/
theorem shiftRight_eq {n m : Nat} (hn : 0 < n) (hm : m < 2 ^ n) (signed : Bool) (k : Nat) :
    shiftRight n signed m k =
      if signed then (BitVec.ofInt n ((BitVec.ofNat n m).toInt / 2 ^ min k n)).toNat else m / 2 ^ min k n := by
  have hj : (if n ≤ k then n else k) = min k n := by split <;> omega
  rw [shiftRight, hj]
  generalize hjn : min k n = j
  have hsplit : 2 ^ n = 2 ^ (n - j) * 2 ^ j := by rw [← pow_add]; congr 1; omega
  have hhalf : 2 ^ n = 2 * 2 ^ (n - 1) := by rw [← pow_succ']; congr 1; omega
  have hquot : m / 2 ^ j < 2 ^ (n - j) := Nat.div_lt_of_lt_mul (by rw [Nat.mul_comm, ← hsplit]; exact hm)
  have hpow : 2 ^ (n - j) ≤ 2 ^ n := Nat.pow_le_pow_right (by decide) (by omega)
  have hcast : ((2 ^ n : Nat) : Int) = 2 ^ (n - j) * 2 ^ j := by rw [hsplit]; push_cast; rfl
  have hdiv : (m : Int) / 2 ^ j = (m / 2 ^ j : Nat) := by push_cast; rfl
  have hdivneg : ((m : Int) - (2 ^ n : Nat)) / 2 ^ j = (m / 2 ^ j : Nat) - (2 ^ (n - j) : Nat) := by
    rw [hcast, Int.sub_mul_ediv_right _ _ (by positivity)]
    push_cast
    rfl
  cases signed with
  | false => rfl
  | true =>
    rw [if_pos rfl, BitVec.toNat_ofInt, BitVec.toInt_eq_toNat_cond, BitVec.toNat_ofNat, Nat.mod_eq_of_lt hm, Bool.true_and]
    by_cases hneg : 2 ^ (n - 1) ≤ m
    · rw [if_pos (by simpa using hneg), if_neg (by omega), hdivneg]
      generalize m / 2 ^ j = q at hquot ⊢
      clear hdiv hdivneg
      rw [← Int.add_emod_right, Int.emod_eq_of_lt (by omega) (by omega)]
      omega
    · rw [if_neg (by simpa using hneg), if_pos (by omega), hdiv]
      generalize m / 2 ^ j = q at hquot ⊢
      rw [Int.emod_eq_of_lt (by omega) (by omega), Int.toNat_natCast]

theorem width_pos (t : Nat) : 0 < 8 * typeSize t := by
  unfold typeSize
  split <;> decide

/-! ## Comparisons (R124) -/

theorem getLsbD_setBit_false {n : Nat} (x : BitVec n) (i : Nat) : (setBit x i false).getLsbD i = false := by
  rw [setBit, if_neg Bool.false_ne_true, BitVec.getLsbD_and, BitVec.getLsbD_not, BitVec.getLsbD_ofNat, Nat.testBit_two_pow_self]
  by_cases h : i < n
  · simp [h]
  · simp [h]

/-- Clearing the lanes of the comparisons that fail. -/
theorem getLsbD_clearLanes {n j : Nat} (hj : j < 64) (l : List (Nat × Bool)) : ∀ m : Word,
    (l.foldl (fun m e => if e.2 then m else setBit m (laneOf e.1 n) false) m).getLsbD j =
      (m.getLsbD j && l.all (fun e => e.2 || decide (laneOf e.1 n ≠ j))) := by
  induction l with
  | nil => intro m; simp
  | cons e l ih =>
    intro m
    rw [List.foldl_cons, ih, List.all_cons, ← Bool.and_assoc]
    congr 1
    obtain ⟨i, b⟩ := e
    cases b with
    | true => simp
    | false =>
      by_cases h : laneOf i n = j
      · simp [← h, getLsbD_setBit_false]
      · simp [getLsbD_setBit_other _ _ hj (Ne.symm h), h]

/-- A comparison leaves in bit j of vm the AND over lane j. -/
theorem getLsbD_vmOf {bs : List Bool} {n j : Nat} (hn : bs.length = n) (hj : j < 64) :
    (vmOf bs).getLsbD j = decide (∀ i < n, i * 64 / n = j → bs.getD i false = true) := by
  rw [vmOf, getLsbD_clearLanes hj, hn, zip_range false hn, Bool.eq_iff_iff]
  simp only [BitVec.getLsbD_allOnes, hj, decide_true, Bool.true_and, List.all_map, List.all_eq_true, List.mem_range,
    Function.comp_apply, Bool.or_eq_true, decide_eq_true_eq]
  exact forall₂_congr fun i _ => by rw [← imp_iff_or_not]; rfl

/-! ## The statement -/

/-- Settles O36: the lanes are those of the statement, and a comparison clears the lanes with an element that fails it. -/
theorem vectorBitsAndComparisons : Obligations.VectorBitsAndComparisons := by
  intro s t w g c u d a b p q x vs hrdy cw ta tb td z srcs done bitwise shifted hread
  refine ⟨vectorDone_of_vop hrdy hread rfl, vectorDone_of_vop hrdy hread rfl, vectorDone_of_vop hrdy hread rfl,
    fun hta htb htd => ?_, fun hfam => ?_, fun hta htb htd hsb hsd => ?_⟩
  · have hok : (isInt ta && isInt tb && decide (td = ta)) = true := by simp [hta, htb, htd]
    refine ⟨vectorDone_of_vop hrdy hread hok, vectorDone_of_vop hrdy hread hok (ho := ?_)⟩
    refine congrArg (masked s.me.vm 0 z) ?_
    rw [zipWith_range _ 0 0 (length_elems _ _ _ _) (length_elems _ _ _ _), zipWith_range _ 0 0 (length_elems _ _ _ _) (length_elems _ _ _ _)]
    exact List.map_congr_left (fun i _ => shiftRight_eq (width_pos ta) (elems_getD_lt _ _ _ _ _) _ _)
  · intro n y bs
    have hbs : List.zipWith (laneCmp cw u) (elems (src0 vs) 0 z n) (elems (src1 vs) 0 (typeSize tb) n) = bs :=
      zipWith_range _ 0 0 (length_elems _ _ _ _) (length_elems _ _ _ _)
    exact ⟨_, vectorDone_of_vop hrdy hread hfam (ho := congrArg
        (fun l => (⟨layout 0 y (l.map (fun e => if e then 2 ^ (8 * y) - 1 else 0)), 0, some (vmOf l)⟩ : VOut)) hbs),
      rfl, rfl, _, rfl, fun j hj => getLsbD_vmOf (by simp [bs]) hj⟩
  · have hok : ([ta, tb, td].all vType && [ta, tb, td].all (fun t => typeSize t == typeSize td)) = true := by
      simp [hta, htb, htd, hsb, hsd, z]
    refine vectorDone_of_vop hrdy hread hok (ho := ?_)
    rw [show typeSize (cwTd (cwOf s c)) = z from hsd, zip_zip_range 0 0 (length_elems _ _ _ _) (length_elems _ _ _ _)]
    exact congrArg (fun l => (⟨layout 0 z l, 0, none⟩ : VOut)) List.map_map

end Sys2Proof.Machine
end

section
/-! PROOFS. Conversions, bit planes and functions of vectors (O37): sums over lists, the bits of a plane word, and the checks that each
conversion passes. -/

namespace Sys2Proof.Machine

set_option Elab.async false

/-! ## Sums -/

theorem foldl_add_eq_sum {α : Type} (g : α → Nat) (l : List α) : l.foldl (fun a e => a + g e) 0 = (l.map g).sum := by
  rw [List.sum_eq_foldl, List.foldl_map]

/-- The bits of a plane word are those of the plane in each code (R99). -/
theorem planeWord_eq (pl : Nat) {codes : List Nat} {n : Nat} (h : codes.length = n) :
    planeWord pl codes = ((List.range n).map (fun i => codes.getD i 0 / 2 ^ pl % 2 * 2 ^ i)).sum := by
  have hstep : (fun (a : Nat) (e : Nat × Nat) => if e.2.testBit pl then a + 2 ^ e.1 else a) =
      fun a e => a + e.2 / 2 ^ pl % 2 * 2 ^ e.1 := by
    funext a e
    rw [← Nat.toNat_testBit]
    cases e.2.testBit pl <;> simp
  rw [planeWord, h, zip_range 0 h, hstep, foldl_add_eq_sum, List.map_map]
  rfl

theorem getD_elems (x : Vec) (o size : Nat) {n i : Nat} (h : i < n) :
    (elems x o size n).getD i 0 = x.toNat / 2 ^ (8 * (o + i * size)) % 2 ^ (8 * size) := by
  simp [elems, h]

/-- One bit of a byte of a vector. -/
theorem elems_bit (x : Vec) (o : Nat) {n i pl : Nat} (h : i < n) (hpl : pl < 8) :
    (elems x o 1 n).getD i 0 / 2 ^ pl % 2 = x.toNat / 2 ^ (8 * (o + i) + pl) % 2 := by
  rw [getD_elems x o 1 h, Nat.mul_one, ← Nat.toNat_testBit, ← Nat.toNat_testBit, Nat.testBit_mod_two_pow, Nat.testBit_div_two_pow,
    Nat.add_comm pl]
  simp [hpl]

/-- The fields of s[b] that R133 gives to VBPK and VBUN. -/
theorem planeFields_eq {v : Word} (h : v.toNat < 512) :
    planeFields v = some (v.toNat % 4, v.toNat / 4 % 32, v.toNat / 128) := by
  have hblock : v.toNat / 128 % 4 = v.toNat / 128 := Nat.mod_eq_of_lt (by omega)
  rw [planeFields, if_neg (by omega)]
  simp [bits, hblock]

theorem isFloat_iff {t : Nat} : isFloat t = true ↔ t ≤ 4 := by simp [isFloat]

/-! ## The statement -/

section
variable {s t : State} {w g c k : B2} {d a b : B5} {p q : BitVec 1} {x : VFiles} {vs : List Vec} (hrdy : Ready s .vector w g)
include hrdy

theorem bitPlanes (hread : operandsRead s [(a, decide (p = 1))] d x t vs) (hb : (s.reg b.toNat).toNat < 512) :
    let v := (s.reg b.toNat).toNat
    let pl := v % 4
    let wd := v / 4 % 32
    let bl := v / 128
    vectorDone (.vbpk w g d a b c p) s w g [(a, decide (p = 1))] d x t
      ⟨((List.range 64).map (fun i => ((src0 vs).toNat / 2 ^ (8 * (64 * bl + i) + pl) % 2) * 2 ^ (64 * wd + i))).sum, 0, none⟩ ∧
    vectorDone (.vbun w g d a b c p) s w g [(a, decide (p = 1))] d x t
      ⟨layout (64 * bl) 1 ((List.range 64).map (fun i => ((src0 vs).toNat / 2 ^ (64 * wd + i) % 2) * 2 ^ pl)), 0, none⟩ := by
  intro v pl wd bl
  have hfields : planeFields (s.reg b.toNat) = some (pl, wd, bl) := planeFields_eq hb
  constructor
  · refine vectorDone_of_vop hrdy hread (ok := true) (f := fun vs => ⟨planeWord pl (elems (src0 vs) (64 * bl) 1 64) * 2 ^ (64 * wd), 0, none⟩) rfl
      (hbody := by dsimp only; rw [hfields]; rfl) (ho := ?_)
    have hsum : planeWord pl (elems (src0 vs) (64 * bl) 1 64) * 2 ^ (64 * wd) =
        ((List.range 64).map (fun i => ((src0 vs).toNat / 2 ^ (8 * (64 * bl + i) + pl) % 2) * 2 ^ (64 * wd + i))).sum := by
      rw [planeWord_eq pl (length_elems _ _ _ _), ← List.sum_map_mul_right]
      refine congrArg List.sum (List.map_congr_left fun i hi => ?_)
      rw [elems_bit _ _ (List.mem_range.mp hi) (by omega), Nat.mul_assoc, ← pow_add, Nat.add_comm i]
    exact congrArg (fun n => (⟨n, 0, none⟩ : VOut)) hsum
  · refine vectorDone_of_vop hrdy hread (ok := true) (f := fun vs =>
        ⟨layout (64 * bl) 1 ((List.range 64).map (fun m => if ((src0 vs).toNat / 2 ^ (64 * wd)).testBit m then 2 ^ pl else 0)), 0, none⟩) rfl
      (hbody := by dsimp only; rw [hfields]; rfl) (ho := ?_)
    refine congrArg (fun l => (⟨layout (64 * bl) 1 l, 0, none⟩ : VOut)) (List.map_congr_left fun i _ => ?_)
    rw [Nat.testBit_div_two_pow, ← Nat.toNat_testBit, Nat.add_comm i]
    cases (src0 vs).toNat.testBit (64 * wd + i) <;> simp

/-- A conversion with a factor, whose lane `f` is `h` in these types. -/
theorem vscale_done {i : Instr} {body : State → Act} {ta td so dof : Nat} {ok : Bool} {sl : Option (Nat × Nat)} {f h : Nat → Nat → Nat}
    (hread : operandsRead s [(a, decide (p = 1)), (b, decide (q = 1))] d x t vs) (hok : ok = true)
    (hsl : sl = some (so, dof)) (hf : ∀ m e, f m e = h m e) (hexec : exec i s = tokened s .vector w g body := by rfl)
    (hbody : body s = vscale s d a b p q ta td ok sl f := by rfl) :
    vectorDone i s w g [(a, decide (p = 1)), (b, decide (q = 1))] d x t (masked s.me.vm dof (typeSize td)
      (List.zipWith h (elems (src0 vs) so (typeSize ta) 64) (elems (src1 vs) 0 4 64))) := by
  subst hok hsl
  obtain rfl : f = h := funext₂ hf
  exact vectorDone_of_vop hrdy hread (ok := true) rfl hexec hbody

end

/-- Settles O37, instruction by instruction. -/
theorem vectorConversions : Obligations.VectorConversions := by
  intro s t w g c k d a b p q x vs hrdy cw ta td one two n value into map1
  refine ⟨fun hread => ⟨fun so dof hta htd hsl => ?_, fun hta htd => ?_, fun hta htd => ?_, bitPlanes hrdy hread⟩, fun hread htb => ?_⟩
  · refine vectorDone_of_vop hrdy hread (ok := true) (f := fun vs => masked s.me.vm dof (typeSize td)
        ((elems (src0 vs) so (typeSize ta) n).map (laneCvt cw))) rfl (hbody := ?_)
    change vunary s d a p ((isFloat ta || isInt ta) && (isFloat td || isInt td) && (sliceOf ta td n k.toNat).isSome) ta td n
      ((sliceOf ta td n k.toNat).getD (0, 0)).1 ((sliceOf ta td n k.toNat).getD (0, 0)).2 (laneCvt cw) = _
    rw [hta, htd, hsl]
    rfl
  · have hok : (isFloat ta && decide (td = 0)) = true := by simp [hta, htd]
    exact vectorDone_of_vop hrdy hread hok
  · have hok : (isFloat ta && isFloat td) = true := by simp [hta, htd]
    exact ⟨vectorDone_of_vop hrdy hread hok, vectorDone_of_vop hrdy hread hok, vectorDone_of_vop hrdy hread hok⟩
  · intro scaled
    have hzero : decide (cwTb cw = 0) = true := decide_eq_true htb
    have hfloat (y : Nat) (hy : y ≤ 2) : isFloat y = true := isFloat_iff.mpr (by omega)
    have hin (y : Nat) (hy : y ≤ 2) : [0, 1, 2].contains y = true := by interval_cases y <;> rfl
    have hcode (y : Nat) (hy : y ∈ [1, 2, 3, 4, 5, 6]) : y ≠ 9 ∧ [1, 2, 3, 4, 5, 6, 9].contains y = true :=
      (by decide : ∀ y ∈ [1, 2, 3, 4, 5, 6], y ≠ 9 ∧ [1, 2, 3, 4, 5, 6, 9].contains y = true) y hy
    refine ⟨fun hta htd so dof hsl => ?_, fun hta htd => ?_, fun hta htd so dof hsl => ?_, fun hta htd => ?_⟩
    · obtain ⟨hne, hmem⟩ := hcode td htd
      have hok : ([0, 1, 2].contains ta && decide (cwTb cw = 0) && [1, 2, 3, 4, 5, 6, 9].contains td) = true := by
        rw [hin ta hta, hzero, hmem]
        rfl
      exact vscale_done hrdy hread hok ((if_neg hne).trans hsl) (f := fun m e => quantise cw k (FV.mul (FV.read (fmt ta) m) (FV.read fp32 e)))
        (fun m e => by simp only [quantise, value, into, hfloat ta hta, if_true]; exact if_neg hne)
    · have hok : ([0, 1, 2].contains ta && decide (cwTb cw = 0) && [1, 2, 3, 4, 5, 6, 9].contains td) = true := by
        rw [hin ta hta, hzero, htd]
        rfl
      exact vscale_done hrdy hread hok (if_pos htd) (f := fun m e => quantise cw k (FV.mul (FV.read (fmt ta) m) (FV.read fp32 e)))
        (fun m e => by simp only [quantise, value, hfloat ta hta, if_true]; exact if_pos htd)
    · obtain ⟨hne, hmem⟩ := hcode ta hta
      have hok : ([1, 2, 3, 4, 5, 6, 9].contains ta && decide (cwTb cw = 0) && [0, 1, 2].contains td) = true := by
        rw [hin td htd, hzero, hmem]
        rfl
      exact vscale_done hrdy hread hok ((if_neg hne).trans hsl)
        (f := fun m e => FV.encode (fmt td) (cwRm cw) (cwSat cw) (FV.mul (dqValue cw k m) (FV.read fp32 e)))
        (fun m e => by simp only [dqValue, value, into, hfloat td htd, if_true]; rw [if_neg hne])
    · have hok : ([1, 2, 3, 4, 5, 6, 9].contains ta && decide (cwTb cw = 0) && [0, 1, 2].contains td) = true := by
        rw [hin td htd, hzero, hta]
        rfl
      exact vscale_done hrdy hread hok (if_pos hta)
        (f := fun m e => FV.encode (fmt td) (cwRm cw) (cwSat cw) (FV.mul (dqValue cw k m) (FV.read fp32 e)))
        (fun m e => by simp only [dqValue, into, hfloat td htd, if_true]; rw [if_pos hta])

end Sys2Proof.Machine
end

section
/-! PROOFS. Reductions, scans and moves of vectors (O38): the elements that a reduction chooses, and the checks that each move passes. -/

namespace Sys2Proof.Machine

set_option Elab.async false

/-! ## Elements chosen by their index -/

theorem filterMap_ite_eq {α β : Type} (c : α → Bool) (f : α → β) (l : List α) :
    l.filterMap (fun a => if c a then some (f a) else none) = (l.filter c).map f := by
  induction l with
  | nil => rfl
  | cons a l ih => cases h : c a <;> simp [h, ih]

theorem filterMap_zip_range (c : Nat → Bool) {es : List Nat} {m : Nat} (h : es.length = m) :
    ((List.range m).zip es).filterMap (fun e => if c e.1 then some e.2 else none) =
      ((List.range m).filter c).map (fun i => es.getD i 0) := by
  rw [zip_range 0 h, List.filterMap_map]
  exact filterMap_ite_eq c (fun i => es.getD i 0) _

/-- The elements before an index, or up to it. -/
theorem scanned_eq (n : B2) (i j : Nat) :
    (decide (j < i) || (decide (j = i) && decide (n ≠ 1))) = if n = 1 then decide (j < i) else decide (j ≤ i) := by
  by_cases h : n = 1
  · simp [h]
  · rw [if_neg h, decide_eq_true h, Bool.and_true, ← Bool.decide_or, decide_eq_decide, le_iff_lt_or_eq]

/-- The reduction of a scan: both of its sums are sums (R137). -/
theorem scanKind_eq (n : B2) : (match n.toNat with | 0 => 0 | 1 => 0 | 2 => 1 | _ => 2) = n.toNat - 1 := by
  revert n
  decide

theorem reductionsAndScans : Claims.ReductionsAndScans := by
  intro s t w g c n d a p x vs hrdy cw ts m es chosen hfam hread
  have hchosen (f : Nat → Bool) : ((List.range m).zip es).filterMap (fun e => if f e.1 && s.me.vm.getLsbD (laneOf e.1 m) then
      some e.2 else none) = chosen f := filterMap_zip_range (fun i => f i && s.me.vm.getLsbD (laneOf i m)) (length_elems _ _ _ _)
  constructor
  · exact vectorDone_of_vop hrdy hread hfam (ho := congrArg (fun l => (⟨layout 0 (typeSize (cwTd cw))
      (List.replicate m (reduceSet cw n.toNat l)), 0, none⟩ : VOut)) (hchosen (fun _ => true)))
  · refine vectorDone_of_vop hrdy hread hfam (ho := congrArg (masked s.me.vm 0 (typeSize (cwTd cw)))
      (List.map_congr_left fun i _ => ?_))
    rw [← hchosen]
    simp only [scanned_eq]
    exact congrArg (fun k => reduceSet cw k _) (scanKind_eq n)

theorem vectorMoves : Claims.VectorMoves := by
  intro s t w g c n d a b p q i x vs hrdy cw td z one two low
  refine ⟨fun hread hta htd htb hz => ?_, fun hread => ⟨fun hta htd hz => ?_, ?_, fun hport halign => ?_, fun heven hle hta htd => ?_⟩,
    fun hread => ⟨fun htd => ?_, fun l hl => ?_⟩, fun hread hv => ?_⟩
  · have hok : (vType (cwTa cw) && vType td && isInt (cwTb cw) && decide (typeSize (cwTa cw) = z)) = true := by
      simp [hta, htd, htb, hz]
    exact vectorDone_of_vop hrdy hread hok
  · have hok : (vType (cwTa cw) && vType td && decide (typeSize (cwTa cw) = z)) = true := by simp [hta, htd, hz]
    exact vectorDone_of_vop hrdy hread hok
  · exact vectorDone_of_vop hrdy hread rfl
  · exact vectorEnds_of_vop hrdy hread (decide_eq_true hport) (halign := fun _ => halign)
  · have hok : (decide (b.toNat % 2 = 0) && decide (b.toNat ≤ 30) && decide (cwTa cw = 7) && decide (td = 0)) = true := by
      simp [heven, hle, hta, htd]
    exact vectorDone_of_vop hrdy hread hok
  · exact vectorDone_of_vop hrdy hread htd
  · intro y
    refine vectorDone_of_vop hrdy hread (ok := (immLane (cwOf s 0) i).isSome) (f := fun _ => masked s.me.vm 0 y
      (elems (immVec ((immLane (cwOf s 0) i).getD 0)) 0 y (256 / y))) (by rw [hl]; rfl) (ho := ?_)
    rw [hl]
    rfl
  · intro c0 m l hl hfam
    refine vectorDone_of_vop hrdy hread (ok := isV d && (immLane c0 i).isSome && sameFamily [cwTb c0, cwTd c0])
      (f := fun vs => masked s.me.vm 0 (typeSize (cwTd c0)) (List.zipWith (laneAddi c0) (elems (src0 vs) 0 (typeSize (cwTd c0)) m)
        (elems (immVec ((immLane c0 i).getD 0)) 0 (typeSize (cwTb c0)) m))) (by rw [hv, hl, hfam]; rfl) (ho := ?_)
    rw [hl]
    rfl

/-- Settles O38. -/
theorem vectorReductionsAndMoves : Obligations.VectorReductionsAndMoves := ⟨reductionsAndScans, vectorMoves⟩

end Sys2Proof.Machine
end

section
/-! PROOFS. Vector registers (O39): what a read and a write do to a register, the traps and errors that an instruction meets at its
operands, and the elements that a vector is laid out from. -/

namespace Sys2Proof.Machine

set_option Elab.async false

/-! ## Registers as queues (R115–R117) -/

theorem readSource_v {x : VFiles} {f : B5} {peek : Bool} {e : VEntry} {es : List VEntry} (hf : f.toNat < 20)
    (h : look [] x.v f.toNat = e :: es) :
    readSource x (f, peek) = some (if peek then x else { x with v := put x.v f.toNat es }, .vec e) := by
  simp only [readSource, voperand_v hf, h]

theorem readSource_empty {x : VFiles} {f : B5} {peek : Bool} (hf : f.toNat < 20) (h : look [] x.v f.toNat = []) :
    readSource x (f, peek) = none := by
  simp only [readSource, voperand_v hf, h]

theorem writeDest_v {s u : State} {d : B5} {whole : Bool} {o : VOut} (hd : d.toNat < 20) (h : writeDest s d whole o = some u) :
    look [] u.me.v d.toNat = look [] s.me.v d.toNat ++ [⟨BitVec.ofNat 2048 o.data, false⟩] ∧ u.mem = s.mem := by
  simp only [writeDest, voperand_v hd] at h
  obtain rfl := Option.some.inj h
  rw [State.me_modMe]
  exact ⟨look_put_same _ _ _ _, rfl⟩

/-! ## Operands that an instruction cannot take -/

section
variable {s : State} {srcs : List VSource} {d : B5} (hsources : srcs.all (fun e => sourceOk s e.1) = true)
  (hdest : destOk s d = true) (f : List Vec → VOut)
include hsources hdest

theorem vop_underflow {c : B5} (hread : readSources (filesOf s) srcs = .error c) :
    vop s srcs d true false f = .trap causeUnderflow (c.setWidth 64) := by
  unfold vop
  dsimp only
  rw [hsources, hdest, hread]
  rfl

theorem vop_overflow {x : VFiles} {gs : List VGot} (hread : readSources (filesOf s) srcs = .ok (x, gs)) (hfull : overflows x d = true) :
    vop s srcs d true false f = .trap causeOverflow (d.setWidth 64) := by
  unfold vop
  dsimp only
  rw [hsources, hdest, hread]
  exact if_pos hfull

theorem vop_lost {x : VFiles} {e : VEntry} (hread : readSources (filesOf s) srcs = .ok (x, [.vec e])) (hroom : overflows x d = false)
    (hd : isVq d = false) (hbad : e.bad = true) : vop s srcs d true false f = .lost s := by
  have hfetch : fetchAll s [.vec e] = none := if_pos hbad
  unfold vop
  dsimp only
  rw [hsources, hdest, hread]
  dsimp only
  rw [hroom, hd, hfetch]
  rfl

end

theorem sourceOk_v {s : State} {f : B5} (h : f.toNat < min 20 (vregs s)) : sourceOk s f = true ∧ destOk s f = true := by
  have hv : f.toNat < 20 ∧ f.toNat < vregs s := lt_min_iff.mp h
  simp only [sourceOk, destOk, voperand_v hv.1, hv.2, decide_true, and_self]

theorem overflows_v (x : VFiles) {d : B5} (h : d.toNat < 20) : overflows x d = decide (4 ≤ (look [] x.v d.toNat).length) := by
  simp only [overflows, voperand_v h]

/-- A read of one register leaves the others. -/
theorem overflows_readSource {x : VFiles} {a d : B5} {peek : Bool} {es : List VEntry} (hd : d.toNat < 20) (hne : a ≠ d) :
    overflows (if peek then x else { x with v := put x.v a.toNat es }) d = decide (4 ≤ (look [] x.v d.toNat).length) := by
  have hkey : d.toNat ≠ a.toNat := fun h => hne (BitVec.eq_of_toNat_eq h.symm)
  rw [overflows_v _ hd]
  cases peek
  · simp only [Bool.false_eq_true, if_false, look_put_other _ _ _ _ _ hkey]
  · simp only [if_true]

section
variable {s : State} {w g c : B2} {d a : B5} {p : BitVec 1} (hrdy : Ready s .vector w g) (ha : a.toNat < min 20 (vregs s))
  (hd : d.toNat < min 20 (vregs s))

include hrdy in
/-- VMOV is the vector instruction of one source that gives the source under the lane mask. -/
theorem exec_vmov : exec (.vmov w g d a c p) s =
    conclude s w g (vop s [(a, decide (p = 1))] d true false (fun vs => masked s.me.vm 0 4 (elems (src0 vs) 0 4 64))) := by
  change execVmov w g d a c p s = _
  exact tokened_ready hrdy _

include ha

theorem readSources_vmov {e : VEntry} {es : List VEntry} (h : look [] s.me.v a.toNat = e :: es) :
    readSources (filesOf s) [(a, decide (p = 1))] =
      .ok (if decide (p = 1) then filesOf s else { filesOf s with v := put s.me.v a.toNat es }, [.vec e]) := by
  rw [readSources, readSource_v (lt_min_iff.mp ha).1 h]
  rfl

include hrdy hd

theorem vmov_underflow (h : look [] s.me.v a.toNat = []) :
    exec (.vmov w g d a c p) s = .next (takeTrap s s.cur 5 (a.setWidth 64)) := by
  have hread : readSources (filesOf s) [(a, decide (p = 1))] = .error a := by
    rw [readSources, readSource_empty (lt_min_iff.mp ha).1 h]
  rw [exec_vmov hrdy, vop_underflow (by simp [(sourceOk_v ha).1]) (sourceOk_v hd).2 _ hread]
  rfl

theorem vmov_overflow (h : look [] s.me.v a.toNat ≠ []) (hne : a ≠ d) (hfull : (look [] s.me.v d.toNat).length = 4) :
    exec (.vmov w g d a c p) s = .next (takeTrap s s.cur 6 (d.setWidth 64)) := by
  obtain ⟨e, es, hlook⟩ := List.exists_cons_of_ne_nil h
  have hover := overflows_readSource (x := filesOf s) (peek := decide (p = 1)) (es := es) (lt_min_iff.mp hd).1 hne
  rw [exec_vmov hrdy, vop_overflow (by simp [(sourceOk_v ha).1]) (sourceOk_v hd).2 _ (readSources_vmov ha hlook)
    (hover.trans (decide_eq_true hfull.ge))]
  rfl

theorem vmov_consumes {e : VEntry} {es : List VEntry} (hlook : look [] s.me.v a.toNat = e :: es) (hne : a ≠ d) (hbad : e.bad = true)
    (hroom : (look [] s.me.v d.toNat).length < 4) :
    exec (.vmov w g d a c p) s = .next ((consume s s.cur.core s.cur.slot).setLast .waiting) := by
  have hlt : d.toNat < 20 := (lt_min_iff.mp hd).1
  have hover := overflows_readSource (x := filesOf s) (peek := decide (p = 1)) (es := es) hlt hne
  rw [exec_vmov hrdy, vop_lost (by simp [(sourceOk_v ha).1]) (sourceOk_v hd).2 _ (readSources_vmov ha hlook)
    (hover.trans (decide_eq_false hroom.not_ge)) (decide_eq_false (by omega)) hbad]
  rfl

end

/-! ## Elements laid out (R116) -/

theorem layout_eq_sum (o size : Nat) (es : List Nat) :
    layout o size es = ((List.range es.length).map (fun i => es.getD i 0 % 2 ^ (8 * size) * 2 ^ (8 * (o + i * size)))).sum := by
  rw [layout, foldl_add_eq_sum (fun e : Nat × Nat => e.2 % 2 ^ (8 * size) * 2 ^ (8 * (o + e.1 * size))), zip_range 0 rfl, List.map_map]
  rfl

theorem layout_cons (o size a : Nat) (es : List Nat) :
    layout o size (a :: es) = a % 2 ^ (8 * size) * 2 ^ (8 * o) + layout (o + size) size es := by
  rw [layout_eq_sum, layout_eq_sum, List.length_cons, List.range_succ_eq_map, List.map_cons, List.map_map, List.sum_cons]
  refine congrArg₂ (· + ·) (by simp) (congrArg List.sum (List.map_congr_left fun i _ => ?_))
  simp only [Function.comp_apply, List.getD_cons_succ, Nat.succ_eq_add_one]
  congr 3
  ring

/-- The elements laid from a byte are the digits of a number that stands at that byte. -/
theorem layout_digits (size : Nat) (es : List Nat) : ∀ o, ∃ k, layout o size es = 2 ^ (8 * o) * k ∧ k < 2 ^ (8 * (size * es.length)) ∧
    ∀ i, k / 2 ^ (8 * (i * size)) % 2 ^ (8 * size) = es.getD i 0 % 2 ^ (8 * size) := by
  induction es with
  | nil => exact fun o => ⟨0, by simp [layout], by simp, by simp⟩
  | cons a es ih =>
    intro o
    obtain ⟨k, hk, hlt, hdigit⟩ := ih (o + size)
    have hlow : a % 2 ^ (8 * size) < 2 ^ (8 * size) := Nat.mod_lt _ (Nat.two_pow_pos _)
    refine ⟨a % 2 ^ (8 * size) + 2 ^ (8 * size) * k, ?_, ?_, fun i => ?_⟩
    · rw [layout_cons, hk, Nat.mul_add 8, pow_add]
      ring
    · calc a % 2 ^ (8 * size) + 2 ^ (8 * size) * k < 2 ^ (8 * size) * (k + 1) := by rw [Nat.mul_succ]; omega
        _ ≤ 2 ^ (8 * size) * 2 ^ (8 * (size * es.length)) := Nat.mul_le_mul_left _ hlt
        _ = 2 ^ (8 * (size * (a :: es).length)) := by rw [← pow_add, List.length_cons]; congr 1; ring
    · cases i with
      | zero => simp
      | succ i =>
        have hsplit : 8 * ((i + 1) * size) = 8 * size + 8 * (i * size) := by ring
        rw [hsplit, pow_add, ← Nat.div_div_eq_div_mul, Nat.add_mul_div_left _ _ (Nat.two_pow_pos _), Nat.div_eq_of_lt hlow, zero_add,
          hdigit, List.getD_cons_succ]

/-- A vector gives back the elements that it is laid out from. -/
theorem elems_layout {o size : Nat} {es : List Nat} (h : o + size * es.length ≤ 256) :
    elems (BitVec.ofNat 2048 (layout o size es)) o size es.length = (List.range es.length).map (fun i => es.getD i 0 % 2 ^ (8 * size)) := by
  obtain ⟨k, hk, hlt, hdigit⟩ := layout_digits size es o
  have hend : 8 * (o + size * es.length) ≤ 2048 := by omega
  have hprod : 2 ^ (8 * o) * 2 ^ (8 * (size * es.length)) = 2 ^ (8 * (o + size * es.length)) := by rw [← pow_add, ← Nat.mul_add]
  have hbound : layout o size es < 2 ^ 2048 :=
    hk.trans_lt (((Nat.mul_lt_mul_of_pos_left hlt (Nat.two_pow_pos _)).trans_eq hprod).trans_le (Nat.pow_le_pow_right Nat.zero_lt_two hend))
  rw [elems, BitVec.toNat_ofNat, Nat.mod_eq_of_lt hbound]
  refine List.map_congr_left fun i _ => ?_
  rw [hk, Nat.mul_add 8, pow_add, Nat.mul_div_mul_left _ _ (Nat.two_pow_pos _), hdigit]

theorem elems_masked {vm : Word} {o size : Nat} {es : List Nat} (h : o + size * es.length ≤ 256) :
    elems (BitVec.ofNat 2048 (masked vm o size es).data) o size es.length =
      (List.range es.length).map (fun i => if vm.getLsbD (i * 64 / es.length) then es.getD i 0 % 2 ^ (8 * size) else 0) := by
  let shown := (List.range es.length).map (fun i => if vm.getLsbD (laneOf i es.length) then es.getD i 0 else 0)
  have hdata : (masked vm o size es).data = layout o size shown := by
    simp only [masked, zip_range 0 rfl, List.map_map]
    rfl
  have hlen : shown.length = es.length := by simp [shown]
  rw [hdata, ← hlen, elems_layout (by rw [hlen]; exact h), hlen]
  refine List.map_congr_left fun i hi => ?_
  have hget : shown.getD i 0 = if vm.getLsbD (laneOf i es.length) then es.getD i 0 else 0 := by
    simp [shown, List.mem_range.mp hi]
  rw [hget]
  split
  · rename_i hon
    exact (if_pos hon).symm
  · rename_i hoff
    exact (Nat.zero_mod _).trans (if_neg hoff).symm

/-- Settles O39, part by part. -/
theorem vectorRegistersQueue : Obligations.VectorRegistersQueue :=
  ⟨fun _ _ _ _ _ hf h => readSource_v hf h, fun _ _ _ _ _ hd h => writeDest_v hd h,
    fun _ _ _ _ _ _ _ hrdy ha hd => ⟨vmov_underflow hrdy ha hd, vmov_overflow hrdy ha hd⟩,
    fun _ _ _ _ _ _ _ _ _ hrdy ha hd hne hlook hbad hroom => vmov_consumes hrdy ha hd hlook hne hbad hroom,
    fun _ _ _ _ _ h => elems_masked h⟩

end Sys2Proof.Machine
end

section
/-! PROOFS. Record streams, ports and the vertical FIFO (O40): what a read of the scratchpad gives and leaves, what a pop takes, and the
words that move streams and ports. -/

namespace Sys2Proof.Machine

set_option Elab.async false

/-! ## Reads of the scratchpad -/

namespace Keeps

variable {α : Type} {f : PartyState → α}

theorem sawBy (hview : ∀ x v, f { x with view := v } = f x) (s : State) (who : PartyId) (t : Sight) (firm : Nat) (gs : List Nat) :
    Keeps f s (sawBy s who t firm gs) := .ite (.refl s) (.modParty s who (fun x => hview x _))

end Keeps

theorem mem_sawBy (s : State) (who : PartyId) (t : Sight) (firm : Nat) (gs : List Nat) : (sawBy s who t firm gs).mem = s.mem := by
  unfold sawBy
  split
  · rfl
  · rfl

/-- A read of the scratchpad changes how its party's accesses are ordered, and flipped bits; in the present it gives the bytes that
stand there. -/
theorem readScratch_spec {s t : State} {core slot o n : Nat} {bs : List Byte} (h : readScratch s core slot o n = some (t, bs)) :
    t.mem = s.mem ∧ (∀ {α : Type} {f : PartyState → α}, (∀ x v, f { x with view := v } = f x) → Keeps f s t) ∧
      (s.me.view.lag = 0 → bs = peekScratch s core slot o n) := by
  rw [readScratch] at h
  dsimp only at h
  split at h
  case h_2 => cases h
  case h_1 u hu =>
    obtain ⟨fs, ds, rfl⟩ := checkWords_spec _ _ _ _ hu
    obtain ⟨rfl, rfl⟩ := Prod.mk.inj (Option.some.inj h)
    refine ⟨mem_sawBy _ _ _ _ _, fun hview => ?_, fun hlag => ?_⟩
    · exact (show Keeps _ s { s with flips := fs, dies := ds } from .of_parties rfl rfl).trans (.sawBy hview _ _ _ _ _)
    · exact bytesFor_of_lag_zero (s := { s with flips := fs, dies := ds }) hlag _ _ _

/-! ## Record streams (R280–R282) -/

theorem streamOf_setStream (s : State) (n : Nat) (l : List (List (BitVec 32))) : streamOf (setStream s n l) n = l :=
  look_put_same _ _ _ _

/-- What a pop takes and leaves (R281, log 70). -/
theorem popStream_eq (oldest : List (BitVec 32)) (rest : List (List (BitVec 32))) :
    popStream (oldest :: rest) =
      (if decide (rest = []) && decide (oldest.length < 64) then [] else oldest.take 64,
       if decide (rest = []) && decide (oldest.length < 64) then [oldest] else if rest = [] then [oldest.drop 64]
         else if oldest.length ≤ 64 then rest else oldest.drop 64 :: rest) := by
  cases rest with
  | nil =>
    by_cases h : oldest.length < 64
    · simp [popStream, h]
    · simp [popStream, h, Nat.not_lt.mp h]
  | cons y ys => simp [popStream]

theorem unmasked_lanes (vm : Word) {es : List Nat} (h : es.length = 64) :
    unmasked vm 64 es = ((List.range 64).filter (fun i => vm.getLsbD i)).map (fun i => es.getD i 0) := by
  have hlane (i : Nat) : laneOf i 64 = i := Nat.mul_div_cancel i (by decide)
  rw [unmasked, ← filterMap_zip_range _ h]
  simp only [hlane]

section
variable {s t : State} {w g : B2} {d a n : B5} {p : BitVec 1} {x : VFiles} {vs : List Vec} (hrdy : Ready s .vector w g)
include hrdy

theorem completes_of_done {i : Instr} {body : State → Act} {r : State} (hbody : body s = .done r 1)
    (hexec : exec i s = tokened s .vector w g body := by rfl) : completes i s w g r := by
  rw [completes, hexec, tokened_ready hrdy, hbody, conclude_done (signalWaits_ready hrdy)]

theorem vspsh_completes (hread : operandsRead s [(a, decide (p = 1))] 21 x t vs)
    (hroom : ((streamOf s n.toNat).map List.length).sum + ((List.range 64).filter (fun i => s.me.vm.getLsbD i)).length ≤ 262144) :
    completes (.vspsh w g n a p) s w g (setStream (takeFiles t x (isVq a)) n.toNat ((streamOf s n.toNat).dropLast ++
      [(streamOf s n.toNat).getLastD [] ++ ((List.range 64).filter (fun i => s.me.vm.getLsbD i)).map (fun i =>
        BitVec.ofNat 32 ((elems (src0 vs) 0 4 64).getD i 0))])) := by
  obtain ⟨hsources, -, -, ⟨gs, hgs, hstall, hfetch⟩, -, -⟩ := hread
  have hsource : sourceOk s a = true := hsources (a, decide (p = 1)) (by simp)
  have hcount : ¬262144 < ((streamOf s n.toNat).map List.length).foldl (· + ·) 0 + popCount 64 s.me.vm.toNat := by
    rw [← List.sum_eq_foldl, popCount_eq]
    exact Nat.not_lt.mpr hroom
  refine completes_of_done hrdy ?_
  dsimp only
  rw [if_neg (by simp [hsource]), hgs]
  refine (if_neg hcount).trans ((if_neg fun h => ?_).trans ?_)
  · obtain ⟨got, hgot, hst⟩ := List.any_eq_true.mp h
    split at hst
    next => exact hstall hgot
    next => cases hst
  · rw [hfetch]
    dsimp only
    rw [unmasked_lanes _ (length_elems _ _ _ _), List.map_map]
    rfl

/-- A pop leaves what `popStream` leaves, a mask of as many ones as it takes, and its records in a destination register. -/
theorem vspop_completes (hread : operandsRead s [] d x t vs) {taken : List (BitVec 32)} {left : List (List (BitVec 32))}
    (hpop : popStream (streamOf s n.toNat) = (taken, left)) :
    ∃ r, completes (.vspop w g d n) s w g r ∧ streamOf r n.toNat = left ∧ r.me.vm = BitVec.ofNat 64 (2 ^ taken.length - 1) ∧
      (d.toNat < 20 → look [] r.me.v d.toNat = look [] s.me.v d.toNat ++
        [⟨BitVec.ofNat 2048 (layout 0 4 (taken.map BitVec.toNat)), false⟩]) := by
  have hnothing : x = filesOf s ∧ t = s := by
    obtain ⟨-, -, -, ⟨gs, hgs, -, hfetch⟩, -, -⟩ := hread
    cases hgs
    cases hfetch
    exact ⟨rfl, rfl⟩
  obtain ⟨rfl, rfl⟩ := hnothing
  obtain ⟨u, hu, hvop⟩ := vop_done hread (whole := false) nofun
    (fun _ => ⟨layout 0 4 (taken.map (fun r => r.toNat)), 0, some (BitVec.ofNat 64 (2 ^ taken.length - 1))⟩)
  let y := setStream (u.modMe (fun p => { p with vm := BitVec.ofNat 64 (2 ^ taken.length - 1) })) n.toNat left
  have hy : y.me = { u.me with vm := BitVec.ofNat 64 (2 ^ taken.length - 1) } :=
    State.me_modMe u (fun p => { p with vm := BitVec.ofNat 64 (2 ^ taken.length - 1) })
  have hkeeps : Keeps (fun p => (p.vm, p.v)) y (if taken = [] then y else orderPoint y y.cur) :=
    .ite (.refl y) (.orderPoint (fun _ _ => rfl) y y.cur)
  have hme := hkeeps.me
  rw [hy] at hme
  obtain ⟨hvm, hv⟩ := Prod.mk.inj hme
  have hstream : streamOf y n.toNat = left := streamOf_setStream _ _ _
  refine ⟨if taken = [] then y else orderPoint y y.cur, completes_of_done hrdy ?_, ?_, hvm, fun hd => ?_⟩
  · dsimp only
    rw [hpop]
    dsimp only
    rw [hvop]
  · split
    · exact hstream
    · exact hstream
  · rw [hv, (writeDest_v hd hu).1, me_takeFiles]
    rfl

end

theorem streamsPushAndPop : Claims.StreamsPushAndPop := by
  intro s t w g d a n p x vs hrdy st
  refine ⟨fun hread hroom => vspsh_completes hrdy hread hroom, fun oldest rest hst hread => ?_, completes_of_done hrdy rfl⟩
  exact vspop_completes hrdy hread ((congrArg popStream hst).trans (popStream_eq oldest rest))

/-! ## Ports (R140, R141) and the vertical FIFO (R221) -/

/-- A port that a record gives starts its walk. -/
theorem portOf_pos {z : Nat} {r : List Byte} {x : Port} (h : portOf z r = some x) : x.pos = 0 := by
  unfold portOf at h
  dsimp only at h
  split at h
  · cases h
  · obtain rfl := Option.some.inj h
    rfl

theorem portsAreConfigured : Claims.PortsAreConfigured := by
  refine ⟨fun s w g d a x hrdy hd => ⟨fun t r halign hfits hlate hread hport => ?_, fun hseek => ?_⟩, fun s core x rest h => ?_⟩
  · obtain ⟨hmem, hkeeps, hpeek⟩ := readScratch_spec hread
    have hports : Keeps PartyState.ports s t := hkeeps (fun _ _ => rfl)
    refine ⟨completes_of_done hrdy ?_, portOf_pos hport, hports.me, hmem, hpeek⟩
    dsimp only
    rw [if_neg (by omega), if_neg (by omega), if_neg (by simpa [inScratch] using hfits), withScratch, hlate, hread]
    dsimp only
    rw [hport]
    rfl
  · refine completes_of_done hrdy ?_
    dsimp only
    rw [if_neg (by omega), hseek]
    rfl
  · change execVqEntryArrival core s = _
    rw [execVqEntryArrival, h]
    rfl

/-- Settles O40. -/
theorem streamsAndPorts : Obligations.StreamsAndPorts := ⟨streamsPushAndPop, portsAreConfigured⟩

end Sys2Proof.Machine
end

section
/-! PROOFS. Words of the matrix engine (O41): tiles read and cleared, and the words that retire with their operation in flight or their
effect done. -/

namespace Sys2Proof.Machine

set_option Elab.async false

/-! ## Memory without a range -/

theorem look_filter {α : Type} (d : α) (f : Nat → Bool) (m : Sparse α) (k : Nat) :
    look d (m.filter (fun e => f e.1)) k = if f k then look d m k else d := by
  induction m with
  | nil => simp
  | cons e m ih =>
    obtain ⟨k', v⟩ := e
    by_cases hkey : k = k'
    · subst hkey
      cases h : f k <;> simp [h, ih]
    · cases h : f k' <;> simp [h, ih, hkey]

theorem readByte_clearRange (m : List Host.Cell) (a n x : Nat) :
    readByte (clearRange m a n) x = if a ≤ x ∧ x < a + n then 0 else readByte m x := by
  refine (look_filter unwritten (fun k => !(decide (a ≤ k) && decide (k < a + n))) m x).trans ?_
  by_cases h : a ≤ x ∧ x < a + n
  · rw [if_pos h]
    simp [h, unwritten]
  · rw [if_neg h, if_pos (by simp; omega)]
    rfl

/-! ## Tiles (R143, R150) -/

theorem readTile_clean {s : State} (h : s.flips = []) (core t : Nat) :
    readTile s core t = some (s, readBytes s.mem (tileAddr core t) 65536) := by
  rw [readTile, checkWords_clean h]

/-- Tiles cleared one after another. -/
theorem readByte_clearTiles (core : Nat) (ts : List Nat) (x : Nat) : ∀ s : State,
    readByte (ts.foldl (fun u t => writeTile u core t []) s).mem x =
      if ∃ t ∈ ts, tileAddr core t ≤ x ∧ x < tileAddr core t + 65536 then 0 else readByte s.mem x := by
  induction ts with
  | nil => simp
  | cons t ts ih =>
    intro s
    have hfirst : readByte (writeTile s core t []).mem x =
        if tileAddr core t ≤ x ∧ x < tileAddr core t + 65536 then 0 else readByte s.mem x := readByte_clearRange _ _ _ _
    rw [List.foldl_cons, ih, hfirst]
    simp only [List.exists_mem_cons_iff]
    by_cases hrest : ∃ y ∈ ts, tileAddr core y ≤ x ∧ x < tileAddr core y + 65536
    · rw [if_pos hrest, if_pos (.inr hrest)]
    · simp only [hrest, or_false, if_false]

/-! ## Words that retire at once -/

section
variable {s : State} {w g : B2}

theorem completes_of_matrix (hrdy : Ready s .matrix w g) {i : Instr} {body : State → Act} {r : State} (hbody : body s = .done r 1)
    (hexec : exec i s = tokened s .matrix w g body := by rfl) : completes i s w g r := by
  rw [completes, hexec, tokened_ready hrdy, hbody, conclude_done (signalWaits_ready hrdy)]

theorem nestsAndZeroTiles : Claims.NestsAndZeroTiles := by
  intro s w g a b hrdy hflag v
  refine ⟨fun hlevel => ?_, fun hv hfree => ?_, fun hidle => ?_⟩
  · have hok : (!taskFlag s 1 || decide (5 < (s.reg b.toNat).toNat)) = false := by
      rw [hflag, decide_eq_false (by omega)]
      rfl
    refine ⟨s.modSh (fun h => { h with ns := put h.ns (s.reg b.toNat).toNat (s.reg a.toNat &&& word 0xFF00FFFFFF) }),
      completes_of_matrix hrdy (if_neg (ne_true_of_eq_false hok)), rfl, ?_⟩
    rw [State.modSh, State.myCtx_modMyCtx]
    exact look_put_same _ _ _ _
  · intro zeroed
    let ts := (List.range 8).filter (fun t => v.testBit t)
    have hts (t : Nat) : t ∈ ts ↔ t < 8 ∧ v.testBit t = true := by rw [List.mem_filter, List.mem_range]
    have hnone : (flying s).any (fun o => ts.any (fun t => usesTile t o)) = false := by
      rw [List.any_eq_false]
      intro o ho h
      obtain ⟨t, ht, huses⟩ := List.any_eq_true.mp h
      obtain ⟨hlt, hbit⟩ := (hts t).mp ht
      exact absurd huses (by simp [hfree o ho t hlt hbit])
    refine ⟨ts.foldl (fun u t => writeTile u s.cur.core t []) s, completes_of_matrix hrdy ?_, fun x => ?_⟩
    · exact (if_neg (by simp [hflag]; omega)).trans (if_neg (by rw [hnone]; decide))
    · have hzero : zeroed x ↔ ∃ t ∈ ts, tileAddr s.cur.core t ≤ x ∧ x < tileAddr s.cur.core t + 65536 := by
        simp only [zeroed, hts, and_assoc]
      rw [readByte_clearTiles, hzero]
      exact ⟨fun h => if_pos h, fun h => if_neg h⟩
  · refine completes_of_matrix hrdy ?_
    rw [hflag, if_neg (by decide), if_neg (not_not.mpr hidle)]

/-! ## Words whose operation goes on (R148) -/

/-- A ready word whose token its operation pushes concludes with its body's act, without a signal token. -/
theorem tokenLater_done (hrdy : Ready s .matrix w g) {body : State → Act} {r : State} (hbody : body s = .done r 1) :
    tokenLater s w g body = .next (retire (popToken r w) 0 1) := by
  obtain ⟨hmap, hw, hg, htoken, -, -⟩ := hrdy
  rw [tokenLater, if_neg (not_not.mpr hmap), hw, hg, htoken, hbody]
  exact conclude_done_zero _ _ _ _

theorem completes_later (hrdy : Ready s .matrix w g) {i : Instr} {body : State → Act} {r : State} (hbody : body s = .done r 1)
    (hexec : exec i s = tokenLater s w g body := by rfl) : completes i s w 0 r := by
  rw [completes, hexec, tokenLater_done hrdy hbody]

theorem takeWhile_used {used off : List (Nat × Int)} (hused : ∀ l ∈ used, l.1 ≠ 0) (hoff : ∀ l ∈ off, l.1 = 0) :
    (used ++ off).takeWhile (fun l => decide (l.1 ≠ 0)) = used := by
  rw [List.takeWhile_append_of_pos (fun l hl => decide_eq_true (hused l hl))]
  cases off with
  | nil => simp
  | cons l off => simp [hoff l (by simp)]

theorem mrun_starts {a : B5} {c t : B2} (hflag : taskFlag s 1 = true) (hidle : flying s = []) {v k : Nat} {used off : List (Nat × Int)}
    (hreg : (s.reg a.toNat).toNat = v) (hv : v < 8) (hk : bits (look 0 s.myCtx.sh.ns 0).toNat 23 0 = k) (hk0 : k ≠ 0)
    (hstep : bits (look 0 s.myCtx.sh.ns 0).toNat 39 32 = 0) (htrans : t ≠ 0 → k % 128 = 0)
    (htypes : runTypes (cwTa (cwOf s c)) (cwTb (cwOf s c)) (cwTd (cwOf s c)) = true)
    (hlevels : (List.range 5).map (fun l => nestLevel (look 0 s.myCtx.sh.ns (l + 1))) = used ++ off) (hused : ∀ l ∈ used, l.1 ≠ 0)
    (hoff : ∀ l ∈ off, l.1 = 0) (hreach : ∀ x ∈ reachTiles used.reverse v, 0 ≤ x ∧ x ≤ 7) :
    mrun s a c t g = .done (startOp s ⟨0, s.cur.slot, cwOf s c, v, (k, 0) :: used, t.getLsbD 0, t.getLsbD 1,
      ((reachTiles used.reverse v).map Int.toNat).eraseDups, k * (used.map (fun l => l.1)).prod, k * (used.map (fun l => l.1)).prod,
      [], [], 0, false, g⟩) 1 := by
  have hlist : (List.range 6).map (fun l => nestLevel (look 0 s.myCtx.sh.ns l)) = (k, 0) :: (used ++ off) := by
    have hfirst : nestLevel (look 0 s.myCtx.sh.ns 0) = (k, 0) := by rw [nestLevel, hk, hstep]; rfl
    rw [← hlevels, ← hfirst]
    rfl
  have hprod : (used.map (fun l => l.1)).foldl (· * ·) 1 = (used.map (fun l => l.1)).prod := List.prod_eq_foldl.symm
  have hrest : off.any (fun l => decide (l.1 ≠ 0)) = false := by simpa using hoff
  have hin : (reachTiles used.reverse v).any (fun x => decide (x < 0) || decide (7 < x)) = false := by
    rw [List.any_eq_false]
    intro x hx
    have := hreach x hx
    simp
    omega
  unfold mrun
  dsimp only
  rw [hlist, hflag, hidle, hreg, Nat.mod_eq_of_lt hv]
  simp only [List.drop_succ_cons, List.drop_zero, takeWhile_used hused hoff, List.getD_cons_zero, List.drop_left, hrest, hin, htypes,
    hprod]
  simp [hk0, hv.not_ge]
  exact fun ht hk => absurd (htrans ht) hk

theorem matrixOperationsStart : Claims.MatrixOperationsStart := by
  intro s w g a b c t hrdy hflag cw v o k starts
  refine ⟨fun used off hidle hv hk hstep htrans htypes hlevels hused hoff hreach => ?_, fun hv htypes hfree => ?_,
    fun hv halign hfits htypes hidle => ?_⟩
  · exact completes_later hrdy (mrun_starts hflag hidle rfl hv rfl hk hstep htrans htypes hlevels hused hoff hreach)
  · have hnone : (flying s).any (usesTile v) = false := by
      rw [List.any_eq_false]
      intro x hx
      simp [hfree x hx]
    have hok : (!taskFlag s 1 || decide (7 < v) || !loadTypes (cwTa cw)) = false := by
      rw [hflag, htypes, decide_eq_false (by omega)]
      rfl
    exact completes_later hrdy ((if_neg (ne_true_of_eq_false hok)).trans (if_neg (ne_true_of_eq_false hnone)))
  · have hok : (!inScratch s.cur.core o (16384 * typeSize (cwTd cw)) || decide (16 ≤ v) || !drainTypes (cwTa cw) (cwTd cw)) = false := by
      rw [htypes, decide_eq_false (by omega), inScratch, decide_eq_true hfits]
      rfl
    refine completes_later hrdy ?_
    dsimp only
    rw [hflag, if_neg (by decide), if_neg (not_not.mpr halign), if_neg (ne_true_of_eq_false hok), hidle]
    rfl

/-! ## Signatures (R153, R154) -/

theorem signature_clean {a : B5} (hflag : taskFlag s 1 = true) (hflips : s.flips = []) (hidle : flying s = [])
    (hv : (s.reg a.toNat).toNat < 8) (k : State → Word → Act) :
    signature s a k = k s (crc64 (readBytes s.mem (tileAddr s.cur.core (s.reg a.toNat).toNat) 65536)) := by
  unfold signature
  dsimp only
  rw [hflag, hidle, readTile_clean hflips, if_neg (by simp; omega)]
  rfl

theorem signaturesAreChecked : Claims.SignaturesAreChecked := by
  intro s w g d a hrdy hflag hflips hidle v pc sig want hv
  have hsig := signature_clean hflag hflips hidle hv
  refine ⟨completes_of_matrix hrdy (hsig _), fun hfits hfirst hsecond => ?_⟩
  have hwant : (word want).toNat = want := by
    have h1 := (wordAt s s.cur (pc + 4)).isLt
    have h2 := (wordAt s s.cur (pc + 8)).isLt
    rw [BitVec.toNat_ofNat]
    exact Nat.mod_eq_of_lt (by omega)
  have hexec : exec (.mkat w g a) s = conclude s w g
      (if sig = word want then .done (s.modCore s.cur.core (fun c => { c with katb := 0 })) 3 else .trap causeKat sig) := by
    change execMkat w g a s = _
    rw [execMkat, tokened_ready hrdy]
    dsimp only
    rw [if_neg (by rw [hfirst, hsecond]; simpa using hfits), hsig, checkWords_clean hflips]
  refine ⟨fun h => ?_, fun h => ?_⟩
  · rw [hexec, if_pos (BitVec.eq_of_toNat_eq (h.trans hwant.symm)), conclude_done (signalWaits_ready hrdy)]
  · rw [hexec, if_neg (fun heq => h (by rw [heq, hwant]))]
    rfl

end

/-- Settles O41, part by part. -/
theorem matrixStarts : Obligations.MatrixStarts := ⟨nestsAndZeroTiles, matrixOperationsStart, signaturesAreChecked⟩

end Sys2Proof.Machine
end

section
/-! PROOFS. The ends of the matrix engine's operations (O42): what tiles and the scratchpad hold when they are written, the passes of a
run tile by tile, and the three events by which operations end. -/

namespace Sys2Proof.Machine

set_option Elab.async false

/-! ## Ranges of bytes -/

theorem readBytes_eq_iff {m m' : List Host.Cell} {a n : Nat} :
    readBytes m a n = readBytes m' a n ↔ ∀ x, a ≤ x → x < a + n → readByte m x = readByte m' x := by
  rw [← map_readByte_range, ← map_readByte_range, List.map_inj_left]
  simp only [List.mem_map, List.mem_range]
  refine ⟨fun h x hlow hhigh => h x ⟨x - a, by omega, by omega⟩, ?_⟩
  rintro h x ⟨i, hi, rfl⟩
  exact h _ (by omega) (by omega)

theorem bytesOfNat_natOfBytes (bs : List Byte) : bytesOfNat bs.length (natOfBytes bs) = bs := by
  induction bs with
  | nil => rfl
  | cons b bs ih =>
    have hb : b.toNat < 256 := b.isLt
    have hlow : BitVec.ofNat 8 (b.toNat + 256 * natOfBytes bs) = b := by
      apply BitVec.eq_of_toNat_eq
      rw [BitVec.toNat_ofNat]
      omega
    have hhigh : (b.toNat + 256 * natOfBytes bs) / 256 = natOfBytes bs := by omega
    rw [List.length_cons, natOfBytes, bytesOfNat, hlow, hhigh, ih]

theorem length_quads : ∀ bs : List Byte, (quads bs).length = bs.length / 4
  | _ :: _ :: _ :: _ :: rest => by
    simp only [quads, List.length_cons, length_quads rest]
    omega
  | [] | [_] | [_, _] | [_, _, _] => by simp [quads]

theorem flatMap_quads : ∀ {bs : List Byte}, bs.length % 4 = 0 → (quads bs).flatMap (bytesOfNat 4) = bs
  | a :: b :: c :: d :: rest, h => by
    have hrest : rest.length % 4 = 0 := by
      simp only [List.length_cons] at h
      omega
    rw [quads, List.flatMap_cons, flatMap_quads hrest, show 4 = [a, b, c, d].length from rfl, bytesOfNat_natOfBytes]
    rfl
  | [], _ => rfl

theorem length_flatMap_bytesOfNat {α : Type} (n : Nat) (f : α → Nat) (l : List α) :
    (l.flatMap (fun v => bytesOfNat n (f v))).length = n * l.length := by
  induction l with
  | nil => rfl
  | cons v l ih => rw [List.flatMap_cons, List.length_append, ih, length_bytesOfNat, List.length_cons, Nat.mul_succ, Nat.add_comm]

/-! ## Tiles -/

/-- Whether an address lies in a tile. -/
def inTile (core t x : Nat) : Prop := tileAddr core t ≤ x ∧ x < tileAddr core t + 65536

theorem inTile_unique {core t t' x : Nat} (h : inTile core t x) (h' : inTile core t' x) : t = t' := by
  simp only [inTile, tileAddr, phys] at h h'
  omega

theorem not_inTile {core t x : Nat} (h : ¬inTile core t x) : x < tileAddr core t ∨ tileAddr core t + 65536 ≤ x := by
  rw [inTile] at h
  omega

theorem writeTile_inv {s : State} (h : s.Inv) (core t : Nat) (bs : List Byte) : (writeTile s core t bs).Inv :=
  wf_writeBytes _ _ (wf_clearRange _ _ h)

theorem readByte_writeTile_outside {s : State} (h : s.Inv) {core t x : Nat} {bs : List Byte} (hlen : bs.length = 65536)
    (hx : ¬inTile core t x) : readByte (writeTile s core t bs).mem x = readByte s.mem x := by
  refine (readByte_writeBytes_outside _ _ _ (wf_clearRange _ _ h) (by rw [hlen]; exact not_inTile hx)).trans ?_
  exact (readByte_clearRange _ _ _ _).trans (if_neg hx)

theorem readBytes_writeTile {s : State} (h : s.Inv) (core t : Nat) {bs : List Byte} (hlen : bs.length = 65536) :
    readBytes (writeTile s core t bs).mem (tileAddr core t) 65536 = bs := by
  have hread := readBytes_writeBytes (tileAddr core t) bs (wf_clearRange (tileAddr core t) 65536 h)
  rw [hlen] at hread
  exact hread

/-- Tiles with distinct numbers written one after another: each holds its own, and other bytes are as before. -/
theorem writeTiles_spec (core : Nat) (l : Sparse (List Nat)) (hlen : ∀ e ∈ l, (e.2.flatMap (bytesOfNat 4)).length = 65536)
    (hkeys : (l.map Prod.fst).Nodup) : ∀ {s : State}, s.Inv →
      let t := l.foldl (fun u e => writeTile u core e.1 (e.2.flatMap (bytesOfNat 4))) s
      (∀ x, (∀ e ∈ l, ¬inTile core e.1 x) → readByte t.mem x = readByte s.mem x) ∧
        ∀ e ∈ l, readBytes t.mem (tileAddr core e.1) 65536 = e.2.flatMap (bytesOfNat 4) := by
  induction l with
  | nil => exact fun _ => ⟨fun _ _ => rfl, fun _ he => absurd he List.not_mem_nil⟩
  | cons e l ih =>
    intro s hinv
    rw [List.map_cons, List.nodup_cons] at hkeys
    obtain ⟨hnew, hrest⟩ := hkeys
    have he := hlen e List.mem_cons_self
    obtain ⟨hout, hin⟩ := ih (fun y hy => hlen y (List.mem_cons_of_mem e hy)) hrest (writeTile_inv hinv core e.1 (e.2.flatMap (bytesOfNat 4)))
    refine ⟨fun x hx => ?_, fun y hy => ?_⟩
    · exact (hout x (fun y hy => hx y (List.mem_cons_of_mem e hy))).trans
        (readByte_writeTile_outside hinv he (hx e List.mem_cons_self))
    · rcases List.mem_cons.mp hy with rfl | hy
      · refine (readBytes_eq_iff.mpr fun x hlow hhigh => hout x fun z hz hzx => hnew ?_).trans (readBytes_writeTile hinv core y.1 he)
        exact inTile_unique ⟨hlow, hhigh⟩ hzx ▸ List.mem_map_of_mem hz
      · exact hin y hy

/-! ## Maps by their keys -/

section
variable {α : Type}

theorem mem_keys_put (m : Sparse α) (k n : Nat) (v : α) : n ∈ (put m k v).map Prod.fst ↔ n = k ∨ n ∈ m.map Prod.fst := by
  induction m with
  | nil => simp [put]
  | cons e m ih =>
    obtain ⟨a, w⟩ := e
    rw [put]
    split_ifs with hlt heq
    · simp
    · simp [heq]
    · rw [List.map_cons, List.mem_cons, ih, List.map_cons, List.mem_cons]
      exact or_left_comm

theorem le_of_mem_rising {lo : Nat} : ∀ {m : Sparse α} {e : Nat × α}, risingFrom lo m → e ∈ m → lo ≤ e.1
  | a :: m, e, ⟨hle, hrest⟩, he => by
    rcases List.mem_cons.mp he with rfl | he
    · exact hle
    · have := le_of_mem_rising hrest he
      omega

theorem nodup_keys_rising : ∀ {lo : Nat} {m : Sparse α}, risingFrom lo m → (m.map Prod.fst).Nodup
  | _, [], _ => List.nodup_nil
  | _, a :: m, ⟨_, hrest⟩ => by
    rw [List.map_cons, List.nodup_cons]
    refine ⟨fun h => ?_, nodup_keys_rising hrest⟩
    obtain ⟨e, he, heq⟩ := List.mem_map.mp h
    have := le_of_mem_rising hrest he
    omega

theorem look_of_mem_rising (d : α) : ∀ {lo : Nat} {m : Sparse α} {e : Nat × α}, risingFrom lo m → e ∈ m → look d m e.1 = e.2
  | _, a :: m, e, ⟨_, hrest⟩, he => by
    rcases List.mem_cons.mp he with rfl | he
    · exact if_pos rfl
    · have := le_of_mem_rising hrest he
      exact (if_neg (by omega)).trans (look_of_mem_rising d hrest he)

end

/-! ## The passes of a run (R147) -/

/-- What the passes of a run over the tiles `walk` make of tile `n`, which holds `c`. -/
def runTile (o : MatOp) (k : Nat) (walk : List Nat) (a b : List FEntry) (n : Nat) (c : List Nat) : List Nat :=
  (List.range walk.length).foldl (fun c i =>
    if walk[i]? = some n then pass o.cw o.ta o.tb c ((a.drop (k * i)).take k) ((b.drop (k * i)).take k) else c) c

theorem runTile_cons (o : MatOp) (k t : Nat) (walk : List Nat) (a b : List FEntry) (n : Nat) (c : List Nat) :
    runTile o k (t :: walk) a b n c = runTile o k walk (a.drop k) (b.drop k) n
      (if t = n then pass o.cw o.ta o.tb c (a.take k) (b.take k) else c) := by
  have hdrop (l : List FEntry) (i : Nat) : l.drop (k * (i + 1)) = (l.drop k).drop (k * i) := by
    rw [List.drop_drop, Nat.mul_succ, Nat.add_comm]
  rw [runTile, List.length_cons, List.range_succ_eq_map, List.foldl_cons, List.foldl_map]
  simp only [List.getElem?_cons_zero, Option.some.injEq, Nat.mul_zero, List.drop_zero, Nat.succ_eq_add_one, List.getElem?_cons_succ, hdrop]
  rfl

theorem look_runPasses (o : MatOp) (k n : Nat) (ws : List Int) : ∀ (a b : List FEntry) (m : Sparse (List Nat)),
    look [] (runPasses o k ws a b m) n = runTile o k (ws.map Int.toNat) a b n (look [] m n) := by
  induction ws with
  | nil => exact fun _ _ _ => rfl
  | cons t ws ih =>
    intro a b m
    rw [runPasses, ih, List.map_cons, runTile_cons, look_put]
    by_cases h : n = t.toNat
    · rw [if_pos h, if_pos h.symm, h]
    · rw [if_neg h, if_neg (Ne.symm h)]

theorem length_pairs {α β : Type} (l : List α) (m : List β) :
    (l.flatMap (fun a => m.map (fun b => (a, b)))).length = l.length * m.length := List.length_product l m

theorem length_pass (cw : BitVec 32) (ta tb : Bool) {tile : List Nat} (ea eb : List FEntry) (h : tile.length = 16384) :
    (pass cw ta tb tile ea eb).length = 16384 := by
  unfold pass
  split
  · rw [List.length_zipWith, h, length_pairs]
    simp
  · rw [List.length_zipWith, h, length_pairs]
    simp

theorem length_runTile (o : MatOp) (k n : Nat) (walk : List Nat) : ∀ (a b : List FEntry) {c : List Nat}, c.length = 16384 →
    (runTile o k walk a b n c).length = 16384 := by
  induction walk with
  | nil => exact fun _ _ _ h => h
  | cons t walk ih =>
    intro a b c h
    rw [runTile_cons]
    refine ih _ _ ?_
    split
    · exact length_pass _ _ _ _ _ h
    · exact h

theorem runTile_elsewhere (o : MatOp) (k : Nat) {n : Nat} {walk : List Nat} (h : n ∉ walk) (a b : List FEntry) (c : List Nat) :
    runTile o k walk a b n c = c := by
  induction walk generalizing a b with
  | nil => rfl
  | cons t walk ih =>
    rw [List.mem_cons, not_or] at h
    rw [runTile_cons, if_neg (Ne.symm h.1), ih h.2]

theorem runPasses_rising (o : MatOp) (k : Nat) (ws : List Int) : ∀ (a b : List FEntry) {m : Sparse (List Nat)}, risingFrom 0 m →
    risingFrom 0 (runPasses o k ws a b m) := by
  induction ws with
  | nil => exact fun _ _ _ h => h
  | cons t ws ih => exact fun a b m h => ih _ _ (put_rising (Nat.zero_le _) h)

theorem mem_keys_runPasses (o : MatOp) (k n : Nat) (ws : List Int) : ∀ (a b : List FEntry) (m : Sparse (List Nat)),
    n ∈ (runPasses o k ws a b m).map Prod.fst ↔ n ∈ ws.map Int.toNat ∨ n ∈ m.map Prod.fst := by
  induction ws with
  | nil => simp [runPasses]
  | cons t ws ih =>
    intro a b m
    rw [runPasses, ih, mem_keys_put, List.map_cons, List.mem_cons, or_left_comm, or_assoc]

/-- The tiles of a run as they stand, where no bit has flipped. -/
theorem readTiles_clean {s : State} (h : s.flips = []) (core : Nat) (ts : List Nat) :
    ∃ m, readTiles core ts s = some (s, m) ∧ risingFrom 0 m ∧ (∀ n, n ∈ m.map Prod.fst ↔ n ∈ ts) ∧
      ∀ n ∈ ts, look [] m n = quads (readBytes s.mem (tileAddr core n) 65536) := by
  induction ts with
  | nil => exact ⟨[], rfl, trivial, by simp, by simp⟩
  | cons t ts ih =>
    obtain ⟨m, hm, hrising, hkeys, hlook⟩ := ih
    refine ⟨put m t (quads (readBytes s.mem (tileAddr core t) 65536)), ?_, put_rising (Nat.zero_le _) hrising, fun n => ?_, fun n hn => ?_⟩
    · rw [readTiles, readTile_clean h]
      dsimp only
      rw [hm]
      rfl
    · rw [mem_keys_put, hkeys, List.mem_cons]
    · rw [look_put]
      split
      · rename_i heq
        rw [heq]
      · rename_i hne
        exact hlook n ((List.mem_cons.mp hn).resolve_left hne)

theorem length_tile (m : List Host.Cell) (a : Nat) : (quads (readBytes m a 65536)).length = 16384 := by
  rw [length_quads, length_readBytes]

/-! ## The end of an operation -/

theorem cores_pushToken (s : State) (k : B2) : (pushToken s k).cores = s.cores := by
  unfold pushToken fenceLate
  split
  · rfl
  · split
    · rfl
    · rfl

theorem opEnded_spec (s : State) (core : Nat) (o : MatOp) (rest : List MatOp) :
    ((opEnded s core o rest).core core).ops = rest ∧ (opEnded s core o rest).mem = s.mem := by
  constructor
  · have hcores : (opEnded s core o rest).cores = (s.modCore core (fun c => { c with ops := rest })).cores := cores_pushToken _ _
    rw [State.core, hcores]
    exact congrArg CoreState.ops (State.core_modCore_same s core _)
  · exact mem_pushToken _ _

/-- The rows of MLDC fill a tile. -/
theorem length_rows (f : Nat → Nat) {es : List FEntry} (hrows : es.length = 128) (hrow : ∀ e ∈ es, e.elems.length = 128) :
    (es.flatMap (fun e => e.elems.flatMap (fun v => bytesOfNat 4 (f v)))).length = 65536 := by
  rw [List.length_flatMap, List.map_congr_left (g := fun _ => 512), List.map_const', hrows, List.sum_replicate]
  · rfl
  · intro e he
    rw [length_flatMap_bytesOfNat, hrow e he]

section
variable {s : State} {core : Nat} {o : MatOp} {rest : List MatOp} (hinv : s.Inv) (hflips : s.flips = []) (htile : o.tile < 8)
  (hmay : opMayEnd s core o = true)

theorem spoiltOp_iff : spoiltOp o = true ↔ ¬∀ e ∈ o.gotA ++ o.gotB, e.bad = false := by
  simp [spoiltOp, or_and_right, exists_or]

include hmay

theorem runComplete_ends (hfirst : firstOp 0 (s.core core).ops = some (o, rest)) {u : State} {m : Sparse (List Nat)} {k : Nat}
    {levels : List (Nat × Int)} (hnest : o.nest = (k, 0) :: levels) (hwhole : ∀ e ∈ o.gotA ++ o.gotB, e.bad = false)
    (hread : readTiles core o.tiles s = some (u, m)) :
    exec (.runComplete core) s = .next (opEnded ((runPasses o k (walkTiles levels.reverse (o.tile : Int)) o.gotA o.gotB m).foldl
      (fun u e => writeTile u core e.1 (e.2.flatMap (bytesOfNat 4))) u) core o rest) := by
  have hspoilt : spoiltOp o = false := Bool.eq_false_iff.mpr (fun h => spoiltOp_iff.mp h hwhole)
  change execRunComplete core s = _
  rw [execRunComplete, hfirst]
  dsimp only
  rw [hspoilt, hread, hnest, occurs_true hmay]
  rfl

include hinv

/-- MLDC leaves its rows in the tile (R151). -/
theorem mldc_ends (hfirst : firstOp 1 (s.core core).ops = some (o, rest)) (hrows : o.gotA.length = 128)
    (hrow : ∀ e ∈ o.gotA, e.elems.length = 128) (hwhole : ∀ e ∈ o.gotA ++ o.gotB, e.bad = false) :
    ∃ t, exec (.mldcComplete core) s = .next t ∧ (t.core core).ops = rest ∧
      readBytes t.mem (tileAddr core o.tile) 65536 =
        o.gotA.flatMap (fun e => e.elems.flatMap (fun v => bytesOfNat 4 (loadValue (cwTa o.cw) v))) ∧
      ∀ x, ¬inTile core o.tile x → readByte t.mem x = readByte s.mem x := by
  have hspoilt : spoiltOp o = false := Bool.eq_false_iff.mpr (fun h => spoiltOp_iff.mp h hwhole)
  have hlen := length_rows (loadValue (cwTa o.cw)) hrows hrow
  obtain ⟨hops, hmem⟩ := opEnded_spec (writeTile s core o.tile
    (o.gotA.flatMap (fun e => e.elems.flatMap (fun v => bytesOfNat 4 (loadValue (cwTa o.cw) v))))) core o rest
  refine ⟨_, ?_, hops, ?_, fun x hx => ?_⟩
  · change execMldcComplete core s = _
    rw [execMldcComplete, hfirst]
    dsimp only
    rw [occurs_true hmay, hspoilt]
    rfl
  · rw [hmem, readBytes_writeTile hinv core o.tile hlen]
  · rw [hmem, readByte_writeTile_outside hinv hlen hx]

include hflips

/-- A run leaves in every tile what its passes over it have made (R147, R148). -/
theorem run_ends (hfirst : firstOp 0 (s.core core).ops = some (o, rest)) {k : Nat} {levels : List (Nat × Int)}
    (hnest : o.nest = (k, 0) :: levels) (hwhole : ∀ e ∈ o.gotA ++ o.gotB, e.bad = false) {walk : List Nat}
    (hwalk : (walkTiles levels.reverse (o.tile : Int)).map Int.toNat = walk) (htiles : ∀ t ∈ walk, t ∈ o.tiles) :
    ∃ t, exec (.runComplete core) s = .next t ∧ (t.core core).ops = rest ∧
      (∀ n, readBytes t.mem (tileAddr core n) 65536 =
        (runTile o k walk o.gotA o.gotB n (quads (readBytes s.mem (tileAddr core n) 65536))).flatMap (bytesOfNat 4)) ∧
      ∀ x, (∀ n ∈ walk, ¬inTile core n x) → readByte t.mem x = readByte s.mem x := by
  obtain ⟨m, hread, hrising, hkeys, hlook⟩ := readTiles_clean hflips core o.tiles
  generalize hm' : runPasses o k (walkTiles levels.reverse (o.tile : Int)) o.gotA o.gotB m = m'
  have hrising' : risingFrom 0 m' := hm' ▸ runPasses_rising o k _ _ _ hrising
  have hlisted (n : Nat) : n ∈ m'.map Prod.fst ↔ n ∈ o.tiles := by
    rw [← hm', mem_keys_runPasses, hwalk, hkeys]
    exact ⟨fun h => h.elim (htiles n) id, .inr⟩
  have hvalue (e : Nat × List Nat) (he : e ∈ m') :
      e.2 = runTile o k walk o.gotA o.gotB e.1 (quads (readBytes s.mem (tileAddr core e.1) 65536)) := by
    have htile : e.1 ∈ o.tiles := (hlisted e.1).mp (List.mem_map_of_mem he)
    rw [← look_of_mem_rising [] hrising' he, ← hm', look_runPasses, hwalk, hlook e.1 htile]
  have hlen (e : Nat × List Nat) (he : e ∈ m') : (e.2.flatMap (bytesOfNat 4)).length = 65536 := by
    have hshort : e.2.length = 16384 := by
      rw [hvalue e he]
      exact length_runTile _ _ _ _ _ _ (length_tile _ _)
    exact (length_flatMap_bytesOfNat 4 id e.2).trans (by rw [hshort])
  obtain ⟨hout, hin⟩ := writeTiles_spec core m' hlen (nodup_keys_rising hrising') hinv
  obtain ⟨hops, hmem⟩ := opEnded_spec (m'.foldl (fun u e => writeTile u core e.1 (e.2.flatMap (bytesOfNat 4))) s) core o rest
  have hold (n : Nat) (hn : n ∉ walk) :
      (runTile o k walk o.gotA o.gotB n (quads (readBytes s.mem (tileAddr core n) 65536))).flatMap (bytesOfNat 4) =
        readBytes s.mem (tileAddr core n) 65536 := by
    rw [runTile_elsewhere o k hn, flatMap_quads (by rw [length_readBytes])]
  have hall (n : Nat) : readBytes (opEnded (m'.foldl (fun u e => writeTile u core e.1 (e.2.flatMap (bytesOfNat 4))) s) core o rest).mem
      (tileAddr core n) 65536 =
        (runTile o k walk o.gotA o.gotB n (quads (readBytes s.mem (tileAddr core n) 65536))).flatMap (bytesOfNat 4) := by
    rw [hmem]
    by_cases hn : n ∈ o.tiles
    · obtain ⟨e, he, rfl⟩ := List.mem_map.mp ((hlisted n).mpr hn)
      rw [hin e he, ← hvalue e he]
    · rw [hold n (fun h => hn (htiles n h))]
      refine readBytes_eq_iff.mpr fun x hlow hhigh => hout x fun e he hex => hn ?_
      exact inTile_unique ⟨hlow, hhigh⟩ hex ▸ (hlisted e.1).mp (List.mem_map_of_mem he)
  refine ⟨_, hm' ▸ runComplete_ends hmay hfirst hnest hwhole hread, hops, hall, fun x hx => ?_⟩
  by_cases hin : ∃ e ∈ m', inTile core e.1 x
  · obtain ⟨e, -, hex⟩ := hin
    have hsame := (hall e.1).trans (hold e.1 (fun hn => hx e.1 hn hex))
    exact readBytes_eq_iff.mp hsame x hex.1 hex.2
  · rw [hmem]
    exact hout x (fun e he hex => hin ⟨e, he, hex⟩)

end

end Sys2Proof.Machine
end

section
/-! PROOFS. The end of a drain (O42): bytes written at distinct places of the scratchpad, apart from the tiles. -/

namespace Sys2Proof.Machine

set_option Elab.async false

/-! ## Bytes written at addresses -/

theorem readByte_writeAt_outside {x : Nat} : ∀ {m : List Host.Cell} {as : List Nat} (bs : List Byte), Memory.wf m = true → x ∉ as →
    readByte (writeAt m as bs) x = readByte m x
  | m, [], bs, _, _ => by cases bs <;> rfl
  | m, a :: as, [], _, _ => rfl
  | m, a :: as, b :: bs, hwf, hx => by
    rw [List.mem_cons, not_or] at hx
    rw [writeAt, readByte_writeAt_outside bs (wf_writeByte a b hwf) hx.2, readByte_writeByte _ _ _ hwf, if_neg hx.1]

theorem map_readByte_writeAt : ∀ {m : List Host.Cell} {as : List Nat} {bs : List Byte}, Memory.wf m = true → as.Nodup →
    as.length = bs.length → as.map (readByte (writeAt m as bs)) = bs
  | m, [], [], _, _, _ => rfl
  | m, a :: as, b :: bs, hwf, hnodup, hlen => by
    rw [List.nodup_cons] at hnodup
    have hwf' := wf_writeByte a b hwf
    rw [writeAt, List.map_cons, map_readByte_writeAt hwf' hnodup.2 (Nat.succ.inj hlen), readByte_writeAt_outside bs hwf' hnodup.1,
      readByte_writeByte _ _ _ hwf, if_pos rfl]

/-! ## Places of the scratchpad (R259) -/

/-- A window of the scratchpad goes round from where it begins. -/
theorem scratchPhys_window (s : State) (core slot : Nat) :
    ∃ c, ∀ o, scratchPhys s core slot o = phys (tagScratch core) ((c + o) % scratchSize core) := by
  by_cases hslot : slot = 0
  · exact ⟨0, fun o => by rw [Nat.zero_add]; exact if_pos hslot⟩
  · cases htask : (s.ctx core slot).task with
    | some t => exact ⟨scratchSize core - t.hdr.scratch % scratchSize core, fun o => by simp [scratchPhys, hslot, htask]⟩
    | none => exact ⟨0, fun o => by simp [scratchPhys, hslot, htask]⟩

theorem scratchSize_bounds (core : Nat) : 0 < scratchSize core ∧ scratchSize core ≤ 2 ^ 22 := by
  unfold scratchSize
  split <;> decide

theorem scratchPhys_not_inTile (s : State) (core slot o t : Nat) (ht : t < 8) : ¬inTile core t (scratchPhys s core slot o) := by
  obtain ⟨c, hc⟩ := scratchPhys_window s core slot
  obtain ⟨hpos, hle⟩ := scratchSize_bounds core
  have hlt := Nat.mod_lt (c + o) hpos
  rw [hc, inTile, phys, tileAddr, phys, tagScratch, tagAcc]
  omega

theorem scratchBytes_nodup (s : State) {core slot o n : Nat} (h : o + n ≤ scratchSize core) : (scratchBytes s core slot o n).Nodup := by
  obtain ⟨c, hc⟩ := scratchPhys_window s core slot
  refine List.Nodup.map_on (fun i hi j hj hij => ?_) List.nodup_range
  rw [List.mem_range] at hi hj
  rw [hc, hc, phys, phys, ← Nat.add_assoc, ← Nat.add_assoc] at hij
  have hmod : c + o + i ≡ c + o + j [MOD scratchSize core] := Nat.add_left_cancel hij
  exact Nat.ModEq.eq_of_lt_of_lt (Nat.ModEq.add_left_cancel' _ hmod) (by omega) (by omega)

theorem mem_remember (s : State) (who : PartyId) (t : Sight) (num : Nat) (us : List (List Nat)) : (remember s who t num us).mem = s.mem := by
  unfold remember madeBy
  split
  · rfl
  · rfl

/-- A write of the scratchpad in the present writes its bytes at their places. -/
theorem writeScratch_present {s : State} (hflips : s.flips = []) (hlag : s.me.view.lag = 0) (core slot o : Nat) (bs : List Byte) :
    ∃ u, writeScratch s core slot o bs = some u ∧ u.mem = writeAt s.mem (scratchBytes s core slot o bs.length) bs := by
  have hlen : (scratchBytes s core slot o bs.length).length = bs.length := by simp [scratchBytes]
  rw [writeScratch, putCells, if_pos (.inl hlag), writeCellsNow]
  dsimp only
  rw [checkWords_clean hflips]
  refine ⟨_, rfl, ?_⟩
  dsimp only
  rw [mem_remember, List.map_fst_zip hlen.le, List.map_snd_zip hlen.ge]

/-! ## The statement -/

/-- A drain leaves the values of its tile in the scratchpad, and clears the tile where it is asked to (R152). -/
theorem drain_ends {s : State} {core : Nat} {o : MatOp} {rest : List MatOp} (hinv : s.Inv) (hflips : s.flips = []) (htile : o.tile < 8)
    (hmay : opMayEnd s core o = true) (hfirst : firstOp 2 (s.core core).ops = some (o, rest))
    (hlag : (s.party ⟨core, o.slot, .m⟩).view.lag = 0) (hfits : o.offset + 16384 * typeSize (cwTd o.cw) ≤ scratchSize core) :
    ∃ t, exec (.drainComplete core) s = .next t ∧ (t.core core).ops = rest ∧
      (List.range (16384 * typeSize (cwTd o.cw))).map (fun i => readByte t.mem (scratchPhys s core o.slot (o.offset + i))) =
        (quads (readBytes s.mem (tileAddr core o.tile) 65536)).flatMap (fun v => bytesOfNat (typeSize (cwTd o.cw)) (drainValue o.cw v)) ∧
      (o.zero = true → ∀ i < 65536, readByte t.mem (tileAddr core o.tile + i) = 0) ∧
      ∀ x, (∀ i < 16384 * typeSize (cwTd o.cw), x ≠ scratchPhys s core o.slot (o.offset + i)) →
        (o.zero = true → ¬inTile core o.tile x) → readByte t.mem x = readByte s.mem x := by
  have hlen := length_flatMap_bytesOfNat (typeSize (cwTd o.cw)) (drainValue o.cw) (quads (readBytes s.mem (tileAddr core o.tile) 65536))
  rw [length_tile, Nat.mul_comm] at hlen
  generalize hbs : (quads (readBytes s.mem (tileAddr core o.tile) 65536)).flatMap (fun v => bytesOfNat (typeSize (cwTd o.cw))
    (drainValue o.cw v)) = bs at hlen ⊢
  obtain ⟨u, hwrite, humem⟩ := writeScratch_present (s := s.setCur ⟨core, o.slot, .m⟩) hflips hlag core o.slot o.offset bs
  rw [hlen] at humem
  let v := (if o.zero then writeTile u core o.tile [] else u).setCur s.cur
  have hv (x : Nat) : readByte v.mem x = if o.zero = true ∧ tileAddr core o.tile ≤ x ∧ x < tileAddr core o.tile + 65536 then 0 else readByte u.mem x := by
    cases hz : o.zero with
    | false =>
      simp only [v, hz, Bool.false_eq_true, if_false, false_and]
      rfl
    | true =>
      simp only [v, hz, if_true, true_and]
      exact readByte_clearRange _ _ _ _
  obtain ⟨hops, hmem⟩ := opEnded_spec v core o rest
  refine ⟨opEnded v core o rest, ?_, hops, ?_, fun hz i hi => ?_, fun x hout hclear => ?_⟩
  · change execDrainComplete core s = _
    rw [execDrainComplete, hfirst]
    dsimp only
    rw [occurs_true hmay, readTile_clean hflips]
    dsimp only
    rw [hbs, hwrite]
  · have hback : (scratchBytes s core o.slot o.offset (16384 * typeSize (cwTd o.cw))).map (readByte u.mem) = bs := by
      rw [humem]
      exact map_readByte_writeAt hinv (scratchBytes_nodup s hfits) (by simp [scratchBytes, hlen])
    rw [hmem, ← hback, scratchBytes, List.map_map]
    exact List.map_congr_left fun i _ => (hv _).trans (if_neg (fun h => scratchPhys_not_inTile s core o.slot _ _ htile h.2))
  · rw [hmem, hv, if_pos ⟨hz, by omega, by omega⟩]
  · rw [hmem, hv, if_neg (fun h => hclear h.1 h.2), humem]
    refine readByte_writeAt_outside bs hinv fun hx => ?_
    obtain ⟨i, hi, rfl⟩ := List.mem_map.mp hx
    exact hout i (List.mem_range.mp hi) rfl

/-- Settles O42, event by event. -/
theorem matrixOperationsEnd : Obligations.MatrixOperationsEnd := by
  intro s core o rest hinv hflips htile hmay at_ whole old
  refine ⟨fun k levels hfirst hnest => ?_, fun hfirst hrows hrow hwhole => ?_,
    fun hbad => ⟨fun hfirst => ?_, fun hfirst => ?_⟩, fun hfirst hlag => ?_⟩
  · intro walk hA hB htiles hlt hwhole after
    obtain ⟨t, hexec, hops, hall, hout⟩ := run_ends hinv hflips hmay hfirst hnest hwhole rfl htiles
    exact ⟨t, hexec, hops, fun n _ => hall n, fun x hx => hout x fun n hn h => by have := hx n hn; rw [inTile] at h; omega⟩
  · obtain ⟨t, hexec, hops, hrows, hout⟩ := mldc_ends hinv hmay hfirst hrows hrow hwhole
    exact ⟨t, hexec, hops, hrows, fun x hx => hout x fun h => by rw [inTile] at h; omega⟩
  · change execRunComplete core s = _
    rw [execRunComplete, hfirst]
    dsimp only
    rw [occurs_true hmay, spoiltOp_iff.mpr hbad]
    rfl
  · change execMldcComplete core s = _
    rw [execMldcComplete, hfirst]
    dsimp only
    rw [occurs_true hmay, spoiltOp_iff.mpr hbad]
    rfl
  · intro z place hfits
    obtain ⟨t, hexec, hops, hdrained, hzero, hout⟩ := drain_ends hinv hflips htile hmay hfirst hlag hfits
    exact ⟨t, hexec, hops, hdrained, hzero, fun x hx hclear => hout x hx fun hz h => by have := hclear hz; rw [inTile] at h; omega⟩

end Sys2Proof.Machine
end

section
/-! PROOFS. Trellis-coded tensors (O47, O46): the number that bits spell, packed bits and the windows of a trace back; and XTDEF of a
slot that a command in flight names, which waits with what its reads of the scratchpad have corrected. -/

namespace Sys2Proof.Machine

set_option Elab.async false

/-! ## Bits and the number that they spell (R158) -/

/-- The number that the first `n` bits of `f` spell, the earliest most significant. -/
def bitsValue (f : Nat → Bool) (n : Nat) : Nat := (List.range n).foldl (fun v i => 2 * v + (f i).toNat) 0

theorem bitsValue_succ (f : Nat → Bool) (n : Nat) : bitsValue f (n + 1) = Nat.bit (f n) (bitsValue f n) := by
  simp [bitsValue, List.range_succ, Nat.bit_val]

theorem bitsValue_lt (f : Nat → Bool) (n : Nat) : bitsValue f n < 2 ^ n := by
  induction n with
  | zero => exact Nat.one_pos
  | succ n ih => rw [bitsValue_succ]; exact Nat.bit_lt_two_pow_succ_iff.mpr ih

theorem testBit_bitsValue (f : Nat → Bool) {n i : Nat} (h : i < n) : (bitsValue f n).testBit i = f (n - 1 - i) := by
  induction n generalizing i with
  | zero => exact absurd h (Nat.not_lt_zero i)
  | succ n ih =>
    rw [bitsValue_succ]
    cases i with
    | zero => exact Nat.testBit_bit_zero _ _
    | succ i =>
      rw [Nat.testBit_bit_succ, ih (Nat.lt_of_succ_lt_succ h)]
      congr 1
      omega

/-- Bits that are those of a number of `n` bits spell it. -/
theorem bitsValue_eq {f : Nat → Bool} {n v : Nat} (hv : v < 2 ^ n) (hf : ∀ i < n, f i = v.testBit (n - 1 - i)) :
    bitsValue f n = v := by
  refine Nat.eq_of_testBit_eq fun i => ?_
  by_cases hi : i < n
  · rw [testBit_bitsValue f hi, hf _ (by omega)]
    congr 1
    omega
  · have hpow : 2 ^ n ≤ 2 ^ i := Nat.pow_le_pow_right Nat.two_pos (by omega)
    rw [Nat.testBit_lt_two_pow ((bitsValue_lt f n).trans_le hpow), Nat.testBit_lt_two_pow (hv.trans_le hpow)]

theorem streamBits_eq (bs : List Byte) (k n : Nat) : streamBits bs k n = bitsValue (fun i => streamBit bs (k + i)) n := rfl

@[simp] theorem length_bitsOf (n v : Nat) : (bitsOf n v).length = n := by simp [bitsOf]

theorem getD_bitsOf {n i : Nat} (v : Nat) (h : i < n) : (bitsOf n v).getD i false = v.testBit (n - 1 - i) := by
  simp [bitsOf, h]

theorem getD_packBits {bs : List Bool} {i : Nat} (h : 8 * i < bs.length) :
    (packBits bs).getD i 0 = BitVec.ofNat 8 (bitsValue (fun j => bs.getD (8 * i + j) false) 8) := by
  have hi : i < (bs.length + 7) / 8 := by omega
  simp [packBits, bitsValue, hi]

/-- Packed bits read back as they were. -/
theorem streamBit_packBits {bs : List Bool} {k : Nat} (h : k < bs.length) : streamBit (packBits bs) k = bs.getD k false := by
  have hplace : 8 * (k / 8) + (8 - 1 - (7 - k % 8)) = k := by omega
  have hbit : 7 - k % 8 < 8 := by omega
  rw [streamBit, getD_packBits (by omega), BitVec.getLsbD_ofNat, testBit_bitsValue _ hbit, hplace]
  simp [hbit]

/-- A number of `n` bits behind other bits reads back. -/
theorem streamBits_packBits_append (bs : List Bool) {n v : Nat} (hv : v < 2 ^ n) :
    streamBits (packBits (bs ++ bitsOf n v)) bs.length n = v := by
  rw [streamBits_eq]
  refine bitsValue_eq hv fun i hi => ?_
  rw [streamBit_packBits (by simp [hi]), List.getD_append_right _ _ _ _ (Nat.le_add_right ..), Nat.add_sub_cancel_left,
    getD_bitsOf v hi]

theorem streamsReadBack : Claims.StreamsReadBack := fun bs k _ _ =>
  ⟨streamBit_packBits, streamBits_packBits_append (bs.take k)⟩

/-! ## The windows of a trace back (R168) -/

/-- The window by which a step comes to state `after`, by its row of survivors. -/
def Trellis.windowInto (t : Trellis) (row : List (Option Nat)) (after : Nat) : Nat :=
  ((row.getD after none).getD 0) * 2 ^ t.m + after

theorem traceBack_cons (t : Trellis) (state : Nat) (row : List (Option Nat)) (rest : List (List (Option Nat))) :
    traceBack t state (row :: rest) =
      (t.windowInto row (traceBack t state rest).1 / 2 ^ t.b,
       t.windowInto row (traceBack t state rest).1 % 2 ^ t.b :: (traceBack t state rest).2) := rfl

/-- Survivors are values of b bits. -/
def Trellis.survivors (t : Trellis) (row : List (Option Nat)) : Prop := ∀ p ∈ row, ∀ k, p = some k → k < 2 ^ t.b

theorem Trellis.survivor_lt {t : Trellis} {row : List (Option Nat)} (h : t.survivors row) (after : Nat) :
    (row.getD after none).getD 0 < 2 ^ t.b := by
  rw [List.getD_eq_getElem?_getD]
  cases hp : row[after]? with
  | none => exact Nat.two_pow_pos t.b
  | some p =>
    cases p with
    | none => exact Nat.two_pow_pos t.b
    | some k => exact h _ (List.mem_of_getElem? hp) k rfl

theorem Trellis.windowInto_lt {t : Trellis} {row : List (Option Nat)} {after : Nat} (h : t.survivors row) (ha : after < 2 ^ t.m) :
    t.windowInto row after < 2 ^ t.m * 2 ^ t.b := by
  have hp := Nat.mul_le_mul_right (2 ^ t.m) (Nat.succ_le_of_lt (t.survivor_lt h after))
  rw [Nat.succ_mul] at hp
  rw [windowInto, Nat.mul_comm (2 ^ t.m)]
  omega

/-- A window's lower bits are the state that it leads to. -/
theorem Trellis.windowInto_mod (t : Trellis) (row : List (Option Nat)) {after : Nat} (ha : after < 2 ^ t.m) :
    t.windowInto row after % 2 ^ t.m = after := by
  rw [windowInto, Nat.mul_add_mod', Nat.mod_eq_of_lt ha]

/-- The inputs that a trace back finds lead, step by step, from the state that it finds to the one that it began at. -/
theorem tracesArePaths : Claims.TracesArePaths := by
  intro t state rows hstate hrows
  induction rows with
  | nil => exact ⟨rfl, hstate, by simp [traceBack], rfl⟩
  | cons row rest ih =>
    obtain ⟨hlen, hafter, hinputs, hpath⟩ := ih fun r hr => hrows r (List.mem_cons_of_mem _ hr)
    have hrow : t.survivors row := hrows row List.mem_cons_self
    rw [traceBack_cons]
    refine ⟨congrArg Nat.succ hlen, Nat.div_lt_of_lt_mul ?_, ?_, ?_⟩
    · rw [Nat.mul_comm]
      exact t.windowInto_lt hrow hafter
    · exact List.forall_mem_cons.mpr ⟨Nat.mod_lt _ (Nat.two_pow_pos t.b), hinputs⟩
    · rw [List.foldl_cons, Nat.div_add_mod', t.windowInto_mod row hafter]
      exact hpath

/-- Settles O47: the steps of a trace back by induction on its rows, and packed bits by the bits of each byte. -/
theorem trellisPaths : Obligations.TrellisPaths := ⟨tracesArePaths, streamsReadBack⟩

/-! ## XTDEF of a slot in use (R178, R345) -/

/-- A definition of one-element entries, m = 2 and b = c = 1, with its codebook of two zeros (R162). -/
def zeroDefinition : List Byte := [2, 1, 1, 1, 1] ++ List.replicate 15 0

/-- In the system core of die 0 an XTBLD of slot 0 is in flight on y; x finds a definition at the start of the scratchpad, one bit of
whose first word has flipped. -/
def definitionFlipped : State :=
  let s : State := { State.reset with
    cur := ⟨16, 0, .x⟩, mem := writeBytes [] (phys (tagScratch 16) 0) zeroDefinition, flips := [(phys (tagScratch 16) 0, 1)] }
  (s.setParty ⟨16, 0, .x⟩ { run := .running }).setParty ⟨16, 0, .y⟩ { run := .running, busy := some (.trellis 9 [] 0, 0, 0) }

/-- The bit is corrected, and the die has counted it (R345). -/
def definitionCorrected : State :=
  { definitionFlipped.modDie 0 (fun d => { d with cecnt := d.cecnt + 1 }) with flips := [] }

theorem ready_definitionFlipped : Ready definitionFlipped .copy 0 0 := ⟨rfl, rfl, rfl, rfl, rfl, fun h => absurd rfl h⟩

theorem readScratch_definitionFlipped :
    readScratch definitionFlipped 16 0 0 16 = some (definitionCorrected, zeroDefinition.take 16) := by decide +kernel

theorem readScratch_definitionCorrected :
    readScratch definitionCorrected 16 0 0 (definitionSize (zeroDefinition.take 16)) = some (definitionCorrected, zeroDefinition) := by
  decide +kernel

theorem definitionOk_zeroDefinition : definitionOk (zeroDefinition.take 16) = true := by decide

theorem definitionOf_zeroDefinition : definitionOf zeroDefinition = some ⟨2, 1, 1, 1, 1, [0, 0]⟩ := by decide

theorem slotInUse_definitionCorrected : slotInUse definitionCorrected definitionCorrected.cur.core 0 none = true := by decide

/-- Bytes that a party without late stores in its scratchpad reads there go to what follows, with the state that the read leaves. -/
theorem withScratch_read {s t : State} {o n : Nat} {bs : List Byte} (k : State → List Byte → Act) (hlate : scratchLate s s.cur = false)
    (hread : readScratch s s.cur.core s.cur.slot o n = some (t, bs)) : withScratch s o n k = k t bs := by
  rw [withScratch, hlate, hread]
  rfl

/-- XTDEF waits for the slot in the state that its reads of the definition leave. -/
theorem xtdef_definitionFlipped : exec (.xtdef 0 0 0 0) definitionFlipped = .next (definitionCorrected.setLast .waiting) := by
  change execXtdef 0 0 0 0 definitionFlipped = _
  have hop : (definitionFlipped.reg (0 : B5).toNat).toNat = 0 := by decide
  have hholds : holdsTrellis definitionFlipped = true := by decide
  have hfits : inScratch definitionFlipped.cur.core 0 16 = true := by decide
  have hwhole : inScratch definitionCorrected.cur.core 0 (definitionSize (zeroDefinition.take 16)) = true := by decide
  rw [execXtdef, tokened_ready ready_definitionFlipped]
  simp only [hop, hholds, hfits, Bool.not_true, Bool.false_eq_true, if_false, Nat.zero_mod, ne_eq, not_true_eq_false,
    Nat.not_lt_zero, decide_false, Bool.or_self]
  rw [withScratch_read _ rfl readScratch_definitionFlipped]
  simp only [definitionOk_zeroDefinition, hwhole, Bool.and_self, Bool.not_true, Bool.false_eq_true, if_false]
  rw [withScratch_read _ rfl readScratch_definitionCorrected, definitionOf_zeroDefinition]
  simp only [slotInUse_definitionCorrected, if_true, conclude_wait]

/-- A waiting XTDEF leaves the correction of what it has read, where the claim has the state in which it began. -/
theorem not_trellisCommandsBegin : ¬ Claims.TrellisCommandsBegin := by
  intro h
  obtain ⟨-, -, -, -, hdefine⟩ := h definitionFlipped definitionFlipped 0 0 0 0 [] ⟨2, 1, 1, 1, 1, [0, 0]⟩ ready_definitionFlipped
  obtain ⟨-, hwaits⟩ := hdefine _ _ _ _ _ rfl rfl (by decide) rfl (by decide) readScratch_definitionFlipped
    definitionOk_zeroDefinition (by decide) readScratch_definitionCorrected definitionOf_zeroDefinition
  have hsame := hwaits slotInUse_definitionCorrected
  rw [xtdef_definitionFlipped] at hsame
  injection hsame with hsame
  exact absurd (congrArg State.flips hsame) (by decide)

/-- Refutes O46: an XTDEF whose slot a command in flight names waits, and the flipped bit that it has read in its definition is
corrected and counted (R345, log 7), where `TrellisCommandsBegin` has nothing change but the mark of waiting. -/
theorem not_trellisRuns : ¬ Obligations.TrellisRuns := by
  rintro ⟨hbegin, -⟩
  exact not_trellisCommandsBegin hbegin

end Sys2Proof.Machine
end

section
/-! PROOFS. The canonical form of memory (O58): what it means that a result, an act or an outcome keeps it. A function either leaves
the memory of its state alone, which an equation says, or writes to it by the operations that keep the canonical form. -/

namespace Sys2Proof.Machine

/-! ## States and the results that carry one -/

@[simp] theorem State.mem_ite {c : Prop} [Decidable c] {t u : State} : (if c then t else u).mem = if c then t.mem else u.mem :=
  apply_ite ..

@[simp] theorem wf_ite {c : Prop} [Decidable c] {m n : List Host.Cell} :
    Memory.wf (if c then m else n) = if c then Memory.wf m else Memory.wf n := apply_ite ..

/-- A fold of steps each of which leaves memory alone. -/
@[simp] theorem mem_foldl {α : Type} {f : State → α → State} (hf : ∀ t e, (f t e).mem = t.mem) (l : List α) (s : State) :
    (l.foldl f s).mem = s.mem := by
  induction l generalizing s with
  | nil => rfl
  | cons e l ih => rw [List.foldl_cons, ih, hf]

/-- A fold of steps each of which keeps the canonical form. -/
theorem wf_foldl {α : Type} {f : State → α → State} (hf : ∀ t e, Memory.wf t.mem → Memory.wf (f t e).mem) (l : List α) {s : State}
    (hs : Memory.wf s.mem) : Memory.wf (l.foldl f s).mem :=
  List.foldlRecOn (motive := fun t => Memory.wf t.mem) l f hs fun t ht e _ => hf t e ht

/-- A state that may not be there, and has the memory of `s`. -/
def SomeMem (s : State) (o : Option State) : Prop := ∀ t, o = some t → t.mem = s.mem

/-- The same of a state with a value. -/
def SomeFstMem {α : Type} (s : State) (o : Option (State × α)) : Prop := ∀ r, o = some r → r.1.mem = s.mem

/-- A state that may not be there, and has its memory in canonical form. -/
def SomeWf (o : Option State) : Prop := ∀ t, o = some t → Memory.wf t.mem

/-- A computation that may fail, and whose state has the memory of `s` otherwise. -/
def GotMem {α ε : Type} (s : State) (o : Except ε (State × α)) : Prop := ∀ r, o = .ok r → r.1.mem = s.mem

/-- A computation that may fail, and whose state has its memory in canonical form otherwise. -/
def GotWf {α ε : Type} (o : Except ε (State × α)) : Prop := ∀ r, o = .ok r → Memory.wf r.1.mem

section
variable {α ε : Type} {s t : State} {c : Prop} [Decidable c]

@[simp] theorem someMem_none : SomeMem s none := by simp [SomeMem]
@[simp] theorem someMem_some : SomeMem s (some t) ↔ t.mem = s.mem := by simp [SomeMem]
@[simp] theorem someMem_ite {a b : Option State} :
    SomeMem s (if c then a else b) ↔ if c then SomeMem s a else SomeMem s b := by split <;> rfl
theorem SomeMem.trans {a : Option State} (ha : SomeMem t a) (h : t.mem = s.mem) : SomeMem s a := fun u hu => (ha u hu).trans h
@[simp] theorem someFstMem_none : SomeFstMem s (none : Option (State × α)) := by simp [SomeFstMem]
@[simp] theorem someFstMem_some {r : State × α} : SomeFstMem s (some r) ↔ r.1.mem = s.mem := by simp [SomeFstMem]
@[simp] theorem someWf_none : SomeWf none := by simp [SomeWf]
@[simp] theorem someWf_some : SomeWf (some t) ↔ Memory.wf t.mem := by simp [SomeWf]
@[simp] theorem someWf_ite {a b : Option State} : SomeWf (if c then a else b) ↔ if c then SomeWf a else SomeWf b := by split <;> rfl
theorem SomeWf.map {o : Option State} (ho : SomeWf o) {f : State → State} (hf : ∀ t, Memory.wf t.mem → Memory.wf (f t).mem) :
    SomeWf (o.map f) := by
  intro t ht
  obtain ⟨u, hu, rfl⟩ := Option.map_eq_some_iff.1 ht
  exact hf u (ho u hu)
theorem SomeWf.getD {o : Option State} (ho : SomeWf o) (ht : Memory.wf t.mem) : Memory.wf (o.getD t).mem := by
  cases o with
  | none => exact ht
  | some u => exact ho u rfl
@[simp] theorem gotMem_error {e : ε} : GotMem s (.error e : Except ε (State × α)) := by simp [GotMem]
@[simp] theorem gotMem_ok {r : State × α} : GotMem s (.ok r : Except ε (State × α)) ↔ r.1.mem = s.mem := by simp [GotMem]
@[simp] theorem gotMem_ite {a b : Except ε (State × α)} :
    GotMem s (if c then a else b) ↔ if c then GotMem s a else GotMem s b := by split <;> rfl
@[simp] theorem gotWf_error {e : ε} : GotWf (.error e : Except ε (State × α)) := by simp [GotWf]
@[simp] theorem gotWf_ok {r : State × α} : GotWf (.ok r : Except ε (State × α)) ↔ Memory.wf r.1.mem := by simp [GotWf]

/-- A computation goes on with a change of its value alone. -/
theorem GotMem.map {β : Type} {a : Except ε (State × α)} (ha : GotMem s a) {f : State × α → State × β}
    (hf : ∀ r, (f r).1 = r.1) : GotMem s (a.map f) := by
  cases a with
  | error e => exact gotMem_error
  | ok r => exact gotMem_ok.2 ((congrArg State.mem (hf r)).trans (gotMem_ok.1 ha))

end

/-! ## How an instruction ends -/

/-- The states that an act carries have their memory in canonical form. -/
def Act.Wf : Act → Prop
  | .done t _ | .jump t _ | .moved t | .wait t | .issued t _ | .ends t _ _ | .lost t | .raw t => Memory.wf t.mem
  | .trap _ _ | .stop _ => True

/-- The state that follows, if one does, has its memory in canonical form. -/
def NextWf : Host.Outcome State Fault Refusal → Prop
  | .next t => Memory.wf t.mem
  | .fault _ | .refused _ => True

section
variable (t : State) (n : Nat) (v : Word) {c : Prop} [Decidable c]

@[simp] theorem Act.wf_done : (Act.done t n).Wf ↔ Memory.wf t.mem := .rfl
@[simp] theorem Act.wf_jump : (Act.jump t n).Wf ↔ Memory.wf t.mem := .rfl
@[simp] theorem Act.wf_moved : (Act.moved t).Wf ↔ Memory.wf t.mem := .rfl
@[simp] theorem Act.wf_wait : (Act.wait t).Wf ↔ Memory.wf t.mem := .rfl
@[simp] theorem Act.wf_issued (k : Cmd) : (Act.issued t k).Wf ↔ Memory.wf t.mem := .rfl
@[simp] theorem Act.wf_ends : (Act.ends t n v).Wf ↔ Memory.wf t.mem := .rfl
@[simp] theorem Act.wf_lost : (Act.lost t).Wf ↔ Memory.wf t.mem := .rfl
@[simp] theorem Act.wf_raw : (Act.raw t).Wf ↔ Memory.wf t.mem := .rfl
@[simp] theorem Act.wf_trap : (Act.trap n v).Wf := trivial
@[simp] theorem Act.wf_stop (f : Fault) : (Act.stop f).Wf := trivial
@[simp] theorem Act.wf_ite {a b : Act} : (if c then a else b).Wf ↔ if c then a.Wf else b.Wf := by split <;> rfl
theorem Act.Wf.ite {c : Prop} {_ : Decidable c} {a b : Act} (ha : a.Wf) (hb : b.Wf) : (if c then a else b).Wf := by split <;> assumption
/-- An instruction that waits while a condition holds. -/
theorem Act.Wf.wait_or {c : Prop} {_ : Decidable c} {s : State} {b : Act} (hs : Memory.wf s.mem) (hb : b.Wf) :
    (if c then .wait s else b).Wf := .ite ((wf_wait s).2 hs) hb
@[simp] theorem nextWf_next : NextWf (.next t) ↔ Memory.wf t.mem := .rfl
@[simp] theorem nextWf_fault (f : Fault) : NextWf (.fault f) := trivial
@[simp] theorem nextWf_refused (f : Refusal) : NextWf (.refused f) := trivial
@[simp] theorem nextWf_ite {a b : Host.Outcome State Fault Refusal} :
    NextWf (if c then a else b) ↔ if c then NextWf a else NextWf b := by split <;> rfl
theorem NextWf.ite {c : Prop} {_ : Decidable c} {a b : Host.Outcome State Fault Refusal} (ha : NextWf a) (hb : NextWf b) :
    NextWf (if c then a else b) := by
  split <;> assumption

end

theorem conclude_wf {s : State} (hs : Memory.wf s.mem) (w g : B2) {a : Act} (ha : a.Wf) : NextWf (conclude s w g a) := by
  cases a <;> simp_all [conclude]

theorem control_wf {s : State} (hs : Memory.wf s.mem) {body : State → Act} (hb : (body s).Wf) : NextWf (control s body) :=
  conclude_wf hs 0 0 hb

theorem unboundTrap_wf (s : State) (a : Act) : (unboundTrap s a).Wf := by
  unfold unboundTrap
  split <;> simp

theorem tokened_wf {s : State} (hs : Memory.wf s.mem) (k : Kind) (w g : B2) {body : State → Act} (hb : (body s).Wf) :
    NextWf (tokened s k w g body) := by
  unfold tokened
  split_ifs
  · exact conclude_wf hs w g trivial
  · exact conclude_wf hs w g (unboundTrap_wf s _)
  · exact conclude_wf hs w g hs
  · exact conclude_wf hs w g hb

theorem supervised_wf {s : State} (hs : Memory.wf s.mem) (w g : B2) {body : State → Act} (hb : (body s).Wf) :
    NextWf (supervised s w g body) := by
  unfold supervised
  split_ifs
  · exact conclude_wf hs w g trivial
  · exact conclude_wf hs w g trivial
  · exact tokened_wf hs .wing w g hb

@[simp] theorem badOperand_wf (s : State) : (badOperand s).Wf := trivial

theorem asParty_wf {s : State} (p : PartyId) {f : State → Host.Outcome State Fault Refusal} (hf : NextWf (f (s.setCur p))) :
    NextWf (asParty s p f) := by
  unfold asParty
  split
  next t e => rw [e] at hf; exact hf
  next => trivial
  next => trivial

theorem occurs_wf {s : State} (hs : Memory.wf s.mem) (enabled : Bool) {t : State} (ht : Memory.wf t.mem) :
    NextWf (occurs s enabled t) := by
  simp [occurs, hs, ht]

end Sys2Proof.Machine
end

section
/-! PROOFS. What the shared operations, the memory spaces, tasks and system registers make of memory (O58), file by file of the model. -/

namespace Sys2Proof.Machine

/-! ### Order -/

@[simp] theorem mem_tickClock (s : State) (die : Nat) : (tickClock s die).mem = s.mem := rfl
@[simp] theorem mem_learn (s : State) (die : Nat) (clock : Sparse Nat) : (learn s die clock).mem = s.mem := rfl
@[simp] theorem mem_orderAll (s : State) (p : PartyId) : (orderAll s p).mem = s.mem := rfl
@[simp] theorem mem_learnPublished (s : State) (die part : Nat) (clock : Sparse Nat) : (learnPublished s die part clock).mem = s.mem := rfl
@[simp] theorem mem_wrote (s : State) : (wrote s).mem = s.mem := mem_madeBy s s.cur []
@[simp] theorem mem_mergeRead (s : State) (who : PartyId) (t : Sight) (firm : Nat) (gs : List Nat) :
    (mergeRead s who t firm gs).mem = s.mem := by
  simp [mergeRead, mem_sawBy]
@[simp] theorem mem_firmUp (s : State) (p : PartyId) : (firmUp s p).mem = s.mem := rfl

/-! ### Space -/

@[simp] theorem mem_checkWords (s : State) (die : Nat) (as : List Nat) : SomeMem s (checkWords s die as) := by
  induction as generalizing s with
  | nil => simp [checkWords]
  | cons a as ih =>
    simp only [checkWords]
    split_ifs
    · exact ih s
    · exact ih _
    · simp

@[simp] theorem mem_setKrev (s : State) (p : PartyId) : (setKrev s p).mem = s.mem := rfl
@[simp] theorem mem_setWclosed (s : State) (p : PartyId) : (setWclosed s p).mem = s.mem := rfl
@[simp] theorem mem_countMoved (s : State) (part k n : Nat) : (countMoved s part k n).mem = s.mem := by simp [countMoved]

@[simp] theorem mem_readSeen (s : State) (who : PartyId) (part payer : Nat) (acquires : Bool) (p : Place) (n : Nat) :
    (readSeen s who part payer acquires p n).1.mem = s.mem := by
  unfold readSeen
  split
  · simp
  split
  · rfl
  split
  · rfl
  next t ht => simp [mem_checkWords s _ _ t ht]

@[simp] theorem mem_readPlace (s : State) (who : PartyId) (part : Nat) (acquires : Bool) (p : Place) (n : Nat) :
    (readPlace s who part acquires p n).1.mem = s.mem := by simp [readPlace]

theorem wf_mergeBytes {s : State} (hs : Memory.wf s.mem) (who : PartyId) (part : Nat) (clock : Sparse Nat) (p : Place) (kept : List Nat)
    (bs : List Byte) : SomeWf (mergeBytes s who part clock p kept bs) := by
  intro t ht
  by_cases hb : bs = []
  · subst hb
    cases ht
    exact hs
  · by_cases hr : revokedPlace s p = true
    · simp only [mergeBytes, if_neg hb, if_pos hr] at ht
      cases ht
      exact hs
    · obtain ⟨-, m, hm, hmem⟩ := mergeBytes_some hb (Bool.not_eq_true _ ▸ hr) ht
      exact hmem ▸ wf_writeBytes _ _ (hm hs)

theorem wf_writePlace {s : State} (hs : Memory.wf s.mem) (who : PartyId) (part : Nat) (clock : Sparse Nat) (p : Place) (bs : List Byte) :
    SomeWf (writePlace s who part clock p bs) := wf_mergeBytes (by simp [mem_rememberPlace, hs]) _ _ _ _ _ _

theorem wf_performWrite {s : State} (hs : Memory.wf s.mem) (who : PartyId) (p : Place) (bs : List Byte) :
    SomeWf (performWrite s who p bs) := wf_writePlace (by simp [hs]) _ _ _ _ _

@[simp] theorem wf_zeroFrame {s : State} (hs : Memory.wf s.mem) (die space f num : Nat) : Memory.wf (zeroFrame s die space f num).mem := by
  simp [zeroFrame, wf_clearRange, hs]

/-! ### Operands, flags, integers, control flow -/

@[simp] theorem transfer_wf {s : State} (hs : Memory.wf s.mem) (t : ℤ) : (transfer s t).Wf := by simp [transfer, hs]
@[simp] theorem mem_setGone (s : State) (b : Bool) : (setGone s b).mem = s.mem := rfl
@[simp] theorem arith2_wf {s : State} (hs : Memory.wf s.mem) (d a b : B6) (f : Word → Word → Word) : (arith2 s d a b f).Wf := by
  simp [arith2, hs]
@[simp] theorem arith1_wf {s : State} (hs : Memory.wf s.mem) (d a : B6) (f : Word → Word) : (arith1 s d a f).Wf := by simp [arith1, hs]
@[simp] theorem arith0_wf {s : State} (hs : Memory.wf s.mem) (d : B6) (v : Word) : (arith0 s d v).Wf := by simp [arith0, hs]
@[simp] theorem mem_passBarrier (s : State) (g : Nat) (clock : Sparse Nat) (ms : List (PartyId × PartyState)) :
    (passBarrier s g clock ms).mem = s.mem := by
  induction ms generalizing s with
  | nil => rfl
  | cons m ms ih => simp [passBarrier, ih]

@[simp] theorem mem_checkBarrier (s : State) (space g : Nat) : (checkBarrier s space g).mem = s.mem := by simp [checkBarrier]

@[simp] theorem mem_leaveGroups (s : State) (p : PartyId) (gs : List Nat) : (leaveGroups s p gs).mem = s.mem := by
  induction gs generalizing s with
  | nil => rfl
  | cons g gs ih => simp [leaveGroups, ih]

@[simp] theorem branch_wf {s : State} (hs : Memory.wf s.mem) (a b : B6) (o : BitVec 13) (taken : Word → Word → Bool) :
    (branch s a b o taken).Wf := by simp [branch, hs]
@[simp] theorem startLoop_wf {s : State} (hs : Memory.wf s.mem) (l n body : Nat) : (startLoop s l n body).Wf := by
  simp [startLoop, hs]

/-! ### Tasks -/

/-- The bytes of a row are written in memory (R289). -/
@[simp] theorem wf_rowPut {s : State} (hs : Memory.wf s.mem) (r o len v : Nat) : Memory.wf (rowPut s r o len v).mem :=
  wf_writeBytes _ _ hs
@[simp] theorem mem_rowChecked (s : State) (r o n : Nat) : SomeMem s (rowChecked s r o n) := by simp [rowChecked]
@[simp] theorem mem_eventSeq (s : State) (part r : Nat) : (eventSeq s part r).mem = s.mem := by simp [eventSeq]

@[simp] theorem wf_endClaim {s : State} (hs : Memory.wf s.mem) (r phase : Nat) : Memory.wf (endClaim s r phase).mem := by
  unfold endClaim
  extract_lets p t
  have ht : Memory.wf t.mem := wf_rowPut (wf_rowPut (wf_rowPut hs _ _ _ _) _ _ _ _) _ _ _ _
  split
  · exact ht
  · split <;> simp [ht]

theorem wf_endClaims {s : State} (hs : Memory.wf s.mem) (serial : Nat) (clock : Sparse Nat) : Memory.wf (endClaims s serial clock).mem :=
  wf_foldl (fun t e ht => by simp [ht]) _ hs

@[simp] theorem wf_voidRow {s : State} (hs : Memory.wf s.mem) (r : Nat) : Memory.wf (voidRow s r).mem := by
  unfold voidRow
  split
  · simp [hs]
  · split <;> simp [hs]

theorem wf_voidRows {s : State} (hs : Memory.wf s.mem) (tenant : Nat) (rs : List Nat) : Memory.wf (voidRows s tenant rs).mem := by
  induction rs generalizing s with
  | nil => exact hs
  | cons r rs ih => exact ih (by simp [hs])

@[simp] theorem mem_dropClaims (s : State) (core slot : Nat) : (dropClaims s core slot).mem = s.mem := rfl
@[simp] theorem mem_stopParties (s : State) (core slot : Nat) (ps : List Party) : (stopParties s core slot ps).mem = s.mem := by
  induction ps generalizing s with
  | nil => rfl
  | cons p ps ih => simp [stopParties, ih]

@[simp] theorem mem_dropHeld (s : State) (core slot : Nat) : (dropHeld s core slot).mem = s.mem := by simp [dropHeld]
@[simp] theorem mem_vacate (s : State) (core slot : Nat) : (vacate s core slot).mem = s.mem := by simp [vacate]
@[simp] theorem mem_dropSends (s : State) (core slot : Nat) : (dropSends s core slot).mem = s.mem := by
  unfold dropSends
  split <;> simp

@[simp] theorem mem_leaveWindows (s : State) (serial : Nat) : (leaveWindows s serial).mem = s.mem := rfl

/-- Frames that a Cocoon gives back are rewritten as zero (R385). -/
theorem wf_freeFrames {s : State} (hs : Memory.wf s.mem) (codes : List Nat) : Memory.wf (freeFrames s codes).mem :=
  wf_foldl (fun t e ht => by simp [ht]) _ hs

theorem wf_releaseTask {s : State} (hs : Memory.wf s.mem) (core slot : Nat) (t : Task) : Memory.wf (releaseTask s core slot t).mem := by
  simp [releaseTask, wf_endClaims, wf_freeFrames, hs]

theorem wf_releaseCocoon {s : State} (hs : Memory.wf s.mem) (c : Cocoon) : Memory.wf (releaseCocoon s c).mem := by
  simp [releaseCocoon, wf_endClaims, wf_freeFrames, hs]

@[simp] theorem mem_rekeyFrames (s : State) (old new : Nat) (l : List (Nat × Nat)) : (rekeyFrames s old new l).mem = s.mem := by
  fun_induction rekeyFrames <;> simp_all

@[simp] theorem mem_closeWindow (s : State) (n : Nat) (w : Window) : (closeWindow s n w).mem = s.mem := by simp [closeWindow]
@[simp] theorem mem_haltSlot (s : State) (core slot : Nat) : (haltSlot s core slot).mem = s.mem := by simp [haltSlot]
@[simp] theorem mem_haltPart (s : State) (part : Nat) : (haltPart s part).mem = s.mem := by simp [haltPart]

/-! ### System registers -/

@[simp] theorem mem_stopWings (s : State) (core slot : Nat) : (stopWings s core slot).mem = s.mem :=
  mem_foldl (fun _ _ => State.mem_modParty ..) _ s
@[simp] theorem mem_dismiss (s : State) (p : Nat) : (dismiss s p).mem = s.mem := rfl

theorem wf_beginReset {s : State} (hs : Memory.wf s.mem) (p : Nat) : Memory.wf (beginReset s p).mem := by
  unfold beginReset
  exact wf_foldl (fun t c ht => wf_releaseCocoon ht c) _ (by simp [hs])

theorem wf_writePrst {s : State} (hs : Memory.wf s.mem) (v : Word) : Memory.wf (writePrst s v).mem := by
  unfold writePrst
  dsimp only
  split
  · exact (KeepsRegsAndMem.refuse s 5).mem ▸ hs
  · exact wf_beginReset hs _

/-- Of the writes of system registers PRST alone may change memory, and keeps its form: it frees the frames of Cocoons (R369). -/
theorem wf_writeReg {s : State} (hs : Memory.wf s.mem) (n : Nat) (v : Word) : SomeWf (writeReg s n v) := by
  intro t ht
  by_cases hn : n = 0x218
  · subst hn
    obtain rfl : writePrst s v = t := Option.some.inj ht
    exact wf_writePrst hs v
  · exact (writeReg_keeps hn t ht).mem ▸ hs

end Sys2Proof.Machine
end

section
/-! PROOFS. What wing memory, queues, the scratchpad, rows, objects and budgets make of memory (O58), file by file of the model. -/

namespace Sys2Proof.Machine

/-! ### Wing memory -/

/-- A read that goes on keeps the form of memory if what goes on does. -/
theorem readNow_wf {s : State} (hs : Memory.wf s.mem) (p : Place) (n : Nat) {k : State → List Byte → Act}
    (hk : ∀ t bs, Memory.wf t.mem → (k t bs).Wf) : (readNow s p n k).Wf := by
  have h := mem_readPlace s s.cur s.myPart false p n
  unfold readNow
  split
  next t bs ht => exact hk t bs (by rw [ht] at h; exact h ▸ hs)
  next t ht => rw [ht] at h; exact (congrArg Memory.wf h).trans hs

@[simp] theorem mem_noteRead (s : State) (a n : Nat) : (noteRead s a n).mem = s.mem := by
  unfold noteRead
  split <;> simp

@[simp] theorem mem_leaveLate (s : State) (p : Place) (bs : List Byte) (fenced : Bool) : (leaveLate s p bs fenced).mem = s.mem := rfl
@[simp] theorem mem_withLag (s : State) (p : PartyId) (n : Nat) : (withLag s p n).mem = s.mem := by simp [withLag]
@[simp] theorem mem_acquire (s : State) (t : Nat) : (acquire s t).mem = s.mem := rfl
@[simp] theorem mem_released (s : State) (p : PartyId) : (released s p).mem = s.mem := by simp [released]
@[simp] theorem noPlace_wf {s : State} (hs : Memory.wf s.mem) (va : Word) : (noPlace s va).Wf := by simp [noPlace, hs]

theorem loadPlace_wf {s : State} (hs : Memory.wf s.mem) (p : Place) (d : B6) (size : Nat) (signed consumes acquires : Bool) :
    (loadPlace s p d size signed consumes acquires).Wf := by
  have h := mem_readPlace s s.cur s.myPart acquires p size
  unfold loadPlace
  split
  next t ht => rw [ht] at h; exact (congrArg Memory.wf h).trans hs
  next t bs ht =>
    rw [ht] at h
    simp [show t.mem = s.mem from h, hs]

@[simp] theorem load_wf {s : State} (hs : Memory.wf s.mem) (w g : B2) (d a : B6) (f : BitVec 9) (size : Nat)
    (signed consumes acquires : Bool) : (load s w g d a f size signed consumes acquires).Wf := by
  unfold load
  dsimp only
  split
  · trivial
  split
  · trivial
  split
  · refine .wait_or hs ?_
    split
    · exact hs
    · simp [hs]
    · split
      · exact .wait_or hs (loadPlace_wf (by simp [hs]) _ _ _ _ _ _)
      · simp [hs]
  · simp [hs]
  · simp [hs]

@[simp] theorem wf_storeNow {s : State} (hs : Memory.wf s.mem) (p : Place) (bs : List Byte) : Memory.wf (storeNow s p bs).mem := by
  unfold storeNow
  split
  next t ht => exact wf_performWrite hs _ _ _ t ht
  next => simp [hs]

@[simp] theorem mem_sendWrite (s : State) (p : Place) (bs : List Byte) (release : Bool) : (sendWrite s p bs release).mem = s.mem := by
  simp [sendWrite]
@[simp] theorem storePlace_wf {s : State} (hs : Memory.wf s.mem) (p : Place) (bs : List Byte) (releases : Bool) :
    (storePlace s p bs releases).Wf := by simp [storePlace, hs]
@[simp] theorem store_wf {s : State} (hs : Memory.wf s.mem) (d a : B6) (f : BitVec 9) (size : Nat) (releases : Bool) :
    (store s d a f size releases).Wf := by
  unfold store
  dsimp only
  repeat' split
  all_goals simp [hs]

@[simp] theorem mem_ordered (s : State) (acquires releases : Bool) : (ordered s acquires releases).mem = s.mem := by
  simp [ordered]
@[simp] theorem atomic_wf {s : State} (hs : Memory.wf s.mem) (d a : B6) (o : B2) (f : Word → Option Word) : (atomic s d a o f).Wf := by
  unfold atomic
  dsimp only
  split
  · trivial
  split
  · trivial
  · refine .ite trivial <| .ite trivial <| .wait_or hs <| readNow_wf hs _ _ fun t bs ht => ?_
    split
    next u hu =>
      split at hu
      · obtain rfl := Option.some.inj hu; simp [ht]
      · simp [wf_performWrite ht _ _ _ u hu]
    next => exact ht
  · split
    · trivial
    · split <;> simp [hs]

@[simp] theorem fence_wf {s : State} (hs : Memory.wf s.mem) (sets scope : Nat) : (fence s sets scope).Wf := by simp [fence, hs]

@[simp] theorem mwait_wf {s : State} (hs : Memory.wf s.mem) (d a b : B6) : (mwait s d a b).Wf := by
  unfold mwait
  dsimp only
  split
  · trivial
  split
  · trivial
  split
  · trivial
  split
  · refine .wait_or hs (readNow_wf hs _ _ fun t bs ht => ?_)
    split_ifs <;> simp [ht]
  · split <;> simp [hs]
  · simp [hs]

theorem execMwait_wf {s : State} (hs : Memory.wf s.mem) (w g : B2) (d a b : B6) : NextWf (execMwait w g d a b s) :=
  tokened_wf hs _ _ _ (mwait_wf hs _ _ _)

theorem execMwaitWake_wf {s : State} (hs : Memory.wf s.mem) (p : PartyId) : NextWf (execMwaitWake p s) := by
  unfold execMwaitWake
  split
  next w g d a b _ _ =>
    have h : NextWf (asParty (s.modParty p fun x => { x with wait := .no }) p (execMwait w g d a b)) :=
      asParty_wf p (execMwait_wf (s := (s.modParty p _).setCur p) hs _ _ _ _ _)
    split
    · exact hs
    split
    next t ht =>
      rw [ht] at h
      split
      · exact h
      · exact hs
    next => exact h
  · exact hs

theorem wf_applyFlight {s : State} (hs : Memory.wf s.mem) (f : Flight) : Memory.wf (applyFlight s f).mem := by
  unfold applyFlight
  split
  next t ht =>
    have h := wf_writePlace hs _ _ _ _ _ t ht
    split <;> simp [h]
  next => split <;> simp [hs]

theorem execRemoteWriteArrival_wf {s : State} (hs : Memory.wf s.mem) (k : Nat) : NextWf (execRemoteWriteArrival k s) := by
  unfold execRemoteWriteArrival
  split
  · dsimp only
    split_ifs <;> simp [hs, wf_applyFlight]
  · exact hs

theorem execLinkFailure_wf {s : State} (hs : Memory.wf s.mem) (k : Nat) : NextWf (execLinkFailure k s) := by
  unfold execLinkFailure
  split
  · split_ifs <;> simp [hs, wf_applyFlight]
  · exact hs

theorem execRemoteLoadArrival_wf {s : State} (hs : Memory.wf s.mem) (k : Nat) : NextWf (execRemoteLoadArrival k s) := by
  unfold execRemoteLoadArrival
  dsimp only
  split
  next q _ =>
    split
    · exact hs
    split
    · exact hs
    have h : NextWf (asParty (withLag { s with loads := s.loads.eraseIdx k } q.agent q.lag) q.agent fun s =>
        conclude s q.w q.g (loadPlace s (placeOf q.phys q.home q.slot) q.d q.size q.signed q.consume q.acquires)) := by
      have ht : Memory.wf ((withLag { s with loads := s.loads.eraseIdx k } q.agent q.lag).setCur q.agent).mem := by simp [hs]
      exact asParty_wf _ (conclude_wf ht _ _ (loadPlace_wf ht _ _ _ _ _ _))
    split
    next t ht => rw [ht] at h; exact (congrArg Memory.wf (mem_withLag t q.agent 0)).trans h
    next => exact h
  next => exact hs

/-! ### Queues -/

@[simp] theorem mem_pushAll (s : State) (i : Item) (qs : List Nat) : (pushAll s i qs).mem = s.mem := (pushAll_spec i qs s).2
@[simp] theorem mem_retireWings (s : State) (w g : B2) (l : List PartyId) : (retireWings s w g l).mem = s.mem := by
  fun_induction retireWings <;> simp_all
@[simp] theorem mem_placeWings (s : State) (base : Nat) : (placeWings s base).mem = s.mem :=
  mem_foldl (fun _ _ => by rfl) _ _
@[simp] theorem mem_trapWings (s : State) (l : List PartyId) : (trapWings s l).mem = s.mem := by
  fun_induction trapWings <;> simp_all
@[simp] theorem mem_stepSlot (clock : Sparse Nat) (s : State) (core slot : Nat) : (stepSlot clock s core slot).mem = s.mem := by
  unfold stepSlot
  dsimp only
  rw [mem_eventAll, mem_foldl fun _ _ => by rfl]
  rfl
@[simp] theorem mem_retireMark (s : State) (p : PartyId) (n : Nat) : (retireMark s p n).mem = s.mem := (retireMark_spec s p n).2.2
@[simp] theorem mem_retireNotify (s : State) (p : PartyId) : (retireNotify s p).mem = s.mem := (retireNotify_spec s p).2.2

theorem execWaitev_wf {s : State} (hs : Memory.wf s.mem) (d a : B6) (m : BitVec 5) : NextWf (execWaitev d a m s) :=
  control_wf hs (by simp [hs])

/-! ### The scratchpad -/

@[simp] theorem mem_readScratch (s : State) (core slot o n : Nat) : SomeFstMem s (readScratch s core slot o n) := by
  unfold readScratch
  dsimp only
  split
  next t ht => simp [mem_checkWords s _ _ t ht, mem_sawBy]
  next => simp

theorem wf_writeCellsNow {s : State} (hs : Memory.wf s.mem) (core size : Nat) (cells : List (Nat × Byte)) :
    SomeWf (writeCellsNow s core size cells) := by
  unfold writeCellsNow
  dsimp only
  split
  next t ht => simp [mem_checkWords s _ _ t ht, mem_remember, wf_writeAt, hs]
  next => simp

theorem wf_putCells {s : State} (hs : Memory.wf s.mem) (core size : Nat) (cells : List (Nat × Byte)) :
    SomeWf (putCells s core size cells) := by
  unfold putCells
  split
  · exact wf_writeCellsNow hs _ _ _
  · exact (wf_writeCellsNow hs _ _ _).map fun t ht => ht

theorem wf_writeScratch {s : State} (hs : Memory.wf s.mem) (core slot o : Nat) (bs : List Byte) :
    SomeWf (writeScratch s core slot o bs) := wf_putCells hs _ _ _

theorem withScratch_wf {s : State} (hs : Memory.wf s.mem) (o n : Nat) {k : State → List Byte → Act}
    (hk : ∀ t bs, Memory.wf t.mem → (k t bs).Wf) : (withScratch s o n k).Wf := by
  unfold withScratch
  split
  · exact hs
  split
  next t bs ht => exact hk t bs (mem_readScratch s _ _ _ _ _ ht ▸ hs)
  next => exact hs

theorem thenWrite_wf {s : State} (hs : Memory.wf s.mem) (o : Nat) (bs : List Byte) {k : State → Act}
    (hk : ∀ t, Memory.wf t.mem → (k t).Wf) : (thenWrite s o bs k).Wf := by
  unfold thenWrite
  split
  next t ht => exact hk t (wf_writeScratch hs _ _ _ _ t ht)
  next => exact hs

theorem wf_performLate {s : State} (hs : Memory.wf s.mem) (p : PartyId) (k : Nat) : Memory.wf (performLate s p k).mem := by
  unfold performLate
  dsimp only
  split
  · exact hs
  split
  · exact hs
  rw [State.mem_setCur, mem_foldl fun _ _ => by rfl]
  simp only [State.mem_ite, mem_settle, ite_self]
  split
  · exact (wf_writeCellsNow (by exact hs) _ _ _).getD (by simp [hs])
  · split <;> simp [hs]

end Sys2Proof.Machine
end

section
/-! PROOFS. What rows, objects, windows, budgets and launches make of memory (O58), file by file of the model. -/

namespace Sys2Proof.Machine

/-! ### Rows and the suffix memory -/

/-- The walk of a SEQCLM writes the rows that it claims or makes LATE (R293, R294). -/
theorem wf_claimRows (gated : Bool) (f n part : Nat) (rs : List Nat) {s : State} (hs : Memory.wf s.mem) (got : List Nat) (late cur : Nat) :
    Memory.wf (claimRows gated f n part rs s got late cur).1.mem := by
  induction rs generalizing s got late cur with
  | nil => exact hs
  | cons r rs ih =>
    unfold claimRows
    split_ifs
    · exact hs
    · exact ih (by simp [hs]) _ _ _
    · exact ih (by simp [hs]) _ _ _
    · exact ih hs _ _ _
    · exact ih hs _ _ _

@[simp] theorem mem_checkRows (gated : Bool) (f : Nat) (rs : List Nat) (s : State) : SomeMem s (checkRows gated f rs s) := by
  induction rs generalizing s with
  | nil => simp [checkRows]
  | cons r rs ih =>
    unfold checkRows
    split
    next t ht => exact (ih t).trans (mem_checkWords s _ _ t ht)
    next => simp

theorem execSeqclm_wf {s : State} (hs : Memory.wf s.mem) (w g : B2) (d a b : B6) : NextWf (execSeqclm w g d a b s) := by
  refine tokened_wf hs _ _ _ ?_
  dsimp only
  refine .ite trivial <| .ite trivial <| .ite trivial <| .wait_or hs ?_
  split
  next => exact hs
  next t ht =>
    have h : t.mem = s.mem := by
      split at ht
      · cases ht; rfl
      · exact mem_checkRows _ _ _ _ t ht
    have hc : Memory.wf (learn t (myDie t) (allKnown t)).mem := by simp [h, hs]
    generalize hr : claimRows _ _ _ _ _ (learn t (myDie t) (allKnown t)) _ _ _ = r
    have hw : Memory.wf r.1.mem := hr ▸ wf_claimRows _ _ _ _ _ hc _ _ _
    exact thenWrite_wf (by simp [hw]) _ _ fun u hu => by simp [hu]

theorem execSeqadv_wf {s : State} (hs : Memory.wf s.mem) (w g : B2) (d a b : B6) : NextWf (execSeqadv w g d a b s) := by
  refine tokened_wf hs _ _ _ ?_
  dsimp only
  refine .ite trivial <| .wait_or hs ?_
  split
  next => exact hs
  next t ht =>
    have h : Memory.wf t.mem := mem_rowChecked s _ _ _ t ht ▸ hs
    split
    · simp [rowPut, wf_writeBytes, wf_clearRange, h]
    · refine .ite ?_ trivial
      simp [h]

theorem execSxqry_wf {s : State} (hs : Memory.wf s.mem) (w g : B2) (d a b : B6) : NextWf (execSxqry w g d a b s) := by
  refine tokened_wf hs _ _ _ ?_
  dsimp only
  split
  · trivial
  · exact .ite trivial <| .ite trivial <| .wait_or hs <| .ite hs <| thenWrite_wf (by exact hs) _ _ fun u hu => by simp [hu]

/-! ### Objects and windows -/

@[simp] theorem mem_setObj (s : State) (part id : Nat) (o : Obj) : (setObj s part id o).mem = s.mem := rfl
@[simp] theorem mem_writeLife (s : State) (die part id : Nat) (o : Obj) : (writeLife s die part id o).mem = s.mem := by
  simp [writeLife]
@[simp] theorem mem_ownLife (s : State) (h : Word) (o : Obj) : (ownLife s h o).mem = s.mem := by simp [ownLife]
@[simp] theorem mem_readLife (s : State) (h : Word) : (readLife s h).mem = s.mem := by
  unfold readLife
  split <;> simp

@[simp] theorem mem_destroy (s : State) (die part id : Nat) (o : Obj) : (destroy s die part id o).mem = s.mem := by simp [destroy]
@[simp] theorem mem_destroyVictim (s : State) (v : Nat × Nat × Obj) : (destroyVictim s v).mem = s.mem := by simp [destroyVictim]
@[simp] theorem mem_reclaimOne (s : State) (part : Nat) (burst : Bool) : SomeMem s (reclaimOne s part burst) := by
  unfold reclaimOne
  cases victim s part burst <;> simp

/-- The frames of a new object are rewritten as zero (R323). -/
@[simp] theorem wf_makeObj {s : State} (hs : Memory.wf s.mem) (part id size space slot prio : Nat) (fs : List Nat) :
    Memory.wf (makeObj s part id size space slot prio fs).mem := by
  rw [makeObj, mem_setObj]
  exact wf_foldl (fun t e ht => wf_zeroFrame ht _ _ _ _) _ (wf_foldl (fun t e ht => wf_logDirty _ (by exact ht)) _ hs)

theorem execHnew_wf {s : State} (hs : Memory.wf s.mem) (w g : B2) (d a b : B6) : NextWf (execHnew w g d a b s) := by
  have hd : s.draw.2.mem = s.mem := rfl
  refine tokened_wf hs _ _ _ ?_
  dsimp only
  split
  · trivial
  split
  · trivial
  split
  · simp [hs]
  split
  next fs _ => split <;> simp [hs, hd]
  next =>
    split
    · exact hs
    split
    next t ht => exact (congrArg Memory.wf (mem_reclaimOne s _ _ t ht)).trans hs
    next => split <;> simp [hs]

theorem execObjectDestruction_wf {s : State} (hs : Memory.wf s.mem) (part id : Nat) : NextWf (execObjectDestruction part id s) := by
  unfold execObjectDestruction
  split
  · split
    · exact wf_foldl (fun t e ht => wf_zeroFrame (by exact ht) _ _ _ _) _ hs
    · exact hs
  · exact hs

@[simp] theorem mem_openWindow (s : State) (n slot : Nat) (w : Window) : (openWindow s n slot w).mem = s.mem := by
  unfold openWindow
  extract_lets s1 s2 s3
  have h2 : s2.mem = s.mem := by simp [s2, s1]
  exact (mem_foldl (fun t i => by split <;> simp) _ _).trans h2

theorem execWinopen_wf {s : State} (hs : Memory.wf s.mem) (w g : B2) (d a : B6) : NextWf (execWinopen w g d a s) := by
  refine tokened_wf hs _ _ _ ?_
  dsimp only
  split
  · trivial
  · refine withScratch_wf hs _ _ fun t r ht => ?_
    have hd : t.draw.2.mem = t.mem := rfl
    split
    · trivial
    split
    · trivial
    split
    · split <;> simp [ht, hd]
    · simp [ht]

/-! ### Budgets -/

theorem execSwpt_wf {s : State} (hs : Memory.wf s.mem) (k : BitVec 8) (v : BitVec 3) : NextWf (execSwpt k v s) := by
  unfold execSwpt
  split
  · exact conclude_wf hs 0 0 trivial
  · refine control_wf hs ?_
    dsimp only
    split
    · trivial
    split
    · exact hs
    · split <;> simp [hs]

@[simp] theorem mem_grantGates (s : State) : (grantGates s).mem = s.mem := by simp [grantGates]
@[simp] theorem mem_stepDomain (won : List Nat) (s : State) (d : Nat) : (stepDomain won s d).mem = s.mem := by simp [stepDomain]
@[simp] theorem mem_boostHamper (s : State) (h : Nat) : (boostHamper s h).mem = s.mem := by simp [boostHamper]
@[simp] theorem mem_refillPool (s : State) (h : Nat) : (refillPool s h).mem = s.mem := rfl
@[simp] theorem mem_countOut (s : State) : (countOut s).mem = s.mem := by simp [countOut]

theorem execBoost_wf {s : State} (hs : Memory.wf s.mem) (w g : B2) (d a : B6) : NextWf (execBoost w g d a s) := by
  have hd : s.draw.2.mem = s.mem := rfl
  refine tokened_wf hs _ _ _ ?_
  dsimp only
  split
  · trivial
  · simp [hs, hd]

/-! ### Launches -/

@[simp] theorem mem_quietly (s t : State) : (quietly s t).mem = t.mem := rfl

@[simp] theorem mem_partBytes (s : State) (part : Nat) (rows : Bool) (fuel va n : Nat) : GotMem s (partBytes s part rows fuel va n) := by
  induction fuel generalizing s va n with
  | zero => simp [partBytes]
  | succ fuel ih =>
    unfold partBytes
    dsimp only
    split
    · simp
    split
    · simp
    split
    next p _ =>
      split
      · simp
      have h := mem_readSeen s thePart part (if rows then 64 else part) false p (min n (65536 - va % 65536))
      split
      next t bs ht =>
        rw [ht] at h
        split
        next u cs hu => simpa using (ih t _ _ _ hu).trans h
        next => simp
      next => simp
    next =>
      split
      next u cs hu => simpa using ih s _ _ _ hu
      next => simp
    next => simp

theorem mem_partRead (s : State) (part va n : Nat) : GotMem s (partRead s part va n) := by
  unfold partRead
  split
  next t bs ht => simpa using mem_partBytes s _ _ _ _ _ _ ht
  next => simp

theorem wf_partWrite {s : State} (hs : Memory.wf s.mem) (part va : Nat) (clock : Sparse Nat) (bs : List Byte) :
    SomeWf (partWrite s part va clock bs) := by
  unfold partWrite
  split
  · simp
  split
  next p _ =>
    split
    · simp
    · exact (wf_writePlace (by simp [hs]) _ _ _ _ _).map fun t ht => ht
  next => simp [hs]
  next => simp

theorem wf_completeRecord {s : State} (hs : Memory.wf s.mem) (p q : Nat) (index tag : BitVec 32) (status cause tasks : Nat) :
    Memory.wf (completeRecord s p q index tag status cause tasks).mem := by
  unfold completeRecord
  dsimp only
  rw [mem_signalHost]
  split
  next t ht => exact wf_partWrite hs _ _ _ _ t ht
  next => exact hs

theorem wf_cancelRecords {s : State} (hs : Memory.wf s.mem) (p q status : Nat) : Memory.wf (cancelRecords s p q status).mem :=
  wf_foldl (s := s.setQueue p q _) (fun _ _ ht => wf_completeRecord ht _ _ _ _ _ _ _) _ hs

theorem wf_closeRecords {s : State} (hs : Memory.wf s.mem) (p q : Nat) : Memory.wf (closeRecords s p q).mem :=
  wf_foldl (s := s.setQueue p q _) (fun _ _ ht => wf_completeRecord ht _ _ _ _ _ _ _) _ hs

theorem wf_endHead {s : State} (hs : Memory.wf s.mem) (p q status cause : Nat) : Memory.wf (endHead s p q status cause).mem := by
  unfold endHead
  split
  · exact wf_closeRecords (wf_completeRecord (s := s.modQueue p q _) hs _ _ _ _ _ _ _) _ _
  · exact hs

theorem wf_checkLaunch {s : State} (hs : Memory.wf s.mem) (p q : Nat) : Memory.wf (checkLaunch s p q).mem := by
  unfold checkLaunch
  split
  · split
    · split <;> exact wf_endHead hs _ _ _ _
    · exact hs
  · exact hs

theorem wf_taskEnded {s : State} (hs : Memory.wf s.mem) (t : Task) (cause : Option Nat) : Memory.wf (taskEnded s t cause).mem := by
  unfold taskEnded
  dsimp only
  split
  · split
    · exact hs
    · exact wf_checkLaunch (s := s.setQueue _ _ _) hs _ _
  · exact hs

/-- A section's code is laid in an instruction memory (R261). -/
@[simp] theorem wf_layCode {s : State} (hs : Memory.wf s.mem) (a n o : Nat) (code : List Byte) : Memory.wf (layCode s a n o code).mem :=
  wf_writeBytes _ _ (wf_clearRange _ _ hs)

@[simp] theorem wf_loadSection {s : State} (hs : Memory.wf s.mem) (core slot k size keep : Nat) (code : List Byte) :
    Memory.wf (loadSection s core slot k size keep code).mem := by simp [loadSection, hs]

theorem wf_loadSections {s u : State} (hs : Memory.wf s.mem) {core slot : Nat} {t : Task} {ks : List Nat}
    (h : loadSections core slot t ks s = .ok u) : Memory.wf u.mem := by
  induction ks generalizing s with
  | nil => rw [loadSections] at h; cases h; exact hs
  | cons k ks ih =>
    rw [loadSections] at h
    split at h
    next v code hv => exact ih (wf_loadSection (mem_partRead s _ _ _ _ hv ▸ hs) _ _ _ _ _ _) h
    next => cases h

@[simp] theorem mem_clearParties (s : State) (core slot : Nat) : (clearParties s core slot).mem = s.mem := rfl

theorem wf_startTask {s : State} (hs : Memory.wf s.mem) (core slot : Nat) (t : Task) : Memory.wf (startTask s core slot t).mem := by
  unfold startTask
  extract_lets js alone s1 s2 s3 s4
  have h1 : s1.mem = s.mem := mem_foldl (fun _ _ => State.mem_setParty ..) _ _
  have h2 : s2.mem = s1.mem := mem_foldl (fun _ _ => mem_orderAll _ _) _ _
  have h4 : Memory.wf s4.mem := by simp only [s4, s3, State.mem_modCore, h2, h1, hs]
  clear_value s4
  split
  · exact h4
  next s5 h =>
    have h5 := wf_loadSections h4 h
    split
    · exact h5
    next s6 image h =>
      have h6 : Memory.wf s6.mem := (congrArg Memory.wf (mem_partRead s5 _ _ _ _ h)).trans h5
      split
      next s7 h => exact wf_writeScratch h6 _ _ _ _ s7 h
      next => exact h6

/-- The frames of a Cocoon count as written (R285, R371). -/
theorem wf_cocoonWritten {s : State} (hs : Memory.wf s.mem) (parts : List (Nat × Nat)) : Memory.wf (cocoonWritten s parts).mem :=
  wf_foldl (fun _ _ ht => wf_logDirty _ ht) _ hs

@[simp] theorem mem_framesChecked (s : State) (es : List (Nat × Nat)) : SomeMem s (framesChecked s es) := by
  induction es generalizing s with
  | nil => simp [framesChecked]
  | cons e es ih =>
    unfold framesChecked
    split
    next t ht => exact (ih t).trans (mem_checkWords s _ _ t ht)
    next => simp

theorem wf_saveTask {s : State} (hs : Memory.wf s.mem) (core slot mate : Nat) (parked : Bool) :
    SomeWf (saveTask s core slot mate parked) := by
  unfold saveTask
  split
  · simp [hs]
  next t _ =>
    extract_lets x base acc mset flips pops
    split
    · simp
    split
    · simp
    next s0 h0 =>
      extract_lets s1 c trellis accum fifos vin k s2 s3 s4
      have hs0 : Memory.wf s0.mem := mem_checkWords s _ _ s0 h0 ▸ hs
      have h1 : Memory.wf s1.mem := wf_cocoonWritten hs0 _
      simp [s4, s3, s2, h1]

@[simp] theorem mem_layParties (s : State) (core slot : Nat) (m : Sparse PartyState) : (layParties s core slot m).mem = s.mem := by
  induction m generalizing s with
  | nil => rfl
  | cons e m ih => exact ih _

@[simp] theorem mem_forgetCore (s : State) (core : Nat) : (forgetCore s core).mem = s.mem := by simp [forgetCore]

/-- A Cocoon's scratchpad and accumulators are written back (R364, R365). -/
theorem wf_restoreTask {s : State} (hs : Memory.wf s.mem) (core slot : Nat) (k : Cocoon) : SomeWf (restoreTask s core slot k) := by
  unfold restoreTask
  extract_lets t mset base acc
  split
  · simp
  next v hv =>
    extract_lets s0 s1 m1 m2 gone s2 s3 s4 s5
    have h1 : Memory.wf s1.mem := mem_framesChecked s _ v hv ▸ hs
    have hm1 : Memory.wf m1 := wf_writeCells _ _ (wf_clearRange _ _ h1)
    have hm2 : Memory.wf m2 := by simp [m2, hm1, wf_writeCells, wf_clearRange]
    have h2 : s2.mem = m2 := mem_forgetCore _ _
    have h3 : s3.mem = s2.mem := (mem_foldl (fun _ _ => mem_orderPoint _ _) _ _).trans (by simp)
    have h5 : Memory.wf s5.mem := by simp only [s5, s4, State.mem_modCore, State.mem_setCtx, h3, h2, hm2]
    split
    next s6 h6 => exact someWf_some.2 (wf_loadSections h5 h6)
    next => simp
    next => simpa using h5

end Sys2Proof.Machine
end

section
/-! PROOFS. What saved contexts, recovery, the scheduler and the host link make of memory (O58), file by file of the model. -/

namespace Sys2Proof.Machine

/-! ### Saved contexts -/

@[simp] theorem mem_notice (s : State) (die serial core slot part cause : Nat) (tval : Word) :
    (notice s die serial core slot part cause tval).mem = s.mem := by simp [notice]

theorem wf_endSaved {s : State} (hs : Memory.wf s.mem) (die cause : Nat) (tval : Word) (cs : List Cocoon) :
    Memory.wf (endSaved s die cause tval cs).mem := by
  induction cs generalizing s with
  | nil => exact hs
  | cons c cs ih => exact ih (wf_taskEnded (by simp [wf_releaseCocoon hs]) _ _)

theorem wf_endSerial {s : State} (hs : Memory.wf s.mem) (die core serial cause : Nat) :
    Memory.wf (endSerial s die core serial cause).mem := by
  unfold endSerial
  split
  · simp [hs]
  · split
    · exact wf_endSaved hs _ _ _ _
    · exact hs

theorem wf_loseContext {s : State} (hs : Memory.wf s.mem) (e : Nat × Nat) (t : Task) : Memory.wf (loseContext s e t).mem := by
  unfold loseContext
  extract_lets s1
  have h1 : Memory.wf s1.mem := by simp [s1, hs]
  split
  · exact h1
  · exact wf_beginReset h1 _

/-! ### Recovery -/

@[simp] theorem mem_enterHandler (s : State) (die : Nat) (r : Record) (rest : List Record) : (enterHandler s die r rest).mem = s.mem := by
  simp [enterHandler]

@[simp] theorem mem_takeRecord (s : State) (die : Nat) : (takeRecord s die).mem = s.mem := by
  unfold takeRecord
  split <;> simp

@[simp] theorem mem_resumeRecord (s : State) (r : Record) (act : Nat) : (resumeRecord s r act).mem = s.mem := by
  unfold resumeRecord
  dsimp only
  split
  · rfl
  split
  · simp
  split <;> simp

theorem wf_endTasksOf {s : State} (hs : Memory.wf s.mem) (die core launch cause : Nat) :
    Memory.wf (endTasksOf s die core launch cause).mem := wf_foldl (fun _ _ ht => wf_endSerial ht _ _ _ _) _ hs

theorem leaveHandler_wf {s : State} (hs : Memory.wf s.mem) (die : Nat) (d : B6) (own : Bool) : (leaveHandler s die d own).Wf := by
  simp [leaveHandler, hs]

theorem eret_wf {s : State} (hs : Memory.wf s.mem) (d a : B6) : (eret s d a).Wf := by
  unfold eret
  extract_lets die v act code bad s1
  split
  · trivial
  split
  · trivial
  split
  · trivial
  have h1 : Memory.wf s1.mem := by simp [s1, hs]
  clear_value s1
  split
  · exact leaveHandler_wf h1 _ _ _
  split
  · split
    · split
      · trivial
      · refine leaveHandler_wf ?_ _ _ _
        split
        · exact h1
        · exact wf_endSerial h1 _ _ _ _
    · split
      · trivial
      · exact leaveHandler_wf (by simp [h1]) _ _ _
  split
  · split
    · refine leaveHandler_wf ?_ _ _ _
      split
      · exact h1
      · exact wf_endTasksOf h1 _ _ _ _
    · exact leaveHandler_wf (by simp [h1]) _ _ _
  · exact leaveHandler_wf h1 _ _ _

theorem wf_startSupervisor {s : State} (hs : Memory.wf s.mem) (die : Nat) (i : Image) : Memory.wf (startSupervisor s die i).mem := by
  unfold startSupervisor
  extract_lets core secs js s1 left s2 s3
  have h1 : Memory.wf s1.mem := wf_foldl (fun _ _ ht => wf_loadSection ht _ _ _ _ _ _) _ hs
  have h2 : s2.mem = s1.mem := (mem_foldl (fun _ _ => mem_checkBarrier _ _ _) _ _).trans (by simp)
  have h3 : s3.mem = s2.mem := mem_foldl (fun _ _ => State.mem_setParty ..) _ _
  simp only [State.mem_modDie, h3, h2, h1]

theorem execSupervisorRestart_wf {s : State} (hs : Memory.wf s.mem) (die : Nat) : NextWf (execSupervisorRestart die s) := by
  unfold execSupervisorRestart
  extract_lets d all recs s1 s2
  have h2 : Memory.wf s2.mem := by
    refine wf_foldl (s := s1) (fun t r ht => ?_) recs hs
    split
    · split
      · exact ht
      · exact wf_endSerial ht _ _ _ _
    · exact ht
  clear_value s2
  split
  · exact occurs_wf hs _ (wf_startSupervisor h2 _ _)
  · exact hs

theorem wf_endWithError {s : State} (hs : Memory.wf s.mem) (core slot cause : Nat) (tval : Word) :
    Memory.wf (endWithError s core slot cause tval).mem := by
  unfold endWithError
  split
  · exact wf_taskEnded (by simp [wf_releaseTask hs]) _ _
  · exact hs

@[simp] theorem mem_emptyColumn (s : State) (core : Nat) : (emptyColumn s core).mem = s.mem := rfl

theorem execContextError_wf {s : State} (hs : Memory.wf s.mem) (core slot : Nat) : NextWf (execContextError core slot s) := by
  unfold execContextError
  split
  next cause tval t _ _ =>
    extract_lets mate done s1 s2
    have h1 : Memory.wf s1.mem := wf_endWithError hs _ _ _ _
    have h2 : Memory.wf s2.mem := by
      unfold s2
      cases mate
      · exact h1
      · exact wf_endWithError h1 _ _ _ _
    clear_value s2
    exact occurs_wf hs _ (by simp [h2])
  next => exact hs

theorem wf_swapPhase {s : State} (hs : Memory.wf s.mem) (n : Nat) : Memory.wf (swapPhase s n).mem := by
  unfold swapPhase
  extract_lets core slot s1 s2 c flags bound trellis fifos vin k s3
  have h2 : Memory.wf s2.mem :=
    (congrArg Memory.wf ((mem_foldl (fun _ _ => State.mem_modParty ..) _ _).trans (State.mem_modSh ..))).trans hs
  have h3 : Memory.wf s3.mem := by
    unfold s3
    split
    · exact wf_cocoonWritten h2 _
    · exact h2
  rw [State.mem_modMyCtx, h3]

theorem phswap_wf {s : State} (hs : Memory.wf s.mem) (n : Nat) (g : B2) : (phswap s n g).Wf := by
  unfold phswap
  split
  · exact hs
  split
  · trivial
  extract_lets t there
  have ht : Memory.wf t.mem := by simp [t, hs]
  clear_value t
  refine .wait_or ht ?_
  split
  · simp [wf_swapPhase ht]
  · exact ht

@[simp] theorem mem_haltSlots (s : State) (es : List (Nat × Nat)) : (haltSlots s es).mem = s.mem := by simp [haltSlots]

theorem wf_saveSlots {s : State} (hs : Memory.wf s.mem) (mate : Nat × Nat → Nat) (park : Nat × Nat → Bool) (es : List (Nat × Nat)) :
    Memory.wf (saveSlots s mate park es).1.mem := by
  induction es generalizing s with
  | nil => exact hs
  | cons e es ih =>
    unfold saveSlots
    split
    next t ht => exact ih (wf_saveTask hs _ _ _ _ t ht)
    next => exact hs

@[simp] theorem mem_setParked (s : State) (on : Bool) (c : Cocoon) : (setParked s on c).mem = s.mem := rfl

theorem ctxsv_wf {s : State} (hs : Memory.wf s.mem) (d a : B6) : (ctxsv s d a).Wf := by
  unfold ctxsv
  extract_lets id serial fate
  have hf : ∀ t n, Memory.wf t.mem → (fate t n).Wf := fun t n ht => by simp [fate, ht]
  split
  · exact hf _ _ hs
  split
  next core slot _ _ =>
    extract_lets es s1 mates
    have h1 : Memory.wf s1.mem := (congrArg Memory.wf (mem_haltSlots _ _)).trans hs
    split
    · exact hf _ _ hs
    split
    · have h := wf_saveSlots h1 (mateSerial s) (fun e => mates.contains e) es
      split
      next s2 h2 => rw [h2] at h; exact hf _ _ h
      next s2 e u h2 => rw [h2] at h; exact hf _ _ (wf_loseContext h _ _)
    · exact h1
  next =>
    split
    · split_ifs
      · exact hf _ _ hs
      · exact hf _ _ hs
      · exact hf _ _ hs
    · exact hf _ _ hs

theorem wf_restoreAt {s u : State} (hs : Memory.wf s.mem) {core : Nat} {c : Cocoon} (h : restoreAt s core c = some (.ok u)) :
    Memory.wf u.mem := by
  revert h
  unfold restoreAt
  split
  · split
    · intro h
      replace h := Option.some.inj h
      split at h
      next t ht =>
        cases h
        exact wf_restoreTask hs _ _ _ t ht
      next => cases h
    · rintro ⟨⟩
  split
  · rintro ⟨⟩
  split
  next lo hi hlohi =>
    extract_lets up ok place
    have hplace : ∀ x at_ r, (∀ t, r = .ok t → Memory.wf t.mem) → ∀ t, place x at_ r = .ok t → Memory.wf t.mem := by
      intro x at_ r hr t
      cases x with
      | none => exact hr t
      | some k =>
        cases r with
        | error e => exact hr t
        | ok v =>
          dsimp only [place]
          split
          · split
            next w hw =>
              rintro ⟨⟩
              exact wf_restoreTask (hr _ rfl) _ _ _ w hw
            next => rintro ⟨⟩
          · rintro ⟨⟩
            exact hr _ rfl
    split
    · intro h
      refine hplace _ _ _ (hplace _ _ _ ?_) u (Option.some.inj h)
      rintro _ ⟨⟩
      exact hs
    · rintro ⟨⟩

theorem ctxld_wf {s : State} (hs : Memory.wf s.mem) (d a b : B6) : (ctxld s d a b).Wf := by
  unfold ctxld
  extract_lets id target fate
  have hf : ∀ t n, Memory.wf t.mem → (fate t n).Wf := fun t n ht => by simp [fate, ht]
  split
  · exact hf _ _ hs
  next c hc =>
    split
    · exact hf _ _ hs
    split
    · exact hf _ _ hs
    split
    · exact hf _ _ hs
    split
    · exact hf _ _ hs
    next t ht => exact hf _ _ (wf_restoreAt hs ht)
    next => exact hf _ _ (wf_loseContext hs _ _)

@[simp] theorem mem_failColumn (s : State) (core : Nat) : (failColumn s core).mem = s.mem :=
  mem_foldl (fun _ _ => by simp) _ _

theorem execPatrolRead_wf {s : State} (hs : Memory.wf s.mem) (addr : Nat) : NextWf (execPatrolRead addr s) := by
  unfold execPatrolRead
  split
  next t ht => exact (congrArg Memory.wf (mem_checkWords s _ _ t ht)).trans hs
  next => exact hs

theorem execLookoutExpiry_wf {s : State} (hs : Memory.wf s.mem) (part queue : Nat) : NextWf (execLookoutExpiry part queue s) := by
  unfold execLookoutExpiry
  dsimp only
  repeat' split
  all_goals simp [hs]

@[simp] theorem wf_wipe {s : State} (hs : Memory.wf s.mem) (tag n : Nat) : Memory.wf (wipe s tag n).mem := wf_clearRange _ _ hs
@[simp] theorem mem_zeroParties (s : State) (core slot : Nat) : (zeroParties s core slot).mem = s.mem :=
  mem_foldl (fun _ _ => State.mem_setParty ..) _ _

theorem wf_scrubCore {s : State} (hs : Memory.wf s.mem) (core : Nat) : Memory.wf (scrubCore s core).mem := by
  unfold scrubCore
  extract_lets s1 s2 s3
  have h1 : Memory.wf s1.mem := wf_wipe (wf_wipe hs _ _) _ _
  have h2 : Memory.wf s2.mem := wf_foldl (fun _ _ ht => wf_wipe ht _ _) _ h1
  rw [State.mem_modCore, mem_zeroParties, mem_zeroParties, h2]

theorem wf_scrubWeights {s : State} (hs : Memory.wf s.mem) (p die : Nat) : Memory.wf (scrubWeights s p die).mem := by
  unfold scrubWeights
  split
  · exact hs
  · exact wf_foldl (fun _ _ ht => wf_zeroFrame ht _ _ _ _) _ hs

theorem execResetDrainExpiry_wf {s : State} (hs : Memory.wf s.mem) : NextWf (execResetDrainExpiry s) := by
  unfold execResetDrainExpiry
  split
  next r _ =>
    extract_lets stop quit s1 s2
    have hq : ∀ t core slot, (quit t core slot).mem = t.mem := fun t core slot => by simp [quit]
    have h1 : s1.mem = s.mem :=
      mem_foldl (fun t e => (mem_foldl (fun u p => State.mem_modParty ..) _ _).trans (hq t _ _)) _ _
    exact occurs_wf hs _ ((congrArg Memory.wf h1).trans hs)
  next => exact hs

@[simp] theorem mem_noteError (s : State) (core slot : Nat) (t : Task) : (noteError s core slot t).mem = s.mem := by
  unfold noteError
  split <;> simp

theorem wf_endTasks {s : State} (hs : Memory.wf s.mem) (p : Nat) : Memory.wf (endTasks s p).mem :=
  wf_foldl (fun _ _ ht => wf_releaseTask (by simp [ht]) _ _ _) _ hs

theorem wf_stripPart {s : State} (hs : Memory.wf s.mem) (p : Nat) : Memory.wf (stripPart s p).mem := by
  unfold stripPart
  extract_lets s1 s2 s3 q s4 hs' s5
  have h2 : Memory.wf s2.mem := wf_voidRows (wf_endTasks hs p) _ _
  have h3 : s3.mem = s2.mem := mem_foldl (fun _ _ => mem_closeWindow ..) _ _
  have h4 : s4.mem = s3.mem := mem_foldl (fun _ _ => State.mem_setKey ..) _ _
  have h5 : s5.mem = s4.mem := rfl
  rw [mem_foldl fun _ _ => by simp, h5, h4, h3, h2]

theorem wf_endLaunches {s : State} (hs : Memory.wf s.mem) (p : Nat) : Memory.wf (endLaunches s p).mem := by
  refine wf_foldl (fun t q ht => ?_) _ hs
  split
  · split <;> exact wf_cancelRecords (wf_endHead ht _ _ _ _) _ _ _
  · split
    · exact ht
    · exact wf_cancelRecords ht _ _ _

theorem execPartitionResetComplete_wf {s : State} (hs : Memory.wf s.mem) : NextWf (execPartitionResetComplete s) := by
  unfold execPartitionResetComplete
  split
  next r _ =>
    extract_lets p s1 s2 s3 s4 s5 s6
    have h2 : Memory.wf s2.mem := wf_foldl (fun _ _ ht => wf_scrubCore ht _) _ (wf_stripPart hs p)
    clear_value s2
    have h3 : Memory.wf s3.mem := wf_endLaunches h2 p
    clear_value s3
    have h5 : Memory.wf s5.mem := by simp only [s5, s4, State.mem_modPart, h3]
    clear_value s5
    refine occurs_wf hs _ ?_
    unfold s6
    split
    · exact wf_beginReset (by exact h5) _
    · exact h5
  next => exact hs

theorem execFrameReassignComplete_wf {s : State} (hs : Memory.wf s.mem) (k : Nat) : NextWf (execFrameReassignComplete k s) := by
  unfold execFrameReassignComplete
  split
  · exact occurs_wf hs _ (by simp [hs])
  · exact hs

end Sys2Proof.Machine
end

section
/-! PROOFS. What the scheduler and the host link make of memory (O58), file by file of the model. -/

namespace Sys2Proof.Machine

/-! ### The scheduler -/

@[simp] theorem mem_copyRecords (s : State) (p q n : Nat) : (copyRecords s p q n).mem = s.mem := by
  induction n generalizing s with
  | zero => rfl
  | succ n ih =>
    unfold copyRecords
    dsimp only
    split
    next t bs ht => exact (ih _).trans (mem_partRead s _ _ _ _ ht)
    next => exact ih _

@[simp] theorem mem_copyIn (s : State) (p q : Nat) : (copyIn s p q).mem = s.mem := by simp [copyIn]

theorem execLaunchHead_wf {s : State} (hs : Memory.wf s.mem) (part queue : Nat) : NextWf (execLaunchHead part queue s) := by
  unfold execLaunchHead
  extract_lets s1 x
  have h1 : Memory.wf s1.mem := (congrArg Memory.wf (mem_copyIn _ _ _)).trans hs
  clear_value s1
  split
  next index r rest _ _ =>
    extract_lets s2 reject t
    have hr : ∀ c, Memory.wf (reject c).mem := fun c => wf_completeRecord (s := s2) h1 _ _ _ _ _ _ _
    refine occurs_wf hs _ ?_
    unfold t
    split
    · exact hr 7
    · split
      · exact hr _
      · exact wf_checkLaunch (by exact h1) _ _
  next => exact hs

theorem wf_handOut {s : State} (hs : Memory.wf s.mem) (core p q : Nat) : SomeWf (handOut s core p q) := by
  unfold handOut
  split
  · dsimp only [State.draw]
    split
    · simp
    · exact someWf_some.2 (wf_startTask (by exact hs) _ _ _)
  · simp

theorem wf_handAll {s : State} (hs : Memory.wf s.mem) (p q : Nat) (cs : List Nat) : SomeWf (handAll s p q cs) := by
  induction cs generalizing s with
  | nil => exact someWf_some.2 hs
  | cons c cs ih =>
    unfold handAll
    split
    next t ht => exact ih (wf_handOut hs _ _ _ t ht)
    next => simp

@[simp] theorem mem_reclaimFor (s : State) (p : Nat) : (reclaimFor s p).mem = s.mem := by
  unfold reclaimFor
  cases h : reclaimOne s p false with
  | none => simp
  | some t => simp [mem_reclaimOne s _ _ t h]

theorem execTaskStart_wf {s : State} (hs : Memory.wf s.mem) (core : Nat) : NextWf (execTaskStart core s) := by
  unfold execTaskStart
  dsimp only
  split
  · split
    next t ht => exact occurs_wf hs _ (wf_handAll hs _ _ _ t ht)
    next => exact occurs_wf hs _ (by simp [hs])
  · exact hs

theorem execTaskResume_wf {s : State} (hs : Memory.wf s.mem) (core : Nat) : NextWf (execTaskResume core s) := by
  unfold execTaskResume
  dsimp only
  split
  · split
    next c hc =>
      split
      next t ht =>
        refine occurs_wf hs _ ((congrArg Memory.wf (mem_foldl (fun _ _ => mem_handedBack ..) _ t)).trans ?_)
        exact wf_restoreAt hs ht
      next => exact occurs_wf hs _ (wf_loseContext hs _ _)
      next => exact hs
    next => exact hs
  · exact hs

theorem execTaskCompletion_wf {s : State} (hs : Memory.wf s.mem) (core slot : Nat) : NextWf (execTaskCompletion core slot s) := by
  unfold execTaskCompletion
  split
  · exact occurs_wf hs _ (wf_taskEnded (wf_releaseTask hs _ _ _) _ _)
  · exact hs

theorem execPreemptWaitExpiry_wf {s : State} (hs : Memory.wf s.mem) (part : Nat) : NextWf (execPreemptWaitExpiry part s) := by
  unfold execPreemptWaitExpiry
  split
  · dsimp only [State.draw]
    split
    · exact occurs_wf hs _ (by simp [hs])
    · exact hs
  · exact hs

theorem execPreemption_wf {s : State} (hs : Memory.wf s.mem) (core slot : Nat) : NextWf (execPreemption core slot s) := by
  unfold execPreemption
  split
  · extract_lets es asked
    split
    · exact hs
    split
    · simp [hs]
    split
    · have h := wf_saveSlots hs (mateSerial s) (fun _ => false) es
      split
      next u hu => rw [hu] at h; exact h
      next u e v hu => rw [hu] at h; exact wf_loseContext h _ _
    · exact hs
  · exact hs

/-! ### The host link -/

theorem execQcfg_wf {s : State} (hs : Memory.wf s.mem) (fn queue : Nat) (v : BitVec 32) : NextWf (execQcfg fn queue v s) := by
  unfold execQcfg
  extract_lets x new k on refused u t
  refine occurs_wf hs _ ?_
  unfold t
  split
  · exact hs
  split
  · exact hs
  split
  · split
    · exact wf_closeRecords (by exact hs) _ _
    · exact hs
  · exact hs

theorem mem_hostRead (s : State) (part va n : Nat) : GotMem s (hostRead s part va n) := by
  unfold hostRead
  split
  next t bs ht => simpa using mem_partBytes s _ _ _ _ _ _ ht
  next => simp

/-- A piece of a host's store is written at its place, or stays out where the place is a control word. -/
theorem wf_hostPiece {s : State} (hs : Memory.wf s.mem) (part va : Nat) (bs : List Byte) : Memory.wf (hostPiece s part va bs).mem := by
  unfold hostPiece
  split
  · exact hs
  split
  · split
    · exact hs
    extract_lets put1
    have hput : ∀ t q cs, Memory.wf t.mem → Memory.wf (put1 t q cs).mem := fun t q cs ht =>
      ((wf_writePlace ht _ _ _ _ _).map fun u hu => by simp [hu]).getD ht
    split
    · refine wf_foldl (fun t e ht => ?_) _ hs
      dsimp only
      split
      · exact ht
      · exact hput _ _ _ ht
    · exact hput _ _ _ hs
  · exact hs

theorem wf_hostStore (part fuel va : Nat) (bs : List Byte) {s : State} (hs : Memory.wf s.mem) :
    Memory.wf (hostStore part fuel va bs s).mem := by
  induction fuel generalizing va bs s with
  | zero => exact hs
  | succ fuel ih =>
    unfold hostStore
    split
    · exact hs
    · exact ih _ _ (wf_hostPiece hs _ _ _)

@[simp] theorem mem_hostMap (s : State) (part page : Nat) (target : PageTarget) : (hostMap s part page target).mem = s.mem := by
  unfold hostMap
  split <;> simp

theorem execHostAccess_wf {s : State} (hs : Memory.wf s.mem) (fn : Nat) (op : HostOp) : NextWf (execHostAccess fn op s) := by
  unfold execHostAccess
  split
  · exact hs
  cases op with
  | register o => dsimp only; split <;> exact hs
  | load va size =>
    dsimp only
    split
    · exact hs
    split
    next t bs ht => exact (congrArg Memory.wf (mem_hostRead s _ _ _ _ ht)).trans hs
    next => exact hs
  | store va bytes => simp [hs, wf_hostStore]
  | mapPage page target => simp [hs]
  | unmapPage page => simp [hs]

theorem execFabricLaunchPacket_wf {s : State} (hs : Memory.wf s.mem) (k : LaunchPacket) : NextWf (execFabricLaunchPacket k s) := by
  unfold execFabricLaunchPacket
  extract_lets x t refuse
  have hr : ∀ n, Memory.wf (refuse n).mem := fun n => by simp [refuse, t, hs]
  split
  · split
    next t ht =>
      have h : Memory.wf t.mem := wf_partWrite hs _ _ _ _ t ht
      simp [h]
    next => exact hr 3
  · exact hr _

theorem execFirmwareImageLoad_wf {s : State} (hs : Memory.wf s.mem) (i : Image) : NextWf (execFirmwareImageLoad i s) := by
  unfold execFirmwareImageLoad
  extract_lets _ u t
  refine occurs_wf hs _ ?_
  unfold t
  split
  · exact hs
  · split
    · simp [u, hs]
    · exact hs

@[simp] theorem mem_loadKeys (s : State) (l : List (Nat × Nat)) : (loadKeys s l).mem = s.mem := by
  fun_induction loadKeys <;> simp_all

theorem execKeyManifestLoad_wf {s : State} (hs : Memory.wf s.mem) (k : KeyManifest) : NextWf (execKeyManifestLoad k s) :=
  occurs_wf hs _ (by simp [hs])

theorem wf_writeHost {m : List Host.Cell} (hm : Memory.wf m) (a : Nat) (bs : List Byte) : Memory.wf (writeHost m a bs) := by
  induction bs generalizing m a with
  | nil => exact hm
  | cons b bs ih => exact ih (wf_writeByte _ _ hm) _

theorem execAtgo_wf {s : State} (hs : Memory.wf s.mem) (v : BitVec 1) : NextWf (execAtgo v s) := by
  unfold execAtgo
  extract_lets a
  have h : Memory.wf (writeHost s.mem a (attestation s.mgmt)) := wf_writeHost hs _ _
  generalize writeHost s.mem a (attestation s.mgmt) = m at h ⊢
  exact occurs_wf hs _ h

@[simp] theorem mem_loadFabric (s : State) (l : List FabricSet) : (loadFabric s l).mem = s.mem := by
  fun_induction loadFabric <;> simp_all

@[simp] theorem mem_loadLimits (s : State) (l : List (Nat × Nat)) : (loadLimits s l).mem = s.mem := by
  fun_induction loadLimits <;> simp_all

/-- The host's cells are those of a memory that bring-up and a new power-on leave (R380). -/
theorem wf_hostCells {m : List Host.Cell} (hm : Memory.wf m) : Memory.wf (hostCells m) := cellsFrom_filter _ hm

theorem wf_phaseStep {s : State} (hs : Memory.wf s.mem) (b : BringUp) (n : Nat) : Memory.wf (phaseStep s b n).mem := by
  unfold phaseStep
  split
  · exact hs
  · simp [hs]
  · exact hs
  · exact wf_hostCells hs
  · refine wf_foldl (fun t i ht => ?_) _ hs
    split
    · split
      · exact wf_startSupervisor ht _ _
      · exact ht
    · exact ht
  · exact hs
  · exact hs

theorem wf_bringUp {s : State} (hs : Memory.wf s.mem) : Memory.wf (bringUp s).mem := by
  have hn : ∀ b, Memory.wf (bringUp.nextPhase s b).mem := fun b => wf_phaseStep hs b (phaseOf s)
  unfold bringUp
  split
  · exact hs
  split
  · split
    · exact hs
    · exact hn _
  · exact hn _

theorem execPowerGood_wf {s : State} (hs : Memory.wf s.mem) (b : BringUp) : NextWf (execPowerGood b s) := wf_hostCells hs

end Sys2Proof.Machine
end

section
/-! PROOFS. What the vector, matrix and tensor functions make of memory (O58), file by file of the model. -/

namespace Sys2Proof.Machine

/-! ### Vector -/

@[simp] theorem mem_fetchAll (s : State) (gs : List VGot) : SomeFstMem s (fetchAll s gs) := by
  induction gs generalizing s with
  | nil => simp [fetchAll]
  | cons g gs ih =>
    intro r hr
    cases g with
    | vec x =>
      rw [fetchAll] at hr
      split at hr
      · cases hr
      · obtain ⟨q, hq, rfl⟩ := Option.map_eq_some_iff.1 hr
        exact ih s q hq
    | scratch o =>
      rw [fetchAll] at hr
      split at hr
      next t bs ht =>
        obtain ⟨q, hq, rfl⟩ := Option.map_eq_some_iff.1 hr
        exact (ih t q hq).trans (mem_readScratch s _ _ _ _ _ ht)
      next => cases hr
    | stall => exact ih s r hr

@[simp] theorem mem_bindColumn (s : State) : (bindColumn s).mem = s.mem := by simp [bindColumn]

theorem wf_writeSome {s : State} (hs : Memory.wf s.mem) (size : Nat) (ps : List (Nat × Byte)) : SomeWf (writeSome s size ps) :=
  wf_putCells hs _ _ _

theorem wf_writeDest {s : State} (hs : Memory.wf s.mem) (d : B5) (whole : Bool) (o : VOut) : SomeWf (writeDest s d whole o) := by
  unfold writeDest
  dsimp only
  split
  · simp [hs]
  · simp [hs]
  · split
    · exact (wf_writeSome hs _ _).map fun t ht => by simp [ht]
    · simp
  · simp [hs]

@[simp] theorem mem_takeFiles (s : State) (x : VFiles) (vq : Bool) : (takeFiles s x vq).mem = s.mem := by
  unfold takeFiles
  split <;> simp

@[simp] theorem vop_wf {s : State} (hs : Memory.wf s.mem) (srcs : List VSource) (d : B5) (ok aligned : Bool) (f : List Vec → VOut) :
    (vop s srcs d ok aligned f).Wf := by
  unfold vop
  refine .ite trivial <| .ite trivial ?_
  split
  · trivial
  next x gs _ =>
    split
    · trivial
    split
    · exact hs
    split
    · exact hs
    split
    · exact hs
    next t vs ht =>
      have ht : t.mem = s.mem := mem_fetchAll s gs _ ht
      dsimp only
      split
      · exact hs
      next u hu =>
        have hu := wf_writeDest (by simp [ht, hs]) _ _ _ u hu
        split <;> simp [hu]

@[simp] theorem varith_wf {s : State} (hs : Memory.wf s.mem) (d a b : B5) (c : B2) (p q : BitVec 1) (fo : Nat → FV → FV → FV)
    (io : ℤ → ℤ → ℤ) : (varith s d a b c p q fo io).Wf := by simp [varith, hs]
@[simp] theorem vunary_wf {s : State} (hs : Memory.wf s.mem) (d a : B5) (p : BitVec 1) (ok : Bool) (ta td n so dof : Nat)
    (f : Nat → Nat) : (vunary s d a p ok ta td n so dof f).Wf := by simp [vunary, hs]
@[simp] theorem vbits_wf {s : State} (hs : Memory.wf s.mem) (d a b : B5) (p q : BitVec 1) (f : Nat → Nat → Nat) :
    (vbits s d a b p q f).Wf := by simp [vbits, hs]
@[simp] theorem vshift_wf {s : State} (hs : Memory.wf s.mem) (d a b : B5) (c : B2) (p q : BitVec 1)
    (f : Nat → Bool → Nat → Nat → Nat) : (vshift s d a b c p q f).Wf := by simp [vshift, hs]
@[simp] theorem vscale_wf {s : State} (hs : Memory.wf s.mem) (d a b : B5) (p q : BitVec 1) (ta td : Nat) (ok : Bool)
    (sl : Option (Nat × Nat)) (f : Nat → Nat → Nat) : (vscale s d a b p q ta td ok sl f).Wf := by simp [vscale, hs]
@[simp] theorem vfunction_wf {s : State} (hs : Memory.wf s.mem) (d a : B5) (c : B2) (p : BitVec 1)
    (f : Fmt → Nat → Bool → FV → Nat) : (vfunction s d a c p f).Wf := by simp [vfunction, hs]

@[simp] theorem mem_setStream (s : State) (n : Nat) (g : List (List (BitVec 32))) : (setStream s n g).mem = s.mem := rfl

theorem execVspsh_wf {s : State} (hs : Memory.wf s.mem) (w g : B2) (n a : B5) (p : BitVec 1) : NextWf (execVspsh w g n a p s) := by
  refine tokened_wf hs _ _ _ (.ite trivial ?_)
  split
  · trivial
  next x gs _ =>
    extract_lets st
    -- without this the unifier evaluates the count of unmasked lanes
    generalize popCount 64 _ = m
    refine .ite trivial <| .wait_or hs ?_
    split
    next => exact hs
    next t vs ht =>
      have ht : t.mem = s.mem := mem_fetchAll s gs _ ht
      simp [ht, hs]

theorem execVspop_wf {s : State} (hs : Memory.wf s.mem) (w g : B2) (d n : B5) : NextWf (execVspop w g d n s) := by
  refine tokened_wf hs _ _ _ ?_
  dsimp only
  generalize hact : vop s _ _ _ _ _ = act
  have h : act.Wf := by
    rw [← hact]
    exact vop_wf hs _ _ _ _ _
  cases act with
  | done t k =>
    have ht : Memory.wf t.mem := h
    simp [ht]
  | _ => exact h

theorem execGcfg_wf {s : State} (hs : Memory.wf s.mem) (w g : B2) (d a : B5) : NextWf (execGcfg w g d a s) := by
  refine tokened_wf hs _ _ _ ?_
  dsimp only
  split
  · trivial
  split
  · trivial
  split
  · trivial
  · refine withScratch_wf hs _ _ fun t r ht => ?_
    split
    · trivial
    · simp [ht]

theorem execGrst_wf {s : State} (hs : Memory.wf s.mem) (w g : B2) (d : B5) : NextWf (execGrst w g d s) := by
  refine tokened_wf hs _ _ _ ?_
  split
  · trivial
  · split
    · trivial
    · simp [hs]

theorem execVqEntryArrival_wf {s : State} (hs : Memory.wf s.mem) (core : Nat) : NextWf (execVqEntryArrival core s) := by
  unfold execVqEntryArrival
  split <;> simp [hs]

/-! ### Matrix -/

@[simp] theorem mem_readTile (s : State) (core t : Nat) : SomeFstMem s (readTile s core t) := by
  unfold readTile
  split
  next u hu => simp [mem_checkWords s _ _ u hu]
  next => simp

/-- A tile is written in an accumulator memory. -/
@[simp] theorem wf_writeTile {s : State} (hs : Memory.wf s.mem) (core t : Nat) (bs : List Byte) : Memory.wf (writeTile s core t bs).mem :=
  writeTile_inv hs core t bs
@[simp] theorem mem_collect (s : State) (core : Nat) : (collect s core).mem = s.mem := by
  simp [collect, mem_foldl fun t e => mem_markDying ..]
@[simp] theorem mem_startOp (s : State) (o : MatOp) : (startOp s o).mem = s.mem := by simp [startOp]
@[simp] theorem mem_opEnded (s : State) (core : Nat) (o : MatOp) (rest : List MatOp) : (opEnded s core o rest).mem = s.mem := by
  simp [opEnded]

theorem tokenLater_wf {s : State} (hs : Memory.wf s.mem) (w g : B2) {body : State → Act} (hb : (body s).Wf) :
    NextWf (tokenLater s w g body) := by
  unfold tokenLater
  split
  · exact conclude_wf hs w g trivial
  split
  · exact conclude_wf hs w g trivial
  split
  · exact conclude_wf hs w g hs
  · exact conclude_wf hs w 0 hb

theorem execMrun_wf {s : State} (hs : Memory.wf s.mem) (w g : B2) (a : B5) (c t : B2) : NextWf (execMrun w g a c t s) := by
  refine tokenLater_wf hs _ _ ?_
  unfold mrun
  refine .ite trivial <| .wait_or hs ?_
  dsimp only
  refine .wait_or hs <| .ite trivial ?_
  simp [hs]

theorem execMldc_wf {s : State} (hs : Memory.wf s.mem) (w g : B2) (a : B5) (c : B2) : NextWf (execMldc w g a c s) := by
  refine tokenLater_wf hs _ _ ?_
  dsimp only
  refine .ite trivial <| .wait_or hs ?_
  simp [hs]

theorem execMdrain_wf {s : State} (hs : Memory.wf s.mem) (w g : B2) (a b : B5) (c : B2) : NextWf (execMdrain w g a b c s) := by
  refine tokenLater_wf hs _ _ ?_
  dsimp only
  refine .ite trivial <| .ite trivial <| .ite trivial <| .wait_or hs ?_
  simp [hs]

theorem signature_wf {s : State} (hs : Memory.wf s.mem) (a : B5) {k : State → Word → Act}
    (hk : ∀ t x, Memory.wf t.mem → (k t x).Wf) : (signature s a k).Wf := by
  unfold signature
  dsimp only
  refine .ite trivial <| .wait_or hs ?_
  split
  next t bs ht => exact hk _ _ ((congrArg Memory.wf (mem_readTile s _ _ _ ht)).trans hs)
  next => exact hs

theorem execMsig_wf {s : State} (hs : Memory.wf s.mem) (w g : B2) (d a : B5) : NextWf (execMsig w g d a s) :=
  tokened_wf hs _ _ _ <| signature_wf hs _ fun t x ht => by simp [ht]

theorem execMkat_wf {s : State} (hs : Memory.wf s.mem) (w g : B2) (a : B5) : NextWf (execMkat w g a s) := by
  refine tokened_wf hs _ _ _ <| .ite trivial <| signature_wf hs _ fun t x ht => ?_
  split
  next => exact ht
  next u hu =>
    have h : Memory.wf u.mem := (congrArg Memory.wf (mem_checkWords t _ _ u hu)).trans ht
    dsimp only
    split <;> simp [h]

@[simp] theorem mem_readTiles (core : Nat) (ts : List Nat) (s : State) : SomeFstMem s (readTiles core ts s) := by
  induction ts generalizing s with
  | nil => simp [readTiles]
  | cons t ts ih =>
    unfold readTiles
    split
    next u bs hu =>
      intro r hr
      obtain ⟨q, hq, rfl⟩ := Option.map_eq_some_iff.1 hr
      exact (ih u q hq).trans (mem_readTile s _ _ _ hu)
    next => simp

theorem execRunComplete_wf {s : State} (hs : Memory.wf s.mem) (core : Nat) : NextWf (execRunComplete core s) := by
  unfold execRunComplete
  split
  next o rest _ =>
    refine occurs_wf hs _ ?_
    split
    · simp [hs]
    split
    next t m ht =>
      dsimp only
      rw [mem_opEnded]
      exact wf_foldl (fun _ _ hu => wf_writeTile hu _ _ _) _ ((congrArg Memory.wf (mem_readTiles _ _ s _ ht)).trans hs)
    next => simp [hs]
  next => exact hs

theorem execMldcComplete_wf {s : State} (hs : Memory.wf s.mem) (core : Nat) : NextWf (execMldcComplete core s) := by
  unfold execMldcComplete
  split
  · exact occurs_wf hs _ (by simp [hs])
  · exact hs

theorem execDrainComplete_wf {s : State} (hs : Memory.wf s.mem) (core : Nat) : NextWf (execDrainComplete core s) := by
  unfold execDrainComplete
  split
  next o rest _ =>
    refine occurs_wf hs _ ?_
    split
    next => simp [hs]
    next t bs ht =>
      split
      next => simp [hs]
      next u hu =>
        have h : Memory.wf u.mem := wf_writeScratch (by simpa using (congrArg Memory.wf (mem_readTile s _ _ _ ht)).trans hs) _ _ _ _ u hu
        simp [h]
  next => exact hs

/-! ### Tensors -/

@[simp] theorem missAct_wf {s : State} (hs : Memory.wf s.mem) (e : Miss) : (missAct s e).Wf := by
  cases e <;> simp [missAct, hs]

@[simp] theorem endMiss_wf {s : State} (hs : Memory.wf s.mem) (part : Bool) (e : Miss) : (endMiss s part e).Wf := by
  unfold endMiss
  split
  · split
    · exact hs
    · simp [hs]
  · exact missAct_wf hs _

@[simp] theorem mem_readTensor (s : State) (slot : Nat) : GotMem s (readTensor s slot) := by
  unfold readTensor
  split
  next => simp
  next t _ =>
    split
    · simp
    · split
      next r hr => simpa using mem_partRead s _ _ _ _ hr
      · simp
      · simp

@[simp] theorem mem_nameTensor (s : State) (slot : Nat) (weak : Bool) : GotMem s (nameTensor s slot weak) := by
  unfold nameTensor
  split
  next => simp
  next s1 bs h1 =>
    have hb1 : s1.mem = s.mem := mem_readTensor s slot _ h1
    dsimp only
    split
    · simp
    split
    · simpa using hb1
    split
    next => simp
    next s2 cs h2 =>
      have hb2 : s2.mem = s.mem := (mem_readTensor s1 _ _ h2).trans hb1
      split <;> simp [hb2]

@[simp] theorem mem_tileEntry (s : State) (t : Tensor) (tile : Nat) : GotMem s (tileEntry s t tile) := by
  unfold tileEntry
  split
  next u bs hu => simpa using mem_partRead s _ _ _ _ hu
  · simp
  · simp

@[simp] theorem mem_tilePlace (s : State) (t : Tensor) (tile o : Nat) : GotMem s (tilePlace s t tile o) := by
  unfold tilePlace
  split
  next => simp
  next u e he =>
    have hu : u.mem = s.mem := mem_tileEntry s t tile _ he
    dsimp only
    split
    · simp
    split
    · split <;> simp [hu]
    · split <;> simp [hu]
    · simp [hu]
    · split <;> simp [hu]
    · simp

@[simp] theorem mem_readTileBytes (s : State) (t : Tensor) (tile o n : Nat) : GotMem s (readTileBytes s t tile o n) := by
  unfold readTileBytes
  split
  next => simp
  next u p hu =>
    have hb : u.mem = s.mem := mem_tilePlace s t tile o _ hu
    split
    · simp
    split
    next v bs hv =>
      have hr := mem_readPlace u u.cur u.myPart false p n
      rw [hv] at hr
      exact gotMem_ok.2 (hr.trans hb)
    next => simp

@[simp] theorem mem_readElement (s : State) (t : Tensor) (c : List Int) : GotMem s (readElement s t c) := by
  unfold readElement
  dsimp only
  split
  next => simp
  next => exact mem_readTileBytes s _ _ _ _

@[simp] theorem mem_readGroup (s : State) (t : Tensor) (c : List Int) (planes : Nat) : GotMem s (readGroup s t c planes) := by
  unfold readGroup
  split
  next => exact gotMem_ok.2 rfl
  next =>
    split
    next => simp
    next u bs hu =>
      have h : u.mem = s.mem := mem_readTileBytes s _ _ _ _ _ hu
      exact gotMem_ok.2 h

@[simp] theorem mem_unitCells (s : State) (t : Tensor) (c : List Int) (bs : List Byte) : GotMem s (unitCells s t c bs) := by
  unfold unitCells
  split
  next => simp
  next =>
    split
    next => simp
    next u p hu =>
      have hb : u.mem = s.mem := mem_tilePlace s _ _ _ _ hu
      split
      · simp
      dsimp only
      split <;> simp [hb]

theorem wf_mergeLines {s : State} (hs : Memory.wf s.mem) (key : Nat) (clock : Sparse Nat) (kept : List Nat)
    (runs : List (Nat × List Byte)) : Memory.wf (mergeLines s key clock kept runs).1.mem := by
  induction runs generalizing s with
  | nil => exact hs
  | cons r rest ih =>
    unfold mergeLines
    dsimp only
    split
    next t ht => exact ih (wf_mergeBytes (by simp [hs]) _ _ _ _ _ _ t ht)
    next => exact ih (by simp [hs])

theorem wf_writeLines {s : State} (hs : Memory.wf s.mem) (key : Nat) (kept : List Nat) (runs : List (Nat × List Byte)) :
    Memory.wf (writeLines s key kept runs).1.mem := by
  unfold writeLines
  split
  · exact hs
  · extract_lets t clock gs
    exact wf_mergeLines ((congrArg Memory.wf (mem_remember t _ _ _ _)).trans hs) _ _ _ _

@[simp] theorem mem_gather (t : Tensor) (us : List (List Int × List Byte)) (s : State) (m : Sparse Byte) : GotMem s (gather t us s m) := by
  induction us generalizing s m with
  | nil => simp [gather]
  | cons x rest ih =>
    unfold gather
    split
    next => simp
    next u cells hu => exact fun r hr => (ih u _ r hr).trans (mem_unitCells s _ _ _ _ hu)

theorem wf_writeUnits {s : State} (hs : Memory.wf s.mem) (t : Tensor) (us : List (List Int × List Byte)) : GotWf (writeUnits s t us) := by
  unfold writeUnits
  split
  next => simp
  next u m hu => exact gotWf_ok.2 (wf_writeLines ((congrArg Memory.wf (mem_gather t us s _ _ hu)).trans hs) _ _ _)

@[simp] theorem mem_readRow (t : Tensor) (n i : Nat) (s : State) : GotMem s (readRow t n i s) := by
  induction n generalizing i s with
  | zero => simp [readRow]
  | succ n ih =>
    unfold readRow
    split
    next => simp
    next u bs hu =>
      split
      next v cs hv => exact gotMem_ok.2 ((ih (i + 1) u _ hv).trans (mem_readElement s _ _ _ hu))
      next => simp

theorem afterPrivilege_wf (foreign : Bool) {rest : Act} (h : rest.Wf) : (afterPrivilege foreign rest).Wf := by
  unfold afterPrivilege
  split
  · trivial
  · exact h

@[simp] theorem mem_imageTensor (s : State) (b : B6) : GotMem s (imageTensor s b) := by
  unfold imageTensor
  dsimp only
  split
  · simp
  split
  next => simp
  next u bs hu =>
    have hb : u.mem = s.mem := mem_nameTensor s _ _ _ hu
    split <;> simp [hb]

@[simp] theorem mem_setSuffix (s : State) (id : Nat) (x : Suffix) : (setSuffix s id x).mem = s.mem := rfl

theorem execSxsav_wf {s : State} (hs : Memory.wf s.mem) (w g : B2) (d a b : B6) : NextWf (execSxsav w g d a b s) := by
  refine tokened_wf hs _ _ _ <| afterPrivilege_wf _ ?_
  split
  next => trivial
  next => exact missAct_wf hs _
  next id u t _ hu =>
    have hb : Memory.wf u.mem := (congrArg Memory.wf (mem_imageTensor s b _ hu)).trans hs
    dsimp only
    split
    · trivial
    split
    · exact missAct_wf hs _
    split
    · exact hs
    split
    · exact hs
    split
    next => exact missAct_wf hs _
    next v hv => exact wf_writeUnits hb _ _ _ hv
    next v hv => exact (congrArg Memory.wf (State.mem_setReg ..)).trans (wf_writeUnits hb _ _ _ hv)

theorem execSxld_wf {s : State} (hs : Memory.wf s.mem) (w g : B2) (d a b : B6) : NextWf (execSxld w g d a b s) := by
  refine tokened_wf hs _ _ _ ?_
  dsimp only
  split
  · trivial
  split
  next => exact missAct_wf hs _
  next u t hu =>
    have hu : u.mem = s.mem := mem_imageTensor s b _ hu
    split
    · exact hs
    split
    next => exact missAct_wf hs _
    next v h hv =>
      have hv : v.mem = s.mem := (mem_readRow _ _ _ u _ hv).trans hu
      split
      next => trivial
      next x _ =>
        split
        next => exact missAct_wf hs _
        next z bs hz =>
          have hz : z.mem = s.mem := (mem_readRow _ _ _ v _ hz).trans hv
          simp [hz, hs]

end Sys2Proof.Machine
end

section
/-! PROOFS. What the copy and Trellis engines make of memory (O58), file by file of the model. -/

namespace Sys2Proof.Machine

/-! ### Copy -/

@[simp] theorem mem_sideTensor (s : State) (absent : Bool) (slot : Nat) (weak : Bool) : GotMem s (sideTensor s absent slot weak) := by
  unfold sideTensor
  split
  · simp
  · exact mem_nameTensor s _ _

theorem checkCopy_wf {s : State} (hs : Memory.wf s.mem) (op : Nat) (a b : B5) {k : State → CopyCmd → Act}
    (hk : ∀ t c, Memory.wf t.mem → (k t c).Wf) : (checkCopy s op a b k).Wf := by
  unfold checkCopy
  dsimp only
  refine afterPrivilege_wf _ <| .ite trivial <| .ite trivial <| .wait_or hs <| withScratch_wf hs _ _ fun s r hs => .ite trivial ?_
  split
  next => exact missAct_wf hs _
  next s1 src h1 =>
    have hb1 : Memory.wf s1.mem := (congrArg Memory.wf (mem_sideTensor s _ _ _ _ h1)).trans hs
    split
    next => exact missAct_wf hs _
    next s2 dst h2 =>
      have hb2 : Memory.wf s2.mem := (congrArg Memory.wf (mem_sideTensor s1 _ _ _ _ h2)).trans hb1
      refine .ite trivial <| withScratch_wf hb2 _ _ fun s3 list hb3 => ?_
      split
      · split
        · exact missAct_wf hs _
        · exact hk _ _ hb3
      · exact hk _ _ hb3

@[simp] theorem mem_logCopy (s : State) (c : CopyCmd) (o n : Nat) : (logCopy s c o n).mem = s.mem := by simp [logCopy]

@[simp] theorem mem_readUnit (s : State) (core slot : Nat) (c : Copy) (list : List Byte) (x : List Nat) :
    GotMem s (readUnit s core slot c list x) := by
  unfold readUnit
  split
  · simp
  dsimp only
  split
  · split
    · exact mem_readGroup s _ _ _
    · exact mem_readElement s _ _
  · split
    next => simp
    next =>
      split
      next t bs ht =>
        have h : t.mem = s.mem := mem_readScratch s _ _ _ _ _ ht
        exact gotMem_ok.2 h
      next => simp

@[simp] theorem mem_readUnits (core slot : Nat) (c : Copy) (list : List Byte) (is : List Nat) (s : State) :
    GotMem s (readUnits core slot c list is s) := by
  induction is generalizing s with
  | nil => simp [readUnits]
  | cons i is ih =>
    unfold readUnits
    dsimp only
    split
    next => simp
    next t bs ht =>
      split
      next u rest hu => exact gotMem_ok.2 ((ih t _ hu).trans (mem_readUnit s _ _ _ _ _ _ ht))
      next => simp

theorem wf_writeCellsAt {s : State} (hs : Memory.wf s.mem) (ps : List (Nat × Byte)) : SomeWf (writeCellsAt s ps) := wf_writeSome hs _ _

theorem wf_moveChunk {s : State} (hs : Memory.wf s.mem) (c : Copy) (k : Nat) : GotWf (moveChunk s c k) := by
  unfold moveChunk
  dsimp only
  split
  next => simp
  next s1 list h1 =>
    have hb1 : s1.mem = s.mem := mem_readScratch s _ _ _ _ _ h1
    split
    next => simp
    next s2 vs h2 =>
      have hb2 : Memory.wf s2.mem := (congrArg Memory.wf ((mem_readUnits _ _ _ _ _ s1 _ h2).trans hb1)).trans hs
      split
      · exact wf_writeUnits hb2 _ _
      · split
        next s3 h3 => exact gotWf_ok.2 (wf_writeCellsAt hb2 _ s3 h3)
        next => simp

@[simp] theorem mem_readWeak (s : State) (c : Copy) : (readWeak s c).mem = s.mem := by
  unfold readWeak
  split <;> simp

@[simp] theorem issueCopy_wf {s : State} (hs : Memory.wf s.mem) (op : Nat) (a b : B5) : (issueCopy s op a b).Wf := by
  refine checkCopy_wf hs _ _ _ fun t cmd ht => ?_
  dsimp only [Act.wf_issued]
  split <;> simp [ht]

@[simp] theorem chunkStep_wf {s : State} (hs : Memory.wf s.mem) (cmd : CopyCmd) : (chunkStep s cmd).Wf := by
  have hw : Memory.wf (readWeak s (copyOf cmd)).mem := by simp [hs]
  unfold chunkStep
  dsimp only
  split
  · simp [hs]
  split
  next => exact endMiss_wf hw _ _
  next t ht => exact wf_moveChunk hw _ _ _ ht
  next t ht =>
    have h : Memory.wf t.mem := wf_moveChunk hw _ _ _ ht
    split <;> simp [h]

theorem execCopyChunkComplete_wf {s : State} (hs : Memory.wf s.mem) (p : PartyId) : NextWf (execCopyChunkComplete p s) := by
  unfold execCopyChunkComplete
  split
  · split
    · exact asParty_wf p (conclude_wf (s := s.setCur p) hs _ _ (chunkStep_wf (s := s.setCur p) hs _))
    · exact hs
  · exact hs

theorem execXfeed_wf {s : State} (hs : Memory.wf s.mem) (w g : B2) (a b : B5) (f : BitVec 1) : NextWf (execXfeed w g a b f s) :=
  tokened_wf hs _ _ _ <| checkCopy_wf hs _ _ _ fun _ _ ht => ht

@[simp] theorem mem_readPlanes (s : State) (t : Tensor) (tile e n : Nat) (is : List Nat) : GotMem s (readPlanes s t tile e n is) := by
  induction is generalizing s with
  | nil => simp [readPlanes]
  | cons i is ih =>
    unfold readPlanes
    split
    next => simp
    next u bs hu =>
      split
      next v rest hv => exact gotMem_ok.2 ((ih u _ hv).trans (mem_readTileBytes s _ _ _ _ _ hu))
      next => simp

@[simp] theorem mem_feedCodes (s : State) (t : Tensor) (c : List Int) (planes : Nat) : GotMem s (feedCodes s t c planes) := by
  unfold feedCodes
  split
  next => simp
  next =>
    split
    next => simp
    next u ps hu =>
      have hub : u.mem = s.mem := mem_readPlanes s _ _ _ _ _ _ hu
      dsimp only
      split
      next => simp
      next v ds hv =>
        have hvb : v.mem = s.mem := (mem_readTensor u _ _ hv).trans hub
        split
        next => simp
        next x sc hx =>
          have hxb : x.mem = s.mem := (mem_readRow _ _ _ v _ hx).trans hvb
          exact gotMem_ok.2 hxb

@[simp] theorem mem_readRun (core slot : Nat) (c : Copy) (r : Nat) (js : List Nat) (s : State) : GotMem s (readRun core slot c r js s) := by
  induction js generalizing s with
  | nil => simp [readRun]
  | cons j js ih =>
    unfold readRun
    split
    next => simp
    next t bs ht =>
      split
      next u rest hu => exact gotMem_ok.2 ((ih t _ hu).trans (mem_readUnit s _ _ _ _ _ _ ht))
      next => simp

@[simp] theorem mem_feedEntry (s : State) (c : Copy) (r : Nat) : GotMem s (feedEntry s c r) := by
  unfold feedEntry
  split
  · exact mem_feedCodes s _ _ _
  · split
    next t es ht => exact gotMem_ok.2 (mem_readRun _ _ _ _ _ s _ ht)
    next => simp

@[simp] theorem mem_pushEntry (s : State) (second : Bool) (e : FEntry) : (pushEntry s second e).mem = s.mem := by simp [pushEntry]

@[simp] theorem feedStep_wf {s : State} (hs : Memory.wf s.mem) (cmd : CopyCmd) (second : Bool) (next : Nat) :
    (feedStep s cmd second next).Wf := by
  unfold feedStep
  dsimp only
  split
  · exact hs
  split
  next => exact missAct_wf hs _
  next t e ht =>
    have h : t.mem = s.mem := mem_feedEntry s _ _ _ ht
    split <;> simp [h, hs]

/-! ### Trellis -/

@[simp] theorem mem_nameValues (s : State) (r : List Byte) (used : Option Nat) : GotMem s (nameValues s r used) := by
  unfold nameValues
  split
  · exact mem_nameTensor s _ _
  · split <;> simp

@[simp] theorem mem_nameWork (s : State) (op : Nat) (r : List Byte) : GotMem s (nameWork s op r) := by
  unfold nameWork
  split
  · exact mem_nameTensor s _ _
  · simp

theorem withDefinition_wf {s : State} (hs : Memory.wf s.mem) (op : Nat) (b : Word) {k : State → List Byte → Act}
    (hk : ∀ t d, Memory.wf t.mem → (k t d).Wf) : (withDefinition s op b k).Wf := by
  unfold withDefinition
  refine .ite (hk _ _ hs) <| .ite trivial <| withScratch_wf hs _ _ fun t d ht => ?_
  split
  · exact hk _ _ ht
  · trivial

theorem checkTrellis_wf {s : State} (hs : Memory.wf s.mem) (op : Nat) (a : B5) (b : Word) {k : State → List Byte → Trellis → Act}
    (hk : ∀ t r x, Memory.wf t.mem → (k t r x).Wf) : (checkTrellis s op a b k).Wf := by
  unfold checkTrellis
  refine afterPrivilege_wf _ <| .ite trivial <| .ite trivial <| .ite trivial <| .wait_or hs <| withScratch_wf hs _ _ fun s r hs => ?_
  split
  next => trivial
  next x _ =>
    refine .ite trivial <| withDefinition_wf hs _ _ fun s d hs => ?_
    split
    next => exact missAct_wf hs _
    next s1 st h1 =>
      have hb1 : s1.mem = s.mem := mem_nameTensor s _ _ _ h1
      split
      next => exact missAct_wf hs _
      next s2 v h2 =>
        have hb2 : s2.mem = s.mem := (mem_nameValues s1 _ _ _ h2).trans hb1
        split
        next => exact missAct_wf hs _
        next s3 w h3 =>
          have hb3 : s3.mem = s.mem := (mem_nameWork s2 _ _ _ h3).trans hb2
          refine .ite trivial ?_
          split
          · exact missAct_wf hs _
          · exact hk _ _ _ ((congrArg Memory.wf hb3).trans hs)

@[simp] theorem mem_takeSearch (s : State) : (takeSearch s).mem = s.mem := rfl
@[simp] theorem mem_freeSearch (s : State) : (freeSearch s).mem = s.mem := rfl

@[simp] theorem issueSearch_wf {s : State} (hs : Memory.wf s.mem) (op : Nat) (a : B5) (b : Word) : (issueSearch s op a b).Wf := by
  refine checkTrellis_wf hs _ _ _ fun t r _ ht => ?_
  split
  · simp [ht]
  · exact hs

theorem execXtrd_wf {s : State} (hs : Memory.wf s.mem) (w g : B2) (a b : B5) : NextWf (execXtrd w g a b s) := by
  refine tokened_wf hs _ _ _ <| checkTrellis_wf hs _ _ _ fun t r _ ht => ?_
  split <;> simp [ht]

theorem execXtdef_wf {s : State} (hs : Memory.wf s.mem) (w g : B2) (a b : B5) : NextWf (execXtdef w g a b s) := by
  refine tokened_wf hs _ _ _ ?_
  refine .ite trivial <| .ite trivial <| .ite trivial <| withScratch_wf hs _ _ fun s h hs =>
    .ite trivial <| withScratch_wf hs _ _ fun s r hs => ?_
  split
  · trivial
  · split <;> simp [hs]

theorem wf_writeRow {s : State} (hs : Memory.wf s.mem) (t : Tensor) (i : Nat) (bs : List Byte) : GotWf (writeRow s t i bs) :=
  wf_writeUnits hs _ _

theorem wf_writeTable {s : State} (hs : Memory.wf s.mem) (t : Tensor) (bs : List Bool) : GotWf (writeTable s t bs) := by
  unfold writeTable
  split
  · exact wf_writeRow hs _ _ _
  split
  next => simp
  next u old hu => exact wf_writeRow ((congrArg Memory.wf (mem_readRow _ _ _ s _ hu)).trans hs) _ _ _

@[simp] theorem mem_readReals (t : Tensor) (n i : Nat) (s : State) : GotMem s (readReals t n i s) := by
  induction n generalizing i s with
  | zero => simp [readReals]
  | succ n ih =>
    unfold readReals
    split
    next => simp
    next u bs hu =>
      split
      next v xs hv => exact gotMem_ok.2 ((ih (i + 1) u _ hv).trans (mem_readElement s _ _ _ hu))
      next => simp

theorem thenRow_wf {r : Except Miss (State × Bool)} (hr : GotWf r) {f : State → Except Miss (State × Bool)}
    (hf : ∀ t, Memory.wf t.mem → GotWf (f t)) : GotWf (thenRow r f) := by
  unfold thenRow
  split
  next => simp
  next s a =>
    split
    next => simp
    next t b ht =>
      have h : Memory.wf t.mem := hf s (gotWf_ok.1 hr) _ ht
      exact gotWf_ok.2 h

theorem wf_endXtrw {s : State} (hs : Memory.wf s.mem) (t : Trellis) (n first : Nat) (st v w : Tensor) :
    GotWf (endXtrw s t n first st v w) := by
  unfold endXtrw
  split
  next => simp
  next s1 targets h1 =>
    have hb1 : Memory.wf s1.mem := (congrArg Memory.wf (mem_readReals _ _ _ s _ h1)).trans hs
    exact thenRow_wf (wf_writeTable hb1 _ _) fun t ht => wf_writeRow ht _ _ _

theorem wf_endXtru {s : State} (hs : Memory.wf s.mem) (t : Trellis) (n j : Nat) (new : Word) (st w : Tensor) :
    GotWf (endXtru s t n j new st w) := by
  unfold endXtru
  dsimp only
  split
  next => simp
  next s1 bs h1 =>
    have hb1 : Memory.wf s1.mem := (congrArg Memory.wf (mem_readRow _ _ _ s _ h1)).trans hs
    exact thenRow_wf (wf_writeTable hb1 _ _) fun t ht => wf_writeRow ht _ _ _

@[simp] theorem mem_decodeFrom (s : State) (t : Trellis) (n j count : Nat) (st : Tensor) : GotMem s (decodeFrom s t n j count st) := by
  unfold decodeFrom
  dsimp only
  split
  next => simp
  next u bs hu => exact gotMem_ok.2 (mem_readRow _ _ _ s _ hu)

theorem wf_endXtrd {s : State} (hs : Memory.wf s.mem) (t : Trellis) (n j count first : Nat) (st v : Tensor) :
    GotWf (endXtrd s t n j count first st v) := by
  unfold endXtrd
  split
  next => simp
  next u cs hu => exact wf_writeUnits ((congrArg Memory.wf (mem_decodeFrom s _ _ _ _ _ _ hu)).trans hs) _ _

theorem wf_endXtbld {s : State} (hs : Memory.wf s.mem) (r : List Byte) (o : Nat) (v : Tensor) : GotWf (endXtbld s r o v) := by
  unfold endXtbld
  split
  next => simp
  next s1 xs h1 =>
    have hb1 : Memory.wf s1.mem := (congrArg Memory.wf (mem_readReals _ _ _ s _ h1)).trans hs
    dsimp only
    split
    next => simp
    next s2 h2 => exact gotWf_ok.2 (wf_writeScratch hb1 _ _ _ _ s2 h2)

theorem wf_trellisResult {s : State} (hs : Memory.wf s.mem) (op : Nat) (r : List Byte) (b : Word) : GotWf (trellisResult s op r b) := by
  unfold trellisResult
  split
  · split
    · exact wf_endXtrw hs _ _ _ _ _ _
    · exact wf_endXtru hs _ _ _ _ _ _
    · exact wf_endXtrd hs _ _ _ _ _ _ _
    · exact wf_endXtbld hs _ _ _
    · simp
  · simp

theorem trellisStep_wf {s : State} (hs : Memory.wf s.mem) (op : Nat) (r : List Byte) (b : Word) : (trellisStep s op r b).Wf := by
  unfold trellisStep
  split
  next => exact endMiss_wf (s := freeSearch s) hs _ _
  next => exact missAct_wf hs _
  next t ht => exact wf_trellisResult hs _ _ _ _ ht
  next t ht => exact wf_trellisResult hs _ _ _ _ ht

theorem execTrellisInstructionEnd_wf {s : State} (hs : Memory.wf s.mem) (p : PartyId) : NextWf (execTrellisInstructionEnd p s) := by
  unfold execTrellisInstructionEnd
  split
  · split
    · exact asParty_wf p (conclude_wf (s := s.setCur p) hs _ _ (trellisStep_wf (s := s.setCur p) hs _ _ _))
    · exact hs
  · exact hs

theorem trellisFeedStep_wf {s : State} (hs : Memory.wf s.mem) (r : List Byte) (b : Word) (next : Nat) :
    (trellisFeedStep s r b next).Wf := by
  unfold trellisFeedStep
  dsimp only
  split
  · exact hs
  split
  · split
    next => exact missAct_wf hs _
    next u cs hu =>
      have h : u.mem = s.mem := mem_decodeFrom s _ _ _ _ _ _ hu
      split <;> simp [h, hs]
  · trivial

theorem execXws_wf {s : State} (hs : Memory.wf s.mem) (w g : B2) (a : B5) : NextWf (execXws w g a s) := by
  unfold execXws
  split
  · exact conclude_wf hs _ _ trivial
  split
  · exact conclude_wf hs _ _ trivial
  · refine tokened_wf hs _ _ _ <| .ite trivial <| .ite trivial <| withScratch_wf hs _ _ fun t r ht => ?_
    split
    · exact ht
    · trivial

theorem storeWeights_wf {s : State} (hs : Memory.wf s.mem) (source length target part since : Nat) :
    (storeWeights s source length target part since).Wf := by
  refine withScratch_wf hs _ _ fun t bs ht => ?_
  split
  next u hu => simpa using wf_performWrite ht _ _ _ u hu
  next => exact ht

theorem execWeightStoreWriteComplete_wf {s : State} (hs : Memory.wf s.mem) (p : PartyId) :
    NextWf (execWeightStoreWriteComplete p s) := by
  unfold execWeightStoreWriteComplete
  split
  · split
    · exact asParty_wf p (conclude_wf (s := s.setCur p) hs _ _ (storeWeights_wf (s := s.setCur p) hs _ _ _ _ _))
    · exact hs
  · exact hs

end Sys2Proof.Machine
end

section
/-! PROOFS. What replay, collectives and the Swallowtail make of memory (O58), file by file of the model. -/

namespace Sys2Proof.Machine

/-! ### Replay -/

theorem wf_replayChunks {c : Copy} {ks : List Nat} {s u : State} (hs : Memory.wf s.mem) (h : replayChunks c ks s = .ok u) :
    Memory.wf u.mem := by
  induction ks generalizing s with
  | nil => cases h; exact hs
  | cons k ks ih =>
    have hw : Memory.wf (readWeak s c).mem := by simp [hs]
    rw [replayChunks] at h
    split at h
    · cases h; exact hw
    split at h
    next t ht => exact ih (wf_moveChunk hw _ _ _ ht) h
    next => cases h
    next => cases h

theorem wf_replayLog {cs : List CopyCmd} {s u : State} (hs : Memory.wf s.mem) (h : replayLog cs s = .ok u) : Memory.wf u.mem := by
  induction cs generalizing s with
  | nil => cases h; exact hs
  | cons cmd rest ih =>
    rw [replayLog] at h
    split at h
    next t ht => exact ih (wf_replayChunks hs ht) h
    next => cases h

@[simp] theorem mem_withdraw (s : State) (serial : Nat) : (withdraw s serial).mem = s.mem := rfl

@[simp] theorem mem_restorePhase (s : State) (core slot : Nat) (t : Task) (k : Checkpoint) :
    (restorePhase s core slot t k).mem = s.mem := by
  unfold restorePhase
  dsimp only
  rw [mem_withdraw, mem_foldl fun _ _ => mem_orderAll .., mem_foldl fun _ _ => mem_checkBarrier .., State.mem_modCore,
    State.mem_modCtx]
  simp

theorem execPhaseCancel_wf {s : State} (hs : Memory.wf s.mem) (core slot : Nat) : NextWf (execPhaseCancel core slot s) := by
  have hg : ∀ (u : State) (cause : Nat), Memory.wf u.mem →
      Memory.wf (markDying (u.modCtx core slot fun c => { c with cancel := false }) core slot cause 0).mem := by
    intro u cause hu
    simp [hu]
  unfold execPhaseCancel
  dsimp only
  split
  next t k _ hk =>
    split
    · exact hs
    split
    · exact hg _ _ hs
    split
    · exact hg _ _ hs
    split
    next u hu =>
      have hub : Memory.wf u.mem := wf_replayLog (s := s.setCur ⟨core, slot, .x⟩) hs hu
      split
      next v hv =>
        have hvb : v.mem = u.mem := mem_framesChecked (u.setCur s.cur) _ v hv
        simp [hvb, hub]
      next => exact hg (u.setCur s.cur) _ hub
    next => exact hs
    next => exact hg _ _ hs
    next => exact hg _ _ hs
  next => exact hs

/-! ### Collectives -/

@[simp] theorem mem_readCode (s : State) (t : Tensor) (c : List Int) : GotMem s (readCode s t c) := by
  unfold readCode
  split
  · split
    next => simp
    next => exact (mem_readPlanes s _ _ _ _ _).map fun _ => rfl
  · exact (mem_readElement s _ _).map fun _ => rfl

@[simp] theorem mem_readLinear (t : Tensor) (n i : Nat) (s : State) : GotMem s (readLinear t n i s) := by
  induction n generalizing i s with
  | zero => simp [readLinear]
  | succ n ih =>
    unfold readLinear
    split
    next => simp
    next u x hu =>
      have hub : u.mem = s.mem := by
        revert hu
        split
        · exact fun hu => mem_readCode s _ _ _ hu
        · rintro ⟨⟩
          rfl
      split
      next v xs hv =>
        have h : v.mem = s.mem := (ih (i + 1) u _ hv).trans hub
        exact gotMem_ok.2 h
      next => simp

@[simp] theorem mem_planeCells (s : State) (t : Tensor) (tile e v : Nat) (is : List Nat) (m : Sparse Byte) :
    GotMem s (planeCells s t tile e v is m) := by
  induction is generalizing s m with
  | nil => simp [planeCells]
  | cons i is ih =>
    unfold planeCells
    split
    next => simp
    next u p hu =>
      split
      · simp
      · exact fun r hr => (ih u _ r hr).trans (mem_tilePlace s _ _ _ _ hu)

@[simp] theorem mem_gatherCodes (t : Tensor) (vs : List Nat) (i : Nat) (s : State) (m : Sparse Byte) :
    GotMem s (gatherCodes t vs i s m) := by
  induction vs generalizing i s m with
  | nil => simp [gatherCodes]
  | cons v vs ih =>
    unfold gatherCodes
    split
    next => exact ih _ s _
    next =>
      split
      next => simp
      next u m' hu => exact fun r hr => (ih _ u _ r hr).trans (mem_planeCells s _ _ _ _ _ _ _ hu)

theorem wf_writeLinear {s : State} (hs : Memory.wf s.mem) (t : Tensor) (i : Nat) (es : List Nat) : GotWf (writeLinear s t i es) := by
  unfold writeLinear
  split
  · intro r hr
    cases hg : gatherCodes t es i s [] with
    | error e => rw [hg] at hr; cases hr
    | ok q =>
      rw [hg] at hr
      cases hr
      exact wf_writeLines ((congrArg Memory.wf (mem_gatherCodes _ _ _ s _ q hg)).trans hs) _ _ _
  · exact wf_writeUnits hs _ _

@[simp] theorem mem_readSide (s : State) (kind : Nat) (r : List Byte) : GotMem s (readSide s kind r) := by
  unfold readSide
  dsimp only
  split
  · exact mem_readLinear _ _ _ s
  · split
    next x hx =>
      have h : x.1.mem = s.mem := mem_readScratch s _ _ _ _ _ hx
      exact gotMem_ok.2 h
    next => simp

theorem wf_writeSide {s : State} (hs : Memory.wf s.mem) (r : List Byte) (es : List Nat) : GotWf (writeSide s r es) := by
  unfold writeSide
  split
  · exact wf_writeLinear hs _ _ _
  · dsimp only
    split
    next => simp
    next u last hu =>
      have hub : Memory.wf u.mem := (congrArg Memory.wf (mem_readScratch s _ _ _ _ _ hu)).trans hs
      split
      next t ht => exact gotWf_ok.2 (wf_writeScratch hub _ _ _ _ t ht)
      next => simp

@[simp] theorem mem_nameSide (s : State) (r : List Byte) (used : Bool) (slot first span : Nat) :
    GotMem s (nameSide s r used slot first span) := by
  unfold nameSide
  split
  · simp
  split
  · split <;> simp
  split
  next => simp
  next u bs hu =>
    have hb : u.mem = s.mem := mem_nameTensor s _ _ _ hu
    split <;> simp [hb]

theorem checkColl_wf {s : State} (hs : Memory.wf s.mem) (kind : Nat) (a : B5) {k : State → List Byte → List Nat → Act}
    (hk : ∀ t r es, Memory.wf t.mem → (k t r es).Wf) : (checkColl s kind a k).Wf := by
  unfold checkColl
  refine afterPrivilege_wf _ <| .ite trivial <| .ite trivial <| .wait_or hs <| withScratch_wf hs _ _ fun s r hs =>
    .ite trivial <| withScratch_wf hs _ _ fun s bytes hs => .ite trivial ?_
  split
  next => exact missAct_wf hs _
  next s1 src h1 =>
    have hb1 : s1.mem = s.mem := mem_nameSide s _ _ _ _ _ _ h1
    split
    next => exact missAct_wf hs _
    next s2 dst h2 =>
      have hb2 : s2.mem = s.mem := (mem_nameSide s1 _ _ _ _ _ _ h2).trans hb1
      dsimp only
      split
      · exact missAct_wf hs _
      · exact hk _ _ _ ((congrArg Memory.wf hb2).trans hs)

@[simp] theorem mem_sendMsg (s : State) (m : Msg) : (sendMsg s m).mem = s.mem := by simp [sendMsg]
@[simp] theorem mem_noteSends (s : State) : (noteSends s).mem = s.mem := rfl
@[simp] theorem mem_heardMsg (s : State) (m : Msg) : (heardMsg s m).mem = s.mem := by
  unfold heardMsg
  dsimp only
  split <;> rfl

@[simp] theorem mem_noteDelivered (s : State) (ms : List Msg) : (noteDelivered s ms).mem = s.mem := rfl
@[simp] theorem mem_releaseMsgs (s : State) (p : PartyId) : (releaseMsgs s p).mem = s.mem := rfl
@[simp] theorem mem_keepSenders (s : State) (ms : List Msg) : (keepSenders s ms).mem = s.mem := by
  refine mem_foldl (fun t m => ?_) _ _
  split
  · split
    · split
      · simp
      · rfl
    · rfl
  · rfl

theorem collStep_wf {s : State} (hs : Memory.wf s.mem) (c : Coll) : (collStep s c).Wf := by
  have h0 : Memory.wf (s.modMe fun x => { x with busy := x.busy.map fun k => (.coll c, k.2) }).mem := by simp [hs]
  unfold collStep
  extract_lets s0 ms s1
  have h1 : Memory.wf s1.mem := (congrArg Memory.wf (mem_foldl mem_heardMsg _ _)).trans hs
  clear_value s1
  split
  · exact h0
  split
  · split
    · exact endMiss_wf (s := releaseMsgs s s.cur) hs _ _
    · exact h0
  · exact missAct_wf h0 _
  next t ht => exact wf_writeSide h1 _ _ _ ht
  next t ht =>
    have h : Memory.wf t.mem := wf_writeSide h1 _ _ _ ht
    simp [h]

theorem beginColl_wf {s : State} (hs : Memory.wf s.mem) (kind : Nat) (r : List Byte) (es : List Nat) (rank : Nat) (value : Word)
    (got : Sparse (List Byte)) : (beginColl s kind r es rank value got).Wf := by
  unfold beginColl
  dsimp only
  split
  · exact collStep_wf hs _
  · exact hs

@[simp] theorem mem_sendShares (s : State) (kind : Nat) (r : List Byte) (es : List Nat) (rank : Nat) (f : Nat → List Byte) :
    (sendShares s kind r es rank f).mem = s.mem := by simp [sendShares]

theorem execCsend_wf {s : State} (hs : Memory.wf s.mem) (w g : B2) (a : B5) : NextWf (execCsend w g a s) := by
  refine tokened_wf hs _ _ _ <| checkColl_wf hs _ _ fun s r es hs => ?_
  split
  next => exact missAct_wf hs _
  next t xs ht =>
    have h : t.mem = s.mem := mem_readSide s _ _ _ ht
    simp [h, hs]

theorem execCrecv_wf {s : State} (hs : Memory.wf s.mem) (w g : B2) (a : B5) : NextWf (execCrecv w g a s) :=
  tokened_wf hs _ _ _ <| checkColl_wf hs _ _ fun _ _ _ hs => beginColl_wf hs _ _ _ _ _ _

/-- A collective whose shares are sent begins. -/
theorem beginColl_sendShares_wf {s t : State} (hs : Memory.wf s.mem) (ht : t.mem = s.mem) (kind : Nat) (r : List Byte) (es : List Nat)
    (rank : Nat) (f : Nat → List Byte) (kind' : Nat) (r' : List Byte) (es' : List Nat) (rank' : Nat) (value : Word)
    (got : Sparse (List Byte)) : (beginColl (sendShares t kind r es rank f) kind' r' es' rank' value got).Wf :=
  beginColl_wf (by simp [ht, hs]) _ _ _ _ _ _

@[simp] theorem shareAll_wf {s : State} (hs : Memory.wf s.mem) (kind : Nat) (a : B5) : (shareAll s kind a).Wf := by
  refine checkColl_wf hs _ _ fun s r es hs => ?_
  split
  next => exact missAct_wf hs _
  next t xs ht => exact beginColl_sendShares_wf hs (mem_readSide s _ _ _ ht) ..

theorem execCbcast_wf {s : State} (hs : Memory.wf s.mem) (w g : B2) (a : B5) : NextWf (execCbcast w g a s) := by
  refine tokened_wf hs _ _ _ <| checkColl_wf hs _ _ fun s r es hs => ?_
  dsimp only
  split
  · split
    next => exact missAct_wf hs _
    next t xs ht => exact beginColl_sendShares_wf hs (mem_readSide s _ _ _ ht) ..
  · exact beginColl_wf hs _ _ _ _ _ _

theorem execCa2a_wf {s : State} (hs : Memory.wf s.mem) (w g : B2) (a : B5) : NextWf (execCa2a w g a s) := by
  refine tokened_wf hs _ _ _ <| checkColl_wf hs _ _ fun s r es hs => ?_
  split
  next => exact missAct_wf hs _
  next t xs ht => exact beginColl_sendShares_wf hs (mem_readSide s _ _ _ ht) ..

theorem execCflag_wf {s : State} (hs : Memory.wf s.mem) (w g : B2) (a b : B5) : NextWf (execCflag w g a b s) := by
  refine tokened_wf hs _ _ _ <| checkColl_wf hs _ _ fun s r es hs => beginColl_wf ?_ _ _ _ _ _ _
  rw [mem_noteSends, mem_foldl fun _ _ => mem_sendMsg ..]
  exact hs

theorem wf_failSender {s : State} (hs : Memory.wf s.mem) (m : Msg) : Memory.wf (failSender s m).mem := by
  unfold failSender
  split
  · exact wf_endSerial hs _ _ _ _
  · exact hs

@[simp] theorem mem_takeBack (s : State) (p : PartyId) (c : Coll) : (takeBack s p c).mem = s.mem := by
  refine mem_foldl (fun t m => ?_) _ s
  split
  · simp
  · rfl

@[simp] theorem mem_listTrap (s : State) (p : PartyId) (c : Coll) : (listTrap s p c).mem = s.mem := by simp [listTrap]
@[simp] theorem mem_senderListTrap (s : State) (m : Msg) : (senderListTrap s m).mem = s.mem := by
  unfold senderListTrap
  split
  · split
    · split
      · simp
      · rfl
    · rfl
  · rfl

@[simp] theorem mem_receiverListTrap (s : State) (p : PartyId) (c : Coll) : (receiverListTrap s p c).mem = s.mem := by
  simp [receiverListTrap]

theorem deliver_wf {s : State} (hs : Memory.wf s.mem) (m : Msg) (p : PartyId) (c : Coll) (w g : B2) : NextWf (deliver s m p c w g) := by
  unfold deliver
  extract_lets gone c1
  have hg : Memory.wf gone.mem := (congrArg Memory.wf (mem_heardMsg _ _)).trans hs
  clear_value gone
  split
  · exact wf_failSender (by simp [hg]) _
  split
  · simp [hs]
  · exact asParty_wf p (conclude_wf (by exact hs) _ _ (collStep_wf (by exact hs) _))

theorem execCollectiveMessageArrival_wf {s : State} (hs : Memory.wf s.mem) (k : Nat) : NextWf (execCollectiveMessageArrival k s) := by
  unfold execCollectiveMessageArrival
  split
  · split
    · exact hs
    split
    · split
      · exact deliver_wf hs _ _ _ _ _
      · exact hs
    · exact hs
  · exact hs

theorem wf_storeFlag {s : State} (hs : Memory.wf s.mem) (m : Msg) : SomeWf (storeFlag s m) := by
  unfold storeFlag
  dsimp only
  split
  · simp
  split
  next t ht => simpa using wf_writePlace (by simp [hs]) _ _ _ _ _ t ht
  next => simpa using hs

theorem answerFlag_wf {s : State} (hs : Memory.wf s.mem) (p : PartyId) (since : Option Nat) (refused : Bool) :
    NextWf (answerFlag s p since refused) := by
  have hb : ∀ y, Memory.wf (s.modParty p fun x => { x with busy := y }).mem := fun y => by simp [hs]
  unfold answerFlag
  split
  · refine NextWf.ite hs ?_
    dsimp only
    split
    · exact hb _
    split
    · exact (congrArg Memory.wf (mem_markDying ..)).trans (hb _)
    · exact asParty_wf p (conclude_wf (s := s.setCur p) hs _ _ ((Act.wf_done _ _).2 hs))
  · exact hs

theorem execFlagMessageArrival_wf {s : State} (hs : Memory.wf s.mem) (k : Nat) : NextWf (execFlagMessageArrival k s) := by
  unfold execFlagMessageArrival
  split
  next m _ =>
    split
    · exact hs
    extract_lets s1
    have h1 : Memory.wf s1.mem := (congrArg Memory.wf (mem_heardMsg _ _)).trans hs
    clear_value s1
    split
    next s2 refused h =>
      have h2 : Memory.wf s2.mem := by
        revert h
        split
        next t ht =>
          rintro ⟨⟩
          exact wf_storeFlag h1 _ _ ht
        next =>
          rintro ⟨⟩
          exact h1
      split
      · exact answerFlag_wf h2 _ _ _
      · exact h2
  next => exact hs

@[simp] theorem mem_receiveMsg (s : State) (i : Inbound) : (receiveMsg s i).mem = s.mem := by
  unfold receiveMsg
  split <;> rfl

/-! ### The Swallowtail -/

theorem execSscfg_wf {s : State} (hs : Memory.wf s.mem) (w g : B2) (a b : B5) : NextWf (execSscfg w g a b s) := by
  refine tokened_wf hs _ _ _ <| .ite trivial <| withScratch_wf hs _ _ fun s h hs => .ite trivial <|
    withScratch_wf hs _ _ fun s bs hs => ?_
  split
  · trivial
  · refine .ite trivial <| .ite trivial ?_
    simp [hs]

/-- The bytes held of a stream are written in its row (R303). -/
@[simp] theorem wf_setHeldBytes {s : State} (hs : Memory.wf s.mem) (r slot : Nat) (gen : BitVec 12) (h : List Byte) :
    Memory.wf (setHeldBytes s r slot gen h).mem := wf_writeBytes _ _ hs

theorem wf_writeThree {s : State} (hs : Memory.wf s.mem) (a b c : Nat × List Byte) : SomeWf (writeThree s a b c) := by
  unfold writeThree
  split
  next => simp
  next t ht =>
    have h1 := wf_writeScratch hs _ _ _ _ t ht
    split
    next => simp
    next u hu => exact wf_writeScratch (wf_writeScratch h1 _ _ _ _ u hu) _ _ _ _

theorem feedRow_wf {s : State} (hs : Memory.wf s.mem) (o row slot ooff : Nat) (input : List Byte) :
    (feedRow s o row slot ooff input).Wf := by
  unfold feedRow
  dsimp only
  split
  next => exact hs
  next t ht =>
    have h : Memory.wf t.mem := wf_writeThree hs _ _ _ t ht
    split <;> simp [h]

theorem execSsfeed_wf {s : State} (hs : Memory.wf s.mem) (w g : B2) (a : B5) : NextWf (execSsfeed w g a s) := by
  refine tokened_wf hs _ _ _ <| .ite trivial <| withScratch_wf hs _ _ fun s r hs => .ite trivial <| .ite trivial <| .wait_or hs ?_
  split
  next => exact hs
  next t ht =>
    obtain ⟨u, hu, ht⟩ := Option.bind_eq_some_iff.1 ht
    have h : t.mem = s.mem := (mem_rowChecked u _ _ _ t ht).trans (mem_rowChecked s _ _ _ u hu)
    exact withScratch_wf ((congrArg Memory.wf h).trans hs) _ _ fun v x hv => feedRow_wf hv _ _ _ _ _

end Sys2Proof.Machine
end

section
/-! PROOFS. What each instruction makes of memory (O58): the lemmas of its body, put together by how it runs. -/

namespace Sys2Proof.Machine

/-! ### Instructions that the lemmas of the files above do not name -/

theorem execMts_wf {s : State} (hs : Memory.wf s.mem) (a : B6) (r : BitVec 13) : NextWf (execMts a r s) := by
  refine control_wf hs ?_
  split
  · trivial
  split
  · trivial
  split
  · simp [hs]
  split
  next t ht => exact wf_writeReg hs _ _ t ht
  next => trivial

theorem execMfs_wf {s : State} (hs : Memory.wf s.mem) (d : B6) (r : BitVec 13) : NextWf (execMfs d r s) := by
  refine control_wf hs ?_
  split
  · trivial
  · simp [hs]

/-- A register write as an event leaves the state as it is, or makes of it what the write does. -/
theorem regEvent_wf {s : State} {o : Option State} (hs : Memory.wf s.mem) (ho : SomeWf o) : NextWf (regEvent s o) := by
  rw [regEvent, nextWf_next]
  split
  · exact ho.getD hs
  · exact hs

/-- The same of a write that leaves memory alone. -/
theorem regEvent_wf_of_keeps {s t : State} (hs : Memory.wf s.mem) (h : KeepsRegsAndMem s t) : NextWf (regEvent s (some t)) :=
  regEvent_wf hs (someWf_some.2 ((congrArg Memory.wf h.mem).trans hs))

theorem execRegisterWrite_wf {s : State} (hs : Memory.wf s.mem) (target : RegTarget) (v : Nat) :
    NextWf (execRegisterWrite target v s) := by
  cases target with
  | sysreg n =>
    rw [execRegisterWrite, nextWf_next]
    split
    · exact (wf_writeReg hs _ _).getD hs
    · exact hs
  | qiv p q => simp [execRegisterWrite, hs]
  | atnonce => exact occurs_wf hs _ hs
  | ataddr => exact occurs_wf hs _ hs

theorem execTokw_wf {s : State} (hs : Memory.wf s.mem) (k : B2) : NextWf (execTokw k s) := by
  unfold execTokw
  split
  · exact conclude_wf hs _ _ trivial
  · split <;> exact conclude_wf hs _ _ hs

theorem execToks_wf {s : State} (hs : Memory.wf s.mem) (k : B2) : NextWf (execToks k s) := by
  unfold execToks
  split
  · exact conclude_wf hs _ _ trivial
  · exact conclude_wf hs _ _ hs

theorem execFence_wf {s : State} (hs : Memory.wf s.mem) (w g : B2) (p : BitVec 4) (c : B2) : NextWf (execFence w g p c s) := by
  unfold execFence
  split
  · exact conclude_wf hs _ _ trivial
  · exact tokened_wf hs _ _ _ (by simp [hs])

@[simp] theorem mem_pushItem (s : State) (k : Nat) (i : Item) : (pushItem s k i).mem = s.mem := rfl

theorem execEnq_wf {s : State} (hs : Memory.wf s.mem) (w g : B2) (f : B6) (n : BitVec 3) (e : BitVec 9) (q : BitVec 3) :
    NextWf (execEnq w g f n e q s) := by
  unfold execEnq
  split
  · exact conclude_wf hs _ _ trivial
  · refine tokened_wf hs _ _ _ ?_
    dsimp only
    exact .ite trivial <| .wait_or hs (by simp [hs])

theorem execEntryBegin_wf {s : State} (hs : Memory.wf s.mem) (p : PartyId) : NextWf (execEntryBegin p s) := by
  unfold execEntryBegin
  split
  · exact occurs_wf hs _ ((congrArg Memory.wf (mem_beginEntry ..)).trans hs)
  · exact hs

theorem execMarkRetire_wf {s : State} (hs : Memory.wf s.mem) (p : PartyId) : NextWf (execMarkRetire p s) := by
  unfold execMarkRetire
  split
  · exact occurs_wf hs _ (by simp [hs])
  · exact hs

theorem execNotifyRetire_wf {s : State} (hs : Memory.wf s.mem) (p : PartyId) : NextWf (execNotifyRetire p s) := by
  unfold execNotifyRetire
  split
  · exact occurs_wf hs _ (by simp [hs])
  · exact hs

theorem execQfenceJoinRelease_wf {s : State} (hs : Memory.wf s.mem) (core slot : Nat) : NextWf (execQfenceJoinRelease core slot s) := by
  unfold execQfenceJoinRelease
  split
  · exact occurs_wf hs _ (by simp [mem_foldl_popItem, hs])
  · exact hs

theorem execWaitevTimeout_wf {s : State} (hs : Memory.wf s.mem) (p : PartyId) : NextWf (execWaitevTimeout p s) := by
  unfold execWaitevTimeout
  split
  · split
    · exact asParty_wf p (execWaitev_wf (s := s.setCur p) hs _ _ _)
    · exact hs
  · exact hs

theorem execSuperstepAdvance_wf {s : State} (hs : Memory.wf s.mem) (part queue : Nat) : NextWf (execSuperstepAdvance part queue s) := by
  unfold execSuperstepAdvance
  exact occurs_wf hs _ ((congrArg Memory.wf (mem_foldl (fun _ _ => mem_stepSlot ..) _ s)).trans hs)

theorem execEnergyTick_wf {s : State} (hs : Memory.wf s.mem) (used : List (Nat × Nat × Nat × Nat)) :
    NextWf (execEnergyTick used s) := by
  unfold execEnergyTick
  extract_lets _ _ t spent
  have ht : t.mem = s.mem := mem_countOut s
  exact occurs_wf hs _ ((congrArg Memory.wf ((mem_foldl mem_haltPart _ t).trans ht)).trans hs)

theorem execBoostInterval_wf {s : State} (hs : Memory.wf s.mem) : NextWf (execBoostInterval s) := by
  unfold execBoostInterval
  extract_lets t
  have ht : Memory.wf t.mem := (congrArg Memory.wf (mem_foldl mem_boostHamper _ s)).trans hs
  clear_value t
  exact occurs_wf hs _ ht

theorem execBoostRefill_wf {s : State} (hs : Memory.wf s.mem) : NextWf (execBoostRefill s) := by
  unfold execBoostRefill
  extract_lets t
  have ht : Memory.wf t.mem := (congrArg Memory.wf (mem_foldl mem_refillPool _ s)).trans hs
  clear_value t
  exact occurs_wf hs _ ht

theorem execScrubComplete_wf {s : State} (hs : Memory.wf s.mem) (core : Nat) : NextWf (execScrubComplete core s) := by
  unfold execScrubComplete
  extract_lets other old s1 f
  have h1 : Memory.wf s1.mem :=
    wf_foldl (fun _ _ ht => wf_scrubWeights (wf_scrubWeights ht _ _) _ _) _ (wf_scrubCore (wf_scrubCore hs _) _)
  clear_value s1
  exact occurs_wf hs _ (by simp [h1])

theorem execWfree_wf {s : State} (hs : Memory.wf s.mem) (w g : B2) : NextWf (execWfree w g s) := by
  refine tokened_wf hs _ _ _ ?_
  split
  · exact hs
  split
  · trivial
  refine .wait_or hs ?_
  extract_lets next t u
  have ht : t.mem = s.mem := mem_foldl (fun _ _ => State.mem_modParty ..) _ _
  simp [u, ht, hs]

theorem execHldw_wf {s : State} (hs : Memory.wf s.mem) (w g : B2) (d a b : B6) : NextWf (execHldw w g d a b s) := by
  refine tokened_wf hs _ _ _ ?_
  dsimp only
  have hr : Memory.wf (readLife s (s.reg a.toNat)).mem := by simp [hs]
  split
  · trivial
  split
  · exact hs
  split
  · simp [hs]
  split
  · trivial
  · exact .wait_or hr <| readNow_wf hr _ _ fun t bs ht => by simp [ht]

theorem execMzero_wf {s : State} (hs : Memory.wf s.mem) (w g : B2) (a : B5) : NextWf (execMzero w g a s) :=
  tokened_wf hs _ _ _ <| by simp [wf_foldl fun _ _ ht => wf_writeTile ht _ _ _, hs]

theorem execXcrc_wf {s : State} (hs : Memory.wf s.mem) (w g : B2) (d a b : B5) : NextWf (execXcrc w g d a b s) := by
  refine tokened_wf hs _ _ _ ?_
  dsimp only
  exact .ite trivial <| withScratch_wf hs _ _ fun t bs ht => by simp [ht]

/-! ### Dispatch -/

theorem exec_wf (i : Instr) {s : State} (hs : Memory.wf s.mem) : NextWf (exec i s) := by
  cases i <;> rw [exec]
  case add | sub | and | or | xor | shl | shr | sar | mul | mulh | mulhu | div | divu | rem | remu | min | max | minu | maxu | slt | sltu
  | clz | popc | addi | andi | ori | xori | slti | sltiu | shli | shri | sari | lui | addpc | agen | beq | bne | blt | bge | bltu | bgeu
  | jmp | jal | jr | loop | loopi | rep | lexit | nop | endOp | trap => exact control_wf hs (by simp [hs])
  case ldb | ldh | ldw | ldd | ldbu | ldhu | ldwu | lda | ldc | stb | sth | stw | std | stl | amoAdd | amoAnd | amoOr | amoXor | amoMin
  | amoMax | amoSwap | cas | qfence | mark | rdv | notify | join | leave | bar | wlock | unpin | pgate | clkdiv
  | bgone | sxrst | vadd | vsub | vmul | vfma | vmin | vmax
  | vabs | vcmp | vsel | vand | vor | vxor | vshl | vshr | vcvt | vqnt | vdq | vbpk | vbun | vrcp | vrsq | vexp2 | vlog2 | vred | vscan
  | vperm | vbcsElement | vbcsScalar | vimm | vmov | vmovA | vaddi | vsbal | vnoise | mnest | mwt | xcopy | xfill | xgath | xscat
  | xtrw | xtru | xtbld | xref | cred | cgath | csamp => exact tokened_wf hs _ _ _ (by simp [hs])
  case qwp | qbase | qcpl | qstat | residencyReport | interruptCoalesceExpiry | lookoutTick | katCheck | counterPublish | energyRefill
  | levelGrant | katbThreshold | takeRecord | gateGrant | coreWake => exact occurs_wf hs _ (by simp [hs])
  case sstep => exact tokened_wf hs _ _ _ (by split <;> simp [hs])
  case probe | hfree | hupg | hdng | hpri | winpub | winacq | winclose | sxapp =>
    refine tokened_wf hs _ _ _ ?_
    dsimp only
    repeat' split
    all_goals simp [hs]
  case hldw => exact execHldw_wf hs _ _ _ _ _
  case wfree => exact execWfree_wf hs _ _
  case mzero => exact execMzero_wf hs _ _ _
  case xcrc => exact execXcrc_wf hs _ _ _ _ _
  case phswap => exact tokened_wf hs _ _ _ (phswap_wf hs _ _)
  case eret => exact supervised_wf hs _ _ (eret_wf hs _ _)
  case ctxsv => exact supervised_wf hs _ _ (ctxsv_wf hs _ _)
  case ctxld => exact supervised_wf hs _ _ (ctxld_wf hs _ _ _)
  case flitCrcError => simpa [execFlitCrcError] using hs
  case fabricMemoryRequest => simpa [execFabricMemoryRequest] using hs
  case prst v => exact regEvent_wf hs (someWf_some.2 (wf_writePrst hs v))
  case cpart v => exact regEvent_wf hs (fun t ht => (congrArg Memory.wf (writeCpart_keeps s v t ht).mem).trans hs)
  case cstat v => exact regEvent_wf hs (fun t ht => (congrArg Memory.wf (writeCstat_keeps s v t ht).mem).trans hs)
  case frown v => exact regEvent_wf_of_keeps hs (writeFrown_keeps s v)
  case frg v => exact regEvent_wf_of_keeps hs (writeFrg_keeps s v)
  case keyb v => exact regEvent_wf_of_keeps hs (writeKeyb_keeps s v)
  case keyn v => exact regEvent_wf_of_keeps hs (writeKeyn_keeps s v)
  case rslot v => exact regEvent_wf_of_keeps hs (writeRslot_keeps s v)
  case flpg v => exact regEvent_wf_of_keeps hs (writeFlpg_keeps s v)
  case ecap v => exact regEvent_wf_of_keeps hs (writeEcap_keeps s v)
  case plmaps v => exact regEvent_wf_of_keeps hs (writePlmaps_keeps s v)
  case pwsh v => exact regEvent_wf_of_keeps hs (writePwsh_keeps s v)
  case eadj v => exact regEvent_wf_of_keeps hs (writeEadj_keeps s v)
  case dlbase v => exact regEvent_wf_of_keeps hs (writeDlbase_keeps s v)
  case dltail v => exact regEvent_wf_of_keeps hs (writeDltail_keeps s v)
  case mfs => exact execMfs_wf hs _ _
  case mts => exact execMts_wf hs _ _
  case tokw => exact execTokw_wf hs _
  case toks => exact execToks_wf hs _
  case waitev => exact execWaitev_wf hs _ _ _
  case fence => exact execFence_wf hs _ _ _ _
  case mwait => exact execMwait_wf hs _ _ _ _ _
  case mwaitWake => exact execMwaitWake_wf hs _
  case enq => exact execEnq_wf hs _ _ _ _ _ _
  case superstepAdvance => exact execSuperstepAdvance_wf hs _ _
  case swpt => exact execSwpt_wf hs _ _
  case boost => exact execBoost_wf hs _ _ _ _
  case seqclm => exact execSeqclm_wf hs _ _ _ _ _
  case seqadv => exact execSeqadv_wf hs _ _ _ _ _
  case sxqry => exact execSxqry_wf hs _ _ _ _ _
  case hnew => exact execHnew_wf hs _ _ _ _ _
  case winopen => exact execWinopen_wf hs _ _ _ _
  case sxsav => exact execSxsav_wf hs _ _ _ _ _
  case sxld => exact execSxld_wf hs _ _ _ _ _
  case vspsh => exact execVspsh_wf hs _ _ _ _ _
  case vspop => exact execVspop_wf hs _ _ _ _
  case gcfg => exact execGcfg_wf hs _ _ _ _
  case grst => exact execGrst_wf hs _ _ _
  case vqEntryArrival => exact execVqEntryArrival_wf hs _
  case mrun => exact execMrun_wf hs _ _ _ _ _
  case runComplete => exact execRunComplete_wf hs _
  case mldc => exact execMldc_wf hs _ _ _ _
  case mldcComplete => exact execMldcComplete_wf hs _
  case mdrain => exact execMdrain_wf hs _ _ _ _ _
  case drainComplete => exact execDrainComplete_wf hs _
  case mkat => exact execMkat_wf hs _ _ _
  case msig => exact execMsig_wf hs _ _ _ _
  case xfeed => exact execXfeed_wf hs _ _ _ _ _
  case copyChunkComplete => exact execCopyChunkComplete_wf hs _
  case xtrd => exact execXtrd_wf hs _ _ _ _
  case xtdef => exact execXtdef_wf hs _ _ _ _
  case xws => exact execXws_wf hs _ _ _
  case csend => exact execCsend_wf hs _ _ _
  case crecv => exact execCrecv_wf hs _ _ _
  case cbcast => exact execCbcast_wf hs _ _ _
  case ca2a => exact execCa2a_wf hs _ _ _
  case cflag => exact execCflag_wf hs _ _ _ _
  case collectiveMessageArrival => exact execCollectiveMessageArrival_wf hs _
  case flagMessageArrival => exact execFlagMessageArrival_wf hs _
  case sscfg => exact execSscfg_wf hs _ _ _ _
  case ssfeed => exact execSsfeed_wf hs _ _ _
  case entryBegin => exact execEntryBegin_wf hs _
  case markRetire => exact execMarkRetire_wf hs _
  case notifyRetire => exact execNotifyRetire_wf hs _
  case qfenceJoinRelease => exact execQfenceJoinRelease_wf hs _ _
  case waitevTimeout => exact execWaitevTimeout_wf hs _
  case powerGood => exact execPowerGood_wf hs _
  case remoteWriteArrival => exact execRemoteWriteArrival_wf hs _
  case remoteLoadArrival => exact execRemoteLoadArrival_wf hs _
  case hostAccess => exact execHostAccess_wf hs _ _
  case fabricLaunchPacket => exact execFabricLaunchPacket_wf hs _
  case qcfg => exact execQcfg_wf hs _ _ _
  case atgo => exact execAtgo_wf hs _
  case launchHead => exact execLaunchHead_wf hs _ _
  case taskStart => exact execTaskStart_wf hs _
  case taskResume => exact execTaskResume_wf hs _
  case taskCompletion => exact execTaskCompletion_wf hs _ _
  case preemptWaitExpiry => exact execPreemptWaitExpiry_wf hs _
  case preemption => exact execPreemption_wf hs _ _
  case energyTick => exact execEnergyTick_wf hs _
  case boostInterval => exact execBoostInterval_wf hs
  case boostRefill => exact execBoostRefill_wf hs
  case lookoutExpiry => exact execLookoutExpiry_wf hs _ _
  case patrolRead => exact execPatrolRead_wf hs _
  case phaseCancel => exact execPhaseCancel_wf hs _ _
  case contextError => exact execContextError_wf hs _ _
  case supervisorRestart => exact execSupervisorRestart_wf hs _
  case resetDrainExpiry => exact execResetDrainExpiry_wf hs
  case partitionResetComplete => exact execPartitionResetComplete_wf hs
  case scrubComplete => exact execScrubComplete_wf hs _
  case frameReassignComplete => exact execFrameReassignComplete_wf hs _
  case registerWrite => exact execRegisterWrite_wf hs _ _
  case objectDestruction => exact execObjectDestruction_wf hs _ _
  case linkFailure => exact execLinkFailure_wf hs _
  case trellisInstructionEnd => exact execTrellisInstructionEnd_wf hs _
  case weightStoreWriteComplete => exact execWeightStoreWriteComplete_wf hs _
  case keyManifestLoad => exact execKeyManifestLoad_wf hs _
  case firmwareImageLoad => exact execFirmwareImageLoad_wf hs _

end Sys2Proof.Machine
end

section
/-! PROOFS. What the turns of the machine make of memory, and that every step keeps its canonical form (O58). -/

namespace Sys2Proof.Machine

/-! ### Turns -/

@[simp] theorem mem_fetchCheck (s : State) (p : PartyId) : SomeMem s (fetchCheck s p) := by
  unfold fetchCheck
  dsimp only
  split <;> simp

theorem runWord_wf {s : State} (hs : Memory.wf s.mem) (p : PartyId) : NextWf (runWord s p) := by
  refine asParty_wf p ?_
  have hc : Memory.wf (s.setCur p).mem := hs
  split
  · exact exec_wf _ hc
  · exact conclude_wf hc _ _ trivial

theorem issueAlone_wf {s : State} (hs : Memory.wf s.mem) (p : PartyId) : NextWf (issueAlone s p) := by
  have hc : Memory.wf (s.setCur p).mem := hs
  unfold issueAlone
  dsimp only
  split
  · exact asParty_wf p ((congrArg Memory.wf (mem_finishPush _)).trans hc)
  split
  · exact hs
  split
  · exact asParty_wf p (conclude_wf hc _ _ (feedStep_wf hc _ _ _))
  · exact asParty_wf p (conclude_wf hc _ _ (trellisFeedStep_wf hc _ _ _))
  · split
    · exact asParty_wf p (conclude_wf hc _ _ (collStep_wf hc _))
    · exact hs
  · exact hs
  · split
    next t ht => exact runWord_wf ((congrArg Memory.wf (mem_fetchCheck s p t ht)).trans hs) p
    next => simp [hs]

@[simp] theorem mem_reclaimWaiting (s : State) (e : Nat × Obj) : (reclaimWaiting s e).mem = s.mem := by
  unfold reclaimWaiting
  split <;> simp

@[simp] theorem mem_keepMarks (s t : State) (core slot : Nat) : (keepMarks s t core slot).mem = s.mem := by
  unfold keepMarks
  dsimp only
  rw [State.mem_setLast, State.mem_modCtx, mem_foldl fun _ _ => State.mem_modParty ..]

theorem wf_runBundle {core slot : Nat} {ws : List Party} {b d : Bundle} (hb : Memory.wf b.state.mem)
    (h : runBundle core slot ws b = .ok d) : Memory.wf d.state.mem := by
  induction ws generalizing b with
  | nil => cases h; exact hb
  | cons w ws ih =>
    rw [runBundle] at h
    have hr := runWord_wf hb ⟨core, slot, w⟩
    split at h
    next t ht =>
      rw [ht] at hr
      split at h
      · cases h; exact hr
      · dsimp only at h
        split at h
        · cases h; exact hr
        · exact ih (b := { b with state := t, waits := _, victims := _ }) hr h
    next => cases h
    next => cases h; exact hb

theorem mem_fetchAllChecked (ids : List PartyId) (s : State) :
    SomeMem s (ids.foldl (fun (r : Option State) p => match r with | some t => fetchCheck t p | none => none) (some s)) := by
  suffices h : ∀ r, SomeMem s r →
      SomeMem s (ids.foldl (fun (r : Option State) p => match r with | some t => fetchCheck t p | none => none) r) from
    h _ (by simp)
  induction ids with
  | nil => exact fun _ h => h
  | cons p ids ih =>
    intro r hr
    refine ih _ ?_
    dsimp only
    split
    next t => exact (mem_fetchCheck t p).trans (someMem_some.1 hr)
    next => simp

theorem issueBundle_wf {s : State} (hs : Memory.wf s.mem) (core slot : Nat) : NextWf (issueBundle s core slot) := by
  unfold issueBundle
  dsimp only
  split
  · exact hs
  split
  next => simp [hs]
  next s0 h0 =>
    have hb0 : Memory.wf s0.mem := (congrArg Memory.wf (mem_fetchAllChecked _ s s0 h0)).trans hs
    split
    next => trivial
    next b hb =>
      have hbb := wf_runBundle (b := ⟨s0, none, false, []⟩) hb0 hb
      split
      next p u _ => simp [hb0]
      next =>
        split
        · exact (congrArg Memory.wf ((mem_keepMarks ..).trans (mem_foldl mem_reclaimWaiting _ _))).trans hb0
        · split <;> simp [hbb]

theorem issue_wf {s : State} (hs : Memory.wf s.mem) (p : PartyId) : NextWf (issue s p) := by
  unfold issue
  split
  · simp [hs]
  split
  · exact hs
  split
  · exact issueBundle_wf hs _ _
  · exact issueAlone_wf hs _

theorem early_wf {s : State} (hs : Memory.wf s.mem) (p : PartyId) (n : Nat) : NextWf (early s p n) := by
  unfold early
  split
  · exact hs
  extract_lets t r
  have ht : Memory.wf t.mem := (congrArg Memory.wf (mem_foldl (fun _ _ => mem_withLag ..) _ s)).trans hs
  clear_value t
  have hr : NextWf r := by
    unfold r
    split
    · exact execCopyChunkComplete_wf ht _
    · exact execTrellisInstructionEnd_wf ht _
    · exact issue_wf ht _
  clear_value r
  split
  · exact (congrArg Memory.wf (mem_foldl (fun _ _ => mem_withLag ..) _ _)).trans hr
  · exact hr

@[simp] theorem mem_countBusy (s : State) (us : Nat) : (countBusy s us).mem = s.mem := by
  unfold countBusy
  split
  · rfl
  · refine mem_foldl (fun t e => ?_) _ s
    split <;> simp

@[simp] theorem mem_passTime (s : State) (ns : Nat) : (passTime s ns).mem = s.mem :=
  mem_countBusy
    { s with queues := s.queues.map fun e => (e.1, { e.2 with head := e.2.head.map fun l =>
      { l with waited := l.waited + waitedIn s (e.1 / 32) l (min ns (nextDue s.due - s.time)) } }) }
    ((s.time + min ns (nextDue s.due - s.time)) / 1000 - s.time / 1000)

@[simp] theorem mem_flipWord (s : State) (addr flipped : Nat) : (flipWord s addr flipped).mem = s.mem := by
  unfold flipWord
  split <;> rfl

@[simp] theorem mem_spoilScalar (s : State) (p : PartyId) (n : Nat) : (spoilScalar s p n).mem = s.mem := by simp [spoilScalar]
@[simp] theorem mem_spoilVector (s : State) (p : PartyId) (n k : Nat) : (spoilVector s p n k).mem = s.mem := by
  unfold spoilVector
  split <;> simp

@[simp] theorem mem_spoilVertical (s : State) (core k : Nat) : (spoilVertical s core k).mem = s.mem := by simp [spoilVertical]
@[simp] theorem mem_spoilOperand (s : State) (core : Nat) (second : Bool) (k : Nat) : (spoilOperand s core second k).mem = s.mem := by
  simp [spoilOperand]
@[simp] theorem mem_spoilSuffix (s : State) (n : Nat) : (spoilSuffix s n).mem = s.mem := by
  unfold spoilSuffix
  split <;> simp

@[simp] theorem mem_countBytes (s : State) (unit index n : Nat) : (countBytes s unit index n).mem = s.mem := by
  unfold countBytes
  split
  · split <;> simp
  · split <;> simp
  · rfl
  · rfl

@[simp] theorem mem_disturb (s : State) (core slot : Nat) : (disturb s core slot).mem = s.mem := by simp [disturb]

theorem wf_matchedWrongly {s : State} (hs : Memory.wf s.mem) (p : PartyId) (serial : Nat) : Memory.wf (matchedWrongly s p serial).mem :=
  wf_endSerial hs _ _ _ _

@[simp] theorem mem_assignPage (s : State) (part page va : Nat) : (assignPage s part page va).mem = s.mem := by simp [assignPage]

theorem play_wf (t : Turn) {s : State} (hs : Memory.wf s.mem) : NextWf (play t s) := by
  unfold play
  cases t with
  | issue p => exact issue_wf hs _
  | early p n => exact early_wf hs _ _
  | occur i => dsimp only; split <;> simp [hs, exec_wf]
  | answer p refused => dsimp only; split <;> simp [hs, answerFlag_wf]
  | setAside f b =>
    cases b
    · exact hs
    · dsimp only
      split <;> exact hs
  | perform p k => dsimp only; split <;> simp [hs, wf_performLate]
  | corrected d | spoilScalar p n | spoilVector p n k | withhold core slot | setTenant r v =>
    dsimp only
    split <;> simp [hs]
  | _ => simp [hs, wf_matchedWrongly, wf_bringUp]

@[simp] theorem mem_nextTurn (s : State) : (nextTurn s).2.mem = s.mem := by
  have h := mem_grantGates s
  unfold nextTurn
  dsimp only
  split <;> exact h

/-! ### A step -/

theorem step_wf {s : State} (hs : Memory.wf s.mem) : NextWf (step s) := play_wf _ ((congrArg Memory.wf (mem_nextTurn s)).trans hs)

/-- Settles O58, from the lemma of each function of the machine. -/
theorem stepKeepsInv : Obligations.StepKeepsInv := by
  intro s t hs h
  have hn := step_wf hs
  rw [h] at hn
  exact hn

end Sys2Proof.Machine
end

section
/-! PROOFS. Rows (O21): what a field of a row reads after a write of another, and the walk of a SEQCLM (R289, R293, R294). -/

namespace Sys2Proof.Machine

/-! ## The fields of rows -/

theorem natOfBytes_bytesOfNat (n v : Nat) : natOfBytes (bytesOfNat n v) = v % 2 ^ (8 * n) := by
  induction n generalizing v with
  | zero => simp [bytesOfNat, natOfBytes, Nat.mod_one]
  | succ n ih =>
    rw [bytesOfNat, natOfBytes, ih, BitVec.toNat_ofNat, Nat.mul_succ, pow_add, mul_comm (2 ^ (8 * n)), Nat.mod_mul]
    rfl

section
variable {s t : State} {r r' o o' len len' v : Nat}

/-- A row is read from memory alone. -/
theorem rowGet_congr (h : t.mem = s.mem) (r o len : Nat) : rowGet t r o len = rowGet s r o len := by rw [rowGet, rowGet, h]
theorem rowPhase_congr (h : t.mem = s.mem) (r : Nat) : rowPhase t r = rowPhase s r := rowGet_congr h r 9 1
theorem rowClaimed_congr (h : t.mem = s.mem) (r : Nat) : rowClaimed t r = rowClaimed s r := by
  rw [rowClaimed, rowClaimed, rowGet_congr h]

theorem rowGet_lt (s : State) (r o len : Nat) : rowGet s r o len < 2 ^ (8 * len) := by
  simpa [rowGet] using natOfBytes_lt (readBytes s.mem (rowPhys r o) len)

/-- A field written is the field read. -/
theorem rowGet_rowPut_same (h : s.Inv) : rowGet (rowPut s r o len v) r o len = v % 2 ^ (8 * len) := by
  have hread := readBytes_writeBytes (rowPhys r o) (bytesOfNat len v) h
  rw [length_bytesOfNat] at hread
  rw [rowGet, rowPut, hread, natOfBytes_bytesOfNat]

/-- Bytes of rows outside a field written read as before. -/
theorem rowGet_rowPut_outside (h : s.Inv) (hout : rowPhys r' o' + len' ≤ rowPhys r o ∨ rowPhys r o + len ≤ rowPhys r' o') :
    rowGet (rowPut s r o len v) r' o' len' = rowGet s r' o' len' := by
  refine congrArg natOfBytes (readBytes_eq_iff.2 fun x hlow hhigh => readByte_writeBytes_outside _ _ _ h ?_)
  rw [length_bytesOfNat]
  omega

/-- A field of a row is apart from every other field of the row. -/
theorem rowGet_rowPut_field (h : s.Inv) (hout : o' + len' ≤ o ∨ o + len ≤ o') :
    rowGet (rowPut s r o len v) r o' len' = rowGet s r o' len' :=
  rowGet_rowPut_outside h (by simp only [rowPhys, phys]; omega)

end

/-- Row `r` reads in `t` as in `s`. -/
def SameRow (s t : State) (r : Nat) : Prop := ∀ o len, o + len ≤ 128 → rowGet t r o len = rowGet s r o len

namespace SameRow

variable {s t u : State} {r r' o len v : Nat}

theorem of_mem (h : t.mem = s.mem) : SameRow s t r := fun _ _ _ => rowGet_congr h _ _ _
theorem trans (h : SameRow s t r) (k : SameRow t u r) : SameRow s u r := fun o len ho => (k o len ho).trans (h o len ho)
theorem phase (h : SameRow s t r) : rowPhase t r = rowPhase s r := h 9 1 (by decide)
theorem claimed (h : SameRow s t r) : rowClaimed t r = rowClaimed s r := by rw [rowClaimed, rowClaimed, h 10 1 (by decide)]

/-- A write of a field of a row leaves every other row as it is. -/
theorem rowPut (h : s.Inv) (hr : r' ≠ r) (ho : o + len ≤ 128) : SameRow s (rowPut s r o len v) r' := fun o' len' ho' =>
  rowGet_rowPut_outside h (by simp only [rowPhys, phys]; omega)

end SameRow

/-! ## A row that a walk claims or makes LATE -/

/-- A row claimed by the executing task (R293). -/
def claimRow (s : State) (r : Nat) : State :=
  signRow (rowPut (rowPut s r 10 1 (rowGet s r 10 1 ||| 1)) r 12 4 (claimerOf s)) r [(8, 8)]

/-- An overdue row made LATE (R294). -/
def makeLate (s : State) (part r : Nat) : State := eventSeq (signRow (rowPut s r 9 1 0xFE) r [(8, 8)]) part r

section
variable {s : State} {part r r' : Nat}

theorem inv_claimRow (h : s.Inv) : (claimRow s r).Inv := by
  simp only [State.Inv, claimRow, mem_signRow]
  exact wf_rowPut (wf_rowPut h _ _ _ _) _ _ _ _

theorem claimRow_other (h : s.Inv) (hr : r' ≠ r) : SameRow s (claimRow s r) r' :=
  (SameRow.rowPut h hr (by decide)).trans <| (SameRow.rowPut (wf_rowPut h _ _ _ _) hr (by decide)).trans <| .of_mem (mem_signRow _ _ _)

theorem rowPhase_claimRow (h : s.Inv) : rowPhase (claimRow s r) r = rowPhase s r := by
  rw [claimRow, rowPhase_congr (mem_signRow _ _ _), rowPhase, rowGet_rowPut_field (wf_rowPut h _ _ _ _) (by decide),
    rowGet_rowPut_field h (by decide)]
  rfl

theorem rowClaimed_claimRow (h : s.Inv) : rowClaimed (claimRow s r) r = true := by
  rw [claimRow, rowClaimed_congr (mem_signRow _ _ _), rowClaimed, rowGet_rowPut_field (wf_rowPut h _ _ _ _) (by decide),
    rowGet_rowPut_same h, decide_eq_true_eq, Nat.mod_mod_of_dvd _ (by decide)]
  simp

theorem inv_makeLate (h : s.Inv) : (makeLate s part r).Inv := by
  simp only [State.Inv, makeLate, mem_eventSeq, mem_signRow]
  exact wf_rowPut h _ _ _ _

theorem makeLate_mem (s : State) (part r : Nat) : (makeLate s part r).mem = (rowPut s r 9 1 0xFE).mem := by
  rw [makeLate, mem_eventSeq, mem_signRow]

theorem makeLate_other (h : s.Inv) (hr : r' ≠ r) : SameRow s (makeLate s part r) r' :=
  (SameRow.rowPut h hr (by decide)).trans (.of_mem (makeLate_mem s part r))

theorem rowPhase_makeLate (h : s.Inv) : rowPhase (makeLate s part r) r = 0xFE := by
  rw [rowPhase_congr (makeLate_mem s part r), rowPhase, rowGet_rowPut_same h]
  rfl

theorem rowClaimed_makeLate (h : s.Inv) : rowClaimed (makeLate s part r) r = rowClaimed s r := by
  rw [rowClaimed_congr (makeLate_mem s part r), rowClaimed, rowGet_rowPut_field h (by decide)]
  rfl

theorem keepsHost_signRow (s : State) (r : Nat) (rs : List (Nat × Nat)) : KeepsHost s (signRow s r rs) := by
  have h : KeepsHost s (tickClock s (dieOf s.cur.core)) := ⟨rfl, rfl, rfl, rfl, rfl⟩
  exact (h.trans (KeepsHost.stampRow _ _ _ _)).trans (KeepsHost.madeBy _ _ _)

theorem time_claimRow (s : State) (r : Nat) : (claimRow s r).time = s.time := (keepsHost_signRow _ _ _).time
theorem time_makeLate (s : State) (part r : Nat) : (makeLate s part r).time = s.time :=
  (KeepsHost.eventSeq _ _ _).time.trans (keepsHost_signRow _ _ _).time

theorem keepsRegs_wrote (s : State) : KeepsRegs s (wrote s) := by
  rcases wrote_spec s with h | ⟨v, h⟩
  · rw [h]; exact .refl s
  · rw [h]; exact .modParty _ _ (fun _ => rfl) (fun _ => rfl)

theorem keepsRegs_signRow (s : State) (r : Nat) (rs : List (Nat × Nat)) : KeepsRegs s (signRow s r rs) := by
  have h : KeepsRegs s (tickClock s (dieOf s.cur.core)) := .of_parties rfl rfl
  exact (h.trans (KeepsRegs.stampRow _ _ _ _)).trans (keepsRegs_wrote _)

theorem keepsRegs_rowPut (s : State) (r o len v : Nat) : KeepsRegs s (rowPut s r o len v) := .of_parties rfl rfl

theorem keepsRegs_claimRow (s : State) (r : Nat) : KeepsRegs s (claimRow s r) :=
  ((keepsRegs_rowPut _ _ _ _ _).trans (keepsRegs_rowPut _ _ _ _ _)).trans (keepsRegs_signRow _ _ _)
theorem keepsRegs_makeLate (s : State) (part r : Nat) : KeepsRegs s (makeLate s part r) :=
  ((keepsRegs_rowPut _ _ _ _ _).trans (keepsRegs_signRow _ _ _)).trans (KeepsRegs.eventSeq _ _ _)

end

/-! ## The walk of a SEQCLM -/

/-- Whether a walk claims a row that it examines: it is unclaimed in phase `f`, and behind the gate has a ready mask. -/
def takes (gated : Bool) (f : Nat) (s : State) (r : Nat) : Bool :=
  decide (rowPhase s r = f) && !rowClaimed s r && (!gated || decide (rowGet s r 0x30 8 = rowGet s r 0x10 4))

/-- Whether it makes the row LATE: such a row behind the gate without a ready mask, whose deadline has passed. -/
def misses (gated : Bool) (f : Nat) (s : State) (r : Nat) : Bool :=
  gated && decide (rowPhase s r = f) && !rowClaimed s r && decide (rowGet s r 0x30 8 ≠ rowGet s r 0x10 4) &&
    decide (rowGet s r 0x38 8 ≠ 0) && decide (rowGet s r 0x38 8 ≤ s.time)

/-- The rows that a walk examines which may claim `n` rows, has claimed `k`, and claims those of `p`. -/
def walked (p : Nat → Bool) (n : Nat) : List Nat → Nat → List Nat
  | [], _ => []
  | r :: rs, k => if n ≤ k then [] else r :: walked p n rs (if p r then k + 1 else k)

theorem claimRows_cons (gated : Bool) (f n part r : Nat) (rs : List Nat) (s : State) (got : List Nat) (late cur : Nat) :
    claimRows gated f n part (r :: rs) s got late cur =
      if n ≤ got.length then (s, got, late, cur)
      else if takes gated f s r then claimRows gated f n part rs (claimRow s r) (got ++ [r]) late ((r + 1) % 16384)
      else if misses gated f s r then claimRows gated f n part rs (makeLate s part r) got (late + 1) ((r + 1) % 16384)
      else claimRows gated f n part rs s got late ((r + 1) % 16384) := by
  rw [claimRows]
  refine if_congr Iff.rfl rfl ?_
  by_cases hfree : rowPhase s r = f ∧ rowClaimed s r = false
  · have htakes : takes gated f s r = (!gated || decide (rowGet s r 0x30 8 = rowGet s r 0x10 4)) := by simp [takes, hfree]
    rw [if_pos hfree, htakes]
    refine if_ctx_congr Iff.rfl (fun _ => rfl) fun hready => if_congr ?_ rfl rfl
    have hgated : gated = true ∧ rowGet s r 0x30 8 ≠ rowGet s r 0x10 4 := by simpa using hready
    simp [misses, hfree, hgated]
  · have hno : (decide (rowPhase s r = f) && !rowClaimed s r) = false := by
      simpa using fun hp => by simpa using fun hc => hfree ⟨hp, hc⟩
    have hmisses : misses gated f s r = false := by rw [misses, Bool.and_assoc gated, hno]; simp
    rw [if_neg hfree, takes, hno, hmisses]
    simp

/-! ### The rows that it examines -/

section
variable {p q : Nat → Bool} {n k : Nat} {rs : List Nat}

theorem walked_full (h : n ≤ k) : walked p n rs k = [] := by
  cases rs with
  | nil => rfl
  | cons r rs => exact if_pos h

theorem walked_cons_of_lt (h : k < n) (r : Nat) : walked p n (r :: rs) k = r :: walked p n rs (if p r then k + 1 else k) :=
  if_neg (Nat.not_le.2 h)

theorem walked_prefix : walked p n rs k <+: rs := by
  induction rs generalizing k with
  | nil => exact List.prefix_rfl
  | cons r rs ih =>
    rw [walked]
    split
    · exact List.nil_prefix
    · exact List.cons_prefix_cons.2 ⟨rfl, ih⟩

theorem mem_of_mem_walked {r : Nat} (h : r ∈ walked p n rs k) : r ∈ rs := walked_prefix.subset h

theorem nodup_walked (h : rs.Nodup) : (walked p n rs k).Nodup := h.sublist walked_prefix.sublist

/-- The rows of a list that a walk has examined, of which something holds. -/
theorem filter_mem_walked (h : rs.Nodup) (m : Nat → Bool) :
    rs.filter (fun r => (walked p n rs k).contains r && m r) = (walked p n rs k).filter m := by
  obtain ⟨rest, hrest⟩ := walked_prefix (p := p) (n := n) (rs := rs) (k := k)
  generalize walked p n rs k = w at hrest ⊢
  subst hrest
  have hdisjoint := List.disjoint_of_nodup_append h
  have hin : w.filter (fun r => w.contains r && m r) = w.filter m := List.filter_congr fun r hr => by simp [hr]
  have hout : rest.filter (fun r => w.contains r && m r) = [] :=
    List.filter_eq_nil_iff.2 fun r hr => by simp [show r ∉ w from fun hw => hdisjoint hw hr]
  rw [List.filter_append, hin, hout, List.append_nil]

theorem walked_congr (h : ∀ r ∈ rs, p r = q r) : walked p n rs k = walked q n rs k := by
  induction rs generalizing k with
  | nil => rfl
  | cons r rs ih => rw [walked, walked, h r List.mem_cons_self, ih fun x hx => h x (List.mem_cons_of_mem _ hx)]

theorem length_filter_walked (h : k ≤ n) : k + ((walked p n rs k).filter p).length ≤ n := by
  induction rs generalizing k with
  | nil => exact h
  | cons r rs ih =>
    by_cases hk : n ≤ k
    · rw [walked_full hk]; exact h
    · have hr := ih (k := if p r then k + 1 else k) (by split <;> omega)
      rw [walked_cons_of_lt (by omega), List.filter_cons]
      by_cases hp : p r = true
      · rw [if_pos hp] at hr ⊢
        rw [if_pos hp, List.length_cons]
        omega
      · rw [if_neg hp] at hr ⊢
        rwa [if_neg hp]

/-- Where the walk ends before the list does, it ends with the last row that it claims. -/
theorem walked_eq (hnd : rs.Nodup) (h : k < n) :
    walked p n rs k = if k + ((walked p n rs k).filter p).length < n then rs
      else rs.takeWhile (fun r => r != ((walked p n rs k).filter p).getLastD 0) ++ [((walked p n rs k).filter p).getLastD 0] := by
  induction rs generalizing k with
  | nil => simp [walked, h]
  | cons r rs ih =>
    obtain ⟨hr, hrs⟩ := List.nodup_cons.1 hnd
    have hlast (j : Nat) (hne : (walked p n rs j).filter p ≠ []) : ((walked p n rs j).filter p).getLastD 0 ≠ r := by
      intro heq
      refine hr (mem_of_mem_walked (p := p) (n := n) (k := j) (List.mem_of_mem_filter (p := p) ?_))
      rw [← heq, List.getLastD_eq_getLast?, List.getLast?_eq_getLast_of_ne_nil hne]
      exact List.getLast_mem hne
    have hrest (j : Nat) (hj : j < n) : r :: walked p n rs j = if j + ((walked p n rs j).filter p).length < n then r :: rs
        else (r :: rs).takeWhile (fun x => x != ((walked p n rs j).filter p).getLastD 0) ++ [((walked p n rs j).filter p).getLastD 0] := by
      split
      next hlt => rw [ih hrs hj, if_pos hlt]
      next hlt =>
        have hne : (walked p n rs j).filter p ≠ [] := fun hnil => hlt (by simpa [hnil] using hj)
        rw [List.takeWhile_cons_of_pos (by simpa using (hlast j hne).symm), List.cons_append]
        exact congrArg (r :: ·) ((ih hrs hj).trans (if_neg hlt))
    rw [walked_cons_of_lt h]
    by_cases hp : p r = true
    · rw [if_pos hp, List.filter_cons_of_pos hp, List.length_cons, List.getLastD_cons]
      by_cases hk : n ≤ k + 1
      · rw [walked_full hk, if_neg (by simpa using hk)]
        simp
      · rw [hrest (k + 1) (by omega), Nat.add_assoc k, Nat.add_comm 1]
        split
        · rfl
        next hge =>
          cases hgot : (walked p n rs (k + 1)).filter p with
          | nil => rw [hgot] at hge; exact absurd (Nat.not_le.1 hk) hge
          | cons x xs => rw [List.getLastD_cons, List.getLastD_cons]
    · rw [if_neg hp, List.filter_cons_of_neg hp]
      exact hrest k h

/-- The rows that a walk examines are those that its outcome says. -/
theorem walked_eq_examined (hnd : rs.Nodup) (h : n ≠ 0) : walked p n rs 0 = examined rs ((walked p n rs 0).filter p) n := by
  have hw := walked_eq (p := p) hnd (Nat.pos_of_ne_zero h)
  rw [Nat.zero_add] at hw
  exact hw

end

/-! ### What it leaves -/

theorem takes_congr {gated : Bool} {f : Nat} {s t : State} {r : Nat} (h : SameRow s t r) : takes gated f t r = takes gated f s r := by
  rw [takes, takes, h.phase, h.claimed, h 0x30 8 (by decide), h 0x10 4 (by decide)]

theorem misses_congr {gated : Bool} {f : Nat} {s t : State} {r : Nat} (h : SameRow s t r) (ht : t.time = s.time) :
    misses gated f t r = misses gated f s r := by
  rw [misses, misses, h.phase, h.claimed, h 0x30 8 (by decide), h 0x10 4 (by decide), h 0x38 8 (by decide), ht]

/-- Whether a row is one that a walk claims, one that it makes LATE, or neither, it is not two of them. -/
theorem misses_of_takes {gated : Bool} {f : Nat} {s : State} {r : Nat} (h : takes gated f s r = true) : misses gated f s r = false := by
  rw [takes, Bool.and_eq_true] at h
  cases gated with
  | false => rfl
  | true => simp [misses, of_decide_eq_true (by simpa using h.2)]

/-- What a walk that has examined `seen` leaves of every row. -/
structure Walked (gated : Bool) (f : Nat) (s u : State) (seen : List Nat) : Prop where
  taken : ∀ r ∈ seen, takes gated f s r = true → rowClaimed u r = true ∧ rowPhase u r = rowPhase s r
  missed : ∀ r ∈ seen, misses gated f s r = true → rowPhase u r = 0xFE ∧ rowClaimed u r = rowClaimed s r
  other : ∀ r, (r ∈ seen → takes gated f s r = false ∧ misses gated f s r = false) → SameRow s u r

namespace Walked

variable {gated : Bool} {f : Nat} {s t u : State} {r : Nat} {seen : List Nat}

theorem nil (s : State) : Walked gated f s s [] :=
  ⟨fun _ h => absurd h List.not_mem_nil, fun _ h => absurd h List.not_mem_nil, fun _ _ => .of_mem rfl⟩

/-- A walk that examines `r` first, and then in the state `t` the rows of `seen`. -/
theorem cons (h : Walked gated f t u seen) (hr : r ∉ seen) (hother : ∀ x, x ≠ r → SameRow s t x) (htime : t.time = s.time)
    (htaken : takes gated f s r = true → rowClaimed t r = true ∧ rowPhase t r = rowPhase s r)
    (hmissed : misses gated f s r = true → rowPhase t r = 0xFE ∧ rowClaimed t r = rowClaimed s r)
    (hneither : takes gated f s r = false → misses gated f s r = false → SameRow s t r) : Walked gated f s u (r :: seen) := by
  have hlater : SameRow t u r := h.other r fun hm => absurd hm hr
  have hne : ∀ x ∈ seen, x ≠ r := fun x hx he => hr (he ▸ hx)
  refine ⟨fun x hx hx' => ?_, fun x hx hx' => ?_, fun x hx => ?_⟩
  · rcases List.mem_cons.1 hx with rfl | hx
    · rw [hlater.claimed, hlater.phase]; exact htaken hx'
    · rw [← takes_congr (hother x (hne x hx))] at hx'
      rw [← (hother x (hne x hx)).phase]
      exact h.taken x hx hx'
  · rcases List.mem_cons.1 hx with rfl | hx
    · rw [hlater.claimed, hlater.phase]; exact hmissed hx'
    · rw [← misses_congr (hother x (hne x hx)) htime] at hx'
      rw [← (hother x (hne x hx)).claimed]
      exact h.missed x hx hx'
  · by_cases hxr : x = r
    · subst hxr
      obtain ⟨h1, h2⟩ := hx List.mem_cons_self
      exact (hneither h1 h2).trans hlater
    · refine (hother x hxr).trans (h.other x fun hm => ?_)
      rw [takes_congr (hother x hxr), misses_congr (hother x hxr) htime]
      exact hx (List.mem_cons_of_mem _ hm)

end Walked

/-- The rows after `r`, and which of them a walk claims or makes LATE, are in `t` as in `s` where `t` differs in `r` alone. -/
theorem walked_agree {gated : Bool} {f n r : Nat} {rs : List Nat} {s t : State} (hr : r ∉ rs) (hother : ∀ x, x ≠ r → SameRow s t x)
    (htime : t.time = s.time) (k : Nat) :
    walked (takes gated f t) n rs k = walked (takes gated f s) n rs k ∧
    (walked (takes gated f s) n rs k).filter (takes gated f t) = (walked (takes gated f s) n rs k).filter (takes gated f s) ∧
    (walked (takes gated f s) n rs k).filter (misses gated f t) = (walked (takes gated f s) n rs k).filter (misses gated f s) := by
  have hne : ∀ x ∈ rs, x ≠ r := fun x hx he => hr (he ▸ hx)
  exact ⟨walked_congr fun x hx => takes_congr (hother x (hne x hx)),
    List.filter_congr fun x hx => takes_congr (hother x (hne x (mem_of_mem_walked hx))),
    List.filter_congr fun x hx => misses_congr (hother x (hne x (mem_of_mem_walked hx))) htime⟩

theorem claimRows_spec {gated : Bool} {f n part : Nat} {rs : List Nat} {s u : State} {got got' : List Nat} {late late' cur cur' : Nat}
    (hs : s.Inv) (hnd : rs.Nodup) (h : claimRows gated f n part rs s got late cur = (u, got', late', cur')) :
    Walked gated f s u (walked (takes gated f s) n rs got.length) ∧
    got' = got ++ (walked (takes gated f s) n rs got.length).filter (takes gated f s) ∧
    late' = late + ((walked (takes gated f s) n rs got.length).filter (misses gated f s)).length := by
  induction rs generalizing s got late cur with
  | nil =>
    simp only [claimRows, Prod.mk.injEq] at h
    obtain ⟨rfl, rfl, rfl, -⟩ := h
    exact ⟨.nil s, (List.append_nil got).symm, rfl⟩
  | cons r rs ih =>
    obtain ⟨hr, hrs⟩ := List.nodup_cons.1 hnd
    have hseen (k : Nat) : r ∉ walked (takes gated f s) n rs k := fun hm => hr (mem_of_mem_walked hm)
    rw [claimRows_cons] at h
    by_cases hn : n ≤ got.length
    · rw [if_pos hn, Prod.mk.injEq, Prod.mk.injEq, Prod.mk.injEq] at h
      obtain ⟨rfl, rfl, rfl, -⟩ := h
      rw [walked_full hn]
      exact ⟨.nil s, (List.append_nil got).symm, rfl⟩
    rw [if_neg hn] at h
    rw [walked_cons_of_lt (Nat.not_le.1 hn)]
    by_cases htakes : takes gated f s r = true
    · rw [if_pos htakes] at h
      have hmisses := misses_of_takes htakes
      obtain ⟨hw, hgot, hlate⟩ := ih (inv_claimRow hs) hrs h
      obtain ⟨h1, h2, h3⟩ := walked_agree (gated := gated) (f := f) (n := n) hr (fun x => claimRow_other hs) (time_claimRow s r)
        (got ++ [r]).length
      rw [h1, h2] at hgot
      rw [h1, h3] at hlate
      rw [h1] at hw
      rw [List.length_append, List.length_singleton] at hw hgot hlate
      rw [if_pos htakes, List.filter_cons_of_pos htakes, List.filter_cons_of_neg (ne_true_of_eq_false hmisses)]
      refine ⟨hw.cons (hseen _) (fun x => claimRow_other hs) (time_claimRow s r)
        (fun _ => ⟨rowClaimed_claimRow hs, rowPhase_claimRow hs⟩) (fun hm => ?_) (fun hm => ?_), ?_, hlate⟩
      · exact absurd hm (ne_true_of_eq_false hmisses)
      · exact absurd htakes (ne_true_of_eq_false hm)
      · rw [hgot, List.append_assoc, List.singleton_append]
    rw [if_neg htakes] at h
    rw [if_neg htakes, List.filter_cons_of_neg htakes]
    by_cases hmisses : misses gated f s r = true
    · rw [if_pos hmisses] at h
      obtain ⟨hw, hgot, hlate⟩ := ih (inv_makeLate hs) hrs h
      obtain ⟨h1, h2, h3⟩ := walked_agree (gated := gated) (f := f) (n := n) hr (fun x => makeLate_other hs) (time_makeLate s part r)
        got.length
      rw [h1, h2] at hgot
      rw [h1, h3] at hlate
      rw [h1] at hw
      rw [List.filter_cons_of_pos hmisses, List.length_cons]
      refine ⟨hw.cons (hseen _) (fun x => makeLate_other hs) (time_makeLate s part r) (fun hm => absurd hm htakes)
        (fun _ => ⟨rowPhase_makeLate hs, rowClaimed_makeLate hs⟩) (fun _ hm => ?_), hgot, by omega⟩
      exact absurd hmisses (ne_true_of_eq_false hm)
    · rw [if_neg hmisses] at h
      obtain ⟨hw, hgot, hlate⟩ := ih hs hrs h
      rw [List.filter_cons_of_neg hmisses]
      exact ⟨hw.cons (hseen _) (fun _ _ => .of_mem rfl) rfl (fun hm => absurd hm htakes) (fun hm => absurd hm hmisses)
        (fun _ _ => .of_mem rfl), hgot, hlate⟩

/-! ## The walk claims free rows -/

theorem takes_iff {gated : Bool} {f : Nat} {s : State} {r : Nat} : takes gated f s r = true ↔
    (rowPhase s r = f ∧ rowClaimed s r = false) ∧ (gated = true → rowGet s r 0x30 8 = rowGet s r 0x10 4) := by
  cases gated <;> simp [takes]

theorem misses_iff {gated : Bool} {f : Nat} {s : State} {r : Nat} : misses gated f s r = true ↔
    gated = true ∧ (rowPhase s r = f ∧ rowClaimed s r = false) ∧ ¬rowGet s r 0x30 8 = rowGet s r 0x10 4 ∧ rowGet s r 0x38 8 ≠ 0 ∧
      rowGet s r 0x38 8 ≤ s.time := by
  simp [misses, and_assoc]

theorem claimedRowsWereFree : Claims.ClaimedRowsWereFree := by
  intro s u gated f n part late late' cur cur' rows got hs hn hnd _ h free ready timed overdue
  obtain ⟨hw, hgot, hlate⟩ := claimRows_spec hs hnd h
  rw [List.nil_append, List.length_nil] at hgot
  rw [List.length_nil] at hw hlate
  have hseen : walked (takes gated f s) n rows 0 = examined rows got n := hgot ▸ walked_eq_examined hnd hn
  have hlen := length_filter_walked (p := takes gated f s) (n := n) (rs := rows) (Nat.zero_le n)
  have hover (r : Nat) : overdue r ↔ r ∈ walked (takes gated f s) n rows 0 ∧ misses gated f s r = true := by
    rw [misses_iff, hseen]
  have hin (r : Nat) : r ∈ got ↔ r ∈ walked (takes gated f s) n rows 0 ∧ takes gated f s r = true := by
    rw [hgot, List.mem_filter]
  refine ⟨(congrArg List.length hgot).le.trans (by omega), hgot ▸ (nodup_walked hnd).filter _, fun r hr => ?_, fun r _ hr => ?_,
    fun r _ hr => ?_, fun r _ hr => ?_, ?_⟩
  · obtain ⟨hmem, htakes⟩ := (hin r).1 hr
    obtain ⟨hclaimed, hphase⟩ := hw.taken r hmem htakes
    obtain ⟨hfree, hready⟩ := takes_iff.1 htakes
    exact ⟨mem_of_mem_walked hmem, hfree, hready, hclaimed, hphase.trans hfree.1⟩
  · obtain ⟨hmem, hmisses⟩ := (hover r).1 hr
    obtain ⟨hphase, hclaimed⟩ := hw.missed r hmem hmisses
    exact ⟨hphase, hclaimed.trans (misses_iff.1 hmisses).2.1.2⟩
  · rw [hover] at hr
    by_cases hg : r ∈ got
    · exact (hw.taken r ((hin r).1 hg).1 ((hin r).1 hg).2).2
    · rw [hin] at hg
      exact (hw.other r fun hm => by simpa [hm] using And.intro (not_and.1 hg hm) (not_and.1 hr hm)).phase
  · by_cases ho : overdue r
    · obtain ⟨hmem, hmisses⟩ := (hover r).1 ho
      exact (hw.missed r hmem hmisses).2
    · rw [hover] at ho
      rw [hin] at hr
      exact (hw.other r fun hm => by simpa [hm] using And.intro (not_and.1 hr hm) (not_and.1 ho hm)).claimed
  · rw [hlate, ← filter_mem_walked hnd, hseen]
    simp only [misses, Bool.and_assoc]

end Sys2Proof.Machine
end

section
/-! PROOFS. SEQCLM and SEQADV (O21): what the walk's outcome makes of them, and the phases that SEQADV sets (R293, R296). -/

namespace Sys2Proof.Machine

/-! ## A wing's word whose body is known -/

theorem completes_of_wing {s r : State} {w g : B2} (hrdy : Ready s .wing w g) {i : Instr} {body : State → Act} (hbody : body s = .done r 1)
    (hexec : exec i s = tokened s .wing w g body := by rfl) : completes i s w g r := by
  rw [completes, hexec, tokened_ready hrdy, hbody, conclude_done (signalWaits_ready hrdy)]

/-! ## SEQCLM -/

theorem keepsRegs_claimRows (gated : Bool) (f n part : Nat) (rs : List Nat) (s : State) (got : List Nat) (late cur : Nat) :
    KeepsRegs s (claimRows gated f n part rs s got late cur).1 := by
  induction rs generalizing s got late cur with
  | nil => exact .refl s
  | cons r rs ih =>
    rw [claimRows_cons]
    split_ifs
    · exact .refl s
    · exact (keepsRegs_claimRow s r).trans (ih _ _ _ _)
    · exact (keepsRegs_makeLate s part r).trans (ih _ _ _ _)
    · exact ih _ _ _ _

theorem cur_madeBy (s : State) (who : PartyId) (gs : List Nat) : (madeBy s who gs).cur = s.cur := by
  rcases madeBy_spec s who gs with h | ⟨v, h⟩
  · rw [h]
  · rw [h]
    rfl

theorem cur_writeCellsNow {s t : State} {core size : Nat} {cells : List (Nat × Byte)} (h : writeCellsNow s core size cells = some t) :
    t.cur = s.cur := by
  unfold writeCellsNow at h
  dsimp only at h
  split at h
  next u hu =>
    obtain ⟨fs, ds, rfl⟩ := checkWords_spec _ _ _ _ hu
    cases h
    exact cur_madeBy _ _ _
  next => cases h

/-- A write of the scratchpad goes on as the same party. -/
theorem cur_writeScratch {s t : State} {core slot o : Nat} {bs : List Byte} (h : writeScratch s core slot o bs = some t) :
    t.cur = s.cur := by
  unfold writeScratch putCells at h
  split at h
  · exact cur_writeCellsNow h
  · obtain ⟨u, hu, rfl⟩ := Option.map_eq_some_iff.1 h
    have hcur : u.cur = s.cur := cur_writeCellsNow hu
    exact hcur

theorem thenWrite_eq {s t : State} {o : Nat} {bs : List Byte} {k : State → Act}
    (h : writeScratch s s.cur.core s.cur.slot o bs = some t) : thenWrite s o bs k = k t := by rw [thenWrite, h]

theorem seqclmClaimsRows : Claims.SeqclmClaimsRows := by
  intro s u t w g d a b got late cur hrdy hflips o v f n p hv hf hn hn64 ho hin hsettled hlate hclaim hwrite
  have hcur : (u.modPart p fun q => { q with cursor := put q.cursor f cur }).cur = s.cur := by
    have h := (keepsRegs_claimRows (decide (v / 2 ^ 15 = 1)) f n p (fromCursor (rowsOf s p) (look 0 (s.part p).cursor f))
      (learn s (dieOf s.cur.core) (allKnown s)) [] 0 (look 0 (s.part p).cursor f)).cur
    rw [hclaim] at h
    exact h
  refine completes_of_wing hrdy ?_
  have hbits : bits v 7 0 = f := by simp [bits, f]
  have hcount : bits v 14 8 = n := rfl
  have hgate : decide (bits v 15 15 = 1) = decide (v / 2 ^ 15 = 1) := by
    have h1 : v / 2 ^ 15 < 2 := Nat.div_lt_of_lt_mul hv
    rw [bits, show 2 ^ (15 + 1 - 15) = 2 by rfl, Nat.mod_eq_of_lt h1]
  have hlegal : ¬(v / 2 ^ 16 ≠ 0 ∨ f = 0 ∨ n = 0 ∨ 64 < n) := by
    rw [Nat.div_eq_of_lt hv]
    omega
  have hgo : ¬(settled s (myDie s) = false ∨ s.me.view.late ≠ []) := by
    rintro (h | h)
    · exact Bool.false_ne_true (h.symm.trans hsettled)
    · exact h hlate
  dsimp only
  rw [hbits, hcount, hgate, if_neg hlegal, if_neg (by simpa using ho), if_neg (by simpa using hin), if_neg hgo, if_pos hflips]
  dsimp only
  rw [myDie, hclaim]
  dsimp only
  rw [thenWrite_eq (by rw [hcur]; exact hwrite), cur_writeScratch hwrite, hcur]

/-! ## SEQADV -/

theorem eventFor_parties (core slot i : Nat) (ps : List Party) (s : State) : ∃ m, eventFor s core slot i ps = { s with parties := m } := by
  induction ps generalizing s with
  | nil => exact ⟨_, rfl⟩
  | cons p ps ih =>
    obtain ⟨m, hm⟩ := ih (s.modParty ⟨core, slot, p⟩ fun x => setEvent x i)
    exact ⟨m, hm⟩

/-- All that the event of a row's change of phase changes: parties. -/
theorem eventSeq_spec (s : State) (part r : Nat) : ∃ m, eventSeq s part r = { s with parties := m } := by
  refine List.foldlRecOn (motive := fun t : State => ∃ m, t = { s with parties := m }) _ _ ⟨s.parties, rfl⟩ fun t ht e _ => ?_
  obtain ⟨m, rfl⟩ := ht
  obtain ⟨m', hm'⟩ := eventFor_parties e.1 e.2.1 4 allParties { s with parties := m }
  exact ⟨m', hm'⟩

/-- All that a progress event changes: launch queues. -/
theorem progress_spec (s : State) (core slot : Nat) : ∃ qs, progress s core slot = { s with queues := qs } := by
  unfold progress
  split
  · exact ⟨_, rfl⟩
  · exact ⟨_, rfl⟩

/-- All that the end of a claim changes: bytes of its row, and parties. -/
theorem endClaim_spec (s : State) (r phase : Nat) : ∃ m, endClaim s r phase =
    { rowPut (rowPut (rowPut s r 9 1 (if rowVoiding s r then 0 else phase)) r 10 1 0) r 12 4 0 with parties := m } := by
  unfold endClaim
  extract_lets p t
  split
  · exact ⟨t.parties, rfl⟩
  · split
    · exact eventSeq_spec t _ r
    · exact ⟨t.parties, rfl⟩

theorem mem_endClaim (s : State) (r phase : Nat) : (endClaim s r phase).mem =
    (rowPut (rowPut (rowPut s r 9 1 (if rowVoiding s r then 0 else phase)) r 10 1 0) r 12 4 0).mem := by
  obtain ⟨m, h⟩ := endClaim_spec s r phase
  rw [h]

theorem dies_endClaim (s : State) (r phase : Nat) : (endClaim s r phase).dies = s.dies := by
  obtain ⟨m, h⟩ := endClaim_spec s r phase
  rw [h]
  rfl

theorem cur_endClaim (s : State) (r phase : Nat) : (endClaim s r phase).cur = s.cur := by
  obtain ⟨m, h⟩ := endClaim_spec s r phase
  rw [h]
  rfl

/-- A claim's end gives the row its phase, or VOID where it is voiding (R296). -/
theorem rowPhase_endClaim {s : State} (h : s.Inv) (r : Nat) {phase : Nat} (hp : phase < 256) :
    rowPhase (endClaim s r phase) r = if rowVoiding s r then 0 else phase := by
  have h1 := wf_rowPut h r 9 1 (if rowVoiding s r then 0 else phase)
  rw [rowPhase_congr (mem_endClaim s r phase), rowPhase, rowGet_rowPut_field (wf_rowPut h1 _ _ _ _) (by decide),
    rowGet_rowPut_field h1 (by decide), rowGet_rowPut_same h]
  split
  · rfl
  · exact Nat.mod_eq_of_lt hp

theorem endClaim_other {s : State} (h : s.Inv) {r y : Nat} (hy : y ≠ r) (phase : Nat) : SameRow s (endClaim s r phase) y := by
  have h1 := wf_rowPut h r 9 1 (if rowVoiding s r then 0 else phase)
  exact (SameRow.rowPut h hy (by decide)).trans <| (SameRow.rowPut h1 hy (by decide)).trans <|
    (SameRow.rowPut (wf_rowPut h1 _ _ _ _) hy (by decide)).trans (.of_mem (mem_endClaim s r phase))

/-! ### What a release leaves with its row -/

theorem look_mergeClock (a b : Sparse Nat) (k : Nat) : look 0 a k ≤ look 0 (mergeClock a b) k ∧ look 0 b k ≤ look 0 (mergeClock a b) k := by
  induction b generalizing a with
  | nil => exact ⟨Nat.le_refl _, Nat.zero_le _⟩
  | cons e b ih =>
    obtain ⟨k', v⟩ := e
    rw [mergeClock]
    obtain ⟨ha, hb⟩ := ih (if look 0 a k' < v then put a k' v else a)
    have hput : look 0 a k ≤ look 0 (if look 0 a k' < v then put a k' v else a) k ∧
        (k = k' → v ≤ look 0 (if look 0 a k' < v then put a k' v else a) k) := by
      split
      next hlt =>
        rw [look_put]
        split
        next hk => subst hk; exact ⟨hlt.le, fun _ => le_rfl⟩
        next hk => exact ⟨le_rfl, fun he => absurd he hk⟩
      next hge => exact ⟨le_rfl, fun he => he ▸ Nat.le_of_not_lt hge⟩
    refine ⟨hput.1.trans ha, ?_⟩
    rw [look_cons]
    split
    next hk => exact (hput.2 hk).trans ha
    next => exact hb

/-- A stamp merges its clock into those that the granules keep. -/
theorem look_foldl_stamps (t : Sight) (clock : Sparse Nat) (gs : List Nat) (m : Sparse (Sparse Nat)) (j k : Nat) :
    look 0 (look [] m j) k ≤
        look 0 (look [] (gs.foldl (fun m g => put m (t.shift + g) (mergeClock (look [] m (t.shift + g)) clock)) m) j) k ∧
      (∀ g ∈ gs, j = t.shift + g → look 0 clock k ≤
        look 0 (look [] (gs.foldl (fun m g => put m (t.shift + g) (mergeClock (look [] m (t.shift + g)) clock)) m) j) k) := by
  induction gs generalizing m with
  | nil => exact ⟨le_rfl, fun _ h => absurd h List.not_mem_nil⟩
  | cons g gs ih =>
    rw [List.foldl_cons]
    obtain ⟨hkept, hmerged⟩ := ih (put m (t.shift + g) (mergeClock (look [] m (t.shift + g)) clock))
    have hput : look 0 (look [] m j) k ≤ look 0 (look [] (put m (t.shift + g) (mergeClock (look [] m (t.shift + g)) clock)) j) k ∧
        (j = t.shift + g → look 0 clock k ≤ look 0 (look [] (put m (t.shift + g) (mergeClock (look [] m (t.shift + g)) clock)) j) k) := by
      rw [look_put]
      split
      next hj => subst hj; exact ⟨(look_mergeClock _ _ k).1, fun _ => (look_mergeClock _ _ k).2⟩
      next hj => exact ⟨le_rfl, fun he => absurd he hj⟩
    refine ⟨hput.1.trans hkept, fun x hx hj => ?_⟩
    rcases List.mem_cons.1 hx with rfl | hx
    · exact (hput.2 hj).trans hkept
    · exact hmerged x hx hj

theorem look_stampRange (s : State) (t : Sight) (clock : Sparse Nat) (a n j k : Nat) :
    look 0 (look [] s.stamps j) k ≤ look 0 (look [] (stampRange s t clock a n).stamps j) k ∧
      (∀ g ∈ granulesOf a n, j = t.shift + g → look 0 clock k ≤ look 0 (look [] (stampRange s t clock a n).stamps j) k) := by
  unfold stampRange
  split
  next hc => subst hc; exact ⟨le_rfl, fun _ _ _ => Nat.zero_le _⟩
  next => exact look_foldl_stamps t clock _ s.stamps j k

theorem look_stampRow (s : State) (clock : Sparse Nat) (r : Nat) (rs : List (Nat × Nat)) (j k : Nat) :
    look 0 (look [] s.stamps j) k ≤ look 0 (look [] (stampRow s clock r rs).stamps j) k := by
  refine List.foldlRecOn (motive := fun t : State => look 0 (look [] s.stamps j) k ≤ look 0 (look [] t.stamps j) k) _ _ le_rfl fun t ht e _ => ?_
  exact ht.trans (look_stampRange t {} clock _ _ j k).1

theorem div_mem_granulesOf (a : Nat) : a / 8 ∈ granulesOf a 8 :=
  List.mem_map.2 ⟨0, List.mem_range.2 (by omega), Nat.add_zero _⟩

/-- The word of a row's phase keeps what the signer's die knows, the write of the phase among it. -/
theorem look_signRow (s : State) (r : Nat) (rs : List (Nat × Nat)) (k : Nat) :
    look 0 (clockOf s (dieOf s.cur.core)) k + (if k = dieOf s.cur.core then 1 else 0) ≤
      look 0 (look [] (signRow s r ((8, 8) :: rs)).stamps (rowPhys r 8 / 8)) k := by
  have hstamps (t : State) : (wrote t).stamps = t.stamps := by
    rcases wrote_spec t with h | ⟨v, h⟩
    · rw [h]
    · rw [h]
      rfl
  have hclock : look 0 (clockOf s (dieOf s.cur.core)) k + (if k = dieOf s.cur.core then 1 else 0) =
      look 0 (clockOf (tickClock s (dieOf s.cur.core)) (dieOf s.cur.core)) k := by
    rw [clockOf, clockOf, tickClock, State.die_modDie_same, look_put]
    split
    next hk => rw [hk]
    next => rfl
  rw [hclock, signRow, hstamps, stampRow, List.foldl_cons]
  exact ((look_stampRange _ {} _ (rowPhys r 8) 8 _ k).2 _ (div_mem_granulesOf _) (Nat.zero_add _).symm).trans
    (look_stampRow _ _ r rs _ k)

/-! ### The phases that it sets -/

/-- What SEQADV leaves where it sets a row's phase: `t` is the state in which the bytes of the row are written. -/
def advanced (s t : State) (d : B6) (x : Nat) (rs : List (Nat × Nat)) : State :=
  (progress (eventSeq (signRow t x rs) s.myPart x) s.cur.core s.cur.slot).setReg d.toNat (word (rowPhase t x)) false

theorem mem_advanced (s t : State) (d : B6) (x : Nat) (rs : List (Nat × Nat)) : (advanced s t d x rs).mem = t.mem := by
  simp [advanced]

theorem stamps_advanced (s t : State) (d : B6) (x : Nat) (rs : List (Nat × Nat)) :
    (advanced s t d x rs).stamps = (signRow t x rs).stamps := by
  obtain ⟨m, hm⟩ := eventSeq_spec (signRow t x rs) s.myPart x
  obtain ⟨qs, hqs⟩ := progress_spec (eventSeq (signRow t x rs) s.myPart x) s.cur.core s.cur.slot
  rw [advanced, State.stamps_setReg, hqs, hm]

/-- A row without the bytes that a stream keeps in it. -/
def cleared (s : State) (x : Nat) : State :=
  { s with mem := clearRange s.mem (rowPhys x 0x60) 32,
           flips := s.flips.filter (fun e => !(decide (rowPhys x 0x60 ≤ e.1) && decide (e.1 < rowPhys x 0x80))) }

theorem inv_cleared {s : State} (h : s.Inv) (x : Nat) : (cleared s x).Inv := wf_clearRange _ _ h

theorem rowPhase_cleared (s : State) (x y : Nat) : rowPhase (cleared s x) y = rowPhase s y := by
  refine congrArg natOfBytes (readBytes_eq_iff.2 fun z hlow hhigh => ?_)
  rw [cleared, readByte_clearRange, if_neg]
  simp only [rowPhys, phys] at hlow hhigh ⊢
  omega

theorem seqadvSetsThePhase : Claims.SeqadvSetsThePhase := by
  intro s w g d a b hrdy hs hflips x v hv hx howner hmay sets
  have hlegal : ¬(v / 2 ^ 8 ≠ 0 ∨ 16383 < x ∨ rowOwner s x ≠ some s.myPart) := by
    have h0 : v / 2 ^ 8 = 0 := Nat.div_eq_of_lt hv
    simp only [howner, ne_eq, not_true_eq_false, or_false]
    omega
  have hread : rowChecked s x 8 8 = some s := if_pos hflips
  /- A row whose bytes `t` holds leaves what is asked of it. -/
  have hset {t : State} {rs : List (Nat × Nat)} {ph : Nat} (hcompletes : completes (.seqadv w g d a b) s w g (advanced s t d x ((8, 8) :: rs)))
      (hphase : rowPhase t x = ph) (hother : ∀ y, y ≠ x → rowPhase t y = rowPhase s y) (hcur : t.cur = s.cur)
      (hdies : t.dies = s.dies) : sets ph := by
    refine ⟨_, hcompletes, (rowPhase_congr (mem_advanced ..) x).trans hphase, ?_,
      fun y hy => (rowPhase_congr (mem_advanced ..) y).trans (hother y hy), fun k => ?_⟩
    · rw [advanced, State.reg_setReg_same, hphase]
    · have h := look_signRow t x rs k
      rw [stamps_advanced]
      rw [hcur, clockOf, State.die, hdies] at h
      exact h
  have hclaimed (hc : rowClaimed s x = true) (hserial : rowSerial s x = s.mySerial.toNat) :
      completes (.seqadv w g d a b) s w g (advanced s (endClaim s x v) d x [(8, 8)]) := by
    refine completes_of_wing hrdy ?_
    dsimp only
    rw [if_neg hlegal, if_neg (ne_true_of_eq_false hmay), hread]
    dsimp only
    rw [if_neg fun h => Bool.false_ne_true (h.2.symm.trans hc), if_pos ⟨hc, hserial⟩]
    rfl
  refine ⟨fun hvoid hfree => ?_, fun hc hserial hgoes => ?_, fun hc hserial hvoiding => ?_, fun hnot hother => ?_⟩
  · refine hset (t := rowPut (cleared s x) x 9 1 v) (rs := [(0x60, 32)]) (completes_of_wing hrdy ?_) ?_
      (fun y hy => (SameRow.rowPut (inv_cleared hs x) hy (by decide)).phase.trans (rowPhase_cleared s x y)) rfl rfl
    case refine_2 => rw [rowPhase, rowGet_rowPut_same (inv_cleared hs x)]; exact Nat.mod_eq_of_lt hv
    dsimp only
    rw [if_neg hlegal, if_neg (ne_true_of_eq_false hmay), hread]
    dsimp only
    rw [if_pos ⟨hvoid, hfree⟩]
    rfl
  · refine hset (hclaimed hc hserial) ?_ (fun y hy => (endClaim_other hs hy v).phase) (cur_endClaim s x v) (dies_endClaim s x v)
    rw [rowPhase_endClaim hs x hv, if_neg (ne_true_of_eq_false hgoes)]
  · refine hset (hclaimed hc hserial) ?_ (fun y hy => (endClaim_other hs hy v).phase) (cur_endClaim s x v) (dies_endClaim s x v)
    rw [rowPhase_endClaim hs x hv, if_pos hvoiding]
  · change execSeqadv w g d a b s = _
    rw [execSeqadv, tokened_ready hrdy]
    dsimp only
    rw [if_neg hlegal, if_neg (ne_true_of_eq_false hmay), hread]
    dsimp only
    rw [if_neg hnot, if_neg hother, badOperand, conclude_trap]

/-- Settles O21, from what the walk leaves of every row and what SEQADV makes of one. -/
theorem rowsAreClaimed : Obligations.RowsAreClaimed := ⟨seqclmClaimsRows, seqadvSetsThePhase, claimedRowsWereFree⟩

end Sys2Proof.Machine
end

section
/-! PROOFS. Wing stores (O14): a store to the wing's own die that nothing holds back is performed as it retires (R191, R213). -/

namespace Sys2Proof.Machine

theorem storesLate_present {s : State} (h : Present s) : storesLate s = false := by
  simp [storesLate, h.2.1, h.2.2]

theorem ownLate_present {s : State} (h : Present s) (a n : Nat) : ownLate s a n = false := by
  simp [ownLate, h.2.1]

theorem readLate_present {s : State} (h : Present s) : readLate s = false := by
  simp [readLate, h.2.1]

/-- A store of an aligned address to a place of the wing's own die, in the present, that nothing makes wait. -/
theorem store_place {s u : State} {d a : B6} {f : BitVec 9} {size : Nat} {p : Place} (releases : Bool) (h : Present s)
    (hr : reach s (memAddr s a f size).toNat true = .place p) (hal : (memAddr s a f size).toNat % size = 0)
    (hro : p.readOnly = false) (hc : hitsControl p size = false) (hh : p.home = dieOf s.cur.core)
    (ho : owed s p.home (clockOf s p.home) = false)
    (hp : performWrite s s.cur p (bytesOfNat size (s.reg d.toNat).toNat) = some u) :
    store s d a f size releases = .done (if releases then released u s.cur else u) 1 := by
  have hm : p.home = myDie s := hh
  have hnow : storeNow s p (bytesOfNat size (s.reg d.toNat).toNat) = u := by rw [storeNow, hp]
  rw [hm] at ho
  simp only [store, hr, hro, hc, hal, storePlace, mateLate_present h, storesLate_present h, h.1, ownLate_present h,
    readLate_present h, hm, ho, hnow, ne_eq, not_true_eq_false, false_and, if_false, Bool.or_self, Bool.and_false,
    Bool.false_eq_true, if_true]

/-- What is written at a place that is not revoked is read back there. -/
theorem readBytes_performWrite {s u : State} {who : PartyId} {p : Place} {bs : List Byte} (hs : s.Inv)
    (hr : revokedPlace s p = false) (hb : bs ≠ []) (h : performWrite s who p bs = some u) :
    readBytes u.mem p.phys bs.length = bs := by
  have ticked : KeepsHost s (tickClock s (dieOf who.core)) := ⟨rfl, rfl, rfl, rfl, rfl⟩
  have counted := (ticked.trans (.countAccess _ (partOf s who) p.phys bs.length)).trans (.rememberPlace _ who (partOf s who)
    (clockOf (countAccess (tickClock s (dieOf who.core)) (partOf s who) p.phys bs.length) (dieOf who.core)) p bs.length)
  obtain ⟨-, m, hm, hmem⟩ := mergeBytes_some hb ((counted.revokedPlace p).trans hr) h
  rw [hmem]
  refine readBytes_writeBytes _ _ (hm ?_)
  rw [mem_rememberPlace, mem_countAccess]
  exact hs

/-- Settles O14: a store that nothing makes wait completes, and its bytes stand in memory. -/
theorem storesWriteMemory : Obligations.StoresWriteMemory := by
  intro s u w g d a f p k hrdy hpr _ va hr hal hro hc hh ho hp
  have hva : memAddr s a f (2 ^ k) = va := memAddr_pow s a f k
  have key (releases : Bool) : tokened s .wing w g (fun s => store s d a f (2 ^ k) releases) =
      .next (retire (popToken (if releases then released u s.cur else u) w) g 1) := by
    rw [tokened_ready hrdy, store_place releases hpr (by rw [hva]; exact hr) (by rw [hva]; exact hal) hro hc hh ho hp,
      conclude_done (signalWaits_ready hrdy)]
  refine ⟨?_, ?_, ?_, ?_, fun hrev hs => ?_⟩
  · rintro rfl
    exact key false
  · rintro rfl
    exact key false
  · rintro rfl
    exact key false
  · rintro rfl
    exact ⟨key false, key true⟩
  · have hlen : (bytesOfNat (2 ^ k) (s.reg d.toNat).toNat).length = 2 ^ k := length_bytesOfNat _ _
    have hb : bytesOfNat (2 ^ k) (s.reg d.toNat).toNat ≠ [] :=
      List.length_pos_iff.mp (by rw [hlen]; exact Nat.two_pow_pos k)
    have h := readBytes_performWrite hs hrev hb hp
    rwa [hlen] at h

end Sys2Proof.Machine
end

section
/-! PROOFS. FENCE and MWAIT (O17): what a fence with nothing outstanding leaves, what a read leaves of the machine, and how a sleeping
MWAIT reads its word again (R199, R216, R218). -/

namespace Sys2Proof.Machine

/-! ## FENCE (R216) -/

theorem fenceLate_of_none {s : State} {p : PartyId} (h : (s.party p).view.late = []) : fenceLate s p = s := if_pos h

theorem scratchLate_of_none {s : State} {p : PartyId} (h : (s.party p).view.late = []) : scratchLate s p = false := by
  rw [scratchLate, h]
  rfl

/-- The state that a fence of the present leaves: what follows it follows what its sets name. -/
def fenced (s : State) (stores loads : Bool) (scope : Nat) : State :=
  let r := if loads then orderPoint s s.cur else s
  if stores && loads && decide (2 ≤ scope) then firmUp r r.cur else r

theorem keeps_late_fenced (s : State) (stores loads : Bool) (scope : Nat) :
    Keeps (fun x => x.view.late) s (fenced s stores loads scope) := by
  refine .trans (t := if loads then orderPoint s s.cur else s) (.ite (.modParty s _ fun _ => rfl) (.refl s)) ?_
  exact .ite (.modParty _ _ fun _ => rfl) (.refl _)

theorem fence_present {s : State} (h : Present s) {scope : Nat} (sets : Nat) (hset : 2 ≤ scope → settled s (dieOf s.cur.core) = true) :
    fence s sets scope = .done (fenced s (decide (sets = 0) || sets.testBit 1) (decide (sets = 0) || sets.testBit 2) scope) 1 := by
  have hlate (stores loads : Bool) : ((fenced s stores loads scope).party (fenced s stores loads scope).cur).view.late = [] :=
    (keeps_late_fenced s stores loads scope).me.trans h.2.1
  have hdie : (decide (2 ≤ scope) && !settled s (myDie s)) = false := by
    by_cases hs : 2 ≤ scope
    · rw [myDie, hset hs]
      exact Bool.and_false _
    · rw [decide_eq_false hs]
      rfl
  unfold fence
  generalize (decide (sets = 0) || sets.testBit 1) = stores
  generalize (decide (sets = 0) || sets.testBit 2) = loads
  change (if scope = 0 then
      if stores && scratchLate s s.cur then Act.wait s
      else .done (if stores then fenceLate (fenced s stores loads scope) (fenced s stores loads scope).cur else fenced s stores loads scope) 1
    else if (stores && storesLate s) || (decide (2 ≤ scope) && !settled s (myDie s)) then .wait s
    else .done (fenced s stores loads scope) 1) = _
  simp only [scratchLate_of_none h.2.1, storesLate_present h, hdie, fenceLate_of_none (hlate stores loads), Bool.and_false, Bool.or_false,
    Bool.false_eq_true, if_false, ite_self]

/-- A fence whose sets take in something on both sides is no illegal word. -/
theorem execFence_legal {s : State} (w g : B2) {sets : BitVec 4} (c : B2) (h : sets = 0 ∨ (sets.toNat % 4 ≠ 0 ∧ 4 ≤ sets.toNat)) :
    exec (.fence w g sets c) s = tokened s .wing w g (fun s => fence s sets.toNat c.toNat) := by
  refine if_neg ?_
  rintro ⟨-, hne, hill⟩
  rcases h with h | ⟨hlow, hhigh⟩
  · exact hne h
  · omega

/-- What the sets of a fence take in, in the words of its statement. -/
theorem fenced_eq (s : State) (sets : BitVec 4) (scope : Nat) :
    fenced s (decide (sets.toNat = 0) || sets.toNat.testBit 1) (decide (sets.toNat = 0) || sets.toNat.testBit 2) scope =
      let r := if sets = 0 ∨ sets.getLsbD 2 = true then orderPoint s s.cur else s
      if (sets = 0 ∨ sets.getLsbD 1 = true ∧ sets.getLsbD 2 = true) ∧ 2 ≤ scope then firmUp r s.cur else r := by
  have hzero : sets.toNat = 0 ↔ sets = 0 := BitVec.toNat_inj (y := 0#4)
  have hloads : (decide (sets.toNat = 0) || sets.toNat.testBit 2) = true ↔ sets = 0 ∨ sets.getLsbD 2 = true := by
    rw [Bool.or_eq_true, decide_eq_true_iff, hzero, BitVec.testBit_toNat]
  have hboth : ((decide (sets.toNat = 0) || sets.toNat.testBit 1) && (decide (sets.toNat = 0) || sets.toNat.testBit 2) &&
      decide (2 ≤ scope)) = true ↔ (sets = 0 ∨ sets.getLsbD 1 = true ∧ sets.getLsbD 2 = true) ∧ 2 ≤ scope := by
    rw [Bool.and_eq_true, Bool.and_eq_true, Bool.or_eq_true, Bool.or_eq_true, decide_eq_true_iff, decide_eq_true_iff, hzero,
      BitVec.testBit_toNat, BitVec.testBit_toNat, or_and_left]
  have hcur : (if sets = 0 ∨ sets.getLsbD 2 = true then orderPoint s s.cur else s).cur = s.cur := by
    split <;> rfl
  simp only [fenced, hloads, hboth, hcur]

/-- The first part of O17, of a fence: nothing is outstanding, so it retires. -/
theorem fence_completes {s : State} {w g : B2} (hrdy : Ready s .wing w g) (hpr : Present s) {sets : BitVec 4} {c : B2}
    (hlegal : sets = 0 ∨ (sets.toNat % 4 ≠ 0 ∧ 4 ≤ sets.toNat)) (hset : 2 ≤ c.toNat → settled s (dieOf s.cur.core) = true) :
    let r := if sets = 0 ∨ sets.getLsbD 2 = true then orderPoint s s.cur else s
    completes (.fence w g sets c) s w g
      (if (sets = 0 ∨ sets.getLsbD 1 = true ∧ sets.getLsbD 2 = true) ∧ 2 ≤ c.toNat then firmUp r s.cur else r) :=
  completes_of_wing hrdy ((fence_present hpr _ hset).trans (congrArg (Act.done · 1) (fenced_eq s sets c.toNat)))
    (execFence_legal w g c hlegal)

/-! ## What a read leaves -/

/-- `t` has the executing party, the time and the lock-steps of `s`, and of every party what no read changes. -/
structure KeepsReader (s t : State) : Prop where
  parties : ∀ {α : Type} {f : PartyState → α}, (∀ x v, f { x with view := v } = f x) → Keeps f s t
  time : t.time = s.time
  lock : ∀ c k, (t.ctx c k).sh.lock = (s.ctx c k).sh.lock

namespace KeepsReader

variable {s t u : State}

theorem of_parts (hc : t.cur = s.cur) (hp : t.parties = s.parties) (ht : t.time = s.time) (hx : t.ctxs = s.ctxs) : KeepsReader s t :=
  ⟨fun _ => .of_parties hc hp, ht, fun c k => by simp only [State.ctx, hx]⟩

theorem refl (s : State) : KeepsReader s s := of_parts rfl rfl rfl rfl

theorem trans (h : KeepsReader s t) (k : KeepsReader t u) : KeepsReader s u :=
  ⟨fun hv => (h.parties hv).trans (k.parties hv), k.time.trans h.time, fun c i => (k.lock c i).trans (h.lock c i)⟩

theorem cur (h : KeepsReader s t) : t.cur = s.cur := (h.parties (f := fun _ => ()) fun _ _ => rfl).cur

theorem inLock (h : KeepsReader s t) : t.inLock = s.inLock := by
  simp only [State.inLock, State.myCtx, h.cur, h.lock]

theorem sawBy (s : State) (who : PartyId) (t : Sight) (firm : Nat) (gs : List Nat) : KeepsReader s (sawBy s who t firm gs) := by
  refine ⟨fun hv => .sawBy hv s who t firm gs, ?_, fun c k => ?_⟩ <;> unfold Machine.sawBy <;> split <;> rfl

theorem mergeRead (s : State) (who : PartyId) (t : Sight) (firm : Nat) (gs : List Nat) : KeepsReader s (mergeRead s who t firm gs) := by
  refine trans ?_ (.sawBy _ who t firm gs)
  split
  · exact .refl s
  · exact .of_parts rfl rfl rfl rfl

theorem countMoved (s : State) (part k n : Nat) : KeepsReader s (countMoved s part k n) := by
  unfold Machine.countMoved
  split
  · exact .refl s
  · exact .of_parts rfl rfl rfl rfl

theorem countAccess (s : State) (part a n : Nat) : KeepsReader s (countAccess s part a n) := by
  unfold Machine.countAccess
  dsimp only
  split_ifs
  · exact .countMoved s _ _ _
  · exact .countMoved s _ _ _
  · exact .countMoved s _ _ _
  · exact .refl s

theorem setKrev (s : State) (p : PartyId) : KeepsReader s (setKrev s p) := by
  refine ⟨fun _ => .of_parties rfl rfl, rfl, fun c k => ?_⟩
  by_cases h : c * 2 + k = p.core * 2 + p.slot
  · simp [Machine.setKrev, State.modCtx, State.setCtx, State.ctx, h]
  · rw [Machine.setKrev, State.modCtx, State.ctx_setCtx_other s p.core p.slot c k _ h]

end KeepsReader

theorem keepsReader_readPlace {s t : State} {who : PartyId} {part n : Nat} {acquires : Bool} {p : Place} {o : Option (List Byte)}
    (h : readPlace s who part acquires p n = (t, o)) : KeepsReader s t := by
  revert h
  unfold readPlace readSeen
  split
  · rintro ⟨⟩
    exact .setKrev s who
  split
  · rintro ⟨⟩
    exact .refl s
  split
  · rintro ⟨⟩
    exact .refl s
  next u hu =>
    obtain ⟨fs, ds, rfl⟩ := checkWords_spec _ _ _ _ hu
    rintro ⟨⟩
    have checked : KeepsReader s { s with flips := fs, dies := ds } := .of_parts rfl rfl rfl rfl
    exact (checked.trans (.mergeRead _ _ _ _ _)).trans (.countAccess _ _ _ _)

/-! ## MWAIT (R218) -/

theorem keeps_acquire {α : Type} {f : PartyState → α} (hview : ∀ x v, f { x with view := v } = f x) (s : State) (t : Nat) :
    Keeps f s (acquire s t) := .modMe s fun x => hview x _

theorem keeps_setReg {α : Type} {f : PartyState → α}
    (hregs : ∀ x r t m, f { x with regs := r, taint := t, spoilt := m } = f x) (s : State) (d : Nat) (v : Word) (taint : Bool) :
    Keeps f s (s.setReg d v taint) := .modMe s fun x => hregs x _ _ _

/-- The executing wing sleeps at the word of a place, for a microsecond. -/
def asleep (t : State) (p : Place) : State := t.modMe (fun x => { x with wait := .asleep (p.phys / 64) (t.time + 1000) })

theorem wait_asleep (t : State) (p : Place) : (asleep t p).me.wait = .asleep (p.phys / 64) (t.time + 1000) := by
  rw [asleep, State.me_modMe]

theorem regs_asleep (t : State) (p : Place) : (asleep t p).me.regs = t.me.regs := by
  rw [asleep, State.me_modMe]

/-- What an MWAIT does with the word that it has read: it returns a word that differs, and sleeps at one that is still the same. -/
def waited (t : State) (d : B6) (p : Place) (y x : Word) : Act :=
  if y = x then .wait (if t.inLock then t else asleep t p)
  else .done (t.setReg d.toNat y false) 1

/-- An MWAIT of an aligned address outside the weight store, in the present, that nothing makes wait. -/
theorem mwait_place {s u : State} {d a b : B6} {p : Place} {bs : List Byte} (h : Present s) (hal : (s.reg a.toNat).toNat % 8 = 0)
    (hw : ¬(weightBase ≤ (s.reg a.toNat).toNat ∧ (s.reg a.toNat).toNat < weightEnd))
    (hr : reach s (s.reg a.toNat).toNat false = .place p) (hm : mustWait s p.home true false = false)
    (hp : readPlace s s.cur s.myPart false p 8 = (u, some bs)) :
    mwait s d a b = waited (acquire u u.seq) d p (word (natOfBytes bs)) (s.reg b.toNat) := by
  have hnp : (Reach.place p = .privilege) = False := eq_false nofun
  simp only [mwait, hr, hnp, if_false, hal, ne_eq, not_true_eq_false, hw, hm, ownLate_present h, mateLate_present h, Bool.or_self,
    Bool.false_eq_true, readNow, hp]
  rfl

/-- An MWAIT whose word has come returns it. -/
theorem waited_differs {t : State} {d : B6} {p : Place} {y x : Word} (h : y ≠ x) : waited t d p y x = .done (t.setReg d.toNat y false) 1 :=
  if_neg h

theorem waited_same {t : State} {d : B6} {p : Place} {y x : Word} (h : y = x) (hl : t.inLock = false) :
    waited t d p y x = .wait (asleep t p) := by
  rw [waited, if_pos h, if_neg (ne_true_of_eq_false hl)]

/-- The first part of O17. -/
theorem fencesAndWaits : Claims.FencesAndWaits := by
  intro s u w g d a b sets c p bs hrdy hpr
  refine ⟨fun hlegal hset => fence_completes hrdy hpr hlegal hset, fun hal hw hr hm hp => ⟨fun hne => ?_, fun heq hl => ?_⟩⟩
  · exact completes_of_wing hrdy ((mwait_place hpr hal hw hr hm hp).trans (waited_differs hne))
  · have kept := keepsReader_readPlace hp
    have hact : mwait s d a b = _ := (mwait_place hpr hal hw hr hm hp).trans (waited_same heq (kept.inLock.trans hl))
    have hexec : exec (.mwait w g d a b) s = conclude s w g (mwait s d a b) :=
      tokened_ready hrdy (fun s => mwait s d a b)
    refine ⟨_, hexec.trans (by rw [hact, conclude_wait]), ?_, ?_, ?_⟩
    · rw [State.me_setLast, wait_asleep]
      rfl
    · rw [State.me_setLast, regs_asleep]
      exact ((kept.parties fun _ _ => rfl).trans (keeps_acquire (f := PartyState.regs) (fun _ _ => rfl) u u.seq)).me
    · exact (congrArg (·.1.mem) hp.symm).trans (mem_readPlace ..)

/-! ## A sleeper that wakes -/

theorem pushFull_congr {s t : State} (h : Keeps (fun x => (x.peers, x.tkc)) s t) (k : B2) : pushFull t k = pushFull s k := by
  have hpeers : t.me.peers = s.me.peers := congrArg Prod.fst h.me
  have hid : peerId t k = peerId s k := by rw [peerId, peerId, h.cur, peerOf, peerOf, hpeers]
  rw [pushFull, pushFull, hid, tokens_congr (congrArg Prod.snd (h.party _))]

theorem party_popToken_other {s : State} {w : B2} {q : PartyId} (h : partyKey q ≠ partyKey s.cur) :
    (popToken s w).party q = s.party q := by
  unfold popToken
  split_ifs
  · rfl
  · exact party_modMe_other h _
  · exact (State.party_modParty_other _ s.cur q _ h).trans (party_modMe_other h _)

/-- A party that pops a token has no more tokens of any queue than before. -/
theorem tokens_popToken_le (s : State) (w : B2) {k : B2} (hk : k ≠ 0) :
    tokens (popToken s w).me k ≤ tokens s.me k := by
  by_cases h0 : w = 0
  · rw [popToken, if_pos h0]
  · have htkc := tkc_popToken h0 s
    by_cases hpop : s.me.popped = w
    · rw [if_pos hpop] at htkc
      exact (tokens_congr htkc k).le
    · rw [if_neg hpop] at htkc
      rw [tokens_congr htkc]
      have hlt := tokens_lt h0 s.me
      by_cases hkw : k = w
      · rw [hkw, tokens_setTokens_same h0 _ (by omega)]
        exact Nat.sub_le _ _
      · exact (tokens_setTokens_other hk h0 hkw s.me (by omega)).le

/-- A pop leaves room where there was some. -/
theorem pushFull_popToken {s : State} (w : B2) {g : B2} (hg : pushFull s g = false) :
    pushFull (popToken s w) g = false := by
  have hpeers : Keeps PartyState.peers s (popToken s w) := .popToken (fun _ _ => rfl) (fun _ _ _ => rfl) (fun _ _ => rfl) s w
  have hid : peerId (popToken s w) g = peerId s g := by rw [peerId, peerId, peerOf, peerOf, hpeers.me, hpeers.cur]
  by_cases h0 : g = 0
  · rw [h0, pushFull_zero]
  · have hroom : tokens (s.party (peerId s g)) g < 15 := by
      simp only [pushFull, decide_eq_false h0, Bool.not_false, Bool.true_and, decide_eq_false_iff_not] at hg
      omega
    have hle : tokens ((popToken s w).party (peerId s g)) g ≤ tokens (s.party (peerId s g)) g := by
      by_cases hme : partyKey (peerId s g) = partyKey s.cur
      · have h := tokens_popToken_le s w h0
        rw [State.me, hpeers.cur, State.me, State.party, State.party, ← hme] at h
        exact h
      · rw [party_popToken_other hme]
    rw [pushFull, hid, decide_eq_false (by omega : ¬15 ≤ _), Bool.and_false]

/-- A word that finds room for its signal token does not wait when it retires. -/
theorem last_retire_of_room {s : State} (w : B2) {g : B2} (hg : pushFull s g = false) {n : Nat} (hn : n ≠ 0) :
    (retire (popToken s w) g n).last = .retired := by
  have hrest : Keeps (fun x => (x.peers, x.tkc)) (popToken s w) (rested (popToken s w)) := .rested (fun _ _ => rfl) (fun _ _ _ => rfl) _
  rw [retire_of_room ((pushFull_congr hrest g).trans (pushFull_popToken w hg)), if_neg hn, last_advance, State.last_setLast]

/-- A wake of a sleeping MWAIT is its word again; where the word still waits before its microsecond has passed, nothing has happened. -/
theorem exec_mwaitWake {s t : State} {p : PartyId} {line wake : Nat} {w g : B2} {d a b : B6}
    (hsleeps : (s.party p).wait = .asleep line wake) (hword : instrAt s p (s.party p).pc.toNat = some (.mwait w g d a b))
    (halive : alive s p = true)
    (ht : exec (.mwait w g d a b) ((s.modParty p (fun x => { x with wait := .no })).setCur p) = .next t) :
    exec (.mwaitWake p) s = .next (if t.last ≠ .waiting ∨ wake ≤ s.time then t.setCur s.cur else s) := by
  change execMwait w g d a b ((s.modParty p (fun x => { x with wait := .no })).setCur p) = .next t at ht
  change execMwaitWake p s = _
  simp only [execMwaitWake, hsleeps, hword, halive, Bool.not_true, Bool.false_eq_true, if_false, asParty, ht]
  rfl

/-- The second part of O17. -/
theorem sleepersWake : Claims.SleepersWake := by
  intro s u p line wake w g d a b at_ bs hsleeps hword halive s1 va hrdy hpr hal hw hr hm hp y
  have hp' : readPlace s1 s1.cur s1.myPart false at_ 8 = (u, some bs) := hp
  have kept := keepsReader_readPlace hp'
  have hact : mwait s1 d a b = waited (acquire u u.seq) d at_ y (s1.reg b.toNat) := mwait_place hpr hal hw hr hm hp'
  have hword1 : exec (.mwait w g d a b) s1 = conclude s1 w g (mwait s1 d a b) := tokened_ready hrdy (fun s => mwait s d a b)
  have hmem : u.mem = s1.mem := (congrArg (·.1.mem) hp'.symm).trans (mem_readPlace ..)
  refine ⟨fun hne => ?_, fun heq hearly => ?_, fun heq hlate hl => ?_⟩
  · rw [hact, waited_differs hne, conclude_done (signalWaits_ready hrdy)] at hword1
    have hkeeps : Keeps (fun x => (x.peers, x.tkc)) s1 ((acquire u u.seq).setReg d.toNat y false) :=
      ((kept.parties fun _ _ => rfl).trans (keeps_acquire (fun _ _ => rfl) u u.seq)).trans (keeps_setReg (fun _ _ _ _ => rfl) _ _ _ _)
    obtain ⟨-, -, -, -, hroom, -⟩ := hrdy
    have hlast := last_retire_of_room w ((pushFull_congr hkeeps g).trans hroom) one_ne_zero
    rw [exec_mwaitWake hsleeps hword halive hword1, if_pos (.inl (by rw [hlast]; decide))]
  · obtain ⟨t, ht⟩ : ∃ t, waited (acquire u u.seq) d at_ y (s1.reg b.toNat) = .wait t := ⟨_, if_pos heq⟩
    rw [hact, ht, conclude_wait] at hword1
    rw [exec_mwaitWake hsleeps hword halive hword1, if_neg]
    rintro (h | h)
    · exact h (State.last_setLast t _)
    · exact absurd hearly (Nat.not_lt.mpr h)
  · rw [hact, waited_same (t := acquire u u.seq) heq (kept.inLock.trans hl), conclude_wait] at hword1
    refine ⟨_, (exec_mwaitWake hsleeps hword halive hword1).trans (congrArg _ (if_pos (.inr hlate))), ?_, hmem⟩
    have hcur : u.cur = p := kept.cur
    have htime : u.time = s.time := kept.time
    rw [← htime, ← hcur]
    exact wait_asleep (acquire u u.seq) at_

/-- Settles O17, from what a fence and an MWAIT make of a party whose accesses go to the present. -/
theorem fencesAndSleepers : Obligations.FencesAndSleepers := ⟨fencesAndWaits, sleepersWake⟩

end Sys2Proof.Machine
end

section
/-! PROOFS. Writes and loads under way (O18): what an arrival makes of a write, of its second copy and of a write whose merge fails, and
how a load's home answers it (R204, R205, R346). -/

namespace Sys2Proof.Machine

/-! ## Writes (R205) -/

theorem applyFlight_written {s u : State} {f : Flight}
    (h : writePlace s f.agent f.part f.clock (placeOf f.phys f.home f.slot) f.bytes = some u) :
    applyFlight s f = if f.release then released u f.agent else u := by
  rw [applyFlight, h]

theorem flights_consume (s : State) (core slot : Nat) : (consume s core slot).flights = s.flights := by
  unfold consume
  split_ifs <;> rfl

theorem parties_consume (s : State) (core slot : Nat) : (consume s core slot).parties = s.parties := by
  unfold consume
  split_ifs <;> rfl

/-- A write whose merge fails is dropped: at most its task consumes the error (R346). -/
theorem applyFlight_dropped {s : State} {f : Flight}
    (h : writePlace s f.agent f.part f.clock (placeOf f.phys f.home f.slot) f.bytes = none) :
    applyFlight s f = s ∨ applyFlight s f = consume s f.agent.core f.agent.slot := by
  rw [applyFlight, h]
  dsimp only
  split
  · split
    · exact .inr rfl
    · exact .inl rfl
  · exact .inl rfl

/-- The first part of O18. -/
theorem flightsArrive : Claims.FlightsArrive := by
  intro s k f hf rest again written after
  have arrival : exec (.remoteWriteArrival k) s =
      if f.copy then .next rest else if mayApply s f then .next (applyFlight rest f) else .next s := by
    change execRemoteWriteArrival k s = _
    rw [execRemoteWriteArrival, hf]
  have failure : exec (.linkFailure k) s =
      if f.copy then .next s else if mayApply s f then .next (applyFlight again f) else .next s := by
    change execLinkFailure k s = _
    rw [execLinkFailure, hf]
  refine ⟨fun hcopy => ?_, fun u hcopy hmay hu => ?_, fun u hcopy hmay hu => ?_, fun hcopy hmay hnone => ?_⟩
  · rw [arrival, if_pos hcopy]
  · rw [arrival, if_neg (ne_true_of_eq_false hcopy), if_pos hmay, applyFlight_written hu]
  · rw [failure, if_neg (ne_true_of_eq_false hcopy), if_pos hmay, applyFlight_written hu]
  · rw [if_neg (ne_true_of_eq_false hcopy), if_pos hmay] at arrival
    refine ⟨_, arrival, ?_⟩
    rcases applyFlight_dropped hnone with h | h
    · rw [h]
      exact ⟨rfl, rfl, rfl⟩
    · rw [h]
      exact ⟨mem_consume _ _ _, parties_consume _ _ _, flights_consume _ _ _⟩

/-! ## Loads (R204) -/

/-- The state in which a load's home answers, in its wing's name. -/
def answering (s : State) (k : Nat) (q : LoadReq) : State :=
  (withLag { s with loads := s.loads.eraseIdx k } q.agent q.lag).setCur q.agent

theorem withLag_spec (s : State) (p : PartyId) (n : Nat) : ∃ ps, withLag s p n = { s with parties := ps } := by
  unfold withLag
  split
  · exact ⟨_, rfl⟩
  · exact ⟨_, rfl⟩

theorem keeps_answering {α : Type} {f : PartyState → α} (hlag : ∀ x n, f { x with view := { x.view with lag := n } } = f x) (s : State)
    (k : Nat) (q : LoadReq) : Keeps f (s.setCur q.agent) (answering s k q) := by
  have lagged : Keeps f { s with loads := s.loads.eraseIdx k } (withLag { s with loads := s.loads.eraseIdx k } q.agent q.lag) :=
    .ite (.refl _) (.modParty _ _ fun x => hlag x _)
  exact ⟨rfl, fun p => lagged.party p⟩

theorem cores_answering (s : State) (k : Nat) (q : LoadReq) : (answering s k q).cores = s.cores := by
  obtain ⟨ps, h⟩ := withLag_spec { s with loads := s.loads.eraseIdx k } q.agent q.lag
  rw [answering, h]
  rfl

theorem seq_answering (s : State) (k : Nat) (q : LoadReq) : (answering s k q).seq = s.seq := by
  obtain ⟨ps, h⟩ := withLag_spec { s with loads := s.loads.eraseIdx k } q.agent q.lag
  rw [answering, h]
  rfl

/-- Whether a word waits for its signal token depends on its queues, its command, its late stores and the drains of its core. -/
theorem signalWaits_congr {s t : State} (h : Keeps (fun x => ((x.peers, x.tkc), x.busy, x.view.late)) s t) (hc : t.cores = s.cores)
    (g : B2) : signalWaits t g = signalWaits s g := by
  have hqueues : Keeps (fun x => (x.peers, x.tkc)) s t := ⟨h.cur, fun q => congrArg (·.1) (h.party q)⟩
  have hbusy : t.me.busy = s.me.busy := congrArg (·.2.1) h.me
  have hlate : scratchLate t t.cur = scratchLate s s.cur := by
    rw [scratchLate, scratchLate]
    exact congrArg (fun x => x.2.2.any LateStore.inScratchpad) h.me
  have hdrains : drainsOut t = drainsOut s := by
    rw [drainsOut, drainsOut, State.core, State.core, hc, h.cur]
  rw [signalWaits, signalWaits, hbusy, pushFull_congr hqueues, hlate, hdrains]

/-- A load's home answers as a load of its wing there and then. -/
theorem exec_remoteLoadArrival {s t : State} {k : Nat} {q : LoadReq} (hq : s.loads[k]? = some q)
    (hwait : (s.party q.agent).wait = .load) (halive : alive s q.agent = true) (howed : owed s q.home q.clock = false)
    (hheld : held s (placeOf q.phys q.home q.slot) = false) (hsig : signalWaits (s.setCur q.agent) q.g = false)
    (ht : loadPlace (answering s k q) (placeOf q.phys q.home q.slot) q.d q.size q.signed q.consume q.acquires = .done t 1) :
    exec (.remoteLoadArrival k) s = .next (withLag ((retire (popToken t q.w) q.g 1).setCur s.cur) q.agent 0) := by
  have hsig' : signalWaits (answering s k q) q.g = false :=
    (signalWaits_congr (keeps_answering (fun _ _ => rfl) s k q) (cores_answering s k q) q.g).trans hsig
  have hcur : (withLag { s with loads := s.loads.eraseIdx k } q.agent q.lag).cur = s.cur := by
    obtain ⟨ps, h⟩ := withLag_spec { s with loads := s.loads.eraseIdx k } q.agent q.lag
    rw [h]
  have answered : conclude (answering s k q) q.w q.g (loadPlace (answering s k q) (placeOf q.phys q.home q.slot) q.d q.size q.signed
      q.consume q.acquires) = .next (retire (popToken t q.w) q.g 1) := by
    rw [ht, conclude_done hsig']
  rw [answering] at answered
  change execRemoteLoadArrival k s = _
  simp only [execRemoteLoadArrival, hq, hwait, halive, howed, hheld, hsig, asParty, answered, hcur, ne_eq, not_true_eq_false,
    Bool.true_eq_false, Bool.false_eq_true, Bool.or_self, or_self, if_false]

/-- The second part of O18. -/
theorem remoteLoadsReturn : Claims.RemoteLoadsReturn := by
  intro s u k q bs hq p s1 own point hwait halive howed hheld hsig hread
  refine exec_remoteLoadArrival hq hwait halive howed hheld hsig ?_
  have hread' : readPlace (answering s k q) (answering s k q).cur (answering s k q).myPart q.acquires p q.size = (u, some bs) := hread
  rw [loadPlace, hread']
  cases hacq : q.acquires
  case false => rfl
  case true =>
    have hseq : (answering s k q).seq = s.seq := seq_answering s k q
    simp only [if_true, hseq]
    rfl

/-- Settles O18, from what becomes of a write at its home and of a load that its home answers. -/
theorem remoteAccessesArrive : Obligations.RemoteAccessesArrive := ⟨flightsArrive, remoteLoadsReturn⟩

end Sys2Proof.Machine
end

section
/-! PROOFS. What collectives combine (O49): the order of CSAMP by where a pair stands, and CRED of INT32 (R245, R299). -/

namespace Sys2Proof.Machine

/-! ## The values of FP32 codes (R84, R85) -/

/-- The magnitude of an FP32 code below the sign bit, in units of exact values. -/
def magnitude32 (m : Nat) : Nat :=
  if m / 2 ^ 23 = 0 then m % 2 ^ 23 * 2 ^ 151 else (2 ^ 23 + m % 2 ^ 23) * 2 ^ (150 + m / 2 ^ 23)

/-- A greater code has a greater magnitude (R84). -/
theorem magnitude32_strictMono : StrictMono magnitude32 := by
  intro m n h
  have hle : m / 2 ^ 23 ≤ n / 2 ^ 23 := Nat.div_le_div_right h.le
  have hm : m % 2 ^ 23 < 2 ^ 23 := Nat.mod_lt _ (by decide)
  unfold magnitude32
  rcases hle.eq_or_lt with heq | hlt
  · have hx : m % 2 ^ 23 < n % 2 ^ 23 := by omega
    rw [← heq]
    split
    · exact Nat.mul_lt_mul_of_pos_right hx (by positivity)
    · exact Nat.mul_lt_mul_of_pos_right (Nat.add_lt_add_left hx _) (by positivity)
  · have hn : n / 2 ^ 23 ≠ 0 := by omega
    rw [if_neg hn]
    have hlow : 2 ^ 23 * 2 ^ (150 + n / 2 ^ 23) ≤ (2 ^ 23 + n % 2 ^ 23) * 2 ^ (150 + n / 2 ^ 23) :=
      Nat.mul_le_mul_right _ (Nat.le_add_right _ _)
    refine lt_of_lt_of_le ?_ hlow
    split
    · calc m % 2 ^ 23 * 2 ^ 151 < 2 ^ 23 * 2 ^ 151 := Nat.mul_lt_mul_of_pos_right hm (by positivity)
        _ ≤ 2 ^ 23 * 2 ^ (150 + n / 2 ^ 23) := Nat.mul_le_mul_left _ (Nat.pow_le_pow_right (by decide) (by omega))
    · calc (2 ^ 23 + m % 2 ^ 23) * 2 ^ (150 + m / 2 ^ 23) < 2 ^ 24 * 2 ^ (150 + m / 2 ^ 23) :=
            Nat.mul_lt_mul_of_pos_right (by omega) (by positivity)
        _ = 2 ^ 23 * 2 ^ (151 + m / 2 ^ 23) := by rw [← pow_add, ← pow_add]; congr 1; omega
        _ ≤ 2 ^ 23 * 2 ^ (150 + n / 2 ^ 23) := Nat.mul_le_mul_left _ (Nat.pow_le_pow_right (by decide) (by omega))

/-- The value of an FP32 code. -/
theorem read_fp32 (c : Nat) :
    FV.read fp32 c =
      if c % 2 ^ 31 = 0x7F800000 then .inf (decide (2 ^ 31 ≤ c))
      else if 0x7F7FFFFF < c % 2 ^ 31 then .nan
      else .fin (if 2 ^ 31 ≤ c then -(magnitude32 (c % 2 ^ 31) : Int) else magnitude32 (c % 2 ^ 31)) (decide (2 ^ 31 ≤ c)) := by
  have hexp (e : Nat) : (300 + (e : Int) - 127 - (23 : Nat)).toNat = 150 + e := by omega
  have hread : FV.read fp32 c =
      let m := c % 2 ^ 31
      let mag : Nat := if m / 2 ^ 23 = 0 then m % 2 ^ 23 * 2 ^ 151
        else (2 ^ 23 + m % 2 ^ 23) * 2 ^ (300 + ((m / 2 ^ 23 : Nat) : Int) - 127 - (23 : Nat)).toNat
      if m = 0x7F800000 then .inf (decide (2 ^ 31 ≤ c)) else if 0x7F7FFFFF < m then .nan
      else .fin (if decide (2 ^ 31 ≤ c) = true then -(mag : Int) else mag) (decide (2 ^ 31 ≤ c)) := rfl
  rw [hread]
  dsimp only
  rw [hexp]
  simp only [magnitude32, decide_eq_true_eq]

/-! ## Where a pair stands (R299) -/

/-- The order of values: NaN, then −∞, the finite values by themselves, and +∞. -/
def FV.level : FV → Int ×ₗ Int
  | .nan => toLex (-2, 0)
  | .inf true => toLex (-1, 0)
  | .fin v _ => toLex (0, v)
  | .inf false => toLex (1, 0)

theorem FV.below_iff {a b : FV} (h : a.isNan = b.isNan) : FV.below a b = true ↔ a.level < b.level := by
  rcases a with _ | (_ | _) | ⟨v, n⟩ <;> rcases b with _ | (_ | _) | ⟨w, k⟩ <;>
    simp [FV.isNan, FV.below, FV.lt, FV.level, Prod.Lex.toLex_lt_toLex] at h ⊢

/-- Where a pair of CSAMP stands: by its value, then by its index, the lowest first, then a zero by its sign. -/
def standing (x : Nat) : (Int ×ₗ Int) ×ₗ Int ×ₗ Int :=
  let a := FV.read fp32 (x % 2 ^ 32)
  toLex (a.level, toLex (-(x / 2 ^ 32 : Nat), if a.neg then 0 else 1))

/-- NaN is below every value, and nothing else has its level. -/
theorem FV.level_nan_lt {a b : FV} (h : a.isNan ≠ b.isNan) : a.level < b.level ↔ a.isNan = true := by
  rcases a with _ | (_ | _) | ⟨v, n⟩ <;> rcases b with _ | (_ | _) | ⟨w, k⟩ <;>
    simp [FV.isNan, FV.level, Prod.Lex.toLex_lt_toLex] at h ⊢

theorem FV.level_ne {a b : FV} (h : a.isNan ≠ b.isNan) : a.level ≠ b.level := by
  intro heq
  have hab := level_nan_lt h
  have hba := level_nan_lt h.symm
  rw [heq, lt_self_iff_false, false_iff] at hab
  rw [heq, lt_self_iff_false, false_iff] at hba
  exact h (by rw [Bool.eq_false_iff.mpr hab, Bool.eq_false_iff.mpr hba])

theorem FV.level_inf_ne (n : Bool) (v : Int) (k : Bool) : (FV.inf n).level ≠ (FV.fin v k).level := by
  cases n <;> simp [level]

theorem FV.eq_nan {a : FV} (h : a.isNan = true) : a = .nan := by
  cases a with
  | nan => rfl
  | inf n => cases h
  | fin v n => cases h

theorem FV.neg_of_isNan {a : FV} (h : a.isNan = true) : a.neg = false := by
  rw [FV.eq_nan h]
  rfl

/-- A pair beats the pairs that stand below it. -/
theorem beats_iff (x y : Nat) : beats x y = true ↔ standing y < standing x := by
  unfold beats standing
  dsimp only
  generalize FV.read fp32 (x % 2 ^ 32) = a
  generalize FV.read fp32 (y % 2 ^ 32) = b
  rw [Prod.Lex.toLex_lt_toLex, Prod.Lex.toLex_lt_toLex]
  by_cases hnan : a.isNan = b.isNan
  · have hab := FV.below_iff hnan
    have hba := FV.below_iff hnan.symm
    rw [if_neg (not_not_intro hnan)]
    rcases lt_trichotomy b.level a.level with h | h | h
    · rw [if_pos (hba.mpr h)]
      simp [h]
    · rw [if_neg (mt hba.mp h.not_lt), if_neg (mt hab.mp h.not_gt)]
      have hzero : (!a.isNan && b.neg && !a.neg) = (b.neg && !a.neg) := by
        cases ha : a.isNan
        · rfl
        · rw [FV.neg_of_isNan (hnan.symm.trans ha)]
          rfl
      rw [hzero]
      generalize x / 2 ^ 32 = i
      generalize y / 2 ^ 32 = j
      by_cases hij : i = j
      · cases a.neg <;> cases b.neg <;> simp [h, hij]
      · simp [h, hij, Ne.symm hij]
    · rw [if_neg (mt hba.mp h.not_gt), if_pos (hab.mpr h)]
      simp [h.not_gt, h.ne']
  · rw [if_pos hnan, ← FV.level_nan_lt (Ne.symm hnan)]
    simp [FV.level_ne (Ne.symm hnan)]

/-- The code of a number is that of an infinity, or its value is its magnitude with its sign. -/
theorem read_fp32_number {c : Nat} (h : (FV.read fp32 c).isNan = false) :
    c % 2 ^ 31 = 0x7F800000 ∧ FV.read fp32 c = .inf (decide (2 ^ 31 ≤ c)) ∨
      c % 2 ^ 31 ≠ 0x7F800000 ∧
        FV.read fp32 c = .fin (if 2 ^ 31 ≤ c then -(magnitude32 (c % 2 ^ 31) : Int) else magnitude32 (c % 2 ^ 31)) (decide (2 ^ 31 ≤ c)) := by
  rw [read_fp32] at h ⊢
  by_cases hinf : c % 2 ^ 31 = 0x7F800000
  · exact .inl ⟨hinf, if_pos hinf⟩
  · rw [if_neg hinf] at h ⊢
    by_cases htop : 0x7F7FFFFF < c % 2 ^ 31
    · rw [if_pos htop] at h
      cases h
    · exact .inr ⟨hinf, if_neg htop⟩

/-- The sign of a number is the highest bit of its code. -/
theorem neg_read_fp32 {c : Nat} (h : (FV.read fp32 c).isNan = false) : (FV.read fp32 c).neg = decide (2 ^ 31 ≤ c) := by
  rcases read_fp32_number h with ⟨-, hread⟩ | ⟨-, hread⟩
  · rw [hread]
    rfl
  · have hmag := Int.natCast_nonneg (magnitude32 (c % 2 ^ 31))
    by_cases hs : 2 ^ 31 ≤ c
    · rw [hread, if_pos hs, decide_eq_true hs, FV.neg]
      split
      · rfl
      · exact decide_eq_true (by omega)
    · rw [hread, if_neg hs, decide_eq_false hs, FV.neg]
      split
      · rfl
      · exact decide_eq_false (by omega)

/-- Numbers of one level and one sign have one code. -/
theorem fp32_code_unique {c d : Nat} (hc : c < 2 ^ 32) (hd : d < 2 ^ 32) (hcn : (FV.read fp32 c).isNan = false)
    (hdn : (FV.read fp32 d).isNan = false) (hlevel : (FV.read fp32 c).level = (FV.read fp32 d).level)
    (hneg : (FV.read fp32 c).neg = (FV.read fp32 d).neg) : c = d := by
  rw [neg_read_fp32 hcn, neg_read_fp32 hdn] at hneg
  have hsign : 2 ^ 31 ≤ c ↔ 2 ^ 31 ≤ d := decide_eq_decide.mp hneg
  have hmag : c % 2 ^ 31 = d % 2 ^ 31 := by
    rcases read_fp32_number hcn with ⟨hci, hcr⟩ | ⟨-, hcr⟩ <;> rcases read_fp32_number hdn with ⟨hdi, hdr⟩ | ⟨-, hdr⟩
    · rw [hci, hdi]
    · rw [hcr, hdr] at hlevel
      exact absurd hlevel (FV.level_inf_ne _ _ _)
    · rw [hcr, hdr] at hlevel
      exact absurd hlevel.symm (FV.level_inf_ne _ _ _)
    · rw [hcr, hdr, FV.level, FV.level, toLex_inj, Prod.mk.injEq] at hlevel
      refine magnitude32_strictMono.injective ?_
      have hvalue := hlevel.2
      simp only [hsign] at hvalue
      split at hvalue <;> omega
  by_cases h : 2 ^ 31 ≤ c
  · have := hsign.mp h
    omega
  · have := mt hsign.mpr h
    omega

/-- Pairs that stand alike are one pair, but for NaNs of one index. -/
theorem standing_unique {x y : Nat} (h : standing x = standing y) :
    x = y ∨ (FV.read fp32 (x % 2 ^ 32)).isNan = true ∧ (FV.read fp32 (y % 2 ^ 32)).isNan = true ∧ x / 2 ^ 32 = y / 2 ^ 32 := by
  simp only [standing, toLex_inj, Prod.mk.injEq] at h
  obtain ⟨hlevel, hindex, hsign⟩ := h
  have hi : x / 2 ^ 32 = y / 2 ^ 32 := by omega
  have hnan : (FV.read fp32 (x % 2 ^ 32)).isNan = (FV.read fp32 (y % 2 ^ 32)).isNan := by
    by_contra hne
    exact FV.level_ne hne hlevel
  cases hx : (FV.read fp32 (x % 2 ^ 32)).isNan with
  | true => exact .inr ⟨rfl, hnan.symm.trans hx, hi⟩
  | false =>
    have hneg : (FV.read fp32 (x % 2 ^ 32)).neg = (FV.read fp32 (y % 2 ^ 32)).neg := by
      generalize (FV.read fp32 (x % 2 ^ 32)).neg = m at hsign ⊢
      generalize (FV.read fp32 (y % 2 ^ 32)).neg = n at hsign ⊢
      cases m <;> cases n
      · rfl
      · cases hsign
      · cases hsign
      · rfl
    have hcode := fp32_code_unique (Nat.mod_lt _ (by decide)) (Nat.mod_lt _ (by decide)) hx (hnan.symm.trans hx) hlevel hneg
    exact .inl (by omega)

/-- NaNs of one index are written alike (R86). -/
theorem canonical_nan {x y : Nat} (hx : (FV.read fp32 (x % 2 ^ 32)).isNan = true) (hy : (FV.read fp32 (y % 2 ^ 32)).isNan = true)
    (h : x / 2 ^ 32 = y / 2 ^ 32) : canonical 7 8 x = canonical 7 8 y := by
  change x / 2 ^ 32 * 2 ^ 32 + FV.encode fp32 0 false (FV.read fp32 (x % 2 ^ 32)) =
    y / 2 ^ 32 * 2 ^ 32 + FV.encode fp32 0 false (FV.read fp32 (y % 2 ^ 32))
  rw [h, FV.eq_nan hx, FV.eq_nan hy]

/-! ## CRED (R245) -/

/-- CRED of INT32 adds modulo 2^32. -/
theorem combine_add_int32 {x y : Nat} (hx : x < 2 ^ 32) (hy : y < 2 ^ 32) : combine 7 0 x y = (x + y) % 2 ^ 32 := by
  change ((readInt 7 true x + readInt 7 true y) % ((2 ^ 32 : Nat) : Int)).toNat = _
  rw [readInt_int32 hx, readInt_int32 hy, ← BitVec.toNat_ofInt,
    BitVec.ofInt_add, BitVec.ofInt_toInt, BitVec.ofInt_toInt, ← BitVec.ofNat_add, BitVec.toNat_ofNat]

/-- Settles O49: CSAMP prefers the pair that stands higher. -/
theorem collectiveCombinations : Obligations.CollectiveCombinations := by
  refine ⟨fun x y hxy => ?_, fun x y z hxy hyz => ?_, ⟨fun x y hne hnan => ?_, fun x y => canonical_nan⟩,
    fun x y => combine_add_int32⟩
  · rw [Bool.eq_false_iff, ne_eq, beats_iff]
    exact ((beats_iff x y).mp hxy).not_gt
  · rw [beats_iff] at *
    exact hyz.trans hxy
  · rw [beats_iff, beats_iff]
    refine lt_or_gt_of_ne fun h => ?_
    rcases standing_unique h with heq | ⟨hy, hx, hi⟩
    · exact hne heq.symm
    · exact hnan hx hy hi.symm

end Sys2Proof.Machine
end

section
/-! PROOFS. The supervisor's writes (O10): what a system wing's write of a register takes effect on, and when it is refused (R317, R334,
R371, R386). -/

namespace Sys2Proof.Machine

/-- A write of a register by a system wing is the write itself. -/
theorem regEvent_supervised {s : State} (hs : s.supervisor = true) (hw : s.cur.party.isWing = true) (t : State) :
    regEvent s (some t) = .next t := by
  rw [regEvent, hs, hw]
  rfl

/-- What the other partitions' registers add up to. -/
theorem foldl_parts_eq_sum (l : Sparse Partition) (f : Partition → Nat) :
    l.foldl (fun a e => a + f e.2) 0 = (l.map (fun e => f e.2)).sum := by
  rw [List.sum_eq_foldl, List.foldl_map]

/-- A write that is refused where a condition holds. -/
theorem next_ite {c d : Prop} [Decidable c] [Decidable d] (h : c ↔ d) (t u : State) :
    (Host.Outcome.next (if c then t else u) : Host.Outcome State Fault Refusal) = if d then .next t else .next u :=
  (apply_ite _ _ _ _).trans (if_congr h rfl rfl)

theorem bits_pair (n i : Nat) : bits n (2 * i + 1) (2 * i) = n / 4 ^ i % 4 := by
  have hpow : (2 : Nat) ^ (2 * i) = 4 ^ i := pow_mul 2 2 i
  rw [bits, hpow, show 2 * i + 1 + 1 - 2 * i = 2 by omega]
  rfl

theorem bits_frame (n : Nat) : bits n 39 0 = n % 2 ^ 40 := by
  rw [bits, pow_zero, Nat.div_one]

/-- PLMAPS is refused for a field of 3 (R334). -/
theorem plmaps_refused_iff (v : Word) :
    ((List.range 8).any (fun i => decide (bits v.toNat (2 * i + 1) (2 * i) = 3)) = true) ↔ ∃ i < 8, v.toNat / 4 ^ i % 4 = 3 := by
  simp only [List.any_eq_true, List.mem_range, decide_eq_true_eq, bits_pair]

/-- An FLPG with its valid bit clear is taken as it is (log 26). -/
theorem writeFlpg_clear {s : State} {v : Word} (h : v.getLsbD 63 = false) :
    writeFlpg s v = modSel s (fun q => { q with flpg := put q.flpg (dieOf s.cur.core) (word (v.toNat % 2 ^ 40)) }) := by
  simp only [writeFlpg, h, bits_frame, Bool.false_and, Bool.false_eq_true, if_false, Nat.zero_add]

/-- One with it set names a frame that is homed at the die and owned by the partition (R248). -/
theorem writeFlpg_valid {s : State} {v : Word} (h : v.getLsbD 63 = true) :
    let f := v.toNat % 2 ^ 40
    writeFlpg s v =
      if f < framesOf 0 ∧ frameHome 0 0 f = dieOf s.cur.core ∧ ownerOf s (frameCode 0 0 f) = s.me.psel.toNat then
        modSel s (fun q => { q with flpg := put q.flpg (dieOf s.cur.core) (word (2 ^ 63 + f)) })
      else refuse s 1 := by
  have hlegal (a b c : Prop) [Decidable a] [Decidable b] [Decidable c] :
      (true && !(decide a && decide b && decide c)) = true ↔ ¬(a ∧ b ∧ c) := by
    simp only [Bool.true_and, Bool.not_eq_true', ← Bool.not_eq_true, Bool.and_eq_true, decide_eq_true_eq, and_assoc]
  dsimp only
  rw [writeFlpg, h, if_pos rfl, bits_frame]
  exact (if_congr (hlegal _ _ _) rfl rfl).trans (ite_not _ _ _)

/-- RSLOT is refused above 64 (R317). -/
theorem writeRslot_refused {s : State} {v : Word} (h : 64 < v.toNat % 128) : writeRslot s v = refuse s 3 :=
  if_pos (.inl (by rw [BitVec.toNat_setWidth]; exact h))

/-- An entry that no partition holds takes what is written (R317). -/
theorem writeRslot_free {s : State} {v : Word} (h : v.toNat % 128 ≤ 64)
    (hfree : look 64 (s.die (s.me.rsel.toNat / 256)).rslots (s.me.rsel.toNat % 256) = 64) :
    writeRslot s v = s.modDie (s.me.rsel.toNat / 256)
      (fun x => { x with rslots := put x.rslots (s.me.rsel.toNat % 256) (v.setWidth 7) }) := by
  refine if_neg ?_
  rw [hfree, BitVec.toNat_setWidth]
  rintro (hv | ⟨-, hold, -⟩)
  · exact absurd hv (Nat.not_lt.mpr h)
  · exact absurd hold (by decide)

theorem newly_spent_iff (spent : Bool) (balance : Int) :
    (!spent && decide (balance ≤ 0)) = true ↔ spent = false ∧ balance ≤ 0 := by
  rw [Bool.and_eq_true, Bool.not_eq_true', decide_eq_true_iff]

/-- Settles O10, register by register. -/
theorem supervisorWritesTakeEffect : Obligations.SupervisorWritesTakeEffect := by
  intro s v hs hw p q refused sum
  have does (t : State) : regEvent s (some t) = .next t := regEvent_supervised hs hw t
  refine ⟨?frg, ?keyb, ?keyn, ?ecap, ?plmaps, ?pwsh, ?eadj, ?dlbase, ?dltail, fun hclear => ?flpgClear, fun hvalid => ?flpgValid,
    fun hv => ?rslotRefused, fun hv hfree => ?rslotFree⟩
  case frg =>
    refine (does _).trans (next_ite ?_ _ _)
    rw [foldl_parts_eq_sum _ (fun x => x.frg.toNat), BitVec.toNat_setWidth]
  case pwsh =>
    refine (does _).trans (next_ite ?_ _ _)
    rw [foldl_parts_eq_sum _ (fun x => x.pwsh.toNat), BitVec.toNat_setWidth]
  case keyb | keyn | ecap => exact (does _).trans (next_ite .rfl _ _)
  case plmaps => exact (does _).trans (next_ite (plmaps_refused_iff v) _ _)
  case eadj => exact (does _).trans (congrArg _ (if_congr (newly_spent_iff _ _) rfl rfl))
  case dlbase => exact does _
  case dltail =>
    refine ⟨_, does _, ?_, ?_⟩
    · rw [writeDltail, modSel, State.part_modPart_same]
    · rw [writeDltail, modSel, State.part_modPart_same]
      exact List.filter_sublist.subset
  case flpgClear => exact (does _).trans (congrArg _ (writeFlpg_clear hclear))
  case flpgValid =>
    exact ⟨fun h => (does _).trans (congrArg _ ((writeFlpg_valid hvalid).trans (if_pos h))),
      fun h => (does _).trans (congrArg _ ((writeFlpg_valid hvalid).trans (if_neg h)))⟩
  case rslotRefused => exact (does _).trans (congrArg _ (writeRslot_refused hv))
  case rslotFree => exact (does _).trans (congrArg _ (writeRslot_free hv hfree))

end Sys2Proof.Machine
end

section
/-! PROOFS. Atomics (O16): what an atomic that nothing makes wait returns and leaves (R215). -/

namespace Sys2Proof.Machine

/-! ## A read changes nothing that hosts see -/

namespace KeepsHost

theorem sawBy (s : State) (who : PartyId) (x : Sight) (firm : Nat) (gs : List Nat) : KeepsHost s (sawBy s who x firm gs) :=
  .ite s (.refl s) (.modParty s who _)

theorem mergeRead (s : State) (who : PartyId) (x : Sight) (firm : Nat) (gs : List Nat) : KeepsHost s (mergeRead s who x firm gs) := by
  unfold Machine.mergeRead
  refine trans ?_ (.sawBy _ who x firm gs)
  exact .ite s (.refl s) ⟨rfl, rfl, rfl, rfl, rfl⟩

end KeepsHost

theorem keepsHost_readPlace {s t : State} {who : PartyId} {part n : Nat} {acquires : Bool} {p : Place} {o : Option (List Byte)}
    (h : readPlace s who part acquires p n = (t, o)) : KeepsHost s t := by
  revert h
  unfold readPlace readSeen
  split
  · rintro ⟨⟩
    exact .setKrev s who
  split
  · rintro ⟨⟩
    exact .refl s
  split
  · rintro ⟨⟩
    exact .refl s
  next u hu =>
    obtain ⟨fs, ds, rfl⟩ := checkWords_spec _ _ _ _ hu
    rintro ⟨⟩
    have checked : KeepsHost s { s with flips := fs, dies := ds } := ⟨rfl, rfl, rfl, rfl, rfl⟩
    exact (checked.trans (.mergeRead _ who _ _ _)).trans (.countAccess _ _ _ _)

/-! ## An atomic that nothing makes wait -/

/-- What the hypotheses of O16 say of an atomic's address, its place and the word read there. -/
structure AtomicReads (s u : State) (w g o : B2) (a : B6) (p : Place) (bs : List Byte) : Prop where
  ready : Ready s .wing w g
  present : Present s
  outside : ¬(weightBase ≤ (s.reg a.toNat).toNat ∧ (s.reg a.toNat).toNat < weightEnd)
  reached : reach s (s.reg a.toNat).toNat true = .place p
  writable : p.readOnly = false
  uncontrolled : hitsControl p 8 = false
  aligned : (s.reg a.toNat).toNat % 8 = 0
  unordered : mustWait s p.home (o.getLsbD 0) (o.getLsbD 1) = false
  read : readPlace s s.cur s.myPart false p 8 = (u, some bs)

namespace AtomicReads

variable {s u t : State} {w g o : B2} {d a : B6} {p : Place} {bs : List Byte}

theorem mem_eq (h : AtomicReads s u w g o a p bs) : u.mem = s.mem :=
  (congrArg (·.1.mem) h.read.symm).trans (mem_readPlace ..)

/-- The word read is the one in memory. -/
theorem read_eq (h : AtomicReads s u w g o a p bs) (hrev : revokedPlace s p = false) : bs = readBytes s.mem p.phys 8 := by
  rw [readPlace_bytes (s := s) (who := s.cur) h.present.1 h.read, hrev]
  rfl

/-- An atomic reads, writes what its function gives, orders, and returns the old word. -/
theorem atomic_eq (h : AtomicReads s u w g o a p bs) (d : B6) (f : Word → Option Word)
    (ht : (match f (word (natOfBytes bs)) with
      | none => some u
      | some v => performWrite u u.cur p (bytesOfNat 8 v.toNat)) = some t) :
    atomic s d a o f = .done ((ordered t (o.getLsbD 0) (o.getLsbD 1)).setReg d.toNat (word (natOfBytes bs)) false) 1 := by
  obtain ⟨-, hpr, hw, hr, hro, hc, hal, hm, hp⟩ := h
  have hwait : writeWaits s p.home (acquiresOf o) (releasesOf o) = false := (writeWaits_present hpr.2.1 _ _ _).trans hm
  have unfolded : atomic s d a o f =
      match (match f (word (natOfBytes bs)) with | none => some u | some v => performWrite u u.cur p (bytesOfNat 8 v.toNat)) with
      | some t => .done ((ordered t (o.getLsbD 0) (o.getLsbD 1)).setReg d.toNat (word (natOfBytes bs)) false) 1
      | none => .lost u := by
    simp only [atomic, hw, hr, hro, hc, hal, hwait, ownLate_present hpr, mateLate_present hpr, readNow, hp, Bool.or_self,
      Bool.false_eq_true, if_false, ne_eq, not_true_eq_false]
    rfl
  rw [unfolded, ht]

/-- An atomic whose function gives a new word leaves it in memory. -/
theorem writes (h : AtomicReads s u w g o a p bs) {i : Instr} {body : State → Act} {f : Word → Option Word}
    {new : Word} (hexec : exec i s = tokened s .wing w g body) (hbody : body s = atomic s d a o f) (hf : f (word (natOfBytes bs)) = some new)
    (ht : performWrite u u.cur p (bytesOfNat 8 new.toNat) = some t) :
    completes i s w g ((ordered t (o.getLsbD 0) (o.getLsbD 1)).setReg d.toNat (word (natOfBytes bs)) false) ∧
      (revokedPlace s p = false → s.Inv → readBytes t.mem p.phys 8 = bytesOfNat 8 new.toNat) := by
  refine ⟨completes_of_wing h.ready (hbody.trans (h.atomic_eq d f ?_)) hexec, fun hrev hs => ?_⟩
  · rw [hf]
    exact ht
  · have hlen : (bytesOfNat 8 new.toNat).length = 8 := length_bytesOfNat _ _
    have hback := readBytes_performWrite (show Memory.wf u.mem = true from h.mem_eq ▸ hs)
      (((keepsHost_readPlace h.read).revokedPlace p).trans hrev) (List.ne_nil_of_length_pos (by rw [hlen]; decide)) ht
    rwa [hlen] at hback

end AtomicReads

/-- Settles O16. -/
theorem atomicsReadAndWrite : Obligations.AtomicsReadAndWrite := by
  intro s u w g o d a b p bs hrdy hpr va hw hr hro hc hal hm hp old x ends does
  have h : AtomicReads s u w g o a p bs := ⟨hrdy, hpr, hw, hr, hro, hc, hal, hm, hp⟩
  refine ⟨h.read_eq, fun t ht => ?_, fun t ht => ?_, fun t ht => ?_, fun t ht => ?_, fun t ht => ?_, fun t ht => ?_, fun t ht => ?_,
    fun heq t ht => ?_, fun hne => ⟨?_, h.mem_eq⟩⟩
  · exact h.writes (f := fun old => some (old + x)) (by rfl) (by rfl) rfl ht
  · exact h.writes (f := fun old => some (old &&& x)) (by rfl) (by rfl) rfl ht
  · exact h.writes (f := fun old => some (old ||| x)) (by rfl) (by rfl) rfl ht
  · exact h.writes (f := fun old => some (old ^^^ x)) (by rfl) (by rfl) rfl ht
  · exact h.writes (f := fun old => some (minS old x)) (by rfl) (by rfl) (congrArg some (minS_eq old x)) ht
  · exact h.writes (f := fun old => some (maxS old x)) (by rfl) (by rfl) (congrArg some (maxS_eq old x)) ht
  · exact h.writes (f := fun _ => some x) (by rfl) (by rfl) rfl ht
  · exact h.writes (f := fun old => if old = s.reg d.toNat then some x else none) (by rfl) (by rfl) (if_pos heq) ht
  · have fails : (if old = s.reg d.toNat then some x else none) = none := if_neg hne
    have acts := h.atomic_eq (t := u) d (fun old => if old = s.reg d.toNat then some x else none) (by rw [fails])
    exact completes_of_wing (body := fun s => atomic s d a o fun old => if old = s.reg d.toNat then some (s.reg b.toNat) else none)
      hrdy acts

end Sys2Proof.Machine
end

section
/-! PROOFS. What an access to memory touches of the machine besides the bytes of it: the parts of a state that no access changes, and that
reads, writes and the end of an instruction leave them alone (R213, R347, R371). -/

namespace Sys2Proof.Machine

/-! ## What no access changes -/

/-- What of the machine no access changes: all of it but parties, residency slots, partitions and what `accessFrame` names. -/
def State.apart (s : State) : State :=
  { s with parties := [], ctxs := [], dies := [], parts := [], mem := [], tags := [], flips := [], stamps := [], seq := 0, past := [],
           flights := [], loads := [], moved := [], last := .none }

/-- What of a residency slot no access changes. -/
def Ctx.lasting (c : Ctx) : Option Task × Option Checkpoint × Shared := (c.task, c.checkpoint, { c.sh with istat := 0 })

/-- What of a partition no access changes: all but its dirty log. -/
def Partition.unlogged (x : Partition) : Partition := { x with dirty := [], dlhead := 0, dlctl := 0 }

/-- What of a party a word that neither writes a register nor runs in an engine leaves alone: all that `flowOnly` does not name. -/
def PartyState.fixed (x : PartyState) : PartyState :=
  { x with pc := 0, ls := [], order := [], repc := 0, tcause := 0, tpc := 0, tval := 0, tstat := 0, held := false, evp := 0, wait := .no,
           push := none, busy := none, tkc := 0, popped := 0, view := {} }

theorem flowOnly_of_fixed {x y : PartyState} (h : y.fixed = x.fixed) : flowOnly x y := by
  rw [flowOnly]
  exact congrArg (fun z : PartyState => { z with
    pc := y.pc, ls := y.ls, order := y.order, repc := y.repc, tcause := y.tcause, tpc := y.tpc, tval := y.tval, tstat := y.tstat,
    held := y.held, evp := y.evp, wait := y.wait, push := y.push, busy := y.busy, tkc := y.tkc, popped := y.popped, view := y.view }) h

theorem fixed_eq_of_trapFrame {x y : PartyState} (h : trapFrame x y) : y.fixed = x.fixed := by
  rw [trapFrame] at h
  rw [h]
  rfl

/-- `t` differs from `s` in nothing but what an access may change, and keeps the same `f` of every party. -/
structure Touches {α : Type} (f : PartyState → α) (s t : State) : Prop where
  apart : t.apart = s.apart
  ctx : ∀ c k, (t.ctx c k).lasting = (s.ctx c k).lasting
  part : ∀ p, (t.part p).unlogged = (s.part p).unlogged
  parties : Keeps f s t

theorem Touches.accessFrame {α : Type} {f : PartyState → α} {s t : State} (h : Touches f s t) : accessFrame s t := by
  refine ⟨congrArg (fun z : State => { z with
    parties := t.parties, ctxs := t.ctxs, dies := t.dies, parts := t.parts, mem := t.mem, tags := t.tags, flips := t.flips,
    stamps := t.stamps, seq := t.seq, past := t.past, flights := t.flights, loads := t.loads, moved := t.moved, last := t.last })
    h.apart, fun c k => ?_, fun p => ?_⟩
  · have hc := h.ctx c k
    obtain ⟨htask, hrest⟩ := Prod.mk.inj hc
    obtain ⟨hcheck, hsh⟩ := Prod.mk.inj hrest
    exact ⟨htask, hcheck, congrArg (fun z : Shared => { z with istat := (t.ctx c k).sh.istat }) hsh⟩
  · exact congrArg (fun z : Partition => { z with
      dirty := (t.part p).dirty, dlhead := (t.part p).dlhead, dlctl := (t.part p).dlctl }) (h.part p)

/-- As well, `t` has the memory and the partitions of `s`. -/
structure Quiet {α : Type} (f : PartyState → α) (s t : State) : Prop extends Touches f s t where
  mem : t.mem = s.mem
  parts : t.parts = s.parts

variable {α : Type} {f : PartyState → α} {s t u : State}

namespace Touches

theorem refl (s : State) : Touches f s s := ⟨rfl, fun _ _ => rfl, fun _ => rfl, .refl s⟩

theorem trans (h : Touches f s t) (k : Touches f t u) : Touches f s u :=
  ⟨k.apart.trans h.apart, fun c i => (k.ctx c i).trans (h.ctx c i), fun p => (k.part p).trans (h.part p), h.parties.trans k.parties⟩

theorem ite {c : Prop} [Decidable c] (ht : Touches f s t) (hu : Touches f s u) : Touches f s (if c then t else u) := by
  split
  · exact ht
  · exact hu

/-- What follows from less of a party. -/
theorem comp {β : Type} (g : α → β) (h : Touches f s t) : Touches (fun x => g (f x)) s t :=
  ⟨h.apart, h.ctx, h.part, h.parties.cur, fun q => congrArg g (h.parties.party q)⟩

/-- An update of neither parties nor slots nor partitions. -/
theorem of_same (ha : t.apart = s.apart) (hp : t.parties = s.parties) (hc : t.ctxs = s.ctxs) (hq : t.parts = s.parts) :
    Touches f s t := by
  have hcur : t.cur = s.cur := congrArg (·.cur) ha
  exact ⟨ha, fun c k => by simp only [State.ctx, hc], fun p => by simp only [State.part, hq], .of_parties hcur hp⟩

end Touches

namespace Quiet

theorem refl (s : State) : Quiet f s s := ⟨.refl s, rfl, rfl⟩

theorem trans (h : Quiet f s t) (k : Quiet f t u) : Quiet f s u :=
  ⟨h.toTouches.trans k.toTouches, k.mem.trans h.mem, k.parts.trans h.parts⟩

theorem ite {c : Prop} [Decidable c] (ht : Quiet f s t) (hu : Quiet f s u) : Quiet f s (if c then t else u) := by
  split
  · exact ht
  · exact hu

theorem foldl {β : Type} {g : State → β → State} (hg : ∀ t e, Quiet f t (g t e)) (l : List β) (s : State) :
    Quiet f s (l.foldl g s) :=
  List.foldlRecOn l g (refl s) (fun t h e _ => h.trans (hg t e))

theorem of_same (ha : t.apart = s.apart) (hp : t.parties = s.parties) (hc : t.ctxs = s.ctxs) (hq : t.parts = s.parts)
    (hm : t.mem = s.mem) : Quiet f s t := ⟨.of_same ha hp hc hq, hm, hq⟩

/-- An update of parties alone. -/
theorem of_keeps (ho : OnlyParties s t) (hk : Keeps f s t) : Quiet f s t := by
  obtain ⟨ps, e, rfl⟩ := ho
  exact ⟨⟨rfl, fun _ _ => rfl, fun _ => rfl, hk⟩, rfl, rfl⟩

theorem modParty (s : State) (p : PartyId) {g : PartyState → PartyState} (hg : ∀ x, f (g x) = f x) : Quiet f s (s.modParty p g) :=
  of_keeps ⟨_, _, rfl⟩ (.modParty s p hg)

theorem modMe (s : State) {g : PartyState → PartyState} (hg : ∀ x, f (g x) = f x) : Quiet f s (s.modMe g) := modParty s s.cur hg

theorem modDie (s : State) (d : Nat) (g : DieState → DieState) : Quiet f s (s.modDie d g) := .of_same rfl rfl rfl rfl rfl

theorem setLast (s : State) (e : Ending) : Quiet f s (s.setLast e) := .of_same rfl rfl rfl rfl rfl

/-- A mark of a slot that its task, its checkpoint and its registers but ISTAT do not show. -/
theorem modCtx (s : State) (c k : Nat) {g : Ctx → Ctx} (hg : ∀ x, (g x).lasting = x.lasting) : Quiet f s (s.modCtx c k g) := by
  refine ⟨⟨rfl, fun c' k' => ?_, fun _ => rfl, .of_parties rfl rfl⟩, rfl, rfl⟩
  by_cases h : c' * 2 + k' = c * 2 + k
  · have hnew : (s.modCtx c k g).ctx c' k' = g (s.ctx c' k') := by simp [State.ctx, State.modCtx, State.setCtx, h]
    rw [hnew, hg]
  · rw [State.modCtx, State.ctx_setCtx_other s c k c' k' _ h]

/-! ## Marks of tasks -/

theorem setKrev (s : State) (p : PartyId) : Quiet f s (setKrev s p) := modCtx s _ _ fun _ => rfl

theorem setWclosed (s : State) (p : PartyId) : Quiet f s (setWclosed s p) := modCtx s _ _ fun _ => rfl

theorem markDying (s : State) (core slot cause : Nat) (v : Word) : Quiet f s (markDying s core slot cause v) := modCtx s _ _ fun _ => rfl

theorem consume (s : State) (core slot : Nat) : Quiet f s (consume s core slot) :=
  .ite (refl s) (.ite (modCtx s _ _ fun _ => rfl) (markDying s _ _ _ _))

/-! ## Reads -/

theorem checkWords {die : Nat} {as : List Nat} (h : checkWords s die as = some t) : Quiet f s t := by
  obtain ⟨fs, ds, rfl⟩ := checkWords_spec _ _ _ _ h
  exact .of_same rfl rfl rfl rfl rfl

theorem countAccess (s : State) (part a n : Nat) : Quiet f s (countAccess s part a n) := by
  have moved (k : Nat) : Quiet f s (countMoved s part k n) := .ite (refl s) (.of_same rfl rfl rfl rfl rfl)
  exact .ite (moved _) (.ite (moved _) (.ite (moved _) (refl s)))

section
variable (hseen : ∀ x m n, f { x with view := { x.view with mark := m, seen := n } } = f x)
include hseen

theorem sawBy (s : State) (who : PartyId) (x : Sight) (firm : Nat) (gs : List Nat) : Quiet f s (sawBy s who x firm gs) :=
  .ite (refl s) (modParty s who fun _ => hseen _ _ _)

theorem mergeRead (s : State) (who : PartyId) (x : Sight) (firm : Nat) (gs : List Nat) : Quiet f s (mergeRead s who x firm gs) := by
  unfold Machine.mergeRead
  refine trans ?_ (sawBy hseen _ who x firm gs)
  exact .ite (refl s) (modDie s _ _)

theorem readSeen {who : PartyId} {part payer n : Nat} {acquires : Bool} {p : Place} {o : Option (List Byte)}
    (h : readSeen s who part payer acquires p n = (t, o)) : Quiet f s t := by
  revert h
  unfold Machine.readSeen
  split
  · rintro ⟨⟩
    exact setKrev s who
  split
  · rintro ⟨⟩
    exact refl s
  split
  · rintro ⟨⟩
    exact refl s
  next u hu =>
    rintro ⟨⟩
    exact (checkWords hu).trans ((mergeRead hseen _ _ _ _ _).trans (countAccess _ _ _ _))

theorem readPlace {who : PartyId} {part n : Nat} {acquires : Bool} {p : Place} {o : Option (List Byte)}
    (h : readPlace s who part acquires p n = (t, o)) : Quiet f s t := readSeen hseen h

end

/-! ## Writes -/

theorem forget (s : State) (a n : Nat) : Quiet f s (forget s a n) := .ite (refl s) (.of_same rfl rfl rfl rfl rfl)

theorem tagLines (s : State) (num : Nat) (lines : List Nat) : Quiet f s (tagLines s num lines) :=
  (foldl (fun t _ => forget t _ _) _ s).trans (.of_same rfl rfl rfl rfl rfl)

theorem stampRange (s : State) (x : Sight) (clock : Sparse Nat) (a n : Nat) : Quiet f s (stampRange s x clock a n) :=
  .ite (refl s) (.of_same rfl rfl rfl rfl rfl)

theorem tickClock (s : State) (die : Nat) : Quiet f s (tickClock s die) := modDie s _ _

section
variable (hview : ∀ x v, f { x with view := v } = f x)
include hview

theorem madeBy (s : State) (who : PartyId) (gs : List Nat) : Quiet f s (madeBy s who gs) := .ite (refl s) (modParty s who fun _ => hview _ _)

theorem remember (s : State) (who : PartyId) (x : Sight) (num : Nat) (us : List (List Nat)) : Quiet f s (remember s who x num us) := by
  unfold Machine.remember
  refine trans ?_ (madeBy hview _ _ _)
  exact .of_same rfl rfl rfl rfl rfl

theorem rememberPlace (s : State) (who : PartyId) (part : Nat) (clock : Sparse Nat) (p : Place) (n : Nat) :
    Quiet f s (rememberPlace s who part clock p n) :=
  .ite (forget s _ _) (.ite ((forget s _ _).trans (madeBy hview _ _ _)) (remember hview s _ _ _ _))

end

end Quiet

/-! ## The dirty log and the bytes written -/

theorem Touches.setPart (s : State) (p : Nat) {x : Partition} (hx : x.unlogged = (s.part p).unlogged) : Touches f s (s.setPart p x) := by
  refine ⟨rfl, fun _ _ => rfl, fun q => ?_, .of_parties rfl rfl⟩
  by_cases h : q = p
  · subst h
    rw [State.part_setPart_same, hx]
  · rw [State.part_setPart_other _ _ _ _ h]

/-- A state with other memory. -/
theorem Touches.withMem (s : State) (m : List Host.Cell) : Touches f s { s with mem := m } := .of_same rfl rfl rfl rfl

/-- What the first write of a frame makes of the dirty log: nothing, marks of the partition, or an entry as well (R371). -/
theorem logDirty_spec (s : State) (frame : Option Nat) :
    logDirty s frame = s ∨ ∃ code x, frame = some code ∧
      (logDirty s frame = s.setPart (ownerOf s code) x ∨ ∃ v, logDirty s frame =
        { forget s (logEntryAt s code) 8 with mem := writeBytes s.mem (logEntryAt s code) (bytesOfNat 8 v) }.setPart
          (ownerOf s code) x) ∧ x.unlogged = (s.part (ownerOf s code)).unlogged := by
  unfold logDirty
  split
  · exact .inl rfl
  · dsimp only
    split_ifs
    · exact .inl rfl
    · exact .inr ⟨_, _, rfl, .inl rfl, rfl⟩
    · exact .inr ⟨_, _, rfl, .inl rfl, rfl⟩
    · exact .inr ⟨_, _, rfl, .inr ⟨_, rfl⟩, rfl⟩

theorem touches_logDirty (s : State) (frame : Option Nat) : Touches f s (logDirty s frame) := by
  rcases logDirty_spec s frame with h | ⟨code, x, -, h | ⟨v, h⟩, hx⟩
  · rw [h]
    exact .refl s
  · rw [h]
    exact .setPart s _ hx
  · rw [h]
    refine ((Quiet.forget s _ _).toTouches.trans (.withMem _ _)).trans (.setPart _ _ ?_)
    rw [hx]
    simp only [State.part, (Quiet.forget (f := f) s _ _).parts]

/-- The dirty log changes no byte outside its entry. -/
theorem readByte_logDirty {x : Nat} {frame : Option Nat} (hs : Memory.wf s.mem = true) (hf : ∀ c, frame = some c →
    ¬(logEntryAt s c ≤ x ∧ x < logEntryAt s c + 8)) : readByte (logDirty s frame).mem x = readByte s.mem x := by
  rcases logDirty_spec s frame with h | ⟨code, y, hc, h | ⟨v, h⟩, -⟩
  · rw [h]
  · rw [h]
    rfl
  · have hout := hf code hc
    have hlen : (bytesOfNat 8 v).length = 8 := length_bytesOfNat _ _
    rw [h]
    exact readByte_writeBytes_outside _ _ _ hs (by omega)

/-- The entry of a dirty log depends on the owners of frames and the partitions alone. -/
theorem Quiet.logEntryAt (h : Quiet f s t) (code : Nat) : logEntryAt t code = logEntryAt s code := by
  have howners : t.owners = s.owners := congrArg (·.owners) h.apart
  simp only [Machine.logEntryAt, ownerOf, State.part, howners, h.parts]

theorem Quiet.writesOnly (h : Quiet f s t) (o : Option Place) (n : Nat) : onlyWrites s t o n := fun x _ _ => by rw [h.mem]

theorem Quiet.then_writesOnly {o : Option Place} {n : Nat} (h : Quiet f s t) (k : onlyWrites t u o n) : onlyWrites s u o n :=
  fun x hp he => by
    rw [k x hp (fun p code ho hc => h.logEntryAt code ▸ he p code ho hc), h.mem]

/-- Bytes merged into the lines of a place: what they touch, and that no byte elsewhere changes but an entry of the dirty log. -/
theorem mergeBytes_touches {who : PartyId} {part : Nat} {clock : Sparse Nat} {p : Place} {kept : List Nat} {bs : List Byte}
    (h : mergeBytes s who part clock p kept bs = some t) :
    Touches f s t ∧ (Memory.wf s.mem = true → onlyWrites s t (some p) bs.length) := by
  unfold mergeBytes at h
  extract_lets n wholly cut at h
  split at h
  · obtain rfl := Option.some.inj h
    exact ⟨.refl s, fun _ => (Quiet.refl (f := f) s).writesOnly _ _⟩
  split at h
  · obtain rfl := Option.some.inj h
    have marked : Quiet f s (setKrev s who) := .setKrev s who
    exact ⟨marked.toTouches, fun _ => marked.writesOnly _ _⟩
  split at h
  split at h
  · cases h
  split at h
  · cases h
  next u hu =>
    extract_lets t1 t2 t3 at h
    obtain rfl := Option.some.inj h
    have flipped (fs : Sparse Nat) : Quiet f s { u with flips := fs } := (Quiet.checkWords hu).trans (.of_same rfl rfl rfl rfl rfl)
    have logged : Touches f s t1 := (flipped _).toTouches.trans (touches_logDirty _ p.frame)
    have tagged : Quiet f t2 t3 := by
      simp only [t3]
      split
      · exact .tagLines _ _ _
      · exact .refl _
    have after : Quiet f t2 (stampRange t3 (sightOf s part p.slot) clock p.phys n) := tagged.trans (.stampRange _ _ _ _ _)
    refine ⟨(logged.trans (.withMem t1 _)).trans after.toTouches, fun hs x hp he => ?_⟩
    have hin : ¬(p.phys ≤ x ∧ x < p.phys + bs.length) := hp p rfl
    have hwf : Memory.wf t1.mem = true := wf_logDirty p.frame (by rw [(flipped _).mem]; exact hs)
    calc readByte (stampRange t3 (sightOf s part p.slot) clock p.phys n).mem x
        = readByte (writeBytes t1.mem p.phys bs) x := by rw [after.mem]
      _ = readByte t1.mem x := readByte_writeBytes_outside _ _ _ hwf (by omega)
      _ = readByte s.mem x := by
        refine (readByte_logDirty (by rw [(flipped _).mem]; exact hs) fun c hc => ?_).trans (by rw [(flipped _).mem])
        rw [(flipped _).logEntryAt]
        exact he p c rfl hc

/-- A write performed at once (R204). -/
theorem performWrite_touches (hview : ∀ x v, f { x with view := v } = f x) {who : PartyId} {p : Place} {bs : List Byte}
    (h : performWrite s who p bs = some t) :
    Touches f s t ∧ (Memory.wf s.mem = true → onlyWrites s t (some p) bs.length) := by
  have counted : Quiet f s (countAccess (tickClock s (dieOf who.core)) (partOf s who) p.phys bs.length) :=
    (Quiet.tickClock s _).trans (.countAccess _ _ _ _)
  have before := fun clock => counted.trans (.rememberPlace hview _ who (partOf s who) clock p bs.length)
  obtain ⟨touched, laid⟩ := mergeBytes_touches h
  exact ⟨(before _).toTouches.trans touched, fun hs => (before _).then_writesOnly (laid (by rw [(before _).mem]; exact hs))⟩

/-! ## How an instruction ends -/

/-- What of the machine is left where an instruction's body has come to: of an act that only retires, waits, ends its task or traps. -/
def Act.Within (R : State → Prop) : Act → Prop
  | .done t _ | .wait t | .ends t _ _ | .lost t => R t
  | .trap _ _ | .stop _ => True
  | _ => False

namespace Quiet

/-- An update of a party that changes only what passing a word, waiting at it or trapping at it may. -/
theorem flow (s : State) (p : PartyId) (g : PartyState → PartyState) (hg : ∀ x, (g x).fixed = x.fixed := by intro x; rfl) :
    Quiet PartyState.fixed s (s.modParty p g) := modParty s p hg

theorem setHeld (b : Bool) (ps : List PartyId) (s : State) : Quiet PartyState.fixed s (setHeld s b ps) := by
  induction ps generalizing s with
  | nil => exact .refl s
  | cons p ps ih => exact (flow s p _).trans (ih _)

/-- A trap sets its party's exception registers, holds parties, marks the slot and leaves a record to the die (R347). -/
theorem takeTrap (s : State) (p : PartyId) (c : Nat) (v : Word) : Quiet PartyState.fixed s (takeTrap s p c v) := by
  have first := flow s p (fun x => { x with tcause := BitVec.ofNat 16 c, tpc := x.pc, tval := v, tstat := tstatOf s p, wait := .no })
  have marked := (first.trans (setHeld true (heldBy s p) _)).trans
    ((modCtx _ p.core p.slot (g := fun c => { c with disturbed := true }) fun _ => rfl).trans (setLast _ .trapped))
  exact .ite (marked.trans (modDie _ _ _)) (marked.trans (modDie _ _ _))

theorem popToken (s : State) (w : B2) : Quiet PartyState.fixed s (popToken s w) :=
  of_keeps (by unfold Machine.popToken; split_ifs <;> exact ⟨_, _, rfl⟩)
    (.popToken (fun _ _ => rfl) (fun _ _ _ => rfl) (fun _ _ => rfl) s w)

theorem pushToken (s : State) (g : B2) : Quiet PartyState.fixed s (pushToken s g) := by
  have fenced : Quiet PartyState.fixed s (fenceLate s s.cur) := .ite (refl s) (flow s _ _)
  exact .ite (refl s) (fenced.trans (flow _ _ _))

theorem advance (s : State) (n : Nat) : Quiet PartyState.fixed s (advance s n) :=
  of_keeps (.advance s n) (.advance (fun _ _ _ _ _ => rfl) s n)

theorem rested (s : State) : Quiet PartyState.fixed s (rested s) := by
  have rests := flow s s.cur (fun x => { x with wait := .no, busy := none })
  exact rests.trans (.ite (refl _) (flow _ _ _))

theorem retire (s : State) (g : B2) (n : Nat) : Quiet PartyState.fixed s (retire s g n) := by
  have rests := rested s
  have pushed := rests.trans ((pushToken _ g).trans (setLast _ .retired))
  have full := rests.trans ((flow _ (Machine.rested s).cur (fun x => { x with push := some (g, n) })).trans (setLast _ .waiting))
  exact .ite full (.ite pushed (pushed.trans (advance _ n)))

end Quiet

/-- A word leaves nothing but how it ends to add to what its act has made of the machine. -/
theorem conclude_within {R : State → Prop} {w g : B2} {a : Act} (ha : a.Within R) (hs : R s) (h : conclude s w g a = .next t) :
    ∃ u, R u ∧ Quiet PartyState.fixed u t := by
  cases a with
  | done u n =>
    obtain rfl := Host.Outcome.next.inj h
    by_cases hw : signalWaits s g = true
    · exact ⟨s, hs, by rw [if_pos hw]; exact .setLast s _⟩
    · exact ⟨u, ha, by rw [if_neg hw]; exact (Quiet.popToken u w).trans (.retire _ g n)⟩
  | trap c v =>
    obtain rfl := Host.Outcome.next.inj h
    exact ⟨s, hs, .takeTrap s _ _ _⟩
  | wait u =>
    obtain rfl := Host.Outcome.next.inj h
    exact ⟨u, ha, .setLast u _⟩
  | ends u c v =>
    obtain rfl := Host.Outcome.next.inj h
    exact ⟨u, ha, (Quiet.markDying u _ _ _ _).trans (.setLast _ _)⟩
  | lost u =>
    obtain rfl := Host.Outcome.next.inj h
    exact ⟨u, ha, (Quiet.consume u _ _).trans (.setLast _ _)⟩
  | stop e => exact nomatch h
  | jump u o => exact ha.elim
  | moved u => exact ha.elim
  | issued u c => exact ha.elim
  | raw u => exact ha.elim

/-- The same of a word that waits for its token first. -/
theorem tokened_within {R : State → Prop} {k : Kind} {w g : B2} {body : State → Act} (ha : (body s).Within R) (hs : R s)
    (h : tokened s k w g body = .next t) : ∃ u, R u ∧ Quiet PartyState.fixed u t := by
  unfold tokened at h
  split_ifs at h
  · exact conclude_within (a := .trap _ _) trivial hs h
  · refine conclude_within (a := unboundTrap s (body s)) ?_ hs h
    unfold unboundTrap
    split
    · split <;> trivial
    · trivial
  · exact conclude_within (a := .wait s) hs hs h
  · exact conclude_within ha hs h

end Sys2Proof.Machine
end

section
/-! PROOFS. The frames of the wing loads, stores and atomics (O15): what their bodies make of the machine, and the obligation (R213, R215,
R347, R371). -/

namespace Sys2Proof.Machine

variable {s t u v : State}

/-! ## A word with a destination -/

/-- The state `u` is one of `R`, or one of them with the destination written. -/
def Writes (R : State → Prop) (d : B6) (u : State) : Prop := ∃ v, R v ∧ (u = v ∨ ∃ x taint, u = v.setReg d.toNat x taint)

theorem Writes.of {R : State → Prop} {d : B6} (h : R v) : Writes R d v := ⟨v, h, .inl rfl⟩

theorem Writes.setReg {R : State → Prop} {d : B6} (h : R v) (x : Word) (taint : Bool) : Writes R d (v.setReg d.toNat x taint) :=
  ⟨v, h, .inr ⟨x, taint, rfl⟩⟩

theorem flowAnd_of_fixed {x y z : PartyState} {d : B6} {w : Word} {taint : Bool} (hy : y.fixed = x.fixed)
    (hz : z.fixed = { y with regs := put y.regs d.toNat w, taint := setBit y.taint d.toNat taint,
                             spoilt := setBit y.spoilt d.toNat false }.fixed) : flowAnd d x z := by
  have hregs : z.regs = put y.regs d.toNat w := congrArg (·.regs) hz
  have htaint : z.taint = setBit y.taint d.toNat taint := congrArg (·.taint) hz
  have hspoilt : z.spoilt = setBit y.spoilt d.toNat false := congrArg (·.spoilt) hz
  have hrest : z.fixed = { x with regs := z.regs, taint := z.taint, spoilt := z.spoilt }.fixed := by
    refine hz.trans (Eq.trans ?_ (congrArg (fun q : PartyState => { q with regs := z.regs, taint := z.taint, spoilt := z.spoilt }) hy))
    rw [hregs, htaint, hspoilt]
    rfl
  have yregs : y.regs = x.regs := congrArg (·.regs) hy
  have ytaint : y.taint = x.taint := congrArg (·.taint) hy
  have yspoilt : y.spoilt = x.spoilt := congrArg (·.spoilt) hy
  refine ⟨flowOnly_of_fixed hrest, fun e he => ⟨?_, fun hlt => ⟨?_, ?_⟩⟩⟩
  · rw [hregs, look_put_other _ _ _ _ _ he, yregs]
  · rw [htaint, getLsbD_setBit_other _ _ hlt he, ytaint]
  · rw [hspoilt, getLsbD_setBit_other _ _ hlt he, yspoilt]

theorem flowAnd_of_unwritten {x z : PartyState} (d : B6) (hz : z.fixed = x.fixed) : flowAnd d x z := by
  have hregs : z.regs = x.regs := congrArg (·.regs) hz
  have htaint : z.taint = x.taint := congrArg (·.taint) hz
  have hspoilt : z.spoilt = x.spoilt := congrArg (·.spoilt) hz
  refine ⟨?_, fun e _ => ⟨?_, fun _ => ⟨?_, ?_⟩⟩⟩
  · rw [hregs, htaint, hspoilt]
    exact flowOnly_of_fixed hz
  · rw [hregs]
  · rw [htaint]
  · rw [hspoilt]

/-- What a word with a destination changes: the destination, and nothing of the machine but what `accessFrame` names. -/
theorem Writes.frame {R : State → Prop} {d : B6} (hR : ∀ v, R v → Touches PartyState.fixed s v) (h : Writes R d u)
    (ht : Quiet PartyState.fixed u t) :
    (∃ v, R v ∧ t.mem = v.mem) ∧ accessFrame s t ∧ flowAnd d s.me (t.party s.cur) ∧
      ∀ q, partyKey q ≠ partyKey s.cur → flowOnly (s.party q) (t.party q) := by
  obtain ⟨v, hv, rfl | ⟨x, taint, rfl⟩⟩ := h
  · have all := (hR _ hv).trans ht.toTouches
    exact ⟨⟨_, hv, ht.mem⟩, all.accessFrame, flowAnd_of_unwritten d (all.parties.party s.cur),
      fun q _ => flowOnly_of_fixed (all.parties.party q)⟩
  · have touched := hR _ hv
    have hcur : v.cur = s.cur := touched.parties.cur
    have written : Touches (fun _ => ()) v (v.setReg d.toNat x taint) :=
      ⟨rfl, fun _ _ => rfl, fun _ => rfl, .modMe v fun _ => rfl⟩
    refine ⟨⟨v, hv, ht.mem⟩, ((touched.comp fun _ => ()).trans (written.trans (ht.toTouches.comp fun _ => ()))).accessFrame, ?_,
      fun q hq => flowOnly_of_fixed ?_⟩
    · refine flowAnd_of_fixed (y := v.me) (w := x) (taint := taint) touched.parties.me ?_
      have hme := ht.parties.party s.cur
      rw [← hcur] at hme ⊢
      exact hme.trans (congrArg PartyState.fixed (State.me_modMe v _))
    · refine (ht.parties.party q).trans (Eq.trans (congrArg PartyState.fixed ?_) (touched.parties.party q))
      exact party_modMe_other (by rwa [hcur]) _

/-! ## Marks of a party's own accesses -/

namespace Quiet

theorem acquire (s : State) (n : Nat) : Quiet PartyState.fixed s (acquire s n) := modMe s fun _ => rfl

theorem released (s : State) (p : PartyId) : Quiet PartyState.fixed s (released s p) := .ite (refl s) (flow s p _)

theorem firmUp (s : State) (p : PartyId) : Quiet PartyState.fixed s (firmUp s p) := modParty s p fun _ => rfl

theorem ordered (s : State) (acquires releases : Bool) : Quiet PartyState.fixed s (ordered s acquires releases) := by
  have first : Quiet PartyState.fixed s (if acquires then Machine.firmUp (Machine.acquire s s.seq) s.cur else s) :=
    .ite ((acquire s _).trans (firmUp _ _)) (refl s)
  exact .ite (first.trans (released _ _)) first

theorem withLag (s : State) (p : PartyId) (n : Nat) : Quiet PartyState.fixed s (withLag s p n) := .ite (refl s) (flow s p _)

theorem noteRead (s : State) (a n : Nat) : Quiet PartyState.fixed s (noteRead s a n) := by
  unfold Machine.noteRead
  split
  · exact modMe s fun _ => rfl
  · exact refl s

theorem leaveLate (s : State) (p : Place) (bs : List Byte) (fenced : Bool) : Quiet PartyState.fixed s (leaveLate s p bs fenced) :=
  modMe s fun _ => rfl

/-- A write to another die is only sent (R204). -/
theorem sendWrite (s : State) (p : Place) (bs : List Byte) (release : Bool) : Quiet PartyState.fixed s (sendWrite s p bs release) :=
  (tickClock s (myDie s)).trans ((countAccess _ s.myPart p.phys bs.length).trans (.of_same rfl rfl rfl rfl rfl))

end Quiet

/-! ## Loads -/

theorem within_noPlace {R : State → Prop} (hs : R s) (va : Word) : (noPlace s va).Within R := by
  unfold noPlace
  split
  · trivial
  · exact hs

theorem within_ite {R : State → Prop} {c : Prop} [Decidable c] {a b : Act} (ha : a.Within R) (hb : b.Within R) :
    (if c then a else b).Within R := by
  split
  · exact ha
  · exact hb

theorem within_loadPlace {p : Place} {d : B6} {size : Nat} {signed consumes acquires : Bool} (hv : Quiet PartyState.fixed s v) :
    (loadPlace v p d size signed consumes acquires).Within (Writes (Quiet PartyState.fixed s) d) := by
  unfold loadPlace
  split
  next t ht => exact .of (hv.trans (.readPlace (fun _ _ _ => rfl) ht))
  next t bs ht =>
    have read : Quiet PartyState.fixed s t := hv.trans (.readPlace (fun _ _ _ => rfl) ht)
    exact .setReg (.ite (read.trans (.acquire t _)) read) _ _

/-- What a load makes of the machine: marks, and its destination. -/
theorem within_load (w g : B2) (d a : B6) (f : BitVec 9) (size : Nat) (signed consumes acquires : Bool) :
    (load s w g d a f size signed consumes acquires).Within (Writes (Quiet PartyState.fixed s) d) := by
  have unchanged : Writes (Quiet PartyState.fixed s) d s := .of (.refl s)
  unfold load
  dsimp only
  split
  · trivial
  refine within_ite trivial ?_
  split
  · refine within_ite unchanged ?_
    split
    · exact unchanged
    · have noted := Quiet.noteRead s
      exact .setReg (.ite ((noted _ _).trans (.acquire _ _)) (noted _ _)) _ _
    · refine within_ite (within_ite unchanged (within_loadPlace (.withLag s _ _))) (.of ?_)
      have waits : Quiet PartyState.fixed s (s.modMe fun x => { x with wait := .load }) := .modMe s fun _ => rfl
      exact waits.trans (.of_same rfl rfl rfl rfl rfl)
  · exact .setReg (.setWclosed s _) _ _
  · exact within_noPlace unchanged _

theorem exec_load {i : Instr} {d : B6} (h : loadDest i = some d) (s : State) :
    ∃ w g a f size signed consumes acquires,
      exec i s = tokened s .wing w g (fun s => load s w g d a f size signed consumes acquires) := by
  cases i
  case ldb | ldh | ldw | ldd | ldbu | ldhu | ldwu | lda | ldc =>
    cases h
    exact ⟨_, _, _, _, _, _, _, _, rfl⟩
  all_goals exact nomatch h

theorem loadFrame : Claims.LoadFrame := by
  intro i s t d hd hexec
  obtain ⟨w, g, a, f, size, signed, consumes, acquires, hi⟩ := exec_load hd s
  obtain ⟨u, hu, ht⟩ := tokened_within (within_load w g d a f size signed consumes acquires) (.of (.refl s)) (hi.symm.trans hexec)
  obtain ⟨⟨v, hv, hmem⟩, framed⟩ := hu.frame (fun v hv => hv.toTouches) ht
  exact ⟨fun x => by rw [hmem, hv.mem], framed⟩

/-! ## Stores -/

/-- What a store makes of the machine: bytes of its place, where it is one of its own die. -/
def Stored (s : State) (o : Option Place) (n : Nat) (u : State) : Prop :=
  Touches PartyState.fixed s u ∧ (Memory.wf s.mem = true → onlyWrites s u o n)

theorem Stored.of_quiet {o : Option Place} {n : Nat} (h : Quiet PartyState.fixed s u) : Stored s o n u :=
  ⟨h.toTouches, fun _ => h.writesOnly o n⟩

theorem Stored.trans_quiet {o : Option Place} {n : Nat} (h : Stored s o n u) (k : Quiet PartyState.fixed u v) : Stored s o n v := by
  obtain ⟨touched, laid⟩ := h
  exact ⟨touched.trans k.toTouches, fun hs x hp he => by rw [k.mem, laid hs x hp he]⟩

theorem Stored.of_performWrite {p : Place} {bs : List Byte} {who : PartyId} (h : performWrite s who p bs = some u) :
    Stored s (some p) bs.length u := performWrite_touches (fun _ _ => rfl) h

theorem stored_storeNow (s : State) (p : Place) (bs : List Byte) : Stored s (some p) bs.length (storeNow s p bs) := by
  unfold storeNow
  split
  next t ht => exact .of_performWrite ht
  next => exact .of_quiet (.consume s _ _)

theorem within_storePlace (s : State) (p : Place) (bs : List Byte) (releases : Bool) :
    (storePlace s p bs releases).Within (Stored s (if p.home = myDie s then some p else none) bs.length) := by
  have unchanged (o : Option Place) : Stored s o bs.length s := .of_quiet (.refl s)
  unfold storePlace
  dsimp only
  refine within_ite (unchanged _) (within_ite (.of_quiet (.leaveLate s p bs false)) (within_ite (unchanged _) ?_))
  by_cases hown : p.home = myDie s
  · rw [if_pos hown, if_pos hown]
    refine within_ite (unchanged _) ?_
    have now := stored_storeNow s p bs
    change Stored s (some p) bs.length (if releases then released (storeNow s p bs) s.cur else storeNow s p bs)
    split
    · exact now.trans_quiet (.released _ _)
    · exact now
  · rw [if_neg hown, if_neg hown]
    exact .of_quiet (.sendWrite s p bs releases)

theorem within_store (d a : B6) (f : BitVec 9) (size : Nat) (releases : Bool) :
    (store s d a f size releases).Within (Stored s (storedAt s (memAddr s a f size).toNat) size) := by
  have unchanged (o : Option Place) : Stored s o size s := .of_quiet (.refl s)
  unfold store
  dsimp only
  split
  · trivial
  next p hp =>
    refine within_ite trivial (within_ite trivial ?_)
    have hat : storedAt s (memAddr s a f size).toNat = if p.home = myDie s then some p else none := by
      rw [storedAt, hp]
      rfl
    have hlen : (bytesOfNat size (s.reg d.toNat).toNat).length = size := length_bytesOfNat _ _
    have stored := within_storePlace s p (bytesOfNat size (s.reg d.toNat).toNat) releases
    rwa [hlen, ← hat] at stored
  · refine within_ite trivial ?_
    split
    · exact .of_quiet (.setWclosed s _)
    · exact within_noPlace (unchanged _) _

theorem exec_store {i : Instr} {size : Nat} {a : B6} {f : BitVec 9} (h : storeForm i = some (size, a, f)) (s : State) :
    ∃ w g d releases, exec i s = tokened s .wing w g (fun s => store s d a f size releases) := by
  cases i
  case stb | sth | stw | std | stl =>
    cases h
    exact ⟨_, _, _, _, rfl⟩
  all_goals exact nomatch h

theorem storeFrame : Claims.StoreFrame := by
  intro i s t size a f hform hs hexec
  obtain ⟨w, g, d, releases, hi⟩ := exec_store hform s
  obtain ⟨u, hu, ht⟩ := tokened_within (within_store d a f size releases) (.of_quiet (.refl s)) (hi.symm.trans hexec)
  obtain ⟨touched, laid⟩ := hu.trans_quiet ht
  exact ⟨laid hs, touched.accessFrame, fun q => flowOnly_of_fixed (touched.parties.party q)⟩

/-! ## Atomics -/

theorem within_atomic (d a : B6) (o : B2) (f : Word → Option Word) :
    (atomic s d a o f).Within (Writes (Stored s (atomicAt s a) 8) d) := by
  have marked {o : Option Place} {v : State} (h : Quiet PartyState.fixed s v) : Stored s o 8 v := .of_quiet h
  unfold atomic
  dsimp only
  refine within_ite trivial ?_
  split
  · trivial
  next p hp =>
    have hat : atomicAt s a = some p := by rw [atomicAt, hp]
    rw [hat]
    refine within_ite trivial (within_ite trivial (within_ite (.of (marked (.refl s))) ?_))
    unfold readNow
    split
    next t bs hread =>
      have read : Quiet PartyState.fixed s t := .readPlace (fun _ _ _ => rfl) hread
      dsimp only
      split
      next u hu =>
        refine .setReg (Stored.trans_quiet ?_ (.ordered u _ _)) _ _
        split at hu
        · cases hu
          exact marked read
        · have written := Stored.of_performWrite hu
          obtain ⟨touched, laid⟩ := written
          rw [length_bytesOfNat] at laid
          exact ⟨read.toTouches.trans touched, fun hs => read.then_writesOnly (laid (by rw [read.mem]; exact hs))⟩
      next => exact .of (marked read)
    next t hread => exact .of (marked (.readPlace (fun _ _ _ => rfl) hread))
  · refine within_ite trivial ?_
    split
    · exact .setReg (marked (.setWclosed s _)) _ _
    · exact within_noPlace (.of (marked (.refl s))) _

theorem exec_atomic {i : Instr} {d a : B6} (h : atomicForm i = some (d, a)) (s : State) :
    ∃ (w g o : B2) (f : Word → Option Word) (body : State → Act),
      exec i s = tokened s .wing w g body ∧ body s = atomic s d a o f := by
  cases i
  case amoAdd | amoAnd | amoOr | amoXor | amoMin | amoMax | amoSwap | cas =>
    cases h
    exact ⟨_, _, _, _, _, by rfl, by rfl⟩
  all_goals exact nomatch h

theorem atomicFrame : Claims.AtomicFrame := by
  intro i s t d a hform hs hexec
  obtain ⟨w, g, o, f, body, hi, hbody⟩ := exec_atomic hform s
  obtain ⟨u, hu, ht⟩ := tokened_within (hbody ▸ within_atomic d a o f) (.of (.of_quiet (.refl s))) (hi.symm.trans hexec)
  obtain ⟨⟨v, ⟨-, laid⟩, hmem⟩, framed⟩ := hu.frame (fun v hv => hv.1) ht
  exact ⟨fun x hp he => by rw [hmem, laid hs x hp he], framed⟩

/-- Settles O15. -/
theorem wingMemoryFrames : Obligations.WingMemoryFrames := ⟨storeFrame, loadFrame, atomicFrame⟩

end Sys2Proof.Machine
end

section
/-! PROOFS. Collectives (O48): the statement fails of a state whose slots stand out of order, where two of them hold a task of one serial: a
message that is matched wrongly ends only one of the tasks (R244). -/

namespace Sys2Proof.Machine

namespace CrossedSlots

/-- A task of partition 0 with serial 7. -/
def task : Task where
  part := 0
  queue := 0
  launch := 0
  serial := 7
  prio := 0
  idx := []
  args := 0
  kernel := 0
  tensors := 0
  tcount := 0
  superstep := false
  hdr := default
  frames := []
  bound := false

/-- A CRECV in progress, whose record counts no element, from endpoint 0. -/
def receives : Coll where
  kind := 2
  record := []
  list := [0]
  rank := 0
  value := 0
  got := []
  answered := 0
  refused := false
  since := 0
  kept := false

/-- The collective queue that receives: of core 1, slot 1. -/
def receiver : PartyId := ⟨1, 1, .c⟩

/-- A message of one element for it, sent by a task of serial 7. -/
def message : Msg where
  src := 0
  dst := 0
  part := 0
  flag := false
  tag := 0
  kind := 1
  type := 0
  count := 1
  list := []
  fromRank := 0
  dfirst := 0
  bytes := []
  clock := []
  num := 1
  agent := some ⟨2, 1, .c⟩
  serial := 7
  since := 0

/-- Slot 1 of core 2, listed first, and slot 1 of core 1 hold tasks of serial 7; the message is under way to the second. -/
def state : State :=
  { State.reset with
    ctxs := [(5, { task := some task }), (3, { task := some task })]
    parties := [(partyKey receiver, { run := .running, busy := some (.coll receives, 0, 0) })]
    msgs := [message]
    cocoons := [] }

/-- What the arrival of the message leaves. -/
def arrived : State :=
  failSender (markDying (heardMsg { state with msgs := state.msgs.filter (fun h => decide (h ≠ message)) } message) 1 1 errCollective 0)
    message

theorem exec_arrival : exec (.collectiveMessageArrival 0) state = .next arrived := by rfl

theorem first_dying : (arrived.ctx 2 1).dying = none := by decide

end CrossedSlots

open CrossedSlots in
/-- Refutes O48. The statement is of every state, also of one whose list of slots is not in rising order (`put` makes none of a list that
is in order): there the mark of the receiver's slot moves it to the front, so that the sender's serial is then looked up to the receiver's
own slot, and the slot that it was looked up to before gets no mark. -/
theorem not_collectivesRun : ¬ Obligations.CollectivesRun := by
  rintro ⟨-, -, -, h⟩
  have hready : inOrder state message (some receiver) = true ∧ contextDone state message (some receiver) = true ∧
      settled state (message.dst % 16) = true ∧ receiverOf state message = some (receiver, receives, 0, 0) ∧
      goesOn state receiver = true := by decide
  obtain ⟨horder, hcontext, hsettled, hreceiver, hgo⟩ := hready
  obtain ⟨mismatch, -⟩ := h state 0 message receiver receives 0 0 rfl rfl rfl horder hcontext hsettled hreceiver rfl hgo
  obtain ⟨t, hexec, -, hsender, -⟩ := (mismatch (.inl (by decide))).1 (.inr (by decide))
  obtain rfl : arrived = t := Host.Outcome.next.inj (exec_arrival.symm.trans hexec)
  have dying := hsender _ 2 1 task rfl (by decide) (by decide)
  rw [first_dying] at dying
  cases dying

end Sys2Proof.Machine
end

section
/-! PROOFS. What reads and writes of tensors and of the scratchpad touch: the accesses of the copy engines (R193, R223–R227, R231). -/

namespace Sys2Proof.Machine

variable {α : Type} {f : PartyState → α} {s t : State}

/-! ## Reads -/

namespace Quiet

/-- An access of the part leaves no mark of tasks, and its own die's clock no trace. -/
theorem quietly (h : Quiet f s t) : Quiet f s (quietly s t) := by
  obtain ⟨⟨apart, -, part, hcur, hparty⟩, mem, parts⟩ := h
  exact ⟨⟨apart, fun _ _ => rfl, part, hcur, hparty⟩, mem, parts⟩

section
variable (hseen : ∀ x m n, f { x with view := { x.view with mark := m, seen := n } } = f x)
include hseen

theorem readScratch {core slot o n : Nat} {bs : List Byte} (h : readScratch s core slot o n = some (t, bs)) : Quiet f s t := by
  rw [Machine.readScratch] at h
  dsimp only at h
  split at h
  next u hu =>
    obtain ⟨rfl, -⟩ := Prod.mk.inj (Option.some.inj h)
    exact (checkWords hu).trans (sawBy hseen _ _ _ _ _)
  next => cases h

theorem partBytes {part : Nat} {rows : Bool} {fuel : Nat} {va n : Nat} {bs : List Byte}
    (h : partBytes s part rows fuel va n = .ok (t, bs)) : Quiet f s t := by
  induction fuel generalizing s va n bs with
  | zero =>
    unfold Machine.partBytes at h
    split at h
    · cases h
      exact refl _
    · cases h
  | succ fuel ih =>
    unfold Machine.partBytes at h
    dsimp only at h
    split at h
    · cases h
      exact refl _
    split at h
    · cases h
    split at h
    · split at h
      · cases h
      split at h
      next u bs hu =>
        split at h
        next v cs hv =>
          cases h
          exact (readSeen hseen hu).trans (ih hv)
        next => cases h
      next => cases h
    · split at h
      next u cs hu =>
        cases h
        exact ih hu
      next => cases h
    · cases h

theorem partRead {part va n : Nat} {bs : List Byte} (h : partRead s part va n = .ok (t, bs)) : Quiet f s t := by
  unfold Machine.partRead at h
  split at h
  next u cs hu =>
    cases h
    exact (partBytes hseen hu).quietly
  next => cases h

theorem readTensor {slot : Nat} {bs : List Byte} (h : readTensor s slot = .ok (t, bs)) : Quiet f s t := by
  unfold Machine.readTensor at h
  split at h
  · cases h
  split at h
  · cases h
  split at h
  next r hr =>
    cases h
    exact partRead hseen hr
  · cases h
  · cases h

theorem nameTensor {slot : Nat} {weak : Bool} {bs : List Byte} (h : nameTensor s slot weak = .ok (t, bs)) : Quiet f s t := by
  unfold Machine.nameTensor at h
  split at h
  · cases h
  next u cs hu =>
    have named : Quiet f s u := readTensor hseen hu
    dsimp only at h
    split at h
    · cases h
    split at h
    · cases h
      exact named
    split at h
    · cases h
    next v ds hv =>
      split at h
      · cases h
        exact named.trans (readTensor hseen hv)
      · cases h

theorem sideTensor {absent weak : Bool} {slot : Nat} {bs : List Byte} (h : sideTensor s absent slot weak = .ok (t, bs)) : Quiet f s t := by
  unfold Machine.sideTensor at h
  split at h
  · cases h
    exact refl _
  · exact nameTensor hseen h

theorem tileEntry {x : Tensor} {tile e : Nat} (h : tileEntry s x tile = .ok (t, e)) : Quiet f s t := by
  unfold Machine.tileEntry at h
  split at h
  next u bs hu =>
    cases h
    exact partRead hseen hu
  · cases h
  · cases h

theorem tilePlace {x : Tensor} {tile o : Nat} {p : Place} (h : tilePlace s x tile o = .ok (t, p)) : Quiet f s t := by
  unfold Machine.tilePlace at h
  split at h
  · cases h
  next u e hu =>
    have entered : Quiet f s u := tileEntry hseen hu
    dsimp only at h
    split at h
    · cases h
    split at h
    · split at h
      · cases h
        exact entered
      · cases h
    · split at h
      · cases h
        exact entered
      · cases h
    · cases h
      exact entered
    · split at h
      · cases h
        exact entered
      · cases h
    · cases h

theorem readTileBytes {x : Tensor} {tile o n : Nat} {bs : List Byte} (h : readTileBytes s x tile o n = .ok (t, bs)) : Quiet f s t := by
  unfold Machine.readTileBytes at h
  split at h
  · cases h
  next u p hu =>
    split at h
    · cases h
    split at h
    next v cs hv =>
      cases h
      exact (tilePlace hseen hu).trans (readPlace hseen hv)
    next => cases h

theorem readElement {x : Tensor} {c : List Int} {bs : List Byte} (h : readElement s x c = .ok (t, bs)) : Quiet f s t := by
  unfold Machine.readElement at h
  dsimp only at h
  split at h
  · cases h
    exact refl _
  · exact readTileBytes hseen h

theorem readGroup {x : Tensor} {c : List Int} {planes : Nat} {bs : List Byte} (h : readGroup s x c planes = .ok (t, bs)) : Quiet f s t := by
  unfold Machine.readGroup at h
  split at h
  · cases h
    exact refl _
  split at h
  · cases h
  next u cs hu =>
    cases h
    exact readTileBytes hseen hu

theorem readUnit {core slot : Nat} {c : Copy} {list : List Byte} {x : List Nat} {bs : List Byte}
    (h : readUnit s core slot c list x = .ok (t, bs)) : Quiet f s t := by
  unfold Machine.readUnit at h
  split at h
  · cases h
    exact refl _
  dsimp only at h
  split at h
  · split at h
    · exact readGroup hseen h
    · exact readElement hseen h
  · split at h
    · cases h
      exact refl _
    · split at h
      next u cs hu =>
        cases h
        exact readScratch hseen hu
      next => cases h

theorem readUnits {core slot : Nat} {c : Copy} {list : List Byte} {is : List Nat} {us : List (List Nat × List Byte)}
    (h : readUnits core slot c list is s = .ok (t, us)) : Quiet f s t := by
  induction is generalizing s us with
  | nil =>
    cases h
    exact refl _
  | cons i is ih =>
    unfold Machine.readUnits at h
    dsimp only at h
    split at h
    · cases h
    next u bs hu =>
      split at h
      next v rest hv =>
        cases h
        exact (readUnit hseen hu).trans (ih hv)
      next => cases h

theorem unitCells {x : Tensor} {c : List Int} {bs : List Byte} {cells : List (Nat × Byte)} (h : unitCells s x c bs = .ok (t, cells)) :
    Quiet f s t := by
  unfold Machine.unitCells at h
  split at h
  · cases h
    exact refl _
  split at h
  · cases h
  next u p hu =>
    have placed : Quiet f s u := tilePlace hseen hu
    split at h
    · cases h
    dsimp only at h
    split at h
    · cases h
      exact placed
    · cases h
      exact placed

theorem gather {x : Tensor} {us : List (List Int × List Byte)} {m n : Sparse Byte} (h : gather x us s m = .ok (t, n)) : Quiet f s t := by
  induction us generalizing s m with
  | nil =>
    cases h
    exact refl _
  | cons u us ih =>
    unfold Machine.gather at h
    split at h
    · cases h
    next v cells hv => exact (unitCells hseen hv).trans (ih h)

end

end Quiet

/-! ## Writes -/

theorem touches_mergeLines (key : Nat) (clock : Sparse Nat) (kept : List Nat) (runs : List (Nat × List Byte)) (s : State) :
    Touches f s (mergeLines s key clock kept runs).1 := by
  induction runs generalizing s with
  | nil => exact .refl s
  | cons r runs ih =>
    unfold mergeLines
    dsimp only
    have counted : Quiet f s (countAccess s s.myPart r.1 r.2.length) := .countAccess s _ _ _
    split
    next t ht => exact (counted.toTouches.trans (mergeBytes_touches ht).1).trans (ih t)
    next => exact counted.toTouches.trans (ih _)

section
variable (hview : ∀ x v, f { x with view := v } = f x)
include hview

theorem touches_writeLines (s : State) (key : Nat) (kept : List Nat) (runs : List (Nat × List Byte)) :
    Touches f s (writeLines s key kept runs).1 := by
  unfold writeLines
  split
  · exact .refl s
  · exact ((Quiet.tickClock s _).trans (.remember hview _ _ _ _ _)).toTouches.trans (touches_mergeLines _ _ _ _ _)

theorem touches_writeUnits {x : Tensor} {us : List (List Int × List Byte)} {dropped : Bool} (h : writeUnits s x us = .ok (t, dropped)) :
    Touches f s t := by
  unfold writeUnits at h
  split at h
  · cases h
  next u m hu =>
    have written := Except.ok.inj h
    have lines := touches_writeLines hview u x.key (us.flatMap (fun e => keptBytes u x e.1)) (lineRuns m)
    rw [written] at lines
    exact (Quiet.gather (fun _ _ _ => hview _ _) hu).toTouches.trans lines

theorem touches_writeCellsNow {core size : Nat} {cells : List (Nat × Byte)} (h : writeCellsNow s core size cells = some t) :
    Touches f s t := by
  unfold writeCellsNow at h
  dsimp only at h
  split at h
  next u hu =>
    cases h
    exact ((Quiet.checkWords hu).trans (.remember hview u _ _ _ _)).toTouches.trans (.of_same rfl rfl rfl rfl)
  next => cases h

theorem touches_putCells {core size : Nat} {cells : List (Nat × Byte)} (h : putCells s core size cells = some t) : Touches f s t := by
  unfold putCells at h
  split at h
  · exact touches_writeCellsNow hview h
  · obtain ⟨u, hu, rfl⟩ := Option.map_eq_some_iff.1 h
    exact (touches_writeCellsNow hview hu).trans (Quiet.modMe u fun _ => hview _ _).toTouches

/-- A chunk of a copy touches what its reads and its writes do. -/
theorem touches_moveChunk {c : Copy} {k : Nat} {dropped : Bool} (h : moveChunk s c k = .ok (t, dropped)) : Touches f s t := by
  have hseen (x : PartyState) (m : Nat) (n : Sparse Nat) : f { x with view := { x.view with mark := m, seen := n } } = f x := hview _ _
  unfold moveChunk at h
  dsimp only at h
  split at h
  · cases h
  next s1 list hs1 =>
    split at h
    · cases h
    next s2 vs hs2 =>
      have read : Quiet f s s2 := (Quiet.readScratch hseen hs1).trans (.readUnits hseen hs2)
      split at h
      · exact read.toTouches.trans (touches_writeUnits hview h)
      · split at h
        next u hu =>
          cases h
          exact read.toTouches.trans (touches_putCells hview hu)
        next => cases h

end

end Sys2Proof.Machine
end

section
/-! PROOFS. Copies (O44): how copy commands begin, what their chunks come to, and XCRC and XREF (R231–R241). -/

namespace Sys2Proof.Machine

variable {s t : State}

/-! ## The checks at issue (R230–R233) -/

/-- The reads of a copy's checks are quiet. -/
theorem quiet_copyOrder {α : Type} {f : PartyState → α} (hseen : ∀ x m n, f { x with view := { x.view with mark := m, seen := n } } = f x)
    {op : Nat} {a b : B5} {cmd : CopyCmd} (h : copyOrder s op a b t cmd) : Quiet f s t := by
  obtain ⟨-, -, -, -, -, s0, r, s1, src, s2, dst, list, h0, -, h1, h2, -, -, -, h3, -⟩ := h
  exact (Quiet.readScratch hseen h0).trans ((Quiet.sideTensor hseen h1).trans ((Quiet.sideTensor hseen h2).trans (.readScratch hseen h3)))

theorem scratchLate_of_quiet (h : Quiet (fun x => x.view.late) s t) : scratchLate t t.cur = scratchLate s s.cur :=
  congrArg (fun l => l.any LateStore.inScratchpad) h.parties.me

/-- A copy that passes every check begins. -/
theorem checkCopy_ordered {op : Nat} {a b : B5} {cmd : CopyCmd} (h : copyOrder s op a b t cmd) (k : State → CopyCmd → Act) :
    checkCopy s op a b k = k t cmd := by
  obtain ⟨hforeign, hset, hal, hin, hlate, s0, r, s1, src, s2, dst, list, h0, hrec, h1, h2, hcmd, htypes, hplaces, h3, hdst⟩ := h
  have hscratch : inScratch s.cur.core (s.reg a.toNat).toNat 208 = true := decide_eq_true hin
  have hseen (x : PartyState) (m : Nat) (n : Sparse Nat) : { x.view with mark := m, seen := n }.late = x.view.late := rfl
  have quiet : Quiet (fun x => x.view.late) s s2 :=
    (Quiet.readScratch hseen h0).trans ((Quiet.sideTensor hseen h1).trans (.sideTensor hseen h2))
  have hlate2 : scratchLate s2 s2.cur = false := (scratchLate_of_quiet quiet).trans hlate
  simp only [checkCopy, afterPrivilege, hforeign, hal, hscratch, hset, withScratch_read _ hlate h0, hrec, h1, h2, ← hcmd, htypes, hplaces,
    withScratch_read _ hlate2 h3, Bool.false_eq_true, if_false, ne_eq, not_true_eq_false, Bool.not_true, Bool.and_self]
  split
  next x hx => rw [hdst x hx]
  next => rfl

/-! ## Words that are ready -/

theorem completes_of_ready {k : Kind} {w g : B2} {i : Instr} {body : State → Act} {r : State} (hrdy : Ready s k w g)
    (hbody : body s = .done r 1) (hexec : exec i s = tokened s k w g body) : completes i s w g r := by
  rw [completes, hexec, tokened_ready hrdy, hbody, conclude_done (signalWaits_ready hrdy)]

/-! ## How a copy begins -/

/-- A log entry changes the slot of its party alone (R356). -/
theorem logCopy_spec (s : State) (c : CopyCmd) (o n : Nat) : ∃ xs, logCopy s c o n = { s with ctxs := xs } := by
  refine List.foldlRecOn (motive := fun t : State => ∃ xs, t = { s with ctxs := xs }) _ _ ⟨_, rfl⟩ fun t ht i _ => ?_
  obtain ⟨xs, rfl⟩ := ht
  dsimp only
  split
  · exact ⟨_, rfl⟩
  · exact ⟨_, rfl⟩

/-- A command that has issued is in progress; of its party that changes the tokens and what orders its accesses. -/
theorem issued_spec (t : State) (w g : B2) (c : Cmd) :
    let u := ((orderPoint t t.cur).modMe (fun x => { startPop x w with busy := some (c, w, g) })).setLast .waiting
    u.me.busy = some (c, w, g) ∧ u.me.xstat = t.me.xstat ∧ u.me.xprog = t.me.xprog ∧ u.me.pc = t.me.pc := by
  dsimp only
  have ordered : Keeps (fun x => (x.xstat, x.xprog, x.pc)) t (orderPoint t t.cur) := .orderPoint (fun _ _ => rfl) t t.cur
  obtain ⟨hxstat, hrest⟩ := Prod.mk.inj ordered.me
  obtain ⟨hxprog, hpc⟩ := Prod.mk.inj hrest
  have popped := (startPop_spec (orderPoint t t.cur).me w).1
  rw [State.me_setLast, State.me_modMe, popped]
  exact ⟨rfl, hxstat, hxprog, hpc⟩

section
variable {w g : B2} {a b : B5} {cmd : CopyCmd}

/-- A command whose record is not aligned traps (R231). -/
theorem unaligned_traps {op : Nat} {k : State → CopyCmd → Act} (hrdy : Ready s .copy w g) {i : Instr}
    (hexec : exec i s = tokened s .copy w g (fun s => checkCopy s op a b k)) (hal : (s.reg a.toNat).toNat % 16 ≠ 0) :
    exec i s = .next (takeTrap s s.cur 4 (s.reg a.toNat)) := by
  have hforeign : copyForeign s op a b = false := by simp [copyForeign, hal]
  have traps : checkCopy s op a b k = .trap causeAlignment (word (s.reg a.toNat).toNat) := by
    rw [checkCopy, hforeign, afterPrivilege, if_neg Bool.false_ne_true, if_pos hal]
  rw [hexec, tokened_ready hrdy, traps, conclude_trap]
  rw [word, BitVec.ofNat_toNat, BitVec.setWidth_eq]
  rfl

/-- What a copy's state is as its command issues: no chunk is done, and where it writes the scratchpad logs hold it (R237, R356). -/
def copyIssued (t : State) (cmd : CopyCmd) : State :=
  let u := t.modMe (fun x => { x with xstat := 0, xprog := 0 })
  match (copyOf cmd).dst with
  | none => logCopy u cmd ((copyOf cmd).dstOrg.headD 0).toNat ((copyOf cmd).count * (copyOf cmd).image)
  | some _ => u

theorem issueCopy_eq (s : State) (op : Nat) (a b : B5) :
    issueCopy s op a b = checkCopy s op a b (fun t cmd => .issued (copyIssued t cmd) (.copy cmd)) := rfl

theorem copyIssued_spec (t : State) (cmd : CopyCmd) :
    ∃ xs, copyIssued t cmd = { t.modMe (fun x => { x with xstat := 0, xprog := 0 }) with ctxs := xs } := by
  unfold copyIssued
  dsimp only
  split
  · exact logCopy_spec _ _ _ _
  · exact ⟨_, rfl⟩

/-- A copy that runs in chunks begins. -/
theorem copy_begins {op : Nat} (hrdy : Ready s .copy w g) {i : Instr} (hexec : exec i s = tokened s .copy w g (fun s => issueCopy s op a b))
    (h : copyOrder s op a b t cmd) : ∃ u, exec i s = .next u ∧ u.last = .waiting ∧ u.me.busy = some (.copy cmd, w, g) ∧ u.me.xstat = 0 ∧
      u.me.xprog = 0 ∧ u.me.pc = s.me.pc ∧ u.mem = s.mem := by
  have quiet : Quiet PartyState.pc s t := quiet_copyOrder (fun _ _ _ => rfl) h
  obtain ⟨xs, hissued⟩ := copyIssued_spec t cmd
  have hme : (copyIssued t cmd).me = { t.me with xstat := 0, xprog := 0 } := by
    rw [hissued]
    exact State.me_modMe t (fun x => { x with xstat := 0, xprog := 0 })
  obtain ⟨hbusy, hxstat, hxprog, hpc⟩ := issued_spec (copyIssued t cmd) w g (.copy cmd)
  rw [hme] at hxstat hxprog hpc
  refine ⟨_, ?_, rfl, hbusy, hxstat, hxprog, hpc.trans quiet.parties.me, ?_⟩
  · rw [hexec, tokened_ready hrdy, issueCopy_eq, checkCopy_ordered h, conclude_issued]
  · rw [← quiet.mem]
    exact (congrArg (·.mem) hissued).trans rfl

end

theorem copiesBegin : Claims.CopiesBegin := by
  intro s t w g a b f cmd hrdy begins
  have begin_ {i : Instr} {op : Nat} (hexec : exec i s = tokened s .copy w g (fun s => issueCopy s op a b)) : begins i op :=
    ⟨copy_begins hrdy hexec, unaligned_traps hrdy hexec⟩
  refine ⟨begin_ rfl, begin_ rfl, begin_ rfl, begin_ rfl, fun h => ?_⟩
  have quiet : Quiet PartyState.pc s t := quiet_copyOrder (fun _ _ _ => rfl) h
  obtain ⟨hbusy, -, -, hpc⟩ := issued_spec t w g (.feed cmd (decide (f = 1)) 0)
  refine ⟨_, ?_, rfl, hbusy, hpc.trans quiet.parties.me, quiet.mem⟩
  have hexec : exec (.xfeed w g a b f) s =
      tokened s .copy w g (fun s => checkCopy s 5 a b (fun s cmd => .issued s (.feed cmd (decide (f = 1)) 0))) := rfl
  rw [hexec, tokened_ready hrdy, checkCopy_ordered h, conclude_issued]

/-! ## Chunks (R228, R234) -/

theorem quiet_readWeak {α : Type} {f : PartyState → α} (s : State) (c : Copy) : Quiet f s (readWeak s c) := by
  unfold readWeak readLife
  split
  · split
    · split
      · exact .ite (.refl s) (.modDie s _ _)
      · exact .refl s
    · exact .refl s
  · exact .refl s

/-- A chunk of a copy that may move is a step of its party's command. -/
theorem exec_chunk {p : PartyId} {cmd : CopyCmd} {w g : B2} (hbusy : (s.party p).busy = some (.copy cmd, w, g)) (hgo : goesOn s p = true)
    (hhalt : (s.ctx p.core p.slot).halting = false) (hset : settled s (dieOf p.core) = true) :
    exec (.copyChunkComplete p) s = asParty s p (fun s => conclude s w g (chunkStep s cmd)) := by
  change execCopyChunkComplete p s = _
  simp only [execCopyChunkComplete, hbusy, hgo, hhalt, hset, Bool.not_false, Bool.and_self, if_true]

theorem signalWaits_of_busy {g : B2} {c : Cmd × B2 × B2} (h : s.me.busy = some c) : signalWaits s g = false := by
  rw [signalWaits, h]
  rfl

/-- A copy that has moved a chunk (R237). -/
def progressed (t : State) : State := t.modMe (fun x => { x with xprog := x.xprog + 1 })

theorem copyChunksComplete : Claims.CopyChunksComplete := by
  intro s p cmd w g hbusy hgo hhalt hset c s1 done then_
  have hexec := exec_chunk hbusy hgo hhalt hset
  have hwaits : signalWaits (s.setCur p) g = false := signalWaits_of_busy hbusy
  have weak : Quiet (fun x => (x.busy, x.xprog)) (s.setCur p) s1 := quiet_readWeak _ c
  have retires {u : State} (h : chunkStep (s.setCur p) cmd = .done u 1) : then_ u := by
    refine hexec.trans ?_
    rw [asParty, h, conclude_done hwaits]
  have hdone : s1.me.xprog.toNat = done := congrArg (fun x => x.2.toNat) weak.parties.me
  refine ⟨fun hgone => retires ?_, fun t hlive hmove hlt => ?_⟩
  · rw [chunkStep]
    exact if_pos hgone
  have moved : Touches (fun x => (x.busy, x.xprog)) s1 t := touches_moveChunk (fun _ _ => rfl) hmove
  have kept := weak.parties.trans moved.parties
  have hcur : t.cur = p := kept.cur
  obtain ⟨hkeeps, hprog⟩ := Prod.mk.inj kept.me
  have hnext : (progressed t).me.xprog.toNat = done + 1 := by
    rw [progressed, State.me_modMe, hprog, BitVec.toNat_add]
    exact Nat.mod_eq_of_lt hlt
  have step : chunkStep (s.setCur p) cmd = if c.chunks ≤ done + 1 then .done (progressed t) 1 else .wait (progressed t) := by
    rw [chunkStep]
    dsimp only
    rw [if_neg (by rw [hlive]; exact Bool.false_ne_true), hdone, hmove, ← hnext]
    rfl
  refine ⟨fun hlast => retires (step.trans (if_pos hlast)), fun hmore => ?_⟩
  have hwait : chunkStep (s.setCur p) cmd = .wait (progressed t) := step.trans (if_neg (by omega))
  have hparty : (progressed t).party p = (progressed t).me := congrArg (progressed t).party hcur.symm
  refine ⟨((progressed t).setLast .waiting).setCur s.cur, hexec.trans ?_, rfl, (congrArg (·.xprog.toNat) hparty).trans hnext, ?_, rfl⟩
  · rw [asParty, hwait]
    rfl
  · refine (congrArg (·.busy) hparty).trans ?_
    rw [progressed, State.me_modMe]
    exact hkeeps

/-! ## XCRC and XREF (R238, R241) -/

theorem xcrc_completes {w g : B2} {d a b : B5} {bs : List Byte} (hrdy : Ready s .copy w g)
    (hin : inScratch s.cur.core (s.reg a.toNat).toNat (s.reg b.toNat).toNat = true) (hlate : scratchLate s s.cur = false)
    (hread : readScratch s s.cur.core s.cur.slot (s.reg a.toNat).toNat (s.reg b.toNat).toNat = some (t, bs)) :
    completes (.xcrc w g d a b) s w g (t.setReg d.toNat (crc64 bs) false) := by
  have reads := withScratch_read (fun t bs => .done (t.setReg d.toNat (crc64 bs) false) 1) hlate hread
  refine completes_of_ready hrdy (body := fun s =>
    if !inScratch s.cur.core (s.reg a.toNat).toNat (s.reg b.toNat).toNat then badOperand s
    else withScratch s (s.reg a.toNat).toNat (s.reg b.toNat).toNat (fun t bs => .done (t.setReg d.toNat (crc64 bs) false) 1)) ?_ rfl
  exact (if_neg (by rw [hin]; exact Bool.false_ne_true)).trans reads

/-- The time to the next refresh of the bank of a byte of the weight store (R239). -/
def nextRefresh (s : State) (o : Nat) : Nat := (40 * (o / 4096 % 96) + 4000 - s.time % 4000) % 4000

/-- What XREF does for a byte of the weight store whose bank is not in refresh: it waits where the bank is not free for as long as asked. -/
theorem exec_xref {w g : B2} {d a b : B5} (hrdy : Ready s .copy w g) (ho : (s.reg a.toNat).toNat < 402653184)
    (hn : (s.reg b.toNat).toNat ≤ 3939) (hfree : inRefresh s (s.reg a.toNat).toNat = false) :
    exec (.xref w g d a b) s = conclude s w g (if nextRefresh s (s.reg a.toNat).toNat < (s.reg b.toNat).toNat then .wait s
      else .done (s.setReg d.toNat (word (nextRefresh s (s.reg a.toNat).toNat)) false) 1) := by
  have legal : ¬(384 * 2 ^ 20 ≤ (s.reg a.toNat).toNat ∨ 3939 < (s.reg b.toNat).toNat) := by omega
  change execXref w g d a b s = _
  rw [execXref, tokened_ready hrdy]
  refine congrArg (conclude s w g) ((if_neg legal).trans (if_congr ?_ rfl rfl))
  rw [hfree, Bool.false_or, decide_eq_true_iff]
  rfl

theorem checksumsAndRefreshTimes : Claims.ChecksumsAndRefreshTimes := by
  intro s w g d a b hrdy o n
  refine ⟨fun t bs hin hlate hread => ?_, ?_⟩
  · obtain ⟨hmem, -, hbytes⟩ := readScratch_spec hread
    exact ⟨xcrc_completes hrdy (decide_eq_true hin) hlate hread, hmem, hbytes⟩
  · intro next ho hn hfree
    have acts := exec_xref (d := d) hrdy ho hn hfree
    refine ⟨fun hle => ?_, fun hlt => ?_⟩
    · rw [if_neg (show ¬nextRefresh s o < n from Nat.not_lt.2 hle), conclude_done (signalWaits_ready hrdy)] at acts
      exact acts
    · rw [if_pos (show nextRefresh s o < n from hlt)] at acts
      exact acts

/-- Settles O44. -/
theorem copiesRun : Obligations.CopiesRun := ⟨copiesBegin, copyChunksComplete, checksumsAndRefreshTimes⟩

end Sys2Proof.Machine
end

section
/-! PROOFS. A chunk within the scratchpad (O45): what its reads give and its write leaves, in the present (R231, R234). -/

namespace Sys2Proof.Machine

variable {s t : State}

/-! ## A one-dimensional copy of bytes within the scratchpad -/

/-- A copy of `m` bytes of the scratchpad from offset `from_` to offset `to_`. -/
structure ByteCopy (c : Copy) (m from_ to_ : Nat) : Prop where
  op : c.op = 1
  src : c.src = none
  dst : c.dst = none
  n : c.n = 1
  box : c.box = [m]
  type : c.type = 6
  srcOrg : c.srcOrg.headD 0 = from_
  dstOrg : c.dstOrg.headD 0 = to_

namespace ByteCopy

variable {c : Copy} {m from_ to_ : Nat}

theorem unit (h : ByteCopy c m from_ to_) : c.unit = 1 := by
  rw [Copy.unit, h.type]
  rfl

theorem image (h : ByteCopy c m from_ to_) : c.image = 1 := by
  rw [Copy.image, h.type]
  rfl

theorem dstUnit (h : ByteCopy c m from_ to_) : c.dstUnit = 1 := by
  rw [Copy.dstUnit, h.dst]
  exact h.image

theorem units (h : ByteCopy c m from_ to_) : c.units = [m] := by
  rw [Copy.units, h.type, h.box]
  rfl

theorem count (h : ByteCopy c m from_ to_) : c.count = m := by
  rw [Copy.count, h.units]
  exact Nat.one_mul m

theorem index_none (h : ByteCopy c m from_ to_) {op : Nat} (hop : 1 ≠ op) (list : List Byte) (x : List Nat) : c.index op list x = none := by
  rw [Copy.index, h.op]
  exact if_neg hop

theorem dense_eq (h : ByteCopy c m from_ to_) (i : Nat) : c.dense [i] none = some i := by
  rw [Copy.dense, h.units]
  have hdense : denseOf [m] [i] = i + m * 0 := rfl
  exact congrArg some (hdense.trans (by rw [Nat.mul_zero, Nat.add_zero]))

theorem pointOf_eq (h : ByteCopy c m from_ to_) {i : Nat} (hi : i < m) : pointOf c.units i = [i] := by
  rw [h.units, pointOf, Nat.mod_eq_of_lt hi]
  rfl

end ByteCopy

/-! ## What the reads give -/

/-- The places of a scratchpad do not change as it is read and written. -/
theorem Touches.scratchPhys {α : Type} {f : PartyState → α} (h : Touches f s t) (core slot o : Nat) :
    scratchPhys t core slot o = scratchPhys s core slot o := by
  have htask : (t.ctx core slot).task = (s.ctx core slot).task := congrArg (·.1) (h.ctx core slot)
  rw [Machine.scratchPhys, htask]
  rfl

/-- The byte that stands at an offset of a window. -/
def scratchByte (s : State) (core slot o : Nat) : Byte := readByte s.mem (scratchPhys s core slot o)

theorem Quiet.scratchByte {α : Type} {f : PartyState → α} (h : Quiet f s t) (core slot o : Nat) :
    scratchByte t core slot o = scratchByte s core slot o := by
  rw [Machine.scratchByte, h.mem, h.scratchPhys]
  rfl

/-- Nothing that a read changes of a party is how far behind the present its accesses go. -/
theorem lag_seen (x : PartyState) (m : Nat) (n : Sparse Nat) : { x with view := { x.view with mark := m, seen := n } }.view.lag = x.view.lag :=
  rfl

/-- A unit of a copy of bytes is the byte at its place. -/
theorem readUnit_byte {c : Copy} {m from_ to_ core slot i : Nat} {list bs : List Byte} (hc : ByteCopy c m from_ to_)
    (hlag : s.me.view.lag = 0) (h : readUnit s core slot c list [i] = .ok (t, bs)) : bs = [scratchByte s core slot (from_ + i)] := by
  have hop : ¬c.op = 2 := by rw [hc.op]; decide
  simp only [readUnit, hop, if_false, hc.src, hc.index_none (by decide : 1 ≠ 3), hc.dense_eq, hc.image, hc.srcOrg, Int.toNat_natCast,
    Nat.mul_one] at h
  split at h
  next u cs hu =>
    obtain ⟨-, -, hbytes⟩ := readScratch_spec hu
    cases h
    rw [Copy.widen, hbytes hlag, hc.unit]
    rfl
  next => cases h

/-- The units of a copy of bytes are the bytes that stood at their places before any of them was read. -/
theorem readUnits_bytes {c : Copy} {m from_ to_ core slot : Nat} {list : List Byte} {is : List Nat} {us : List (List Nat × List Byte)}
    (hc : ByteCopy c m from_ to_) (his : ∀ i ∈ is, i < m) (hlag : s.me.view.lag = 0) (h : readUnits core slot c list is s = .ok (t, us)) :
    us = is.map (fun i => ([i], [scratchByte s core slot (from_ + i)])) := by
  induction is generalizing s us with
  | nil =>
    cases h
    rfl
  | cons i is ih =>
    obtain ⟨hi, his⟩ := List.forall_mem_cons.1 his
    unfold readUnits at h
    dsimp only at h
    rw [hc.pointOf_eq hi] at h
    split at h
    · cases h
    next u bs hu =>
      have read : Quiet (fun x => x.view.lag) s u := .readUnit lag_seen hu
      split at h
      next v rest hv =>
        cases h
        rw [readUnit_byte hc hlag hu, ih his (read.parties.me.trans hlag) hv, List.map_cons]
        simp only [read.scratchByte]
      next => cases h

/-! ## What the write leaves -/

theorem put_of_lt {α : Type} {l : Sparse α} {k : Nat} (h : ∀ e ∈ l, e.1 < k) (v : α) : put l k v = l ++ [(k, v)] := by
  induction l with
  | nil => rfl
  | cons e l ih =>
    obtain ⟨he, hl⟩ := List.forall_mem_cons.1 h
    rw [put, if_neg (by omega), if_neg (by omega), ih hl]
    rfl

/-- Entries of rising keys put one after another stand as they came. -/
theorem foldl_put_range {α : Type} (o : Nat) (g : Nat → α) (n : Nat) :
    ((List.range n).map (fun i => (o + i, g i))).foldl (fun l e => put l e.1 e.2) [] = (List.range n).map (fun i => (o + i, g i)) := by
  induction n with
  | zero => rfl
  | succ n ih =>
    rw [List.range_succ, List.map_append, List.foldl_append, ih]
    refine put_of_lt (fun e he => ?_) _
    obtain ⟨i, hi, rfl⟩ := List.mem_map.1 he
    exact Nat.add_lt_add_left (List.mem_range.1 hi) o

theorem zip_range_map {α : Type} (g : Nat → α) (n : Nat) :
    (List.range n).zip ((List.range n).map g) = (List.range n).map (fun i => (i, g i)) := by
  have hid : (List.range n).map (fun i => i) = List.range n := List.map_id' _
  exact (congrArg (fun l => l.zip ((List.range n).map g)) hid.symm).trans List.zip_map'

/-- The bytes of a copy of bytes go to the offsets that follow each other from its destination's. -/
theorem scratchCells_bytes {c : Copy} {m from_ to_ : Nat} (hc : ByteCopy c m from_ to_) (list : List Byte) (g : Nat → Byte) :
    c.scratchCells list 0 m ((List.range m).map (fun i => ([i], [g i]))) = (List.range m).map (fun i => (to_ + i, g i)) := by
  have hlen : ((List.range m).map (fun i => (([i], [g i]) : List Nat × List Byte))).length = m := by simp
  rw [Copy.scratchCells, hlen, zip_range_map, List.flatMap_map, List.map_eq_flatMap]
  refine List.flatMap_congr fun i hi => ?_
  have hlt : i < m := List.mem_range.1 hi
  simp only [hc.index_none (by decide : 1 ≠ 4), hc.dense_eq, hc.image, hc.dstOrg]
  simp [hlt]

theorem mem_writeCellsNow {core size : Nat} {cells : List (Nat × Byte)} (h : writeCellsNow s core size cells = some t) :
    t.mem = writeAt s.mem (cells.map (·.1)) (cells.map (·.2)) := by
  unfold writeCellsNow at h
  dsimp only at h
  split at h
  next u hu =>
    cases h
    have checked : Quiet (fun _ => ()) s u := .checkWords hu
    rw [← checked.mem, ← mem_remember u]
  next => cases h

/-- Bytes written one after another to a window in the present. -/
theorem mem_writeCellsAt {o n : Nat} {g : Nat → Byte} (hlag : s.me.view.lag = 0)
    (h : writeCellsAt s ((List.range n).map (fun i => (o + i, g i))) = some t) :
    t.mem = writeAt s.mem (scratchBytes s s.cur.core s.cur.slot o n) ((List.range n).map g) := by
  rw [writeCellsAt, foldl_put_range, writeSome, putCells, if_pos (.inl hlag)] at h
  rw [mem_writeCellsNow h, List.map_map, List.map_map, List.map_map, List.map_map]
  rfl

/-! ## The statement -/

/-- The units of the one chunk of a copy of at most 65,536 bytes. -/
theorem moveChunk_bytes {c : Copy} {m from_ to_ : Nat} {dropped : Bool} (hc : ByteCopy c m from_ to_) (hm : m ≤ 65536)
    (hlag : s.me.view.lag = 0) (h : moveChunk s c 0 = .ok (t, dropped)) :
    t.mem = writeAt s.mem (scratchBytes s s.cur.core s.cur.slot to_ m)
      ((List.range m).map (fun i => scratchByte s s.cur.core s.cur.slot (from_ + i))) := by
  have hunits : (List.range ((m + 1 - 1) / 1 - 0 / 1)).map (fun i => 0 / 1 + i) = List.range m := by simp
  simp only [moveChunk, hc.dstUnit, hc.count, hc.dst, Nat.mul_zero, Nat.zero_add, Nat.mul_one, Nat.min_eq_right hm, hunits] at h
  split at h
  · cases h
  next s1 list hs1 =>
    have first : Quiet (fun x => x.view.lag) s s1 := .readScratch lag_seen hs1
    split at h
    · cases h
    next s2 us hs2 =>
      have read : Quiet (fun x => x.view.lag) s s2 := first.trans (.readUnits lag_seen hs2)
      obtain rfl := readUnits_bytes hc (fun i hi => List.mem_range.1 hi) (first.parties.me.trans hlag) hs2
      rw [scratchCells_bytes hc] at h
      split at h
      next s3 hs3 =>
        cases h
        rw [mem_writeCellsAt (read.parties.me.trans hlag) hs3, read.mem, read.parties.cur]
        simp only [first.scratchByte, scratchBytes, read.scratchPhys]
      next => cases h

/-- Settles O45. -/
theorem overlappingCopiesMoveBytes : Obligations.OverlappingCopiesMoveBytes := by
  intro s t m from_ to_ c hs hlag hpos hm hfrom hto hop hsrc hdst hn hbox htype hsorg hdorg hmove place
  have hmem := moveChunk_bytes ⟨hop, hsrc, hdst, hn, hbox, htype, hsorg, hdorg⟩ hm hlag hmove
  have hnodup := scratchBytes_nodup s (slot := s.cur.slot) hto
  refine ⟨fun i hi => ?_, fun x hx => ?_⟩
  · have hback := map_readByte_writeAt (bs := (List.range m).map (fun i => scratchByte s s.cur.core s.cur.slot (from_ + i))) hs hnodup
      (by simp [scratchBytes])
    rw [← hmem, scratchBytes, List.map_map] at hback
    exact List.map_inj_left.1 hback i (List.mem_range.2 hi)
  · rw [hmem]
    refine readByte_writeAt_outside _ hs fun hin => ?_
    obtain ⟨i, hi, rfl⟩ := List.mem_map.1 hin
    exact hx i (List.mem_range.1 hi) rfl

end Sys2Proof.Machine
end
